-- ==== Sys2Proof/Word.lean ====
section
/-! DEFINITION. The word types of the YD960 model (R5, R6) and the sparse table that every array of like things is kept in. -/

namespace Sys2Proof

/-- One byte of memory, of a slot or of a record. -/
abbrev Byte := BitVec 8

/-- A 32-bit register (R6), an FP32 value or a 4-byte field. -/
abbrev Word := BitVec 32

/-- A 64-bit field, parameter word or counter. -/
abbrev Dword := BitVec 64

/-- A sparse array: key and value pairs, keys strictly rising, no pair holding the default value
of the array (Machine/Tab.lean holds its operations, Laws/Tab.lean proves that they keep this form). -/
abbrev Tab (α : Type) := List (Nat × α)

/-- Bytes by address in the same canonical form, an unlisted address reading as 0. -/
abbrev Mem := List (Nat × Byte)

end Sys2Proof
end

