-- ==== Sys2Proof/Types.lean ====
section
/-! DEFINITION. The data that commands carry: command references, flits, packets, frames, discovery records and the
outcomes of physical processes (training, self-test, sensors) that reach the block from outside. -/

namespace Sys2Proof

/-- The number of a context, 0–4095 (R279). -/
abbrev CtxId := BitVec 12

/-- An accepted host command, named by its context and the host's tag (R283). -/
structure CmdRef where
  ctx : CtxId
  tag : Dword
deriving DecidableEq, Repr

/-- The tile ports (R101): 0 N, 1 E, 2 S, 3 W, 4 X. -/
inductive Port where
  | n | e | s | w | x
deriving DecidableEq, Repr

/-- A tile of a physical die: column 0–15, row 0–19 (R10). -/
structure TileRef where
  die : Fin 74
  col : Fin 16
  row : Fin 20
deriving DecidableEq, Repr

/-- A flit (R41): the kind field and argument of its sideband (Table 2.3) and its payload. -/
structure Flit where
  kind : BitVec 3
  arg : BitVec 10
  payload : BitVec 512
deriving DecidableEq, Repr

/-- What a failed DMA was for (R288): a host buffer names its command and what it had moved. -/
inductive DmaPurpose where
  | hostBuffer (c : CmdRef) (moved : List Byte)
  | slotFetch (ctx : CtxId) (q : Fin 8)
  | completionWrite (ctx : CtxId) (q : Fin 8)
  | tokenWrite (ctx : CtxId)
deriving DecidableEq, Repr

/-- Where a register write is addressed: the control register space (R61 and the block base tables), or a function's BAR0 (R300). -/
inductive RegSpace where
  | ctl (addr : BitVec 32)
  | bar0 (fn : BitVec 8) (offset : BitVec 16)
deriving DecidableEq, Repr

/-- The four virtual networks of the system network (R17). -/
inductive VNet where
  | ctrl | req | data | tun
deriving DecidableEq, Repr

/-- A destination of a system-network packet (R18): one logical array die, a rectangle of array dies (DATA only), or a periphery die. -/
inductive NetDest where
  | array (die : Fin 72)
  | rect (x0 y0 w h : Nat)
  | periphery (code : BitVec 8)
deriving DecidableEq, Repr

/-- What a packet carries (R17): a step's work list or tokens from CD0 on CTRL; a request for a block of a stream or for an embedding row on REQ;
flits for a stream port, data for a mover, or an embedding row on DATA; a flit of a tunnelled interface on TUN; other bytes. -/
inductive PacketBody where
  | raw (data : List Byte)
  | workList (epoch : Nat) (last : Bool) (data : List Byte)
  | notice (flits : List Flit)
  | readReq (stream : Nat)
  | rowReq (entry row : Nat)
  | portFlits (stream : Option Nat) (port vq : Nat) (flits : List Flit)
  | moverData (stream : Nat) (data : List Byte)
  | rowData (entry row : Nat) (data : List Byte)
  | tunnelled (col row port vq : Nat) (flit : Flit)
deriving DecidableEq, Repr

/-- A system-network packet (R17–R19, R160): source die code, destination, the router where it leaves the grid for a periphery die, context or
firmware bit, and what it carries. -/
structure Packet where
  vnet : VNet
  src : BitVec 8
  dest : NetDest
  exit : Nat
  ctx : CtxId
  fw : Bool
  body : PacketBody
deriving DecidableEq, Repr

/-- Payload bytes of a packet: 64 for each flit, and at least 64 (R17). -/
def PacketBody.bytes : PacketBody → Nat
  | .raw d => max 64 d.length
  | .notice fs => max 64 (64 * fs.length)
  | .portFlits _ _ _ fs => max 64 (64 * fs.length)
  | .moverData _ d => max 64 d.length
  | .workList _ _ d => max 64 d.length
  | .rowData _ _ d => max 64 d.length
  | _ => 64

/-- A request that reaches a port die or a far die (R160). -/
structure TierReq where
  ctx : CtxId
  fw : Bool
  addr : BitVec 42
  write : Bool
  data : List Byte
  len : Nat
deriving DecidableEq, Repr

/-- What a read of one unit meets (R170, R175, R181): from GDDR7 the unit after so many CRC mismatches, with the bytes of its 68 (64 of data and
4 of check, R170) that come back wrong and whether the device reports an on-die ECC correction (Table 6.1); a poisoned CXL read; or an error of the
SRAM that the access passes (Table 14.3). -/
inductive MediaOutcome where
  | unit (crcRetries : Nat) (onDie : Bool) (bad : List (Fin 68))
  | poison
  | sramCorrected
  | sramUncorrectable
deriving DecidableEq, Repr

/-- The outcome of training one GDDR7 device (R172): the rates it passes (bit r for rate code r), whether step 1 failed, and the last
step failed at the lowest rate tried. -/
structure NearTrain where
  passes : BitVec 5
  identOk : Bool
  failStep : BitVec 3
  retrainOk : Bool
deriving DecidableEq, Repr

/-- What a CXL port found at training (R179, Table 6.5). -/
structure FarTrain where
  present : Bool
  memDevice : Bool
  direct : Bool
  lanes : Nat
  rateGt : Nat
  capacity : Nat
  hdmOk : Bool
deriving DecidableEq, Repr

/-- One sampled outcome of a work-list row at the step's end (R337): the tokens it yields in position order
(one for a decode row; the kept tokens of R250 for a verify row), the proposals accepted, the proposals a draft step makes with
their probabilities, and whether the sampler found no candidate (R190, 4). -/
structure RowOutcome where
  row : Nat
  tokens : List Word
  accepted : Nat
  proposals : List (Word × Word)
  exited : Bool
deriving DecidableEq, Repr

/-- A row that a die counted in a step of an embedding table (R269). -/
structure HotReport where
  die : Fin 72
  entry : Nat
  row : Nat
  count : Nat
deriving DecidableEq, Repr

/-- The exchange header of Table 9.3. -/
structure ExchangeHdr where
  stepEpoch : Dword
  layer : BitVec 16
  phase : BitVec 8
  expert : BitVec 8
  sourceDie : BitVec 16
  sourceChip : BitVec 10
  count : Word
  tokens : BitVec 16
deriving DecidableEq, Repr

/-- An ELP frame (R311, Table 12.4). `crcOk` is the receiver's CRC-32C verdict over header and payload. -/
structure ElpFrame where
  destChip : BitVec 10
  srcChip : BitVec 10
  srcIdgen : BitVec 16
  vc : BitVec 2
  kind : BitVec 8
  ctx : CtxId
  fw : Bool
  flow : Word
  stepEpoch : Dword
  lseq : Word
  payload : List Byte
  crcOk : Bool
  ack : Word
  /-- The acknowledgement asks for replay of every frame after `ack`. -/
  replay : Bool
deriving DecidableEq, Repr

/-- FEC codewords that a link corrected and could not correct since the last frame, and its pre-FEC error-ratio bin (Table 14.7). -/
structure FecCount where
  corrected : Nat
  uncorrectable : Nat
  bin : Fin 8
deriving DecidableEq, Repr

/-- A discovery record (Table 12.5). -/
structure DiscoveryRec where
  magic : Word
  level : BitVec 8
  mcast : Bool
  kind : BitVec 8
  port : BitVec 8
  chip : BitVec 10
  unassigned : Bool
  spare : Bool
  idgen : BitVec 16
  rack : BitVec 4
  tray : BitVec 5
  slot : BitVec 2
  posValid : Bool
  plane : BitVec 8
  planGen : Dword
  jobOrSwitch : Word
  crcOk : Bool
deriving DecidableEq, Repr

/-- One trial of link training (R308): which lanes had a pre-FEC bit error ratio below 2.4e-4 over 10 ms at this
combination, and whether the cable module has a matching application (R310). -/
structure LinkTrial where
  goodLanes : BitVec 4
  moduleApp : Bool
deriving DecidableEq, Repr

/-- What the partner offered in TRAIN (R308, R309). -/
structure LinkOffer where
  maxRate : BitVec 2
  maxLanes : BitVec 2
  fec544 : Bool
  trials : List LinkTrial
deriving DecidableEq, Repr

/-- One poll of a cable module (R310). -/
structure CmisPoll where
  present : Bool
  state : BitVec 3
  alarm : Bool
  tempC : BitVec 8
  tempWarn : Bool
  fault : Bool
  lossOfLock : BitVec 4
  busErr : Bool
deriving DecidableEq, Repr

/-- A journal record on the wire (R336, Table 13.2), with the sealing count and tag verdict of R413. -/
structure JournalFrame where
  jseq : Dword
  stepEpoch : Dword
  kind : BitVec 8
  ctx : CtxId
  handle : Dword
  page : Word
  offset : Word
  ttlClock : Word
  body : List Byte
  srcIdgen : BitVec 16
  sealNo : Nat
  tagOk : Bool
deriving DecidableEq, Repr

/-- What the peer's attestation and plan showed at pairing (R413, step 2). -/
structure PairEvidence where
  endorsementOk : Bool
  signatureOk : Bool
  debugEnabled : Bool
  peerSvn : Nat
  chipsMatch : Bool
  peerIdgen : BitVec 16
  mirrorGib : Nat
  lastJseq : Dword
  /-- The peer's chip ID, whether this package is the buddy of the pair, and whether the peer accepts in its turn. -/
  peer : BitVec 10
  asBuddy : Bool
  accepts : Bool
deriving DecidableEq, Repr

/-- A page whose only copy is in the buddy's mirror (R346, R350): a KV page of a sequence by table index, a page of an archive, or a page of an
object. -/
inductive RemotePage where
  | kv (index : Fin 16384) (page : Nat)
  | arch (ctx : CtxId) (handle : Dword) (page : Nat)
  | obj (ctx : CtxId) (index : BitVec 16) (page : Nat)
deriving DecidableEq, Repr

/-- A CLAIM (R346): the lost chip ID and generation, the claimant and the mirror's highest epoch and clock. -/
structure Claim where
  chip : BitVec 10
  idgen : BitVec 16
  claimant : BitVec 10
  mirrorEpoch : Dword
  ttlClock : Word
  lostState : Bool
deriving DecidableEq, Repr

/-- A fault event as its source presents it (R357, Table 14.3). -/
structure FaultEvent where
  source : BitVec 16
  die : BitVec 8
  col : BitVec 8
  row : BitVec 8
  unit : BitVec 8
  ctx : Option CtxId
  pan : Option (Fin 16)
  detail : BitVec 16
deriving DecidableEq, Repr

/-- The fused voltage and power answers of the governor's model for one die and frequency step (R421). -/
structure DieModel where
  die : Fin 74
  mhz : Nat
  mv : Nat
  milliwatts : Nat
deriving DecidableEq, Repr

/-- One flash image attempt of the ROM as the fuses and the flash present it (R397, R399). -/
structure BootMedia where
  images : List (List Byte)
  readOk : BitVec 4
deriving DecidableEq, Repr

end Sys2Proof
end

