-- ==== Sys2Proof/Machine/HostState.lean ====
section
/-! DEFINITION. The state of the host port: functions, contexts, rings, accepted commands, objects and quotas
(chapters 5 and 11). Every structure's fields cite the rule that names them; `X.fresh` is the value an unlisted `X` has. -/

namespace Sys2Proof.Machine

/-- A completion entry that is due (Table 11.4): the device writes it to the ring, or keeps it while the queue is down (R288). -/
structure CplEntry where
  tag : Dword
  status : BitVec 16
  detail : BitVec 16
  noEffect : Bool
  late : Bool
  irq : Bool
  result0 : Dword
  result1 : Dword
deriving DecidableEq, Repr

/-- One command queue of a context (R280–R288). The ring bases and CMD_Q_CFG are stored registers. -/
structure Queue where
  /-- SQ_HEAD: the next slot the device fetches (Table 11.22). -/
  sqHead : Nat
  /-- The last submission tail taken from a doorbell (R281). -/
  sqTail : Nat
  /-- Completion entries the host has returned, CQ_HEAD (R285). -/
  cqHead : Nat
  /-- The next completion entry the device writes. -/
  cqTail : Nat
  /-- PHASE of the next entry: 1 in the ring's first pass (R285). -/
  phase : Bool
  /-- ERR_CODE of CMD_Q_STATUS. -/
  err : Nat
  /-- ERROR of CMD_Q_STATUS: the queue is stopped (R288). -/
  stopped : Bool
  /-- Completion entries reserved by fetched slots (R282). -/
  reserved : Nat
  /-- Completions kept while the queue is stopped or disabled, oldest first (R288, R299). -/
  kept : List CplEntry
  /-- A doorbell written before Ready, acted on at Ready (R432). -/
  early : Option Nat
deriving DecidableEq, Repr

/-- The token ring of a context (R286, R287). -/
structure TokenRing where
  tail : Nat
  head : Nat
  phase : Bool
  stopped : Bool
  err : Nat
  /-- Tick of the first entry written after the last raise of the vector (R287). -/
  firstSince : Option Nat
deriving DecidableEq, Repr

/-- Context quotas (Table 5.10). -/
structure Quota where
  t1Units : Nat
  t2Pages : Nat
  seqs : Nat
  objMax : Nat
  share : Nat
  kvFp8 : Bool
deriving DecidableEq, Repr

/-- A tier-2 page table entry (Table 5.4): state 0 ZERO, 1 PRESENT, 2 REMOTE, 3 MOVING. -/
structure PageEntry where
  state : BitVec 3
  frame : Nat
  remoteChip : BitVec 10
deriving DecidableEq, Repr

/-- An OBJ_PLACE move in progress (R138): destination tier, port die, location and page table, and the command. -/
structure Move where
  tier : Nat
  portDie : Nat
  location : Nat
  pages : Tab PageEntry
  cmd : CmdRef
deriving DecidableEq, Repr

/-- The old copy of a completed move (R138): where it lies, and the acceptance numbers of the commands and the streams that began against it. -/
structure OldCopy where
  tier : Nat
  location : Nat
  pages : Tab PageEntry
  readers : List Nat
  streams : List Nat
  /-- Epochs of the steps built with an adapter slot that pointed into it (R221). -/
  steps : List Nat
deriving DecidableEq, Repr

/-- An object table entry (Table 5.3) and its page table. -/
structure Obj where
  gen : BitVec 16
  type : BitVec 8
  /-- 0 free, 1 placed, 2 moving, 3 freeing. -/
  state : BitVec 8
  tier : Nat
  portDie : Nat
  aliased : Bool
  readOnly : Bool
  flitsPerBlock : Nat
  shareCount : Nat
  size : Nat
  location : Nat
  ownerHandle : Word
  ownerCtx : CtxId
  /-- Tier-2 page table (R142); an unlisted page is ZERO. -/
  pages : Tab PageEntry
  move : Option Move
  oldCopy : Option OldCopy
  /-- Contents lost in a takeover or a lost block (Table 13.1). -/
  lost : Bool
  /-- The owner freed the object while aliases remain (R139). -/
  orphan : Bool
deriving DecidableEq, Repr

/-- A context (R279, R294). -/
structure Ctx where
  /-- 0 CLOSED, 1 OPEN, 2 MISMATCH, 3 CLOSING. -/
  state : BitVec 2
  quota : Quota
  /-- Tier-1 use in 64 KiB units and tier-2 use in pages (Table 5.12). -/
  t1Used : Nat
  t2Used : Nat
  /-- The object table by INDEX (R136), and the device address and 64 KiB blocks of its place in tier 1 (0 blocks: none). -/
  objs : Tab Obj
  objTable : Nat × Nat
  /-- GEN last used per INDEX (R135). -/
  gens : Tab Nat
  queues : Tab Queue
  tok : TokenRing
  /-- Doorbell writes not yet fully fetched, oldest first: queue and slots made visible (R281, R282). -/
  visible : List (Nat × Nat)
  /-- Tags and statuses of the last 1,024 completions, newest first, each with whether it counts as a failure (R284, R290). -/
  recent : List (Dword × BitVec 16 × Bool)
  /-- LC_GOAL_US, BE_GOAL_US, HOLD_MAX_MS, KV_WAIT_STEPS (R195). -/
  lcGoalUs : Nat
  beGoalUs : Nat
  holdMaxMs : Nat
  kvWaitSteps : Nat
  /-- Data key, tweak key and EKGEN (R161, R411); keys are drawn at the first CTX_OPEN. -/
  dataKey : Option (BitVec 256)
  tweakKey : Option (BitVec 256)
  ekgen : Nat
  /-- Whether the context has written tier 2 (R161). -/
  wroteT2 : Bool
  /-- Handles of expired and of lost sequences, newest first, at most 4,096 each (R158, R350). -/
  expired : List Dword
  lostHandles : List Dword
  /-- An unknown handle answers ST_SESSION_LOST (R350). -/
  lostState : Bool
  /-- KV pages in use, by device address (R144). -/
  kvUsed : List Nat
  /-- Archive pages in use, in 2 MiB pages of the KV_ARCHIVE objects (R155). -/
  archUsed : Nat
  /-- The context was opened before: quotas and keys stand (R164, R294). -/
  everOpened : Bool
  /-- CLOSING by a function-level reset: no completion is written (R299). -/
  flr : Bool
deriving DecidableEq, Repr

/-- Where an accepted command stands (R285, R293): waiting to start, running (started at a tick), or ended with its completion due.
`held` marks a SEQ_ADMIT or SEQ_RESUME that is held (R196). -/
inductive CmdPhase where
  | waiting
  | running
  | ended (e : CplEntry)
deriving DecidableEq, Repr

/-- An accepted command (R283): the header and parameter words copied from its slot. -/
structure Cmd where
  ctx : CtxId
  queue : Nat
  opcode : BitVec 16
  irq : Bool
  ordered : Bool
  depAny : Bool
  tag : Dword
  depends : Dword
  deadline : Dword
  params : List Dword
  /-- CD0's local count at acceptance (R293). -/
  acceptedAt : Nat
  /-- The TTL clock at acceptance (R158). -/
  ttlAt : Nat := 0
  /-- The intake core's acceptance number; rises by one per command of the package. -/
  seqno : Nat
  phase : CmdPhase
  /-- The command has started (R293). -/
  started : Bool
  /-- JSEQ of the COMMAND record that the completion waits for (R340). -/
  waitJseq : Option Nat
  /-- The command runs again after a control-core crash (R353). -/
  replayed : Bool
  /-- The header checks failed: the entry is due and the slot names no command (R284). -/
  rejected : Bool
  /-- Acceptance number of an outstanding prerequisite (R290). -/
  waitsOn : Option Nat
  /-- A count that the command keeps while it runs, and a second one (its owning rule says which). -/
  count0 : Nat
  count1 : Nat
deriving DecidableEq, Repr

/-- The host side as the device sees it. -/
structure HostPort where
  /-- Host memory as the device has written it. -/
  mem : Mem
  /-- MSI-X vectors raised, newest first: function and vector. -/
  irqs : List (Nat × Nat)
  /-- VF Enable of the SR-IOV capability (R280). -/
  vfEnable : Bool
  /-- READY and UPDATING of CMD_FN_STATUS (Table 11.21). -/
  ready : Bool
  updating : Bool
  /-- Slot fetch is stopped by a shutdown, a takeover or a fatal event (R359, R395, R435). -/
  intakeHeld : Bool
  /-- The context being served and the slots taken in its turn (R282). -/
  rrCtx : Nat
  rrTaken : Nat
  /-- Next acceptance number. -/
  nextSeqno : Nat
  /-- PCIe link trained (R432). -/
  linkUp : Bool
deriving DecidableEq, Repr

end Sys2Proof.Machine
end

