-- ==== Sys2Proof/Machine/ModelState.lean ====
section
/-! DEFINITION. The state of the model table, the adapter slots, the steering areas and the embedding directory (chapters 8 to 10). -/

namespace Sys2Proof.Machine

/-- A version record (Table 8.2); states 0 EMPTY, 1 LOADED, 2 CURRENT, 3 PREVIOUS. -/
structure VerRec where
  version : Nat
  vstate : Nat
  maxRank : Nat
  points : Nat
  maxDistinct : Nat
  steerPoints : Nat
  kinds : Nat
  shape : Nat
  images : List Nat
  weights : List Nat
  digest8 : List (List Byte)
  hidden : Nat
  /-- SHAKE256 of the manifest it was imported with, and the digests of its shards that the manifest carries, 32 bytes each (R328). -/
  manifest : List Byte
  shardSums : List Byte
deriving DecidableEq, Repr

/-- A MODEL_SWITCH in progress (R232): its command, the record it makes CURRENT, the pans whose image changes, and whether the version
has been flipped. -/
structure SwitchWork where
  cmd : CmdRef
  target : Nat
  pans : List Nat
  flipped : Bool
deriving DecidableEq, Repr

/-- A model table entry (Table 8.1): states 0 FREE, 1 READY, 2 SWITCHING, 3 UNAVAILABLE. The steering area's block lies in tier 1 at
`steerArea`. `exits` are the thresholds of R254. -/
structure ModelEntry where
  ctx : CtxId
  state : Nat
  current : Nat
  steerArea : Nat
  steerLive : Nat
  v0 : VerRec
  v1 : VerRec
  exits : List Word
  /-- Switches so far that changed the draft image (Table 9.8). -/
  draftGen : Nat
  switch : Option SwitchWork
deriving DecidableEq, Repr

/-- An adapter slot (Table 8.4): states 0 FREE, 1 LOADING, 2 READY, 3 UNLOADING. BINDS is the number of live sequences that name the
slot, and is computed. -/
structure AdpSlot where
  handle : Nat
  ctx : CtxId
  model : Nat
  state : Nat
  format : Nat
  rank : Nat
  gen : Nat
  dataAddr : Nat
  bytesPerPoint : Nat
  lastEpoch : Nat
deriving DecidableEq, Repr

/-- An embedding version record (Table 10.2); states as VerRec. -/
structure EmbRec where
  version : Nat
  vstate : Nat
  format : Nat
  sparse : Bool
  dim : Nat
  stride : Nat
  base : Nat
  bitmap : Nat
  rows : Nat
  scale : Word
  rowsPerBlock : Nat
deriving DecidableEq, Repr

/-- An embedding directory entry (Table 10.1): states 0 FREE, 1 READY, 2 MAINT. `maintBy` is the EMB_VERSION_SWITCH that waits for the
dies to drop their copies, with those still to do so (R273). -/
structure EmbEntry where
  ctx : CtxId
  state : Nat
  current : Nat
  shardShift : Nat
  appliedGepoch : Nat
  homes : List Nat
  r0 : EmbRec
  r1 : EmbRec
  maintBy : Option CmdRef
deriving DecidableEq, Repr

/-- A gradient row: its index and its FP32 elements. -/
structure GradRow where
  row : Nat
  vals : List Word
deriving DecidableEq, Repr

/-- An EMB_APPLY_GRAD in progress (R275): its command, the merged rows homed here, the records dropped, and since when it waits. -/
structure GradWork where
  cmd : CmdRef
  entry : Nat
  epoch : Nat
  rows : List GradRow
  dropped : Nat
  since : Nat
deriving DecidableEq, Repr

/-- What another home has sent for a table's gradient epoch (R275): rows as far as they have come, and whether its end marker came. -/
structure GradIn where
  entry : Nat
  epoch : Nat
  chip : Nat
  rows : List GradRow
  ended : Bool
deriving DecidableEq, Repr

/-- A shard of an import (R328): the object and range it fills, its digest, the bytes that came so far, whether it was checked and
written, whether it came corrupt, and its failed refetches. -/
structure Shard where
  handle : Nat
  off : Nat
  len : Nat
  digest : List Byte
  got : List Byte
  verified : Bool
  bad : Bool
  failed : Nat
deriving DecidableEq, Repr

/-- An import of a model over the fabric (R328, R329): its command, entry and record, the source chip, the manifest's digest, the version
record to enter, its shards in manifest order, and the tick of the last shard or of the JOIN. -/
structure FabImport where
  cmd : CmdRef
  entry : Nat
  record : Nat
  source : Nat
  digest : List Byte
  ver : VerRec
  shards : List Shard
  lastAt : Nat
  /-- The chips of the pass it shares, the source first. -/
  pass : List Nat
deriving DecidableEq, Repr

/-- The tables of chapters 8 to 10. -/
structure ModelState where
  models : Tab ModelEntry
  slots : Tab AdpSlot
  embs : Tab EmbEntry
  grads : List GradWork
  gradIn : List GradIn
  imports : List FabImport
deriving DecidableEq, Repr

end Sys2Proof.Machine
end

