-- ==== Sys2Proof/Machine/PanState.lean ====
section
/-! DEFINITION. The state of pans, planes and waves as CD0 holds it (chapter 4); tile planes lie in ArrayState. -/

namespace Sys2Proof.Machine

/-- The Guend cost table (R192, Table 7.5). -/
structure CostTable where
  baseNs : Nat
  tokNs : Nat
  ctxNs : Nat
  maxRows : Nat
  rowGranule : Nat
  maxTokens : Nat
  chunkMax : Nat
  tpp : Nat
  lg : Nat
  kvBytes : Nat
  kvPort : Nat
  verifyMax : Nat
  commands : Nat
  maxCmdNs : Nat
deriving DecidableEq, Repr

/-- What a pan's plane holds (Table 4.1): model entry, kind, mode safety, version, cost table, and the spill size of its load in
MiB per die with the first blocks of the tier-1 regions (R124). -/
structure PanCfg where
  model : Nat
  kind : Nat
  modeSafe : Bool
  ver : BitVec 8
  cost : CostTable
  spillMib : Nat
  spill : List Nat
deriving DecidableEq, Repr

/-- A configuration load that is writing (R107): a CFG_LOAD or the load of a MODEL_SWITCH (its model entry) or of the balance. -/
structure Load where
  cmd : Option CmdRef
  switchEntry : Option Nat
  image : List Byte
  /-- SIZE of the image object (Table 4.4, 0x0001). -/
  size : Nat
  spillMib : Nat
  spill : List Nat
  thenSwitch : Bool
  /-- The balance switches this pan (R126). -/
  balance : Bool
  /-- Shadow planes written and checked; the switch still waits (R107). -/
  written : Bool
deriving DecidableEq, Repr

/-- A sluice wave in progress (R109–R117). -/
structure Wave where
  cls : Nat
  epoch : Nat
  cmd : Option CmdRef
deriving DecidableEq, Repr

/-- A pan (R104–R107). -/
structure Pan where
  ctx : CtxId
  x0 : Nat
  y0 : Nat
  w : Nat
  h : Nat
  compat : Bool
  /-- The sluice epoch recorded for the pan (R109). -/
  epoch : Nat
  active : Option PanCfg
  shadow : Option PanCfg
  /-- The active plane is the job plane: an odd number of class-2 waves since the last class-0 wave (R203). -/
  jobActive : Bool
  load : Option Load
  wave : Option Wave
  /-- A class-1 wave that firmware wants (R114): the mode. -/
  wantMode : Option Nat
  /-- A class-2 wave wanted before the next serving step or job command (R203). -/
  wantSwap : Bool
  release : Option CmdRef
  /-- The pan is to be released at its next drain: PAN_RELEASE or CTX_CLOSE (R106, R299). -/
  releasing : Bool
  /-- A step has been built since the last class-0 wave made the active plane active (Table 11.13). -/
  builtSince0 : Bool
  /-- Step or command that occupies the pan, by step epoch; the running RUN. -/
  step : Option Nat
  run : Option CmdRef
  /-- The save area holds records of the serving plane and of the job plane, written when that plane last became inactive (R117). -/
  saveServe : Bool
  saveJob : Bool
  /-- Step boundaries passed (R270). -/
  boundaries : Nat
deriving DecidableEq, Repr

/-- Balance set evaluation of R126 (one set per context): the pans, its bounds, the last evaluation and the streak. -/
structure BalanceSet where
  ctx : CtxId
  pans : List Nat
  minP : Nat
  maxP : Nat
  lastEval : Nat
  streak : Nat
  dirUp : Bool
  /-- Steps built in the set's pans since the window began: CD0's local count, the rows of a decode or verify step and the tokens of a prefill step. -/
  window : List (Nat × Nat × Nat)
deriving DecidableEq, Repr

end Sys2Proof.Machine
end

