-- ==== Sys2Proof/Machine/ServeState.lean ====
section
/-! DEFINITION. The state of the tiers, the serving engine and the step commit (chapters 5, 6, 7 and 13). -/

namespace Sys2Proof.Machine

/-- What a mover chain serves (R145): a stream of a RUN, an OBJ_COPY, or an OBJ_PLACE. -/
inductive StreamUse where
  | run | copy | place
deriving DecidableEq, Repr

/-- Where a stream stands: waiting behind its port and VQ, running, halted on a page (R149), or ended with a status and DETAIL. -/
inductive StreamPhase where
  | waiting
  | running
  | halted
  | ended (status : Nat) (detail : Nat)
deriving DecidableEq, Repr

/-- What a KV descriptor of the step builder covers (R201, R154): the sequence's table entry, positions from `first` up to `stop`, TPP, LG and the KV bytes
of a token in one layer group; or the draft state page (R248). -/
structure KvRange where
  index : Nat
  first : Nat
  stop : Nat
  tpp : Nat
  lg : Nat
  bytes : Nat
  draft : Bool
deriving DecidableEq, Repr

/-- A stream descriptor in progress (R146, Table 5.5) or the chain of a copy (R145). -/
structure Stream where
  use : StreamUse
  cmd : Option CmdRef
  /-- The STREAM_LIST that holds the descriptor; 0 for none. -/
  list : Word
  /-- A WRITE that a STEP token of another epoch has ended (R147): its last partial block is still to be written. -/
  closing : Bool
  /-- Place of the descriptor in its list; streams of one port and VQ run in this order (R148). -/
  order : Nat
  pan : Nat
  ctx : CtxId
  /-- 0 READ, 1 WRITE, 2 MCAST. -/
  kind : Nat
  /-- Of a KV descriptor (FLAGS bit 2). -/
  kv : Option KvRange
  rt : Bool
  port : Nat
  vq : Nat
  dies : List Nat
  handle : Word
  offset : Nat
  length : Nat
  /-- Destination of a copy. -/
  dstHandle : Word
  dstOffset : Nat
  deadlineUs : Nat
  /-- Local count of the issuing die at the first request (R153). -/
  firstRequest : Option Nat
  /-- Bytes fully delivered or written: SAVED_POS (R146). -/
  done : Nat
  /-- Blocks issued (R149): their requests or their flits have been sent. -/
  issued : Nat
  /-- Blocks whose request has reached the first mover, and blocks that it has staged and sent on (R145). -/
  asked : Nat
  read : Nat
  /-- Packets of the blocks under way that have reached the last mover, by array die, or at 0 for a die outside the array; and what they brought
  to a mover outside the array, oldest first (R31, R145). -/
  landed : Tab Nat
  arrived : List Byte
  /-- Flits that a WRITE has taken for the block under way (R147). -/
  block : List Byte
  /-- Step epoch of the STEP tokens that opened the WRITE's list (R147). -/
  openEpoch : Option Nat
  late : Bool
  phase : StreamPhase
deriving DecidableEq, Repr

/-- A page-in (R150): page of an object, the streams that wait for it, and when it started. -/
structure PageIn where
  ctx : CtxId
  index : Nat
  page : Nat
  streams : List Nat
  started : Nat
  /-- 0 ZERO, 2 REMOTE, 3 MOVING as found (Table 5.6). -/
  found : Nat
deriving DecidableEq, Repr

/-- The tiers: contents, allocation, error records and streams (chapters 5 and 6). Mapped sizes lie in NEAR_SLICE_MAP and FAR_PORT_MAPPED. -/
structure MemState where
  /-- Plain contents by 42-bit device address; a byte never written reads 0 (R163, R171). -/
  bytes : Mem
  /-- Allocated tier-0 pool and tier-1 extents: first 64 KiB block (address / 65536) and length in blocks, rising. -/
  extents : List (Nat × Nat)
  /-- Tier-2 frames in use, by address / 2 MiB (R142). -/
  frames : List Nat
  /-- Retired tier-1 blocks and tier-2 frames, withheld for good (R176, R181). -/
  retiredBlocks : List Nat
  retiredFrames : List Nat
  /-- Blocks marked for retirement that an object still holds (R176). -/
  marked : List Nat
  /-- Corrected errors per block in the present patrol pass (R176). -/
  passCe : Tab Nat
  /-- The local count of each port die at the end of its last patrol pass (R176). -/
  passAt : Tab Nat
  /-- Units with a patrol write-back queued (R175). -/
  writeBacks : List Nat
  /-- The working devices of each port die as its training left them: its mapping until the next training (R173, R174). -/
  near : Tab (List Nat)
  /-- On-die ECC corrections that a device (4p + d) reported (Table 6.1). -/
  onDie : Tab Nat
  /-- The data of the last TIER_ACCESS read; none when it was refused or lost its data (R131, R160). -/
  reply : Option (List Byte)
  /-- Blocks and frames whose data is lost and not yet recovered (R175, R351). -/
  lostBlocks : List Nat
  streams : Tab (Option Stream)
  nextStream : Nat
  pageIns : Tab (Option PageIn)
  nextPageIn : Nat
  /-- Requests reissued after a first timeout, by CXL port (R181). -/
  reissued : List Nat
  /-- Far-die translations held, as (context, INDEX, page) (R150, step 4). -/
  tlb : List (Nat × Nat × Nat)
deriving DecidableEq, Repr

/-- A leaf of the KV map (R154, Table 5.8): where KV page i lies. `remote` marks a page whose only copy is in the buddy's mirror (R346). -/
structure KvPage where
  loc : Nat
  addr : Nat
  fp8 : Bool
  crc : Word
  scale : BitVec 8
  remote : Bool
deriving DecidableEq, Repr

/-- A token ring entry that is due (Table 11.5), without its phase. -/
structure TokEntry where
  handle : Dword
  token : Word
  epoch : Dword
  endReason : Option (BitVec 3)
  first : Bool
deriving DecidableEq, Repr

/-- The states of Table 7.2. -/
inductive SeqState where
  | free | held | prefill | decode | idle | pausing | resuming | ending
deriving DecidableEq, Repr

/-- An active sequence table entry (R186, Table 7.1), with what its pages hold. -/
structure SeqEntry where
  handle : Dword
  ctx : CtxId
  state : SeqState
  /-- FLAGS: CLASS (true BE), GENERATE, INTERRUPT, CANCEL_PENDING, PAUSE_PENDING, SPEC_ON, KV_FP8_ON_PAUSE, HELD_RESUME. -/
  be : Bool
  generate : Bool
  interrupt : Bool
  cancelPending : Bool
  pausePending : Bool
  specOn : Bool
  fp8OnPause : Bool
  heldResume : Bool
  model : Nat
  modelVer : BitVec 8
  pan : Option Nat
  stepEpoch : Nat
  commitEpoch : Nat
  position : Nat
  inputPending : Nat
  turnNew : Nat
  maxNew : Nat
  kvPages : Nat
  kvReserved : Nat
  stops : List Word
  adapterSlot : BitVec 16
  adapterScale : BitVec 16
  steerSlot : BitVec 16
  specDepth : Nat
  specZero : Nat
  exitPolicy : BitVec 8
  sampleMode : BitVec 2
  topK : Nat
  temperature : Word
  pTop : Word
  seed : Dword
  waitSince : Nat
  kvSkips : Nat
  releaseHeld : Nat
  /-- The KV map from KV_ROOT (R154), by KV page index. -/
  kvMap : Tab KvPage
  /-- Device addresses of the nodes of the KV map, by `nodesOf`; the root's is KV_ROOT (R154). -/
  kvNodes : Tab Nat
  /-- Input pages from INPUT_HEAD (R191): their addresses over 256 KiB, the tokens of the first that are used up, and the tokens not yet prefilled. -/
  inputPages : List Nat
  inputAt : Nat
  input : List Word
  /-- The token sampled in the row's previous step (Table 7.8, INPUT_TOKEN), and the proposals of its draft step (R248). -/
  lastToken : Option Word
  drafts : List (Word × Word)
  /-- The previous verify step's kept tokens (Table 9.5, ABSORB). -/
  kept : List Word
  /-- Policy changes so far: a verify step built before a change does not adapt the depth (R252). -/
  specGen : Nat
  /-- The model entry's draft images when the draft state page was last written (Table 9.8). -/
  draftGen : Nat
  /-- RESERVE_TOKENS of the SEQ_ADMIT (R189). -/
  reserveTokens : Nat
  /-- Committed entries that wait for ring space, oldest first (R211). -/
  releaseBuf : List TokEntry
  /-- The last 64 committed tokens with their step epochs and FLAGS, newest first (Table 13.1). -/
  last64 : List TokEntry
  /-- The command that is held, paused or resuming, and since when an admission is held (R196). -/
  cmd : Option CmdRef
  heldSince : Nat
  /-- Its place in the order of holds (R196), and the time check of R194 that is deferred to the first step in which a pan holds the model. -/
  heldNo : Nat
  timeDue : Bool
  /-- The pause: set by a KV shortage, its TTL, transcoding asked, and the state held before PAUSE_PENDING (R155, R200). -/
  autoPause : Bool
  pauseTtl : Nat
  transcode : Bool
  prior : SeqState
  /-- SEQ_RETIRE that waits for steps in flight (R209), and the tick at which a committed step last ended a turn (Table 7.10). -/
  retireCmd : Option CmdRef
  turnEndedAt : Option Nat
  /-- A resumed sequence whose tier-2 copy is kept until its first commit (R157): archive pages. -/
  t2Copy : Nat
  /-- A page's CRC did not match at the first read of a resume (R157). -/
  reread : Bool
deriving DecidableEq, Repr

/-- An archive (R155): the archive record and the pages it names. -/
structure Archive where
  handle : Dword
  ctx : CtxId
  entry : SeqEntry
  pageCount : Nat
  deadline : Nat
  /-- Size in 2 MiB pages, and the frames that hold it. -/
  t2Pages : Nat
  frames : List Nat
  /-- The pages of the context's KV_ARCHIVE objects that the frames belong to, by INDEX and page (R144, R155). -/
  objPages : List (Nat × Nat)
  /-- Where the input pages lie in it. -/
  inputAddrs : List Nat
  /-- A SEQ_RESUME accepted before the deadline holds it (R158, R197). -/
  resuming : Bool
  /-- Its 2 MiB pages whose only copy is still in the buddy's mirror (R350). -/
  remote : List Nat
deriving DecidableEq, Repr

/-- A row of a work list (Table 7.8). -/
structure WRow where
  index : Nat
  handle : Dword
  row : Nat
  be : Bool
  firstChunk : Bool
  lastChunk : Bool
  generate : Bool
  specDepth : Nat
  position : Nat
  tokens : Nat
  inputToken : Option Word
  adapterSlot : BitVec 16
  adapterScale : BitVec 16
  steerSlot : BitVec 16
  sampleMode : BitVec 2
  topK : Nat
  temperature : Word
  pTop : Word
  seed : Dword
  inputAddr : Nat
  /-- Tokens withheld by a cancellation or an interrupt (R209). -/
  withheld : Bool
  /-- The row's outcome at CD0 ends its turn (R190). -/
  endsTurn : Bool
  /-- Proposals of a verify row with their probabilities (R249), and the policy it was built under. -/
  drafts : List (Word × Word)
  specGen : Nat
  exitPolicy : BitVec 8
  /-- Tokens for the draft to absorb (Table 9.5). -/
  absorb : List Word
deriving DecidableEq, Repr

/-- A group of a work list's adapter section (Table 8.6). -/
structure AdpGroup where
  slot : Nat
  firstRow : Nat
  rows : Nat
  gen : Nat
  format : Nat
  rank : Nat
  dataAddr : Nat
deriving DecidableEq, Repr

/-- A built step (R201) from build to commit or abandonment. Kinds: 0 prefill, 1 decode, 2 draft, 3 verify. -/
structure Step where
  epoch : Nat
  pan : Nat
  ctx : CtxId
  model : Nat
  kind : Nat
  ver : BitVec 8
  rows : List WRow
  padding : Nat
  lcRows : Nat
  tokens : Nat
  /-- KV_DESCS, and the steering copy that was live when the build began (R229). -/
  kvDescs : Nat
  steerLive : Nat
  /-- One more than the record of each embedding table that was CURRENT when the step was built (R271). -/
  embVer : Tab Nat
  /-- PRED_NS (R193), in ns rounded up. -/
  predNs : Nat
  delivered : Bool
  builtAt : Nat
  /-- Acceptance number of the next command when the step was built (R291, TOKENS). -/
  builtSeqno : Nat
  ended : Bool
  endedAt : Nat
  outcome : List RowOutcome
  /-- JSEQ of the step's KV_DELTA records, and of its COMMIT record once sent (R338). -/
  deltas : List Nat
  commitSeq : Option Nat
  /-- The adapter section's groups (Table 8.6). -/
  groups : List AdpGroup
  /-- The exit section (R254): thresholds current at build. -/
  exits : List Word
  /-- Rows that have exited (R255). -/
  exited : List Nat
  /-- Rakes during the step and retries of its work after an abort. -/
  rakes : Nat
deriving DecidableEq, Repr

/-- The serving engine. Entries are keyed by table index; an unlisted entry is FREE. -/
structure ServeState where
  entries : Tab (Option SeqEntry)
  archives : List Archive
  /-- Built steps that have neither committed nor been abandoned, oldest first. -/
  steps : List Step
  /-- The step epoch (R202) and the highest committed epoch. -/
  epoch : Nat
  commitEpoch : Nat
  /-- Sequences held so far (R196). -/
  holds : Nat
  /-- TTL clock and its checkpoint, and the tick within the present second (R157, R159). -/
  ttlClock : Nat
  ttlCkpt : Nat
  ttlTick : Nat
deriving DecidableEq, Repr

/-- A record of the outgoing journal (R336, Table 13.2); kinds as in the table. -/
structure JRec where
  jseq : Nat
  epoch : Nat
  kind : Nat
  ctx : CtxId
  handle : Dword
  ttl : Nat
  cmd : Option CmdRef
deriving DecidableEq, Repr

/-- The buddy pairing in both roles (R333, R344, R348, R413). Paired and custody flags lie in CMT_STATUS. -/
structure CommitState where
  /-- Records sent to the buddy and not acknowledged, oldest first; the number of the next record and of the last durable one. A record's JSEQ is its
  number less `jbase`, since JSEQ starts at 1 at pairing. -/
  outstanding : List JRec
  nextJseq : Nat
  durable : Nat
  jbase : Nat
  /-- The control log (R394): records that CD1 has not acknowledged, oldest first, and the number of the last it has. -/
  ctl : List JRec
  ctlAcked : Nat
  lastSent : Nat
  /-- Mirror size learned at pairing, in GiB (R335). -/
  mirrorGib : Nat
  /-- Sealing counters of R413. -/
  sealNo : Nat
  /-- As buddy: the mirror as the records applied, newest first, the next JSEQ expected, and the last ward frame. -/
  mirror : List JournalFrame
  mirrorJseq : Nat
  peerSeal : Nat
  lastWardFrame : Nat
  /-- Fenced generations of the ward's chip ID (R344), and the ticks of the CLAIM sent and of its last repetition. -/
  fenced : List (BitVec 16)
  claimAt : Option Nat
  /-- The discovery frames sent to claim a chip, newest first. -/
  claims : List Claim
  /-- Acknowledgements and heartbeats sent, newest first. -/
  acks : List Dword
  pairTriedAt : Nat
  snapshotDue : Bool
  /-- The buddy refused pairing (R333). -/
  refused : Bool
  /-- Frames in a row whose tag failed (R413), and whether pairing may start now. -/
  badTags : Nat
  pairingOpen : Bool
deriving DecidableEq, Repr

end Sys2Proof.Machine
end

