-- ==== Sys2Proof/Machine/Mirror.lean ====
section
/-! DEFINITION. What a spare fetches from the mirror of a lost package when it assumes its chip ID (R346, Table 13.1). -/

namespace Sys2Proof.Machine

/-- The mirrored state: contexts with their object tables, sequence entries, archives, model table, adapter slots and embedding directory;
steering areas by model entry; pan records; and the contents of objects that come with it, by context and INDEX: adapters from the mirror, images and
weights from a job member that holds the same manifest (R328). -/
structure MirrorImage where
  ctxs : Tab Ctx
  entries : Tab (Option SeqEntry)
  archives : List Archive
  models : Tab ModelEntry
  slots : Tab AdpSlot
  embs : Tab EmbEntry
  steering : List (Nat × List Byte)
  pans : Tab (Option Pan)
  contents : List (CtxId × Nat × List Byte)
deriving DecidableEq, Repr

end Sys2Proof.Machine
end

