-- ==== Sys2Proof/Syntax.lean ====
section
/-! DEFINITION. The commands of the block: one constructor per row of the table of operations and events. A row that is a host
opcode names an accepted command by its context and tag (the parameter words lie in the accepted slot) and carries the bytes that
the device reads from host memory for it; an event row carries what the event brings from outside. -/

namespace Sys2Proof

/-- The steps of the part (spec/opcode_table.json), in the table's order. -/
inductive Instr where
  /-- CMD_DB_SQ_TAIL (R281): The host writes a new submission tail for a queue and makes the slots up to that tail visible. -/
  | cmdDbSqTail (ctx : CtxId) (q : Fin 8) (value : Word)
  /-- CMD_DB_CQ_HEAD (R303): The host returns completion entries by writing the completion head. -/
  | cmdDbCqHead (ctx : CtxId) (q : Fin 8) (value : Word)
  /-- CMD_DB_TOK_HEAD (R287): The host returns token ring entries by writing the token head. -/
  | cmdDbTokHead (ctx : CtxId) (value : Word)
  /-- SLOT_FETCH (R282): Command intake fetches and copies a pending slot, reserves a completion entry and accepts the command in round-robin context order. -/
  | slotFetch (ctx : CtxId) (q : Fin 8) (slot : List Byte)
  /-- COMPLETION_WRITE (R285): Once every effect of a command is in place, the device writes its completion entry with phase, status and results and may raise the queue vector. -/
  | completionWrite (c : CmdRef)
  /-- COMMAND_DEADLINE_EXPIRY (R293): A command not started by its DEADLINE completes with ST_DEADLINE_MISSED and NO_EFFECT. -/
  | commandDeadlineExpiry (c : CmdRef)
  /-- TOKEN_IRQ_HOLDOFF (R287): The token ring holdoff expires and the token ring vector is raised. -/
  | tokenIrqHoldoff (ctx : CtxId)
  /-- DMA_FAULT (R288): A DMA fails, and the command fails or the queue or token ring stops, according to what the DMA was for. -/
  | dmaFault (purpose : DmaPurpose)
  /-- QUEUE_ENABLE (R288): Setting ENABLE in CMD_Q_CFG checks the ring configuration, resets head and tail and delivers kept completions. -/
  | queueEnable (ctx : CtxId) (q : Fin 8) (value : Word)
  /-- QUEUE_DISABLE (R299): Clearing ENABLE stops intake for the queue, while running commands complete and their entries are kept. -/
  | queueDisable (ctx : CtxId) (q : Fin 8) (value : Word)
  /-- TOKEN_RING_CFG (R302): A write to CMD_TOK_CFG enables or disables the token ring and sets its size, vector and holdoff. -/
  | tokenRingCfg (ctx : CtxId) (value : Word)
  /-- CMD_VF_ALLOT_WRITE (R280): The PF sets a VF's contexts and vectors, and writes that would leave the PF without a vector, or that arrive while VFs are enabled, are ignored. -/
  | cmdVfAllotWrite (vf : BitVec 8) (value : Word)
  /-- FUNCTION_LEVEL_RESET (R299): A function-level reset closes every context of the function as CTX_CLOSE does. -/
  | functionLevelReset (fn : BitVec 8)
  /-- REGISTER_WRITE (R8): A write to a register that has no row of its own acts by its access code. -/
  | registerWrite (space : RegSpace) (width : Nat) (value : Dword)
  /-- CTX_OPEN (R294): The command opens a context, or leaves it in MISMATCH, by the major version, and on first opening it creates the object table and draws keys. -/
  | ctxOpen (c : CmdRef)
  /-- CTX_CLOSE (R299): The command stops intake, cancels pending commands and releases every resource and key of the context. -/
  | ctxClose (c : CmdRef)
  /-- CTX_QUERY (R298): The command returns the context state and writes the query record. -/
  | ctxQuery (c : CmdRef)
  /-- CTX_SET_QUOTA (R164): The PF sets a context's quotas, share weight and KV transcoding policy. -/
  | ctxSetQuota (c : CmdRef)
  /-- CTX_KEY_IMPORT (R412): The command decapsulates and unwraps new context data and tweak keys, journals them and raises EKGEN. -/
  | ctxKeyImport (c : CmdRef) (block : List Byte)
  /-- OBJ_CREATE (R137): The command creates an object in the named tier and pool or slice within quota. -/
  | objCreate (c : CmdRef)
  /-- OBJ_FREE (R140): The command marks an object freeing and returns its storage once the commands that name it have ended. -/
  | objFree (c : CmdRef)
  /-- OBJ_FREE_RELEASE (R140): Once every command that names a freeing object has ended, its storage is returned and scrubbed. -/
  | objFreeRelease (ctx : CtxId) (index : BitVec 16)
  /-- OBJ_PLACE (R138): The command starts moving an object to another tier, slice or pool, charging the destination. -/
  | objPlace (c : CmdRef)
  /-- OBJ_MOVE_DONE (R138): A move completes, LOCATION changes in one write, and the old space is freed after its readers end. -/
  | objMoveDone (ctx : CtxId) (index : BitVec 16)
  /-- OBJ_COPY (R145): The command copies a range between objects as a chain of up to four movers. -/
  | objCopy (c : CmdRef)
  /-- OBJ_WRITE_HOST (R143): The command writes host data into an object, taking frames for ZERO pages. -/
  | objWriteHost (c : CmdRef) (data : List Byte)
  /-- OBJ_READ_HOST (R296): The command reads an object range into a host buffer. -/
  | objReadHost (c : CmdRef)
  /-- OBJ_SHARE (R139): The command enters a read-only alias of an owner's object into another context. -/
  | objShare (c : CmdRef)
  /-- MODEL_IMPORT (R216): The command verifies images and manifest and writes a version record into a model entry, optionally with fabric distribution. -/
  | modelImport (c : CmdRef)
  /-- CFG_LOAD (R107): The command starts writing and checking an image into a pan's shadow planes, optionally followed by a switch. -/
  | cfgLoad (c : CmdRef)
  /-- CFG_SHADOW_WRITTEN (R103): The shadow planes finish writing, and the Table 4.4 checks accept or reject the load. -/
  | cfgShadowWritten (pan : Fin 16)
  /-- PAN_CREATE (R105): The command creates a pan over a rectangle of dies, setting ownership, mode, edges, epoch and seed. -/
  | panCreate (c : CmdRef)
  /-- PAN_RELEASE (R106): The command releases a pan at its next step-boundary drain, clearing its planes and scrubbing its tier 0. -/
  | panRelease (c : CmdRef)
  /-- MODEL_SWITCH (R231): The command checks a version switch and starts loading changed images into shadow planes. -/
  | modelSwitch (c : CmdRef)
  /-- MODEL_VERSION_FLIP (R232): After every shadow plane is checked, the named record becomes CURRENT between two builds and live entries take the new version. -/
  | modelVersionFlip (entry : BitVec 10)
  /-- MODEL_EVICT (R216): The command empties a version record, or the whole entry, of a model. -/
  | modelEvict (c : CmdRef)
  /-- SEQ_ADMIT (R189): The command runs the time and space checks and admits, holds or denies a new sequence. -/
  | seqAdmit (c : CmdRef) (input : List Word)
  /-- SEQ_APPEND (R191): The command copies input tokens into the sequence's input pages and starts or queues a turn. -/
  | seqAppend (c : CmdRef) (input : List Word)
  /-- SEQ_PAUSE (R205): The command sets PAUSE_PENDING so that the sequence is archived once its built steps finish. -/
  | seqPause (c : CmdRef)
  /-- SEQ_RESUME (R207): The command checks the archive and admission and starts returning a paused sequence's pages. -/
  | seqResume (c : CmdRef)
  /-- SEQ_CANCEL (R209): The command ends a turn or a session when processed, withholding the tokens of steps in flight. -/
  | seqCancel (c : CmdRef)
  /-- SEQ_RETIRE (R209): The command ends a session after its steps in flight commit and release their tokens. -/
  | seqRetire (c : CmdRef)
  /-- STEP_POLICY (R195): The command sets a context's goals, hold limit, KV wait and balance set. -/
  | stepPolicy (c : CmdRef)
  /-- SPEC_POLICY (R252): The command sets speculation on and depth for one sequence or for all sequences of a context. -/
  | specPolicy (c : CmdRef)
  /-- EXIT_POLICY (R254): The command sets a model's exit thresholds or a sequence's exit policy byte. -/
  | exitPolicy (c : CmdRef)
  /-- ADP_LOAD (R219): The command verifies an adapter object and fills a slot. -/
  | adpLoad (c : CmdRef)
  /-- ADP_UNLOAD (R219): ADP_LOAD with UNLOAD sets an unbound slot UNLOADING. -/
  | adpUnload (c : CmdRef)
  /-- ADP_BIND (R220): The command changes a sequence's adapter slot and scale from its next build. -/
  | adpBind (c : CmdRef)
  /-- STEER_SET (R229): The command rebuilds the steering area in the copy that is not live and flips STEER_LIVE between builds. -/
  | steerSet (c : CmdRef) (data : List Byte)
  /-- EMB_TABLE_CREATE (R271): The command creates an embedding table or loads a new version record into one. -/
  | embTableCreate (c : CmdRef)
  /-- EMB_VERSION_SWITCH (R271): The command makes a LOADED or PREVIOUS record CURRENT between builds. -/
  | embVersionSwitch (c : CmdRef)
  /-- EMB_MAINT_CHANGE (R273): EMB_VERSION_SWITCH with MAINT_OP puts a table into MAINT after hot copies drop, or returns it to READY. -/
  | embMaintChange (c : CmdRef)
  /-- EMB_ROW_UPDATE (R272): The command writes or deletes rows of a LOADED record, or of a CURRENT record in MAINT, in record order. -/
  | embRowUpdate (c : CmdRef)
  /-- EMB_LOOKUP (R267): The command pools host bags on a pan's pre-emption plane in 2 ms slices. -/
  | embLookup (c : CmdRef)
  /-- EMB_APPLY_GRAD (R275): The command merges gradient records, exchanges them between homes and applies one update per row. -/
  | embApplyGrad (c : CmdRef)
  /-- GRAD_WAIT_TIMEOUT (R276): A home lacks an end marker after GRAD_WAIT_MS, applies nothing and completes with ST_FAULT_CONTAINED. -/
  | gradWaitTimeout (entry : BitVec 10)
  /-- RUN (R148): The command checks a stream list and runs it on the active plane or the job plane of a pan. -/
  | run (c : CmdRef)
  /-- COLL (R324): The command runs a collective over a plan group by the algorithms of Table 12.9. -/
  | coll (c : CmdRef)
  /-- COLL_TIMEOUT (R327): A collective that cannot reach a member for COLL_TIMEOUT_MS completes with ST_FAULT_CONTAINED. -/
  | collTimeout (c : CmdRef)
  /-- FENCE (R291): The command completes when all earlier commands of its scope, and optionally their tokens, are done. -/
  | fence (c : CmdRef)
  /-- FLT_READ (R367): The command copies history entries to the host and optionally removes exactly those entries. -/
  | fltRead (c : CmdRef)
  /-- FLT_CONFIG (R358): The command sets a fault source's reaction within those that its class permits. -/
  | fltConfig (c : CmdRef)
  /-- LIFE_READ (R375): The command reads the lifetime record space into a host buffer. -/
  | lifeRead (c : CmdRef)
  /-- PMC_SAMPLE (R383): The command runs a counter window on a pan or on the package, or returns the pan histograms. -/
  | pmcSample (c : CmdRef)
  /-- PMC_WINDOW_OPEN (R383): A die receives the start notice, records its counter values and clears its HWMs. -/
  | pmcWindowOpen (c : CmdRef) (die : Fin 74)
  /-- PMC_WINDOW_CLOSE (R383): A die's window reaches its end on its local counter and the die reports its differences and HWMs. -/
  | pmcWindowClose (c : CmdRef) (die : Fin 74)
  /-- FW_STAGE (R403): The command checks and writes a firmware image to image B on both flash devices. -/
  | fwStage (c : CmdRef) (image : List Byte)
  /-- FW_ACTIVATE (R404): The command loads an image and runs the live update pause with handoff. -/
  | fwActivate (c : CmdRef)
  /-- ATTEST (R410): The command writes a signed attestation report for a nonce. -/
  | attest (c : CmdRef)
  /-- FABRIC_PLAN (R321): The command checks and accepts a new fabric plan and stores it in flash. -/
  | fabricPlan (c : CmdRef) (plan : List Byte)
  /-- FABRIC_STATUS (R332): The command writes the fabric status record. -/
  | fabricStatus (c : CmdRef)
  /-- TEST_FORCE (R368): The command sets a source's force bit and repeat count, or cancels pending forced events. -/
  | testForce (c : CmdRef)
  /-- TEST_PATTERN (R296): The command runs a test pattern on a die that belongs to no pan. -/
  | testPattern (c : CmdRef) (failing : Nat)
  /-- TILE_CYCLE (R49): In each ARRAY_CLK cycle a tile evaluates its alignment set and fires, waits or faults. -/
  | tileCycle (t : TileRef)
  /-- FLIT_ARRIVAL (R37): A flit arrives at a tile input port and enters a queue, passes through, or both, by its route entry. -/
  | flitArrival (t : TileRef) (port : Port) (parityErr : Bool)
  /-- CREDIT_RETURN (R43): A credit returns to the sender one cycle after an entry is freed. -/
  | creditReturn (t : TileRef) (port : Port) (vq : Fin 4)
  /-- WEIGHT_FILL_DONE (R72): An M tile's weight fill finishes after 16 cycles and a waiting SWAP may proceed. -/
  | weightFillDone (t : TileRef)
  /-- FP32_FLUSH_SECOND_PUSH (R77): An M tile pushes columns 16 to 31 of an FP32 flush in the following cycle without a fire. -/
  | fp32FlushSecondPush (t : TileRef)
  /-- WATCHDOG_EXPIRY (R118): No tile of a die fires for 4,096 cycles while the die is non-empty and blocked, and a rake starts. -/
  | watchdogExpiry (die : Fin 74)
  /-- ORPHAN_TIMEOUT (R118): Data has waited at a done tile's queue head for 4,096 cycles and an ORPHAN contained fault is raised. -/
  | orphanTimeout (die : Fin 74)
  /-- SPILL_SEGMENT_EMPTY (R119): A spill segment empties, pushes a RAKE token into its queue and closes to arrivals. -/
  | spillSegmentEmpty (die : Fin 74) (segment : Nat)
  /-- SPILL_REFILL (R120): A spill segment begins to refill its queue, and a segment whose epoch tag is stale is discarded whole. -/
  | spillRefill (die : Fin 74) (segment : Nat)
  /-- STEP_BOUNDARY_DRAIN (R110): CD0 finds a pan drained at a step boundary, which lets held waves and releases go ahead. -/
  | stepBoundaryDrain (pan : Fin 16)
  /-- CONFIG_SWITCH_WAVE (R112): At a drain with valid shadow planes, CD0 sets CFG_NEXT_EPOCH and sends the class-0 sluice token. -/
  | configSwitchWave (pan : Fin 16)
  /-- WAVE_DIE_DONE (R113): A die has no unswitched tile and no queued flit, and it reports DIE_DONE. -/
  | waveDieDone (die : Fin 74)
  /-- ROUTE_COMMIT (R112): After every die reports DIE_DONE, route tables take the new plane and the new pan epoch is recorded. -/
  | routeCommit (pan : Fin 16)
  /-- MODE_WAVE (R114): Firmware sets NEXT_MODE and sends a class-1 sluice token, at the next step or at a drain. -/
  | modeWave (pan : Fin 16)
  /-- PREEMPT_SWAP (R203): When a serving step is due and the job command ends, a class-2 wave swaps to the serving plane. -/
  | preemptSwap (pan : Fin 16)
  /-- PREEMPT_RETURN (R203): After the serving step, a class-2 wave swaps back to the job plane when a PLANE 1 RUN waits. -/
  | preemptReturn (pan : Fin 16)
  /-- BALANCE_EVAL (R126): At a step boundary of the balance set, at least 50 ms after the previous evaluation, firmware may switch one pan between prefill and decode. -/
  | balanceEval (ctx : CtxId)
  /-- ROUTER_PACKET (R18): A system-network router forwards, replicates or discards a packet by its route and context. -/
  | routerPacket (router : Fin 74) (net : VNet)
  /-- STREAM_BLOCK_ISSUE (R149): A mover checks a block's page entry and issues the block's requests, or halts the stream. -/
  | streamBlockIssue (stream : Nat)
  /-- STREAM_BLOCK_DONE (R145): A chain stage finishes writing a block, so the next stage takes it or the command completes. -/
  | streamBlockDone (stream : Nat)
  /-- PORTX_FLIT (R147): A flit pushed to a stream port X is written, absorbed, held or refused by the active WRITE. -/
  | portxFlit (die : Fin 74) (port : Fin 8) (vq : Fin 4)
  /-- PAGE_IN_REQUEST (R150): CD0 takes a page request, sets PANS_WAITING, merges duplicates and starts the page-in. -/
  | pageInRequest (stream : Nat)
  /-- PAGE_IN_DONE (R150): A page-in completes, the entry becomes PRESENT, and the halted stream resumes. -/
  | pageInDone (pagein : Nat)
  /-- PAGE_IN_TIMEOUT (R152): A page-in exceeds TIMEOUT_MS, and the command completes with ST_FAULT_CONTAINED. -/
  | pageInTimeout (pagein : Nat)
  /-- TIER_ACCESS (R160): A port or far die serves a request after checking its context and address. -/
  | tierAccess (die : Fin 16) (req : TierReq) (outcome : MediaOutcome)
  /-- WRITE_CRC_ERROR (R175): A device reports a write CRC error and the write is retried. -/
  | writeCrcError (device : Fin 48) (addr : BitVec 42) (rewrites : Nat)
  /-- CA_PARITY_ERROR (R175): A command-address parity error holds the channel, retrains it and replays its commands. -/
  | caParityError (device : Fin 48) (channel : Fin 4) (retrainOk : Bool)
  /-- PATROL_SCRUB (R176): The patrol scrub reads and rewrites units over PASS_HOURS and marks blocks for retirement. -/
  | patrolScrub (addr : BitVec 42) (outcome : MediaOutcome) (passEnds : Bool)
  /-- FAR_FLIT_REPLAY (R181): A CXL flit CRC error causes a link-layer replay, then link recovery if needed. -/
  | farFlitReplay (port : Fin 12) (recovered : Bool)
  /-- FAR_REQUEST_TIMEOUT (R181): A CXL request without completion for 2 ms is reissued once, and a second timeout loses the port. -/
  | farRequestTimeout (port : Fin 12) (second : Bool)
  /-- EVENT_LOG_POLL (R181): Firmware reads each CXL device event log every second and counts or retires frames. -/
  | eventLogPoll (port : Fin 12) (corrected : Nat) (uncorrected : List (BitVec 42))
  /-- STEP_BUILD (R200): The step builder fills a pan's work list with ready LC and BE rows, pads it and sends it. -/
  | stepBuild (pan : Fin 16)
  /-- WORK_LIST_DELIVERY (R201): The work list reaches the pan's stream ports over CTRL and sets the accepting epoch. -/
  | workListDelivery (pan : Fin 16)
  /-- EXCHANGE_PACKET (R246): An expert or embedding exchange packet arrives and is accepted or discarded by epoch. -/
  | exchangePacket (die : Fin 74) (port : Fin 8) (vq : Fin 4) (hdr : ExchangeHdr) (flits : List Flit)
  /-- ROW_FETCH_DONE (R265): An embedding row fetch completes, serves every waiting request and may pin the row. -/
  | rowFetchDone (die : Fin 74) (entry : BitVec 10) (row : Nat)
  /-- STEP_END (R337): A step's writes complete and its tokens reach CD0, so KV deltas are journalled and hot reports are sent. -/
  | stepEnd (epoch : Dword) (outcomes : List RowOutcome)
  /-- HOT_ROW_REPLICATE (R269): CD0 sums the reports and multicasts hot rows into the HOTROW units of the participating dies. -/
  | hotRowReplicate (entry : BitVec 10) (reports : List HotReport)
  /-- HOT_COPY_EVICT (R270): A replicated copy unread for 16 steps of its pan is evicted at a step boundary. -/
  | hotCopyEvict (die : Fin 74) (entry : BitVec 10) (row : Nat)
  /-- COMMIT_RECORD_SEND (R338): Once a step's deltas are durable and the steps it depends on have committed, the COMMIT record is sent. -/
  | commitRecordSend (epoch : Dword)
  /-- STEP_COMMIT (R338): On the COMMIT acknowledgement, or on the local commit, the step commits, rows advance and slots are freed. -/
  | stepCommit (epoch : Dword)
  /-- HELD_ADMISSION_RETRY (R196): At a step boundary held admissions and resumes are retried in hold order. -/
  | heldAdmissionRetry
  /-- HOLD_EXPIRY (R196): A held entry reaches HOLD_MAX_MS and its command completes with ST_ADMISSION_DENIED. -/
  | holdExpiry (c : CmdRef)
  /-- PAUSE_ARCHIVE_START (R205): When every step carrying a pause-pending row has committed or been abandoned, the entry becomes PAUSING and archiving starts. -/
  | pauseArchiveStart (index : Fin 16384)
  /-- PAUSE_ARCHIVE_DONE (R155): The archive record is written and durable, the tier-1 pages are freed and SEQ_PAUSE completes. -/
  | pauseArchiveDone (index : Fin 16384)
  /-- RESUME_PAGES_DONE (R157): The pages of a resuming sequence return with their CRC checked, and the sequence takes its recorded state. -/
  | resumePagesDone (index : Fin 16384) (crcOk : Bool)
  /-- TTL_SWEEP (R158): Once per TTL clock second, archives at or past their deadline are freed and counted. -/
  | ttlSweep
  /-- TTL_CHECKPOINT (R159): Every 60 s the TTL clock is written to tier 2 and a CLOCK record is journalled. -/
  | ttlCheckpoint
  /-- JOURNAL_HEARTBEAT (R336): With no record outstanding, the ward sends a HEARTBEAT every 10 ms. -/
  | journalHeartbeat
  /-- JOURNAL_RECORD_RECEIVE (R336): The buddy writes a sealed journal record to its mirror in JSEQ order and acknowledges it. -/
  | journalRecordReceive (frame : JournalFrame)
  /-- JOURNAL_ACK_RECEIVE (R336): An acknowledgement reaches the ward and makes records durable. -/
  | journalAckReceive (jseq : Dword)
  /-- CONTROL_LOG_APPLY (R394): CD1 applies a control-log record to its tables and acknowledges it. -/
  | controlLogApply
  /-- WARD_LOSS (R344): No ward frame for LOSS_MS, so the buddy fences the ward's generation and sends a CLAIM. -/
  | wardLoss
  /-- CLAIM_RECEIVE (R346): A standby spare takes the first CLAIM, assumes the chip ID and restores state from the mirror. -/
  | claimReceive (claim : Claim) (mirror : Machine.MirrorImage)
  /-- CLAIM_RETRY (R348): Without a spare of the next generation, the buddy keeps custody and resends the CLAIM every 10 s. -/
  | claimRetry
  /-- PAIRING (R413): Ward and buddy exchange attestations and form a pair key, and the ward streams a snapshot. -/
  | pairing (evidence : PairEvidence)
  /-- PAIRING_RETRY (R413): A refused or ended pairing is retried every 10 s. -/
  | pairingRetry
  /-- REMOTE_PAGE_PULL (R350): The spare pulls a REMOTE page from the buddy's mirror into its own tiers. -/
  | remotePagePull (page : RemotePage) (data : List Byte) (crcOk : Bool)
  /-- FAULT_EVENT (R357): The collector receives a fault, counts and records it, and takes the source's reaction. -/
  | faultEvent (event : FaultEvent)
  /-- SPARE_SELF_TEST_DONE (R22): The spare's self-test finishes, and its tunnels are bound and the spare map written, or it is marked failed. -/
  | spareSelfTestDone (spare : Fin 2) (pass : Bool)
  /-- FORCED_EVENT (R368): A forced event of a source is raised once per millisecond while FORCE_REPEAT remains. -/
  | forcedEvent (source : BitVec 16)
  /-- SRC_FORCE_SET (R368): Writing FORCE in FLT_SRC_CFG starts forced events of the selected source. -/
  | srcForceSet (repeats : BitVec 16)
  /-- CORE_KICK (R364): A control core refreshes its watchdog through FLT_CORE_KICK. -/
  | coreKick (core : Fin 8)
  /-- CORE_WATCHDOG_EXPIRY (R364): A core's watchdog goes 4 ms without a refresh and raises CTL_CORE with an NMI. -/
  | coreWatchdogExpiry (core : Fin 8)
  /-- CORE_RESTART (R392): The NMI receiver restores the crashed core from the pristine copy and restarts it. -/
  | coreRestart (core : Fin 8)
  /-- CORE_RETIRE (R393): A core that recrashes, or is not restarted within 50 ms, is retired and the spare takes its role. -/
  | coreRetire (core : Fin 8)
  /-- CD1_TAKEOVER (R395): CD1 takes over the control role from CD0 when no spare core remains. -/
  | cd1Takeover
  /-- ALIVE_KICK (R369): Writing 0x5A3C to FLT_ALIVE_KICK refreshes the heartbeat. -/
  | aliveKick (value : Word)
  /-- ALIVE_OUT_EDGE (R369): ALIVE_OUT toggles every 500 µs while running. -/
  | aliveOutEdge
  /-- HEARTBEAT_TIMEOUT (R370): 10 ms without a refresh stops ALIVE_OUT and records CTL_ALIVE. -/
  | heartbeatTimeout
  /-- BITTERN_ACCUMULATE (R372): Every 60 s firmware adds each accumulator's increase to the bittern totals. -/
  | bitternAccumulate
  /-- LIFETIME_WRITE (R373): Every 15 minutes, and before an update or shutdown, the shadow is written to the next flash slot. -/
  | lifetimeWrite
  /-- ARR_ARITH_CLR (R97): Writing 1 clears the die's four arithmetic counters. -/
  | arrArithClr (die : Fin 74) (value : Word)
  /-- SPILL_HWM_CLEAR (R128): Writing CLEAR in CFG_SPILL_HWM clears the spill high-water mark. -/
  | spillHwmClear (die : Fin 74) (value : Word)
  /-- PMC_HWM_CLR (R387): Writing 1 clears every HWM of the die and marks open windows HWM_SHARED. -/
  | pmcHwmClr (die : Fin 74) (value : Word)
  /-- PMC_PAN_CLR (R382): Writing 1 clears the selected pan's histograms and totals. -/
  | pmcPanClr (value : Word)
  /-- FW_LOCK (R401): Setting LOCK freezes every RWL field until the next chip reset. -/
  | fwLock (value : Word)
  /-- FW_SVN_ADVANCE (R400): Anti-rollback fuses are blown up to TARGET within the running image's SVN. -/
  | fwSvnAdvance (value : Word)
  /-- FW_KEY_REVOKE (R400): A key slot's revoke fuse is blown, except for the running image's slot. -/
  | fwKeyRevoke (value : Word)
  /-- FW_PROMOTION (R406): After 15 minutes without a fatal event, image B is copied to image A and the SVN is advanced. -/
  | fwPromotion
  /-- ENTROPY_HEALTH_FAIL (R407): A noise source fails its health test, and the engine reseeds from CD1 or sets ENTROPY_FAIL. -/
  | entropyHealthFail (source : Fin 2)
  /-- PERST_N_ASSERT (R418): PERST_N assertion resets the package. -/
  | perstNAssert
  /-- PERST_N_RELEASE (R431): PERST_N release samples the straps, trains the host link and starts the ROM. -/
  | perstNRelease (straps : Word) (media : BootMedia)
  /-- MEMORY_TRAINING (R172): At start-up step 5, port dies train GDDR7 devices and far dies train CXL ports in parallel. -/
  | memoryTraining (near : List NearTrain) (far : List FarTrain)
  /-- DIE_SELF_TEST (R433): Array islands power on and every die tests its tiles and tier 0, and failed dies are replaced. -/
  | dieSelfTest (failed : List Nat)
  /-- DISCOVERY (R307): At start-up step 7 all links start training and discovery, and the chip ID is taken. -/
  | discovery
  /-- READY (R431): Start-up reaches Ready: LOCK, BUILD_EN and READY are set and pairing begins. -/
  | ready
  /-- LINK_ENABLE (R307): Setting EN in LNK_CTL moves a link from OFF to DETECT. -/
  | linkEnable (link : Fin 48)
  /-- LINK_SIGNAL_DETECT (R307): A link in DETECT finds a received signal and enters TRAIN. -/
  | linkSignalDetect (link : Fin 48)
  /-- LINK_TRAINING (R308): A link tries lane and rate combinations and keeps the first that passes, or goes DOWN. -/
  | linkTraining (link : Fin 48) (offer : LinkOffer)
  /-- DISCOVERY_RECORD_SEND (R315): In NEGOTIATE, and every second after, each end sends its discovery record. -/
  | discoveryRecordSend (link : Fin 48)
  /-- DISCOVERY_RECORD_RECEIVE (R315): A received discovery record is checked and the link is settled under Table 12.6. -/
  | discoveryRecordReceive (link : Fin 48) (rec : DiscoveryRec)
  /-- ELP_FRAME_RECEIVE (R313): A frame is CRC-checked, acknowledged or reported for replay, and delivered or discarded. -/
  | elpFrameReceive (link : Fin 48) (frame : ElpFrame) (fec : FecCount)
  /-- ACK_TIMEOUT (R313): No acknowledgement within 1 ms, or the replay limit reached, puts the link in RETRAIN. -/
  | ackTimeout (link : Fin 48) (retrainOk : Bool)
  /-- LINK_DOWN (R314): A link goes DOWN and its unacknowledged frames move to other links. -/
  | linkDown (link : Fin 48)
  /-- LINK_DOWN_RETRY (R307): A DOWN link returns to DETECT every 10 s. -/
  | linkDownRetry (link : Fin 48)
  /-- MODULE_INSERT (R310): A cable module is inserted and the link starts DETECT. -/
  | moduleInsert (link : Fin 48)
  /-- MODULE_REMOVE (R310): A cable module is removed and the link goes DOWN. -/
  | moduleRemove (link : Fin 48)
  /-- CMIS_POLL (R310): Every 100 ms the link die polls module state, flags and temperature. -/
  | cmisPoll (link : Fin 48) (poll : CmisPoll)
  /-- NO_ROUTE_TIMEOUT (R323): A frame without a path for 1 s is discarded and its destination is listed as unreachable. -/
  | noRouteTimeout (dest : BitVec 10)
  /-- SHARD_JOIN (R328): A source receives a receiver's JOIN for a distribution pass. -/
  | shardJoin (chip : BitVec 10) (digest : List Byte)
  /-- SHARD_PASS_START (R328): 5 ms after a pass's first JOIN, the source sends the shards over the tree or by multicast. -/
  | shardPassStart (digest : List Byte)
  /-- SHARD_TIMEOUT (R329): A missing or corrupt shard is refetched from alternate holders, and the import fails after three refetches. -/
  | shardTimeout (c : CmdRef) (shard : Nat) (data : List Byte)
  /-- GOVERNOR_TICK (R421): Every 1 ms the governor sets pan clocks and row voltages within the array budget. -/
  | governorTick (models : List DieModel) (nonArray : Nat) (idle : Nat)
  /-- POWER_SAMPLE (R420): Every 100 µs rail power is sampled and averaged into PWR_PKG_POWER. -/
  | powerSample (watts : Nat) (dies : List (Nat × Nat))
  /-- DROOP_DETECT (R422): A 50 mV VDD_ARR droop halves ARRAY_CLK within 2 cycles and raises PWR_DROOP. -/
  | droopDetect (die : Fin 74)
  /-- DROOP_RECOVER (R422): 64 cycles after the voltage recovers, the die restores its clock. -/
  | droopRecover (die : Fin 74)
  /-- THERMAL_SAMPLE (R423): Every 100 µs junction sensors are read and dies throttle by 125 MHz steps when hot. -/
  | thermalSample (temps : List (Nat × Nat))
  /-- RAIL_FAULT (R418): A rail outside its limits for more than 100 µs raises PWR_RAIL. -/
  | railFault (rail : Fin 7)
  /-- PWR_GOOD_FALL (R418): PWR_GOOD falls while PERST_N is released, and the package resets at once. -/
  | pwrGoodFall
  /-- MFR_POWER_CAP (R420): The board writes its power cap over PMBus, and it is clamped to 1,500–4,800 W. -/
  | mfrPowerCap (watts : BitVec 16)
  /-- READ_PIN (R429): The PMBus command returns the package input power. -/
  | readPin
  /-- READ_TEMPERATURE_1 (R429): The PMBus command returns the hottest junction temperature. -/
  | readTemperature1
  /-- STATUS_WORD (R429): The PMBus command returns the package status word. -/
  | statusWord
  /-- PLDM_SENSOR_READ (R429): The PLDM numeric sensor request returns package power and temperatures over MCTP. -/
  | pldmSensorRead (sensor : Nat)
  /-- MCTP_LIFETIME_READ (R375): The Chroica vendor message reads the lifetime record space over MCTP. -/
  | mctpLifetimeRead (offset : Nat) (length : Nat)
  /-- MCTP_STBY_READ (R375): The standby logic answers MCTP reads of the history queue, FLT_STBY_FATAL and FLT_STBY_LAST. -/
  | mctpStbyRead (item : Nat)
  /-- SHUTDOWN (R435): The MCTP SHUTDOWN message settles steps, writes the record, stops heartbeats and answers SHUTDOWN_READY. -/
  | shutdown
  /-- VF_ENABLE (R280): The host sets or clears VF Enable in the SR-IOV capability, which makes the virtual functions and their contexts present or absent and decides whether CMD_VF_ALLOT takes writes. -/
  | vfEnable (value : Bool)
  /-- LIFETIME_WRITE_DONE (R373): A background slot write of the lifetime record finishes its program and verify, clears WRITING, and sets WRITE_ERR and LAST_SLOT. -/
  | lifetimeWriteDone (verifyOk : Bool)
  /-- POWER_UP (R418): The rails ramp in order and VDD_STBY comes up, starting the standby logic with ALIVE_OUT low and the standby registers and history queue at their reset values. -/
  | powerUp
  /-- POWER_DOWN (R418): The rails fall in reverse order with VDD_STBY last, and the standby logic, history queue and STBY registers lose their contents. -/
  | powerDown
  /-- BOUNDARY_SCAN (R402): The board drives TCK, TMS, TDI and TRST_N, and the JTAG port performs IEEE 1149.1 boundary-scan and IDCODE operations. -/
  | boundaryScan (tck : Bool) (tms : Bool) (tdi : Bool) (trstN : Bool)
deriving DecidableEq, Repr

end Sys2Proof
end

