-- ==== Sys2Proof/Machine/Tab.lean ====
section
/-! DEFINITION. The operations of the sparse arrays: look up, and update in the canonical form (keys strictly rising, no entry equal
to the default). Memory is the array of bytes whose default is 0. -/

namespace Sys2Proof.Machine

/-- The value at key k; the default d where no pair lists it. -/
def tget {α : Type} (d : α) : Tab α → Nat → α
  | [], _ => d
  | (j, v) :: t, k => if j = k then v else tget d t k

/-- The array with v at key k, in the canonical form. -/
def tput {α : Type} [DecidableEq α] (d : α) : Tab α → Nat → α → Tab α
  | [], k, v => if v = d then [] else [(k, v)]
  | (j, w) :: t, k, v =>
    if k < j then (if v = d then (j, w) :: t else (k, v) :: (j, w) :: t)
    else if k = j then (if v = d then t else (k, v) :: t)
    else (j, w) :: tput d t k v

/-- The array with f applied to the value at key k. -/
def tmod {α : Type} [DecidableEq α] (d : α) (t : Tab α) (k : Nat) (f : α → α) : Tab α :=
  tput d t k (f (tget d t k))

/-- Keys strictly rise and no listed value is the default. -/
def twf {α : Type} [DecidableEq α] (d : α) : Tab α → Bool
  | [] => true
  | [(_, v)] => !decide (v = d)
  | (j, v) :: (k, w) :: t => !decide (v = d) && decide (j < k) && twf d ((k, w) :: t)

/-- Listed keys. -/
def tkeys {α : Type} (t : Tab α) : List Nat := t.map (·.1)

/-- One byte of memory. -/
def memGet (m : Mem) (a : Nat) : Byte := tget 0 m a

/-- n bytes from address a. -/
def memRead (m : Mem) (a : Nat) : Nat → List Byte
  | 0 => []
  | n + 1 => memGet m a :: memRead m (a + 1) n

/-- Bytes written from address a upward. -/
def memWrite (m : Mem) (a : Nat) : List Byte → Mem
  | [] => m
  | b :: bs => memWrite (tput 0 m a b) (a + 1) bs

/-- n bytes from address a set to zero (R163): the listed pairs of the range go. -/
def memZero (m : Mem) (a n : Nat) : Mem := m.filter fun p => !(decide (a ≤ p.1) && decide (p.1 < a + n))

/-- The canonical form of a memory. -/
def Memory.wf (m : Mem) : Bool := twf (0 : Byte) m

/-- Little-endian bytes of a number (R5). -/
def leBytes : Nat → Nat → List Byte
  | 0, _ => []
  | n + 1, x => BitVec.ofNat 8 x :: leBytes n (x / 256)

/-- The number that little-endian bytes spell (R5). -/
def leNat : List Byte → Nat
  | [] => 0
  | b :: bs => b.toNat + 256 * leNat bs

/-- n bytes of a list from offset o, bytes beyond its end read as 0. -/
def bytesAt (l : List Byte) (o : Nat) : Nat → List Byte
  | 0 => []
  | n + 1 => l.getD o 0 :: bytesAt l (o + 1) n

/-- The n-byte little-endian field at offset o of a record. -/
def fieldAt (l : List Byte) (o n : Nat) : Nat := leNat (bytesAt l o n)

/-- Bits [hi:lo] of a number, by lowest bit and width. -/
def bits (x lo width : Nat) : Nat := x / 2 ^ lo % 2 ^ width

/-- Bit i of a number. -/
def bit (x i : Nat) : Bool := decide (x / 2 ^ i % 2 = 1)

/-- 1 for true. -/
def b2n (b : Bool) : Nat := if b then 1 else 0

/-- The least number of n-sized units that hold x. -/
def ceilDiv (x n : Nat) : Nat := (x + n - 1) / n

/-- x put into a list in order, before what is not less. -/
def putBefore {α : Type} (le : α → α → Bool) (x : α) : List α → List α
  | [] => [x]
  | y :: ys => if le x y then x :: y :: ys else y :: putBefore le x ys

/-- A list in order; what is equal keeps its order. -/
def sortBy {α : Type} (le : α → α → Bool) (l : List α) : List α := l.foldr (putBefore le) []

/-- Keys of a list without repeats, in order of first occurrence. -/
def dedup (l : List Nat) : List Nat := l.foldl (fun r k => if r.contains k then r else r ++ [k]) []

end Sys2Proof.Machine
end

