-- ==== Sys2Proof/Config.lean ====
section
/-! DEFINITION. What the manual leaves open: every `opaque` constant here has no body, so that nothing can evaluate it or prove a value of
it. A free value is one of these applied to the counter `State.free`, which a step that draws one advances; a firmware choice or a
cryptographic function is one applied to its operands. -/

namespace Sys2Proof.Config

/-- A free 32-bit value: a bounded-error function result, an unstated result, a random draw (notes/assumptions/8). -/
opaque freeWord : Nat → Word

/-- A free 64-bit value: keys' halves, seeds and salts drawn from the entropy source (R82, R161, R407). -/
opaque freeDword : Nat → Dword

/-- A free natural number, for counts and measures that the manual does not fix. -/
opaque freeNat : Nat → Nat

/-- The counter-based generator of a tile's stochastic rounding (R82): ARR_SR_SEED, the tile's address and the elements rounded so far give 16 bits. The
manual names no algorithm. -/
opaque srDraw : Nat → Nat → Nat → BitVec 16

/-- Pans that a window's rows or tokens need under a cost table (R126), whose formula the manual does not state: the table's BASE, TOK, CTX, MAX_ROWS and
MAX_TOKENS, and the count. -/
opaque pansNeeded : List Nat → Nat → Nat

/-- Whether the KV pages of a model of a shape hold BF16 (R156): the images say so, in no field that the manual gives. -/
opaque kvBf16 : Nat → Bool

/-- The die of a pan, by its place in row-major order, on which the KV descriptors of a row run (R201), which the manual leaves open: pan and row. -/
opaque kvDie : Nat → Nat → Nat

/-- Bytes of the section of a TYPE (1–7) of a handoff block (R405), by the TYPE and the free counter: firmware lays the sections out. -/
opaque handoffSection : Nat → Nat → List Byte

/-- A 4 KiB unit under AES-256-XTS (R161): data key, tweak key, tweak and unit. -/
opaque xtsUnit : BitVec 256 → BitVec 256 → BitVec 128 → List Byte → List Byte

/-- A free truth value. -/
opaque freeBool : Nat → Bool

/-- A fresh key of 256 bits (R161, R411). -/
opaque freeKey : Nat → BitVec 256

/-- SHAKE256 with 256 bits of output over a message (R99, R215, R399), as a number. -/
opaque shake256Bits : List Byte → BitVec 256
/-- SHAKE256 with 256 bits of output, as 32 bytes. -/
def shake256 (m : List Byte) : List Byte := Machine.leBytes 32 (shake256Bits m).toNat

/-- SHAKE256 with 512 bits of output over a message (R399), as a number. -/
opaque shake512Bits : List Byte → BitVec 512
/-- SHAKE256 with 512 bits of output, as 64 bytes. -/
def shake512 (m : List Byte) : List Byte := Machine.leBytes 64 (shake512Bits m).toNat

/-- ML-DSA-65 verification: public key digest, message and signature (R399). -/
opaque mldsaVerify : List Byte → List Byte → List Byte → Bool

/-- ML-DSA-65 signature of a message under the device key (R410), as a number. -/
opaque mldsaSignBits : List Byte → BitVec 26472
/-- ML-DSA-65 signature of a message under the device key, 3,309 bytes. -/
def mldsaSign (m : List Byte) : List Byte := Machine.leBytes 3309 (mldsaSignBits m).toNat

/-- ML-KEM-1024 decapsulation of a ciphertext under the key of a context at an EKGEN: the shared secret (R411, R412). -/
opaque kemDecap : Nat → Nat → List Byte → Option (BitVec 256)

/-- The ML-KEM-1024 encapsulation key of a context at an EKGEN (R411), as a number. -/
opaque kemEkBits : Nat → Nat → BitVec 12544
/-- The ML-KEM-1024 encapsulation key of a context at an EKGEN, 1,568 bytes. -/
def kemEk (c g : Nat) : List Byte := Machine.leBytes 1568 (kemEkBits c g).toNat

/-- EK_ID of a context at an EKGEN: the first 8 bytes of SHAKE256 over its encapsulation key (R411). -/
def ekId (c g : Nat) : List Byte := (shake256 (kemEk c g)).take 8

/-- 64 KiB blocks that one slice of a given rank takes on each die of a pan, by the shape identifier and the dies of the pan: Guend lays
adapters out per model (R217, R227). -/
opaque sliceBlocks : Nat → Nat → Nat → Nat

/-- AES-256 key unwrap of wrapped keys under a secret; none when the integrity check fails (R412). -/
opaque keyUnwrap : BitVec 256 → List Byte → Option (BitVec 256 × BitVec 256)

/-- The 256-bit digest in fuse key slot k (R397, R399), as a number. -/
opaque fuseKeyBits : Nat → BitVec 256
/-- The digest in fuse key slot k, as 32 bytes. -/
def fuseKey (k : Nat) : List Byte := Machine.leBytes 32 (fuseKeyBits k).toNat

/-- The ROM's own revision, as MEASURE[0] takes it (R409). -/
opaque romRevision : List Byte

/-- The device's ML-DSA-65 public key (R408), as a number. -/
opaque devicePkBits : BitVec 15616
/-- The device's ML-DSA-65 public key, 1,952 bytes. -/
def devicePk : List Byte := Machine.leBytes 1952 devicePkBits.toNat

/-- The endorsement in the identity partition (R408), as a number. -/
opaque endorsementBits : BitVec 26472
/-- The endorsement in the identity partition, 3,309 bytes. -/
def endorsement : List Byte := Machine.leBytes 3309 endorsementBits.toNat

/-- The 32-bit IDCODE of the JTAG port (Table 16.6). -/
opaque idcode : Word

/-- Bits of the JTAG instruction register beyond the two of IEEE 1149.1 (Table 16.6, R443). -/
opaque irMore : Nat
/-- Bits of the JTAG instruction register. -/
def irBits : Nat := irMore + 2
/-- Cells of the boundary-scan register. -/
opaque boundaryBits : Nat

/-- What a JTAG instruction selects: true for the boundary-scan register, false for BYPASS (Table 16.6); IDCODE is `idcodeInstr`. -/
opaque selectsBoundary : List Bool → Bool
/-- The bits of the JTAG instruction IDCODE. -/
opaque idcodeBit : Nat → Bool
/-- The JTAG instruction IDCODE. -/
def idcodeInstr : List Bool := (List.range irBits).map idcodeBit

/-- The YD200 slot plan (R56): a number for each link (die, tile and port) and slot, whose remainder by 4 names a circuit. The image format does not
carry the plan. -/
opaque slotPlan : Nat → Nat

/-- The hash of a flow identifier that spreads flows over planes and links (R323). -/
opaque flowHash : Word → Nat

end Sys2Proof.Config
end

