-- ==== Sys2Proof/Machine/Operands.lean ====
section
/-! DEFINITION. The operand forms of the tiles: number formats (Tables 3.1 and 3.2), their values as exact dyadic numbers, rounding,
the IEEE operations of R74 and R87, and the elements that a flit carries (R70). -/

namespace Sys2Proof.Machine

/-- The value of an operand: not a number, an infinity, or (−1)^neg × m × 2^e; m = 0 is a signed zero. -/
inductive Fv where
  | nan
  | inf (neg : Bool)
  | num (neg : Bool) (m : Nat) (e : Int)
deriving DecidableEq, Repr

/-- A floating-point layout of Table 3.2: exponent and mantissa widths, bias, and its specials: 0 IEEE, 1 one NaN code and no infinity,
2 none. -/
structure FpFmt where
  eb : Nat
  mb : Nat
  bias : Int
  special : Nat
deriving DecidableEq, Repr

/-- FP32 (Table 3.2). -/
def fp32 : FpFmt := ⟨8, 23, 127, 0⟩
/-- BF16. -/
def bf16 : FpFmt := ⟨8, 7, 127, 0⟩
/-- FP8 E4M3. -/
def e4m3 : FpFmt := ⟨4, 3, 7, 1⟩
/-- FP8 E5M2. -/
def e5m2 : FpFmt := ⟨5, 2, 15, 0⟩
/-- MXFP6 E3M2. -/
def e3m2 : FpFmt := ⟨3, 2, 3, 2⟩
/-- MXFP6 E2M3. -/
def e2m3 : FpFmt := ⟨2, 3, 1, 2⟩
/-- MXFP4 E2M1. -/
def e2m1 : FpFmt := ⟨2, 1, 1, 2⟩

/-- The value that a code of a layout encodes (R67). -/
def FpFmt.decode (f : FpFmt) (x : Nat) : Fv :=
  let m := x % 2 ^ f.mb
  let e := x / 2 ^ f.mb % 2 ^ f.eb
  let neg := bit x (f.mb + f.eb)
  if f.special = 0 ∧ e = 2 ^ f.eb - 1 then (if m = 0 then .inf neg else .nan)
  else if f.special = 1 ∧ e = 2 ^ f.eb - 1 ∧ m = 2 ^ f.mb - 1 then .nan
  else if e = 0 then .num neg m (1 - f.bias - f.mb)
  else .num neg (2 ^ f.mb + m) (e - f.bias - f.mb)

/-- m × 2^(e − q) rounded to the nearest integer, halves to even (R80). -/
def roundAt (m : Nat) (e q : Int) : Nat :=
  if q ≤ e then m * 2 ^ (e - q).toNat
  else
    let k := (q - e).toNat
    let d := m / 2 ^ k
    let r := m % 2 ^ k
    if 2 ^ (k - 1) < r ∨ (r = 2 ^ (k - 1) ∧ d % 2 = 1) then d + 1 else d

/-- The exponent of the last place at which a layout holds a magnitude m × 2^e: subnormal spacing at the bottom. -/
def FpFmt.quantum (f : FpFmt) (m : Nat) (e : Int) : Int := max (Nat.log2 m + e - f.mb) (1 - f.bias - f.mb)

/-- The greatest finite magnitude of a layout, as (m, e). -/
def FpFmt.maxFinite (f : FpFmt) : Nat × Int :=
  match f.special with
  | 0 => (2 ^ (f.mb + 1) - 1, 2 ^ f.eb - 2 - f.bias - f.mb)
  | 1 => (2 ^ (f.mb + 1) - 2, 2 ^ f.eb - 1 - f.bias - f.mb)
  | _ => (2 ^ (f.mb + 1) - 1, 2 ^ f.eb - 1 - f.bias - f.mb)

/-- m × 2^e ≤ n × 2^d. -/
def dyLe (m : Nat) (e : Int) (n : Nat) (d : Int) : Bool := decide (m * 2 ^ (e - min e d).toNat ≤ n * 2 ^ (d - min e d).toNat)

/-- The code of a magnitude n × 2^q that the layout holds exactly at that spacing. -/
def FpFmt.pack (f : FpFmt) (neg : Bool) (n : Nat) (q : Int) : Nat :=
  let s := b2n neg * 2 ^ (f.mb + f.eb)
  let k := Nat.log2 n - f.mb
  if n < 2 ^ f.mb then s + n
  else s + ((q + f.mb + k + f.bias).toNat) * 2 ^ f.mb + (n / 2 ^ k - 2 ^ f.mb)

/-- The code of an infinity of an IEEE layout, and of the canonical NaN (R84). -/
def FpFmt.infCode (f : FpFmt) (neg : Bool) : Nat := b2n neg * 2 ^ (f.mb + f.eb) + (2 ^ f.eb - 1) * 2 ^ f.mb
/-- The canonical NaN (R84): 0x7FC0_0000, 0x7FC0, 0x7F or 0x7E. -/
def FpFmt.nanCode (f : FpFmt) : Nat :=
  if f.special = 1 then 2 ^ (f.mb + f.eb) - 1 else (2 ^ f.eb - 1) * 2 ^ f.mb + 2 ^ (f.mb - 1)

/-- Round-to-nearest-even into an IEEE layout (R80, R83): overflow after rounding gives infinity. -/
def FpFmt.encode (f : FpFmt) : Fv → Nat
  | .nan => f.nanCode
  | .inf neg => f.infCode neg
  | .num neg 0 _ => b2n neg * 2 ^ (f.mb + f.eb)
  | .num neg m e =>
    let q := f.quantum m e
    let n := roundAt m e q
    if dyLe n q f.maxFinite.1 f.maxFinite.2 then f.pack neg n q else f.infCode neg

/-- An FP32 word's value, and a value rounded to an FP32 word. -/
def fpOf (w : Word) : Fv := fp32.decode w.toNat
/-- A value rounded to FP32, round-to-nearest-even. -/
def toFp (v : Fv) : Word := BitVec.ofNat 32 (fp32.encode v)

/-! ### Exact operations (R74, R87) -/

/-- The signed integer of a magnitude. -/
def signed (neg : Bool) (m : Nat) : Int := if neg then -(m : Int) else m

/-- A signed dyadic as a value; an exact zero is +0. -/
def ofDy (m : Int) (e : Int) : Fv := .num (decide (m < 0)) m.natAbs e

/-- The exact sum; opposite infinities give NaN, and a zero sum of unlike signs is +0. -/
def Fv.add : Fv → Fv → Fv
  | .nan, _ => .nan
  | _, .nan => .nan
  | .inf a, .inf b => if a = b then .inf a else .nan
  | .inf a, _ => .inf a
  | _, .inf b => .inf b
  | .num a m e, .num b n d =>
    if m = 0 ∧ n = 0 then .num (a && b) 0 0
    else
      let q := min e d
      ofDy (signed a m * 2 ^ (e - q).toNat + signed b n * 2 ^ (d - q).toNat) q

/-- The exact product; infinity times zero gives NaN. -/
def Fv.mul : Fv → Fv → Fv
  | .nan, _ => .nan
  | _, .nan => .nan
  | .inf a, .inf b => .inf (a != b)
  | .inf a, .num b n _ => if n = 0 then .nan else .inf (a != b)
  | .num a m _, .inf b => if m = 0 then .nan else .inf (a != b)
  | .num a m e, .num b n d => .num (a != b) (m * n) (e + d)

/-- A value times 2^k. -/
def Fv.scale (k : Int) : Fv → Fv
  | .num a m e => .num a m (e + k)
  | v => v

/-- x < y for values that are numbers; −0 and +0 are equal. -/
def Fv.lt : Fv → Fv → Bool
  | .nan, _ => false
  | _, .nan => false
  | .inf a, .inf b => a && !b
  | .inf a, _ => a
  | _, .inf b => !b
  | .num a m e, .num b n d =>
    let q := min e d
    decide (signed a m * 2 ^ (e - q).toNat < signed b n * 2 ^ (d - q).toNat)

/-- The sign of a value. -/
def Fv.neg? : Fv → Bool
  | .nan => false
  | .inf a => a
  | .num a _ _ => a

/-- A value is a NaN; an infinity; a zero. -/
def Fv.isNan (v : Fv) : Bool := decide (v = .nan)
/-- A value is an infinity. -/
def Fv.isInf : Fv → Bool
  | .inf _ => true
  | _ => false
/-- A value is a zero of either sign. -/
def Fv.isZero : Fv → Bool
  | .num _ 0 _ => true
  | _ => false

/-- ADD of R87. -/
def fAdd (a b : Word) : Word := toFp ((fpOf a).add (fpOf b))
/-- MUL of R87. -/
def fMul (a b : Word) : Word := toFp ((fpOf a).mul (fpOf b))
/-- FMA of R87: a × b + c, rounded once. -/
def fFma (a b c : Word) : Word := toFp (((fpOf a).mul (fpOf b)).add (fpOf c))
/-- MIN of R87: NaN when either input is, −0 below +0. -/
def fMin (a b : Word) : Word :=
  let x := fpOf a
  let y := fpOf b
  toFp (if x.isNan || y.isNan then .nan else if x.lt y then x else if y.lt x then y else if x.neg? then x else y)
/-- MAX of R87. -/
def fMax (a b : Word) : Word :=
  let x := fpOf a
  let y := fpOf b
  toFp (if x.isNan || y.isNan then .nan else if x.lt y then y else if y.lt x then x else if x.neg? then y else x)

/-- The integer square root by bits, from bit k down. -/
def isqrtGo (n : Nat) : Nat → Nat → Nat
  | 0, r => if (r + 1) * (r + 1) ≤ n then r + 1 else r
  | k + 1, r => isqrtGo n k (if (r + 2 ^ (k + 1)) * (r + 2 ^ (k + 1)) ≤ n then r + 2 ^ (k + 1) else r)

/-- The greatest r with r² ≤ n. -/
def isqrt (n : Nat) : Nat := isqrtGo n (Nat.log2 n / 2 + 1) 0

/-- SQRT of Table 3.6, correctly rounded: the root taken with 30 extra bits and a sticky bit. -/
def fSqrt (a : Word) : Word :=
  toFp (match fpOf a with
    | .nan => .nan
    | .inf neg => if neg then .nan else .inf false
    | .num neg 0 _ => .num neg 0 0
    | .num true _ _ => .nan
    | .num false m e =>
      let k : Nat := if (e - 60) % 2 = 0 then 60 else 61
      let n := m * 2 ^ k
      let r := isqrt n
      .num false (2 * r + b2n (decide (r * r ≠ n))) ((e - k) / 2 - 1))

/-! ### Formats by code (Table 3.1) -/

/-- Bits of an element of a format code. -/
def fmtWidth (c : Nat) : Nat := if c = 0 ∨ c = 11 then 32 else if c = 1 then 16 else if c = 6 ∨ c = 7 then 6 else if c = 8 then 4 else 8

/-- A format with a block scale (R68). -/
def isMx (c : Nat) : Bool := decide (4 ≤ c) && decide (c ≤ 9)

/-- The layout of a floating-point code. -/
def fmtOf (c : Nat) : FpFmt :=
  match c with
  | 0 => fp32 | 1 => bf16 | 2 => e4m3 | 3 => e5m2 | 4 => e4m3 | 5 => e5m2 | 6 => e3m2 | 7 => e2m3 | _ => e2m1

/-- The value of an n-bit two's-complement integer times 2^e; its zero is +0. -/
def intVal (x n : Nat) (e : Int) : Fv := ofDy (if bit x (n - 1) then (x : Int) - 2 ^ n else x) e

/-- The value of an element code, before its block's scale (R67, R69). -/
def elemVal (c x : Nat) : Fv :=
  if c = 9 then intVal x 8 (-6) else if c = 10 then intVal x 8 0 else if c = 11 then intVal x 32 0 else (fmtOf c).decode x

/-- Element i of a payload (R70). -/
def elemCode (c : Nat) (p : BitVec 512) (i : Nat) : Nat := p.toNat / 2 ^ (fmtWidth c * i) % 2 ^ fmtWidth c

/-- Valid bytes of a DATA flit (R41). -/
def flitValid (f : Flit) : Nat := f.arg.toNat % 64 + 1

/-- Whole elements of a flit (R70): by its valid bytes for the widths of a byte or more, four elements for every three bytes of 6-bit
elements, two for every byte of 4-bit elements. -/
def flitCount (c : Nat) (f : Flit) : Nat := flitValid f * 8 / fmtWidth c

/-- A flit of 6-bit or 4-bit elements holds whole blocks when it is not full (R70). -/
def flitWhole (c : Nat) (f : Flit) : Bool :=
  if c = 6 ∨ c = 7 then decide (flitValid f = 48) || decide (flitValid f % 24 = 0)
  else if c = 8 then decide (flitValid f % 16 = 0) else true

/-- The element codes of a flit, and their values. -/
def flitCodes (c : Nat) (f : Flit) : List Nat := (List.range (flitCount c f)).map (elemCode c f.payload)
/-- The element values of a flit. -/
def flitVals (c : Nat) (f : Flit) : List Fv := (flitCodes c f).map (elemVal c)

/-- A payload from element codes of a width. -/
def packBits (w : Nat) : List Nat → Nat
  | [] => 0
  | x :: xs => x % 2 ^ w + 2 ^ w * packBits w xs

/-- A DATA flit that holds n bytes. -/
def dataFlit (payload n : Nat) : Flit := { kind := 0, arg := BitVec.ofNat 10 (n - 1), payload := BitVec.ofNat 512 payload }

/-- A DATA flit of element codes of width w. -/
def packFlit (w : Nat) (xs : List Nat) : Flit := dataFlit (packBits w xs) (ceilDiv (w * xs.length) 8)

/-- A bubble (R41). -/
def bubbleFlit : Flit := { kind := 4, arg := 0, payload := 0 }

/-- A flit's payload as bytes, as many as are valid. -/
def flitBytes (f : Flit) : List Byte := leBytes (flitValid f) f.payload.toNat

/-- A flit of up to 64 bytes. -/
def flitOfBytes (bs : List Byte) : Flit := dataFlit (leNat bs) (max 1 bs.length)

/-! ### Blocks (R68, R74) -/

/-- The exponent of an E8M0 scale code; none for NaN. -/
def e8m0 (c : Nat) : Option Int := if c = 255 then none else some ((c : Int) - 127)

/-- The exact sum of a list of values. -/
def sumVals (l : List Fv) : Fv := l.foldl Fv.add (.num false 0 0)

/-- The block product of R74 over paired elements and the blocks' scale exponents; NaN where a scale is NaN, ±∞ where it overflows
FP32 (R75). -/
def blockProduct (sa sb : Option Int) (as ws : List Fv) : Fv :=
  match sa, sb with
  | some a, some b =>
    let p := (sumVals (List.zipWith Fv.mul as ws)).scale (a + b)
    if (fpOf (toFp p)).isInf then fpOf (toFp p) else p
  | _, _ => .nan

/-- A block product enters an accumulator with one rounding (R74, R75). -/
def accAdd (acc : Word) (p : Fv) : Word := toFp ((fpOf acc).add p)

/-! ### Random numbers (R93) -/

/-- One Philox4x32 round on a counter under a key pair. -/
def philoxRound (k : Nat × Nat) (c : Nat × Nat × Nat × Nat) : Nat × Nat × Nat × Nat :=
  let p0 := 0xD2511F53 * c.1
  let p1 := 0xCD9E8D57 * c.2.2.1
  ((p1 / 2 ^ 32).xor c.2.1 |>.xor k.1, p1 % 2 ^ 32, (p0 / 2 ^ 32).xor c.2.2.2 |>.xor k.2, p0 % 2 ^ 32)

/-- n rounds, the key rising by the Weyl constants between them. -/
def philoxGo : Nat → Nat × Nat → Nat × Nat × Nat × Nat → Nat × Nat × Nat × Nat
  | 0, _, c => c
  | n + 1, k, c => philoxGo n ((k.1 + 0x9E3779B9) % 2 ^ 32, (k.2 + 0xBB67AE85) % 2 ^ 32) (philoxRound k c)

/-- Philox4x32-10: the four words of a key and a counter, word 0 first. -/
def philox (key ctr : Nat) : List Nat :=
  let r := philoxGo 10 (key % 2 ^ 32, key / 2 ^ 32 % 2 ^ 32)
    (ctr % 2 ^ 32, ctr / 2 ^ 32 % 2 ^ 32, ctr / 2 ^ 64 % 2 ^ 32, ctr / 2 ^ 96 % 2 ^ 32)
  [r.1, r.2.1, r.2.2.1, r.2.2.2]

/-- The counter of a draw (R93): step epoch, draw index, row. -/
def drawCounter (epoch draw row : Nat) : Nat := epoch % 2 ^ 64 + 2 ^ 64 * (draw % 2 ^ 32) + 2 ^ 96 * (row % 2 ^ 16)

/-- The uniform value u of a generator word: (w >> 8) × 2^−24, as FP32 holds it exactly. -/
def uniformOf (w : Nat) : Fv := .num false (w / 256) (-24)

end Sys2Proof.Machine
end

