-- ==== Sys2Proof/Machine/Flags.lean ====
section
/-! DEFINITION. Output conversion and the arithmetic event flags of R85: every conversion answers its code and the events it raised,
which the die's counters then take. -/

namespace Sys2Proof.Machine

/-- What the work list of the die's step tells the S tiles of one row (Table 7.8, Table 8.8, R249): its step epoch and ROW, the sampling policy, the
probabilities Q of its proposals, and the steering set that it names with the model's HIDDEN. -/
structure RowParams where
  epoch : Nat
  row : Nat
  mode : Nat
  topK : Nat
  tau : Word
  pTop : Word
  seed : Dword
  qs : List Word
  /-- The set's bytes, its POINTS, its FORMAT and HIDDEN; no bytes for a row without a set (R228). -/
  steer : List Byte
  points : Nat
  steerFmt : Nat
  hidden : Nat
deriving DecidableEq, Repr

/-- Arithmetic events of one fire (R85), the free values drawn for it, the generator of its roundings, and the rows and run salt of the die's step. -/
structure ArithEv where
  sat : Nat
  nan : Nat
  clamp : Nat
  accOvf : Nat
  /-- Number of the next free value. -/
  free : Nat
  /-- Elements that the tile has rounded stochastically (R82). -/
  count : Nat
  /-- The die's ARR_SR_SEED and the tile's address. -/
  seed : Nat
  addr : Nat
  rows : List RowParams
  salt : Nat
deriving DecidableEq, Repr

/-- No event. -/
def ArithEv.none (free : Nat) : ArithEv :=
  { sat := 0, nan := 0, clamp := 0, accOvf := 0, free := free, count := 0, seed := 0, addr := 0, rows := [], salt := 0 }

/-- Fields of a numeric control word (Table 3.4). -/
def ncwFmtA (w : Word) : Nat := bits w.toNat 0 4
/-- FMT_B. -/
def ncwFmtB (w : Word) : Nat := bits w.toNat 4 4
/-- FMT_OUT. -/
def ncwFmtOut (w : Word) : Nat := bits w.toNat 8 4
/-- ROUND. -/
def ncwRound (w : Word) : Bool := bit w.toNat 12
/-- OVF. -/
def ncwOvf (w : Word) : Nat := bits w.toNat 13 2
/-- SCALE_RULE. -/
def ncwRoundup (w : Word) : Bool := bit w.toNat 15
/-- FLUSH_K. -/
def ncwFlush (w : Word) : Nat := bits w.toNat 16 8
/-- COL_SCALE. -/
def ncwColScale (w : Word) : Bool := bit w.toNat 24
/-- SWAP. -/
def ncwSwap (w : Word) : Bool := bit w.toNat 25

/-- Words that the checks of R78 reject for an operation of a tile kind (0 M, 1 A, 2 S). An M-tile operation other than MM_PRODUCT has no operand
formats (R452), and any tile kind's operation but MM_PRODUCT has FLUSH_K 0; the other checks are of M, A and S tiles. -/
def ncwBad (kind : Nat) (product : Bool) (w : Word) : Bool :=
  let o := ncwFmtOut w
  let operands := product || decide (kind ≠ 0)
  (decide (ncwFlush w ≠ 0) && !product)
    || (decide (kind ≤ 2) && ((operands && (decide (12 ≤ ncwFmtA w) || decide (12 ≤ ncwFmtB w))) || decide (12 ≤ o) || decide (ncwOvf w = 3)
      || (ncwRound w && !(decide (o = 2) || decide (o = 3) || isMx o))
      || (decide (ncwOvf w = 2) && (decide (o = 9) || decide (o = 10)))
      || (isMx o && (decide (kind = 0) || decide (kind = 1)))))

/-- FP8 formats. -/
def isFp8 (c : Nat) : Bool := decide (c = 2) || decide (c = 3)

/-- The cell rate of an operand pair (Table 3.3): 1, 2 or 4 MACs, or 0 for a pair outside the table. -/
def pairRate (a b : Nat) : Nat :=
  let two (c : Nat) : Bool := isFp8 c || (decide (4 ≤ c) && decide (c ≤ 9))
  if a = 10 ∨ b = 10 then (if a = 10 ∧ b = 10 then 2 else 0)
  else if b = 1 then (if a = 1 ∨ two a then 1 else 0)
  else if a = 1 then (if two b then 1 else 0)
  else if a = 8 ∧ b = 8 then 4
  else if two a ∧ two b then 2 else 0

/-- Elements of an activation flit at a rate (Table 3.3). -/
def rateElems (r : Nat) : Nat := 32 * r

/-! ### Rounding to an element (R80, R81, R83) -/

/-- A magnitude m × 2^e rounded to multiples of 2^q: to nearest even, or stochastically with the 16-bit draw r (R81). -/
def roundMode (sr : Bool) (r m : Nat) (e q : Int) : Nat :=
  if !sr then roundAt m e q
  else if q ≤ e then roundAt m e q
  else
    let k := (q - e).toNat
    let d := m / 2 ^ k
    let f := m % 2 ^ k * 65536 / 2 ^ k
    if 65536 ≤ f + r then d + 1 else d

/-- A magnitude needs rounding to a multiple of 2^q. -/
def inexact (m : Nat) (e q : Int) : Bool := decide (e < q) && decide (m % 2 ^ (q - e).toNat ≠ 0)

/-- The 16-bit value r of the next rounding (R82): the tile's generator at its count. -/
def ArithEv.r (ev : ArithEv) : Nat := (Config.srDraw ev.seed ev.addr ev.count).toNat

/-- A magnitude rounded to multiples of 2^q by ROUND; only a value that is not representable takes an r (R81). -/
def roundEv (sr : Bool) (m : Nat) (e q : Int) (ev : ArithEv) : Nat × ArithEv :=
  (roundMode sr ev.r m e q, if sr && inexact m e q then { ev with count := ev.count + 1 } else ev)

/-- One FP8 or MX element from a number (R80–R83): its code, and whether the rounded value lies above the greatest. -/
def elemRound (f : FpFmt) (sr : Bool) (neg : Bool) (m : Nat) (e : Int) (ev : ArithEv) : Nat × Bool × ArithEv :=
  if m = 0 then (b2n neg * 2 ^ (f.mb + f.eb), false, ev)
  else
    let q := f.quantum m e
    let n := roundEv sr m e q ev
    if dyLe n.1 q f.maxFinite.1 f.maxFinite.2 then (f.pack neg n.1 q, false, n.2)
    else (f.pack neg f.maxFinite.1 f.maxFinite.2, true, n.2)

/-- The greatest finite code with a sign. -/
def FpFmt.maxCode (f : FpFmt) (neg : Bool) : Nat := f.pack neg f.maxFinite.1 f.maxFinite.2

/-- FP8 output by OVF mode (Table 3.5): E4M3 or E5M2. -/
def fp8Out (f : FpFmt) (sr : Bool) (ovf : Nat) (v : Fv) (ev : ArithEv) : Nat × ArithEv :=
  match v with
  | .nan => if ovf = 1 then (0, { ev with clamp := ev.clamp + 1 }) else (f.nanCode, { ev with nan := ev.nan + 1 })
  | .inf neg =>
    if ovf = 2 then (if f.special = 1 then (f.nanCode, { ev with nan := ev.nan + 1 }) else (f.infCode neg, ev))
    else (f.maxCode neg, { ev with sat := ev.sat + 1 })
  | .num neg m e =>
    let r := elemRound f sr neg m e ev
    let half : Nat × Int := (2 * f.maxFinite.1 + 1, f.maxFinite.2 - 1)
    let beyond := if f.special = 1 then dyLe 464 0 m e else dyLe half.1 half.2 m e
    if ovf = 2 ∧ beyond then (if f.special = 1 then (f.nanCode, { ev with nan := ev.nan + 1 }) else (f.infCode neg, r.2.2))
    else if r.2.1 then (r.1, { r.2.2 with sat := r.2.2.sat + 1 }) else (r.1, r.2.2)

/-- INT8 output (R80, R83): −128 to 127, NaN to 0. -/
def int8Out (v : Fv) (ev : ArithEv) : Nat × ArithEv :=
  match v with
  | .nan => (0, { ev with clamp := ev.clamp + 1 })
  | .inf neg => (if neg then 0x80 else 0x7F, { ev with sat := ev.sat + 1 })
  | .num neg m e =>
    let n := roundAt m e 0
    if neg then (if n ≤ 128 then ((256 - n) % 256, ev) else (0x80, { ev with sat := ev.sat + 1 }))
    else (if n ≤ 127 then (n, ev) else (0x7F, { ev with sat := ev.sat + 1 }))

/-- INT32 output: the nearest integer, limited to the format, NaN to 0 and counted as INT8 counts it. Table 3.5 has no row for it: the model's choice
(notes/assumptions/161). -/
def int32Out (v : Fv) (ev : ArithEv) : Nat × ArithEv :=
  match v with
  | .nan => (0, { ev with clamp := ev.clamp + 1 })
  | .inf neg => (if neg then 2 ^ 31 else 2 ^ 31 - 1, { ev with sat := ev.sat + 1 })
  | .num neg m e =>
    let n := roundAt m e 0
    if neg then (if n ≤ 2 ^ 31 then ((2 ^ 32 - n) % 2 ^ 32, ev) else (2 ^ 31, { ev with sat := ev.sat + 1 }))
    else (if n < 2 ^ 31 then (n, ev) else (2 ^ 31 - 1, { ev with sat := ev.sat + 1 }))

/-- Output conversion of one value to a format without block scale (R79, R83). -/
def convOut (ncw : Word) (v : Fv) (ev : ArithEv) : Nat × ArithEv :=
  let o := ncwFmtOut ncw
  if o = 0 then (fp32.encode v, if v.isNan then { ev with nan := ev.nan + 1 } else ev)
  else if o = 1 then (bf16.encode v, if v.isNan then { ev with nan := ev.nan + 1 } else ev)
  else if o = 10 then int8Out v ev
  else if o = 11 then int32Out v ev
  else fp8Out (fmtOf o) (ncwRound ncw) (ncwOvf ncw) v ev

/-- Output conversion of a list of values. -/
def convList (ncw : Word) : List Fv → ArithEv → List Nat × ArithEv
  | [], ev => ([], ev)
  | v :: vs, ev =>
    let r := convOut ncw v ev
    let t := convList ncw vs r.2
    (r.1 :: t.1, t.2)

/-! ### MX quantisation (R84, R86) -/

/-- ⌊log2(m × 2^e)⌋ of a magnitude other than 0. -/
def floorLog2 (m : Nat) (e : Int) : Int := Nat.log2 m + e

/-- ⌈log2(m × 2^e ÷ (n × 2^d))⌉: the least k with m × 2^e ≤ n × 2^(d + k). -/
def ceilLog2Quot (m : Nat) (e : Int) (n : Nat) (d : Int) : Int :=
  let k := floorLog2 m e - floorLog2 n d
  if dyLe m e n (d + k) then k else k + 1

/-- The greatest magnitude of an element format and the exponent of its largest normal value (R86). -/
def mxMax (c : Nat) : Nat × Int := if c = 9 then (127, -6) else (fmtOf c).maxFinite
/-- emax of R86. -/
def mxEmax (c : Nat) : Int := if c = 9 then 0 else floorLog2 (fmtOf c).maxFinite.1 (fmtOf c).maxFinite.2

/-- A block's values after the treatment of infinity and NaN by OVF mode; none for a block that becomes NaN (Table 3.5). -/
def mxTreat (ovf : Nat) (vs : List Fv) : Option (List Fv) :=
  if vs.any Fv.isNan && !decide (ovf = 1) then none
  else if vs.any Fv.isInf && decide (ovf = 2) then none
  else some (vs.map fun v => match v with
    | .nan => .num false 0 0
    | .inf neg => .num neg (2 ^ 24 - 1) 104
    | v => v)

/-- The greatest magnitude of a list. -/
def amaxOf (vs : List Fv) : Nat × Int :=
  vs.foldl (fun r v => match v with
    | .num _ m e => if dyLe m e r.1 r.2 then r else (m, e)
    | _ => r) (0, 0)

/-- The scale exponent of a block (R86). -/
def mxScale (c : Nat) (roundup : Bool) (vs : List Fv) : Int :=
  let a := amaxOf vs
  if a.1 = 0 then -127
  else
    let s := if roundup then ceilLog2Quot a.1 a.2 (mxMax c).1 (mxMax c).2 else floorLog2 a.1 a.2 - mxEmax c
    max (-127) (min 127 s)

/-- One MX element from a quotient: the code, and whether the quotient or its rounded value lies above the element's greatest (R69, R83). -/
def mxElem (c : Nat) (sr : Bool) (v : Fv) (ev : ArithEv) : Nat × Bool × ArithEv :=
  match v with
  | .num neg m e =>
    let above := !dyLe m e (mxMax c).1 (mxMax c).2
    if c = 9 then
      let n := roundEv sr m e (-6) ev
      let k := min n.1 127
      (if neg then (256 - k) % 256 else k, above || decide (127 < n.1), n.2)
    else
      let r := elemRound (fmtOf c) sr neg m e ev
      (r.1, above || r.2.1, r.2.2)
  | _ => (0, false, ev)

/-- The elements of a block. -/
def mxElems (c : Nat) (sr : Bool) : List Fv → ArithEv → List (Nat × Bool) × ArithEv
  | [], ev => ([], ev)
  | v :: vs, ev =>
    let r := mxElem c sr v ev
    let t := mxElems c sr vs r.2.2
    ((r.1, r.2.1) :: t.1, t.2)

/-- A block quantised to an MX format: scale code, element codes, events (R84–R86). An infinity that is treated as the largest finite value counts in
ARR_ARITH_SAT, as a saturated element does. -/
def mxBlock (ncw : Word) (vs : List Fv) (ev : ArithEv) : Nat × List Nat × ArithEv :=
  let c := ncwFmtOut ncw
  let nanBlock : Nat × List Nat × ArithEv := (255, vs.map fun _ => 0, { ev with nan := ev.nan + 1 })
  match mxTreat (ncwOvf ncw) vs with
  | none => nanBlock
  | some us =>
    let s := mxScale c (ncwRoundup ncw) us
    let r := mxElems c (ncwRound ncw) (us.map (Fv.scale (-s))) ev
    let sats := ((r.1.zip vs).filter fun x => x.1.2 || x.2.isInf).length
    let clamps := (vs.filter Fv.isNan).length
    if ncwOvf ncw = 2 ∧ r.1.any (·.2) then nanBlock
    else ((s + 127).toNat, r.1.map (·.1), { r.2 with sat := r.2.sat + sats, clamp := r.2.clamp + clamps })

end Sys2Proof.Machine
end

