-- ==== Sys2Proof/Machine/Regs.lean ====
section
/-! DEFINITION. The control registers as the manual's register tables give them: for every register its address, and for every
block its rows with each field's place, access code and reset value (R6 to R8). A die block is keyed by the physical die that holds
it; a CMD block of a function's BAR0 lies above the control register space, 64 KiB a function. Reserved bits have no field. -/

namespace Sys2Proof.Machine

/-- The access codes of Table 0.2 (R8). -/
inductive Access where
  | ro | rw | w1c | w1s | wo | rwl
deriving DecidableEq, Repr

/-- A field: its lowest bit, its width, its access code and its reset value. -/
structure RegField where
  lo : Nat
  width : Nat
  acc : Access
  reset : Nat
deriving DecidableEq, Repr

/-- A row of a register table: instance i lies at `off + i * stride`, for i below `count`; `wide` marks a 64-bit register (R6). -/
structure RegRow where
  off : Nat
  stride : Nat
  count : Nat
  wide : Bool
  fields : List RegField
deriving DecidableEq, Repr

/-- The blocks of one kind: block n lies at `base + n * stride`, for n below `count`. -/
structure RegBlock where
  base : Nat
  stride : Nat
  count : Nat
  rows : List RegRow
deriving DecidableEq, Repr

/-- ARR_PKG_ID, Table 2.8 (R62). -/
def ARR_PKG_ID : Nat := 0x1F00000
/-- ARR_SPARE0, Table 2.8 (R62). -/
def ARR_SPARE0 : Nat := 0x1F00004
/-- ARR_SPARE1, Table 2.8 (R62). -/
def ARR_SPARE1 : Nat := 0x1F00008
/-- ARR_UNAVAIL0, Table 2.8 (R62). -/
def ARR_UNAVAIL0 : Nat := 0x1F00010
/-- ARR_UNAVAIL1, Table 2.8 (R62). -/
def ARR_UNAVAIL1 : Nat := 0x1F00014
/-- ARR_UNAVAIL2, Table 2.8 (R62). -/
def ARR_UNAVAIL2 : Nat := 0x1F00018
/-- ARR_TUNNELS, Table 2.8 (R62). -/
def ARR_TUNNELS : Nat := 0x1F00020
/-- ARR_DIE_CTL, Table 2.9 (R63). -/
def ARR_DIE_CTL (p : Nat) : Nat := 0x2000000 + p * 0x10000
/-- ARR_DIE_STATUS, Table 2.9 (R63). -/
def ARR_DIE_STATUS (p : Nat) : Nat := 0x2000004 + p * 0x10000
/-- ARR_CLK, Table 2.9 (R63). -/
def ARR_CLK (p : Nat) : Nat := 0x2000008 + p * 0x10000
/-- ARR_STEP_EPOCH_LO, Table 2.9 (R63). -/
def ARR_STEP_EPOCH_LO (p : Nat) : Nat := 0x2000010 + p * 0x10000
/-- ARR_STEP_EPOCH_HI, Table 2.9 (R63). -/
def ARR_STEP_EPOCH_HI (p : Nat) : Nat := 0x2000014 + p * 0x10000
/-- ARR_TOKEN_ERR, Table 2.9 (R63). -/
def ARR_TOKEN_ERR (p : Nat) : Nat := 0x2000018 + p * 0x10000
/-- ARR_TOKEN_ERR_TILE, Table 2.9 (R63). -/
def ARR_TOKEN_ERR_TILE (p : Nat) : Nat := 0x200001C + p * 0x10000
/-- ARR_TILE_SEL, Table 2.9 (R63). -/
def ARR_TILE_SEL (p : Nat) : Nat := 0x2000020 + p * 0x10000
/-- ARR_TILE_PC, Table 2.9 (R63). -/
def ARR_TILE_PC (p : Nat) : Nat := 0x2000024 + p * 0x10000
/-- ARR_TILE_CNT0, Table 2.9 (R63). -/
def ARR_TILE_CNT0 (p : Nat) : Nat := 0x2000030 + p * 0x10000
/-- ARR_TILE_CNT1, Table 2.9 (R63). -/
def ARR_TILE_CNT1 (p : Nat) : Nat := 0x2000034 + p * 0x10000
/-- ARR_TILE_CNT2, Table 2.9 (R63). -/
def ARR_TILE_CNT2 (p : Nat) : Nat := 0x2000038 + p * 0x10000
/-- ARR_TILE_CNT3, Table 2.9 (R63). -/
def ARR_TILE_CNT3 (p : Nat) : Nat := 0x200003C + p * 0x10000
/-- ARR_TILE_QOCC, Table 2.9 (R63). -/
def ARR_TILE_QOCC (p : Nat) : Nat := 0x2000040 + p * 0x10000
/-- ARR_TILE_XOCC, Table 2.9 (R63). -/
def ARR_TILE_XOCC (p : Nat) : Nat := 0x2000048 + p * 0x10000
/-- ARR_BITTERN_PORTX, Table 2.9 (R63). -/
def ARR_BITTERN_PORTX (p : Nat) : Nat := 0x2000050 + p * 0x10000
/-- ARR_RUN_SALT_LO, Table 3.7 (R97). -/
def ARR_RUN_SALT_LO : Nat := 0x1F00040
/-- ARR_RUN_SALT_HI, Table 3.7 (R97). -/
def ARR_RUN_SALT_HI : Nat := 0x1F00044
/-- ARR_ARITH_SAT, Table 3.8 (R97). -/
def ARR_ARITH_SAT (p : Nat) : Nat := 0x2000080 + p * 0x10000
/-- ARR_ARITH_NAN, Table 3.8 (R97). -/
def ARR_ARITH_NAN (p : Nat) : Nat := 0x2000084 + p * 0x10000
/-- ARR_ARITH_NANCLAMP, Table 3.8 (R97). -/
def ARR_ARITH_NANCLAMP (p : Nat) : Nat := 0x2000088 + p * 0x10000
/-- ARR_ARITH_ACCOVF, Table 3.8 (R97). -/
def ARR_ARITH_ACCOVF (p : Nat) : Nat := 0x200008C + p * 0x10000
/-- ARR_ARITH_CLR, Table 3.8 (R97). -/
def ARR_ARITH_CLR (p : Nat) : Nat := 0x2000090 + p * 0x10000
/-- ARR_SR_SEED_LO, Table 3.8 (R97). -/
def ARR_SR_SEED_LO (p : Nat) : Nat := 0x2000098 + p * 0x10000
/-- ARR_SR_SEED_HI, Table 3.8 (R97). -/
def ARR_SR_SEED_HI (p : Nat) : Nat := 0x200009C + p * 0x10000
/-- CFG_EPOCH, Table 4.9 (R128). -/
def CFG_EPOCH (p : Nat) : Nat := 0x3000000 + p * 0x10000
/-- CFG_NEXT_EPOCH, Table 4.9 (R128). -/
def CFG_NEXT_EPOCH (p : Nat) : Nat := 0x3000004 + p * 0x10000
/-- CFG_WAVE_STATUS, Table 4.9 (R128). -/
def CFG_WAVE_STATUS (p : Nat) : Nat := 0x3000008 + p * 0x10000
/-- CFG_MODE, Table 4.9 (R128). -/
def CFG_MODE (p : Nat) : Nat := 0x300000C + p * 0x10000
/-- CFG_WD_STATUS, Table 4.9 (R128). -/
def CFG_WD_STATUS (p : Nat) : Nat := 0x3000010 + p * 0x10000
/-- CFG_RAKE_CTL, Table 4.9 (R128). -/
def CFG_RAKE_CTL (p : Nat) : Nat := 0x3000014 + p * 0x10000
/-- CFG_RAKE_COUNT, Table 4.9 (R128). -/
def CFG_RAKE_COUNT (p : Nat) : Nat := 0x3000018 + p * 0x10000
/-- CFG_RAKE_STEP, Table 4.9 (R128). -/
def CFG_RAKE_STEP (p : Nat) : Nat := 0x300001C + p * 0x10000
/-- CFG_SPILL_T1_BASE_LO, Table 4.9 (R128). -/
def CFG_SPILL_T1_BASE_LO (p : Nat) : Nat := 0x3000020 + p * 0x10000
/-- CFG_SPILL_T1_BASE_HI, Table 4.9 (R128). -/
def CFG_SPILL_T1_BASE_HI (p : Nat) : Nat := 0x3000024 + p * 0x10000
/-- CFG_SPILL_T1_SIZE, Table 4.9 (R128). -/
def CFG_SPILL_T1_SIZE (p : Nat) : Nat := 0x3000028 + p * 0x10000
/-- CFG_SPILL_USED, Table 4.9 (R128). -/
def CFG_SPILL_USED (p : Nat) : Nat := 0x300002C + p * 0x10000
/-- CFG_SPILL_HWM, Table 4.9 (R128). -/
def CFG_SPILL_HWM (p : Nat) : Nat := 0x3000030 + p * 0x10000
/-- CFG_BITTERN_STALE, Table 4.9 (R128). -/
def CFG_BITTERN_STALE (p : Nat) : Nat := 0x3000040 + p * 0x10000
/-- CFG_BITTERN_SPILL, Table 4.9 (R128). -/
def CFG_BITTERN_SPILL (p : Nat) : Nat := 0x3000044 + p * 0x10000
/-- CFG_BITTERN_RAKEID, Table 4.9 (R128). -/
def CFG_BITTERN_RAKEID (p : Nat) : Nat := 0x3000048 + p * 0x10000
/-- CFG_PAN_CTL, Table 4.10 (R129). -/
def CFG_PAN_CTL (i : Nat) : Nat := 0x1F10100 + i * 0x20
/-- CFG_PAN_RECT, Table 4.10 (R129). -/
def CFG_PAN_RECT (i : Nat) : Nat := 0x1F10104 + i * 0x20
/-- CFG_PAN_EPOCH, Table 4.10 (R129). -/
def CFG_PAN_EPOCH (i : Nat) : Nat := 0x1F10108 + i * 0x20
/-- CFG_PAN_STATE, Table 4.10 (R129). -/
def CFG_PAN_STATE (i : Nat) : Nat := 0x1F1010C + i * 0x20
/-- CFG_BAL, Table 4.10 (R129). -/
def CFG_BAL : Nat := 0x1F10400
/-- CFG_BAL_CHANGES, Table 4.10 (R129). -/
def CFG_BAL_CHANGES : Nat := 0x1F10404
/-- TIER_TTL_CLOCK, Table 5.12 (R167). -/
def TIER_TTL_CLOCK : Nat := 0x1F20000
/-- TIER_TTL_CKPT, Table 5.12 (R167). -/
def TIER_TTL_CKPT : Nat := 0x1F20004
/-- TIER_PAGEIN_CTL, Table 5.12 (R167). -/
def TIER_PAGEIN_CTL : Nat := 0x1F20008
/-- TIER_PAGEIN_STATUS, Table 5.12 (R167). -/
def TIER_PAGEIN_STATUS : Nat := 0x1F2000C
/-- TIER_PAGEIN_COUNT, Table 5.12 (R167). -/
def TIER_PAGEIN_COUNT : Nat := 0x1F20010
/-- TIER_RT_MISS, Table 5.12 (R167). -/
def TIER_RT_MISS : Nat := 0x1F20014
/-- TIER_BITTERN_EXPIRED, Table 5.12 (R167). -/
def TIER_BITTERN_EXPIRED : Nat := 0x1F20018
/-- TIER_CTX_SEL, Table 5.12 (R167). -/
def TIER_CTX_SEL : Nat := 0x1F20020
/-- TIER_CTX_T1_USED, Table 5.12 (R167). -/
def TIER_CTX_T1_USED : Nat := 0x1F20024
/-- TIER_CTX_T1_QUOTA, Table 5.12 (R167). -/
def TIER_CTX_T1_QUOTA : Nat := 0x1F20028
/-- TIER_CTX_T2_USED, Table 5.12 (R167). -/
def TIER_CTX_T2_USED : Nat := 0x1F2002C
/-- TIER_CTX_T2_QUOTA, Table 5.12 (R167). -/
def TIER_CTX_T2_QUOTA : Nat := 0x1F20030
/-- TIER_CTX_POLICY, Table 5.12 (R167). -/
def TIER_CTX_POLICY : Nat := 0x1F20034
/-- TIER_CTX_SEQ, Table 5.12 (R167). -/
def TIER_CTX_SEQ : Nat := 0x1F20038
/-- TIER_FAR_FAULT_INFO, Table 5.13 (R168). -/
def TIER_FAR_FAULT_INFO (p : Nat) : Nat := 0x4100000 + p * 0x10000
/-- TIER_FAR_FAULT_HANDLE, Table 5.13 (R168). -/
def TIER_FAR_FAULT_HANDLE (p : Nat) : Nat := 0x4100004 + p * 0x10000
/-- TIER_FAR_FAULT_PAGE, Table 5.13 (R168). -/
def TIER_FAR_FAULT_PAGE (p : Nat) : Nat := 0x4100008 + p * 0x10000
/-- TIER_FAR_TLB_MISS, Table 5.13 (R168). -/
def TIER_FAR_TLB_MISS (p : Nat) : Nat := 0x410000C + p * 0x10000
/-- TIER_NEAR_SCRUB, Table 5.13 (R168). -/
def TIER_NEAR_SCRUB (p : Nat) : Nat := 0x4000000 + p * 0x10000
/-- TIER_BITTERN_XCTX, Table 5.13 (R168). -/
def TIER_BITTERN_XCTX (p : Nat) : Nat := 0x4000010 + p * 0x10000
/-- TIER_F_BITTERN_XCTX, Table 5.13 (R168). -/
def TIER_F_BITTERN_XCTX (p : Nat) : Nat := 0x4100010 + p * 0x10000
/-- TIER_BITTERN_ADDR, Table 5.13 (R168). -/
def TIER_BITTERN_ADDR (p : Nat) : Nat := 0x4000014 + p * 0x10000
/-- TIER_F_BITTERN_ADDR, Table 5.13 (R168). -/
def TIER_F_BITTERN_ADDR (p : Nat) : Nat := 0x4100014 + p * 0x10000
/-- TIER_BITTERN_OVERRUN, Table 5.13 (R168). -/
def TIER_BITTERN_OVERRUN (p : Nat) : Nat := 0x4000018 + p * 0x10000
/-- TIER_F_BITTERN_OVERRUN, Table 5.13 (R168). -/
def TIER_F_BITTERN_OVERRUN (p : Nat) : Nat := 0x4100018 + p * 0x10000
/-- NEAR_CTL, Table 6.8 (R184). -/
def NEAR_CTL (p : Nat) : Nat := 0x4200000 + p * 0x10000
/-- NEAR_STATUS, Table 6.8 (R184). -/
def NEAR_STATUS (p : Nat) : Nat := 0x4200004 + p * 0x10000
/-- NEAR_SLICE_MAP, Table 6.8 (R184). -/
def NEAR_SLICE_MAP (p : Nat) : Nat := 0x4200008 + p * 0x10000
/-- NEAR_RETIRED, Table 6.8 (R184). -/
def NEAR_RETIRED (p : Nat) : Nat := 0x420000C + p * 0x10000
/-- NEAR_SCRUB, Table 6.8 (R184). -/
def NEAR_SCRUB (p : Nat) : Nat := 0x4200010 + p * 0x10000
/-- NEAR_SCRUB_PASSES, Table 6.8 (R184). -/
def NEAR_SCRUB_PASSES (p : Nat) : Nat := 0x4200014 + p * 0x10000
/-- NEAR_DEV_STATUS, Table 6.8 (R184). -/
def NEAR_DEV_STATUS (p i : Nat) : Nat := 0x4200100 + p * 0x10000 + i * 0x40
/-- NEAR_DEV_CE, Table 6.8 (R184). -/
def NEAR_DEV_CE (p i : Nat) : Nat := 0x4200104 + p * 0x10000 + i * 0x40
/-- NEAR_DEV_UE, Table 6.8 (R184). -/
def NEAR_DEV_UE (p i : Nat) : Nat := 0x4200108 + p * 0x10000 + i * 0x40
/-- NEAR_DEV_CRC, Table 6.8 (R184). -/
def NEAR_DEV_CRC (p i : Nat) : Nat := 0x420010C + p * 0x10000 + i * 0x40
/-- NEAR_DEV_CAPAR, Table 6.8 (R184). -/
def NEAR_DEV_CAPAR (p i : Nat) : Nat := 0x4200110 + p * 0x10000 + i * 0x40
/-- FAR_CTL, Table 6.9 (R185). -/
def FAR_CTL (p : Nat) : Nat := 0x4300000 + p * 0x10000
/-- FAR_PORT_STATUS, Table 6.9 (R185). -/
def FAR_PORT_STATUS (p i : Nat) : Nat := 0x4300100 + p * 0x10000 + i * 0x40
/-- FAR_PORT_MAPPED, Table 6.9 (R185). -/
def FAR_PORT_MAPPED (p i : Nat) : Nat := 0x4300104 + p * 0x10000 + i * 0x40
/-- FAR_PORT_REPLAY, Table 6.9 (R185). -/
def FAR_PORT_REPLAY (p i : Nat) : Nat := 0x4300108 + p * 0x10000 + i * 0x40
/-- FAR_PORT_POISON, Table 6.9 (R185). -/
def FAR_PORT_POISON (p i : Nat) : Nat := 0x430010C + p * 0x10000 + i * 0x40
/-- FAR_PORT_TIMEOUT, Table 6.9 (R185). -/
def FAR_PORT_TIMEOUT (p i : Nat) : Nat := 0x4300110 + p * 0x10000 + i * 0x40
/-- FAR_PORT_MEDIA_CE, Table 6.9 (R185). -/
def FAR_PORT_MEDIA_CE (p i : Nat) : Nat := 0x4300114 + p * 0x10000 + i * 0x40
/-- FAR_PORT_RETIRED, Table 6.9 (R185). -/
def FAR_PORT_RETIRED (p i : Nat) : Nat := 0x4300118 + p * 0x10000 + i * 0x40
/-- SEQ_CTL, Table 7.13 (R213). -/
def SEQ_CTL : Nat := 0x1F30000
/-- SEQ_STATUS, Table 7.13 (R213). -/
def SEQ_STATUS : Nat := 0x1F30004
/-- SEQ_STEP_EPOCH_LO, Table 7.13 (R213). -/
def SEQ_STEP_EPOCH_LO : Nat := 0x1F30008
/-- SEQ_STEP_EPOCH_HI, Table 7.13 (R213). -/
def SEQ_STEP_EPOCH_HI : Nat := 0x1F3000C
/-- SEQ_POOL, Table 7.13 (R213). -/
def SEQ_POOL : Nat := 0x1F30010
/-- SEQ_ADMIT_OK, Table 7.13 (R213). -/
def SEQ_ADMIT_OK : Nat := 0x1F30020
/-- SEQ_ADMIT_DENIED, Table 7.13 (R213). -/
def SEQ_ADMIT_DENIED : Nat := 0x1F30024
/-- SEQ_HOLD_EXPIRED, Table 7.13 (R213). -/
def SEQ_HOLD_EXPIRED : Nat := 0x1F30028
/-- SEQ_KV_SKIP, Table 7.13 (R213). -/
def SEQ_KV_SKIP : Nat := 0x1F3002C
/-- SEQ_KV_AUTOPAUSE, Table 7.13 (R213). -/
def SEQ_KV_AUTOPAUSE : Nat := 0x1F30030
/-- SEQ_REL_SKIP, Table 7.13 (R213). -/
def SEQ_REL_SKIP : Nat := 0x1F30034
/-- SEQ_LC_OVER, Table 7.13 (R213). -/
def SEQ_LC_OVER : Nat := 0x1F30038
/-- SEQ_LC_CAP, Table 7.13 (R213). -/
def SEQ_LC_CAP : Nat := 0x1F3003C
/-- SEQ_PREEMPT, Table 7.13 (R213). -/
def SEQ_PREEMPT : Nat := 0x1F30040
/-- SEQ_BITTERN_CANCEL, Table 7.13 (R213). -/
def SEQ_BITTERN_CANCEL : Nat := 0x1F30044
/-- SEQ_BITTERN_NOCAND, Table 7.13 (R213). -/
def SEQ_BITTERN_NOCAND : Nat := 0x1F30048
/-- SEQ_CTX_SEL, Table 7.13 (R213). -/
def SEQ_CTX_SEL : Nat := 0x1F30080
/-- SEQ_CTX_LC_GOAL, Table 7.13 (R213). -/
def SEQ_CTX_LC_GOAL : Nat := 0x1F30084
/-- SEQ_CTX_BE_GOAL, Table 7.13 (R213). -/
def SEQ_CTX_BE_GOAL : Nat := 0x1F30088
/-- SEQ_CTX_HOLD, Table 7.13 (R213). -/
def SEQ_CTX_HOLD : Nat := 0x1F3008C
/-- SEQ_CTX_KV_WAIT, Table 7.13 (R213). -/
def SEQ_CTX_KV_WAIT : Nat := 0x1F30090
/-- SEQ_PAN_ROWS, Table 7.13 (R213). -/
def SEQ_PAN_ROWS (i : Nat) : Nat := 0x1F30100 + i * 0x10
/-- SEQ_PAN_PRED, Table 7.13 (R213). -/
def SEQ_PAN_PRED (i : Nat) : Nat := 0x1F30104 + i * 0x10
/-- SEQ_PAN_TOKENS, Table 7.13 (R213). -/
def SEQ_PAN_TOKENS (i : Nat) : Nat := 0x1F30108 + i * 0x10
/-- ADP_STATUS, Table 8.13 (R236). -/
def ADP_STATUS : Nat := 0x1F40000
/-- ADP_LOADS, Table 8.13 (R236). -/
def ADP_LOADS : Nat := 0x1F40004
/-- ADP_DISTINCT_SKIP, Table 8.13 (R236). -/
def ADP_DISTINCT_SKIP : Nat := 0x1F40008
/-- ADP_SWITCHES, Table 8.13 (R236). -/
def ADP_SWITCHES : Nat := 0x1F4000C
/-- ADP_STEER_FLIPS, Table 8.13 (R236). -/
def ADP_STEER_FLIPS : Nat := 0x1F40010
/-- ADP_SLOT_SEL, Table 8.13 (R236). -/
def ADP_SLOT_SEL : Nat := 0x1F40020
/-- ADP_SLOT_INFO, Table 8.13 (R236). -/
def ADP_SLOT_INFO : Nat := 0x1F40024
/-- ADP_SLOT_BINDS, Table 8.13 (R236). -/
def ADP_SLOT_BINDS : Nat := 0x1F40028
/-- ADP_MODEL_SEL, Table 8.13 (R236). -/
def ADP_MODEL_SEL : Nat := 0x1F40030
/-- ADP_MODEL_INFO, Table 8.13 (R236). -/
def ADP_MODEL_INFO : Nat := 0x1F40034
/-- ADP_PAN_GROUPS, Table 8.13 (R236). -/
def ADP_PAN_GROUPS (i : Nat) : Nat := 0x1F40100 + i * 0x10
/-- ADP_CACHE_HIT, Table 8.14 (R237). -/
def ADP_CACHE_HIT (p : Nat) : Nat := 0x5000000 + p * 0x10000
/-- ADP_CACHE_MISS, Table 8.14 (R237). -/
def ADP_CACHE_MISS (p : Nat) : Nat := 0x5000004 + p * 0x10000
/-- ADP_CACHE_EVICT, Table 8.14 (R237). -/
def ADP_CACHE_EVICT (p : Nat) : Nat := 0x5000008 + p * 0x10000
/-- ADP_GROUP_CHANGES, Table 8.14 (R237). -/
def ADP_GROUP_CHANGES (p : Nat) : Nat := 0x500000C + p * 0x10000
/-- ARR_MOE_PLACED, Table 9.9 (R257). -/
def ARR_MOE_PLACED (p : Nat) : Nat := 0x20000C0 + p * 0x10000
/-- ARR_MOE_BITTERN_DROP, Table 9.9 (R257). -/
def ARR_MOE_BITTERN_DROP (p : Nat) : Nat := 0x20000C4 + p * 0x10000
/-- ARR_MOE_BITTERN_INVALID, Table 9.9 (R257). -/
def ARR_MOE_BITTERN_INVALID (p : Nat) : Nat := 0x20000C8 + p * 0x10000
/-- ARR_MOE_BITTERN_EMPTY, Table 9.9 (R257). -/
def ARR_MOE_BITTERN_EMPTY (p : Nat) : Nat := 0x20000CC + p * 0x10000
/-- ARR_MOE_BITTERN_STALE, Table 9.9 (R257). -/
def ARR_MOE_BITTERN_STALE (p : Nat) : Nat := 0x20000D0 + p * 0x10000
/-- ARR_MOE_ITEMS, Table 9.9 (R257). -/
def ARR_MOE_ITEMS (p : Nat) : Nat := 0x20000D4 + p * 0x10000
/-- ARR_MOE_ACCEPT_LO, Table 9.9 (R257). -/
def ARR_MOE_ACCEPT_LO (p : Nat) : Nat := 0x20000E0 + p * 0x10000
/-- ARR_MOE_ACCEPT_HI, Table 9.9 (R257). -/
def ARR_MOE_ACCEPT_HI (p : Nat) : Nat := 0x20000E4 + p * 0x10000
/-- ARR_EXIT_TESTS, Table 9.9 (R257). -/
def ARR_EXIT_TESTS (p : Nat) : Nat := 0x20000F0 + p * 0x10000
/-- ARR_EXIT_TAKEN, Table 9.9 (R257). -/
def ARR_EXIT_TAKEN (p : Nat) : Nat := 0x20000F4 + p * 0x10000
/-- SEQ_SPEC_VERIFY, Table 9.10 (R257). -/
def SEQ_SPEC_VERIFY : Nat := 0x1F30050
/-- SEQ_SPEC_PROPOSED, Table 9.10 (R257). -/
def SEQ_SPEC_PROPOSED : Nat := 0x1F30054
/-- SEQ_SPEC_ACCEPTED, Table 9.10 (R257). -/
def SEQ_SPEC_ACCEPTED : Nat := 0x1F30058
/-- SEQ_SPEC_HALVED, Table 9.10 (R257). -/
def SEQ_SPEC_HALVED : Nat := 0x1F3005C
/-- SEQ_SPEC_DISABLED, Table 9.10 (R257). -/
def SEQ_SPEC_DISABLED : Nat := 0x1F30060
/-- SEQ_SPEC_FALLBACK, Table 9.10 (R257). -/
def SEQ_SPEC_FALLBACK : Nat := 0x1F30064
/-- SEQ_BITTERN_SPEC_DROP, Table 9.10 (R257). -/
def SEQ_BITTERN_SPEC_DROP : Nat := 0x1F30068
/-- SEQ_BITTERN_SPEC_TAIL, Table 9.10 (R257). -/
def SEQ_BITTERN_SPEC_TAIL : Nat := 0x1F3006C
/-- EMB_CTL, Table 10.6 (R278). -/
def EMB_CTL : Nat := 0x1F50000
/-- EMB_STATUS, Table 10.6 (R278). -/
def EMB_STATUS : Nat := 0x1F50004
/-- EMB_SWITCHES, Table 10.6 (R278). -/
def EMB_SWITCHES : Nat := 0x1F50008
/-- EMB_ROW_WRITES, Table 10.6 (R278). -/
def EMB_ROW_WRITES : Nat := 0x1F5000C
/-- EMB_HOT_ROWS, Table 10.6 (R278). -/
def EMB_HOT_ROWS : Nat := 0x1F50010
/-- EMB_BITTERN_GRADDROP, Table 10.6 (R278). -/
def EMB_BITTERN_GRADDROP : Nat := 0x1F50014
/-- EMB_BITTERN_REGRAD, Table 10.6 (R278). -/
def EMB_BITTERN_REGRAD : Nat := 0x1F50018
/-- EMB_TABLE_SEL, Table 10.6 (R278). -/
def EMB_TABLE_SEL : Nat := 0x1F50020
/-- EMB_TABLE_INFO, Table 10.6 (R278). -/
def EMB_TABLE_INFO : Nat := 0x1F50024
/-- EMB_PAIRS, Table 10.7 (R278). -/
def EMB_PAIRS (p : Nat) : Nat := 0x6000000 + p * 0x10000
/-- EMB_FETCH, Table 10.7 (R278). -/
def EMB_FETCH (p : Nat) : Nat := 0x6000004 + p * 0x10000
/-- EMB_COALESCED, Table 10.7 (R278). -/
def EMB_COALESCED (p : Nat) : Nat := 0x6000008 + p * 0x10000
/-- EMB_ROUNDS, Table 10.7 (R278). -/
def EMB_ROUNDS (p : Nat) : Nat := 0x600000C + p * 0x10000
/-- EMB_EMPTY_BAGS, Table 10.7 (R278). -/
def EMB_EMPTY_BAGS (p : Nat) : Nat := 0x6000010 + p * 0x10000
/-- EMB_HOT_HITS, Table 10.7 (R278). -/
def EMB_HOT_HITS (p : Nat) : Nat := 0x6000014 + p * 0x10000
/-- EMB_HOT_ENTRIES, Table 10.7 (R278). -/
def EMB_HOT_ENTRIES (p : Nat) : Nat := 0x6000018 + p * 0x10000
/-- EMB_HOT_FULL, Table 10.7 (R278). -/
def EMB_HOT_FULL (p : Nat) : Nat := 0x600001C + p * 0x10000
/-- EMB_BITTERN_INVALID, Table 10.7 (R278). -/
def EMB_BITTERN_INVALID (p : Nat) : Nat := 0x6000020 + p * 0x10000
/-- EMB_BITTERN_FOREIGN, Table 10.7 (R278). -/
def EMB_BITTERN_FOREIGN (p : Nat) : Nat := 0x6000024 + p * 0x10000
/-- EMB_BITTERN_MISSING, Table 10.7 (R278). -/
def EMB_BITTERN_MISSING (p : Nat) : Nat := 0x6000028 + p * 0x10000
/-- CMD_FN_ID, Table 11.21 (R301). -/
def CMD_FN_ID (f : Nat) : Nat := 0x100000000 + f * 0x10000
/-- CMD_FN_VERSION, Table 11.21 (R301). -/
def CMD_FN_VERSION (f : Nat) : Nat := 0x100000004 + f * 0x10000
/-- CMD_FN_STATUS, Table 11.21 (R301). -/
def CMD_FN_STATUS (f : Nat) : Nat := 0x100000008 + f * 0x10000
/-- CMD_FN_VECTORS, Table 11.21 (R301). -/
def CMD_FN_VECTORS (f : Nat) : Nat := 0x10000000C + f * 0x10000
/-- CMD_VF_ALLOT, Table 11.21 (R301). -/
def CMD_VF_ALLOT (f i : Nat) : Nat := 0x100001000 + f * 0x10000 + i * 0x4
/-- CMD_CTX_STATE, Table 11.22 (R302). -/
def CMD_CTX_STATE (c : Nat) : Nat := 0x100002000 + c / 16 * 0x10000 + c % 16 * 0x200
/-- CMD_CTX_PASID, Table 11.22 (R302). -/
def CMD_CTX_PASID (c : Nat) : Nat := 0x100002004 + c / 16 * 0x10000 + c % 16 * 0x200
/-- CMD_TOK_BASE_LO, Table 11.22 (R302). -/
def CMD_TOK_BASE_LO (c : Nat) : Nat := 0x100002008 + c / 16 * 0x10000 + c % 16 * 0x200
/-- CMD_TOK_BASE_HI, Table 11.22 (R302). -/
def CMD_TOK_BASE_HI (c : Nat) : Nat := 0x10000200C + c / 16 * 0x10000 + c % 16 * 0x200
/-- CMD_TOK_CFG, Table 11.22 (R302). -/
def CMD_TOK_CFG (c : Nat) : Nat := 0x100002010 + c / 16 * 0x10000 + c % 16 * 0x200
/-- CMD_TOK_STATUS, Table 11.22 (R302). -/
def CMD_TOK_STATUS (c : Nat) : Nat := 0x100002014 + c / 16 * 0x10000 + c % 16 * 0x200
/-- CMD_SQ_BASE_LO, Table 11.22 (R302). -/
def CMD_SQ_BASE_LO (c i : Nat) : Nat := 0x100002040 + c / 16 * 0x10000 + c % 16 * 0x200 + i * 0x20
/-- CMD_SQ_BASE_HI, Table 11.22 (R302). -/
def CMD_SQ_BASE_HI (c i : Nat) : Nat := 0x100002044 + c / 16 * 0x10000 + c % 16 * 0x200 + i * 0x20
/-- CMD_CQ_BASE_LO, Table 11.22 (R302). -/
def CMD_CQ_BASE_LO (c i : Nat) : Nat := 0x100002048 + c / 16 * 0x10000 + c % 16 * 0x200 + i * 0x20
/-- CMD_CQ_BASE_HI, Table 11.22 (R302). -/
def CMD_CQ_BASE_HI (c i : Nat) : Nat := 0x10000204C + c / 16 * 0x10000 + c % 16 * 0x200 + i * 0x20
/-- CMD_Q_CFG, Table 11.22 (R302). -/
def CMD_Q_CFG (c i : Nat) : Nat := 0x100002050 + c / 16 * 0x10000 + c % 16 * 0x200 + i * 0x20
/-- CMD_Q_STATUS, Table 11.22 (R302). -/
def CMD_Q_STATUS (c i : Nat) : Nat := 0x100002054 + c / 16 * 0x10000 + c % 16 * 0x200 + i * 0x20
/-- LNK_FAB_ID, Table 12.12 (R331). -/
def LNK_FAB_ID : Nat := 0x1F60000
/-- LNK_FAB_POS, Table 12.12 (R331). -/
def LNK_FAB_POS : Nat := 0x1F60004
/-- LNK_FAB_STATUS, Table 12.12 (R331). -/
def LNK_FAB_STATUS : Nat := 0x1F60008
/-- LNK_PLAN_GEN_LO, Table 12.12 (R331). -/
def LNK_PLAN_GEN_LO : Nat := 0x1F60010
/-- LNK_PLAN_GEN_HI, Table 12.12 (R331). -/
def LNK_PLAN_GEN_HI : Nat := 0x1F60014
/-- LNK_UNREACH, Table 12.12 (R331). -/
def LNK_UNREACH : Nat := 0x1F60018
/-- LNK_COLL_CTL, Table 12.12 (R331). -/
def LNK_COLL_CTL : Nat := 0x1F60020
/-- LNK_SHARD_CTL, Table 12.12 (R331). -/
def LNK_SHARD_CTL : Nat := 0x1F60024
/-- LNK_BITTERN_OLDGEN, Table 12.12 (R331). -/
def LNK_BITTERN_OLDGEN : Nat := 0x1F60030
/-- LNK_BITTERN_XJOB, Table 12.12 (R331). -/
def LNK_BITTERN_XJOB : Nat := 0x1F60034
/-- LNK_BITTERN_NOROUTE, Table 12.12 (R331). -/
def LNK_BITTERN_NOROUTE : Nat := 0x1F60038
/-- LNK_SHARD_REFETCH, Table 12.12 (R331). -/
def LNK_SHARD_REFETCH : Nat := 0x1F6003C
/-- LNK_SHARD_CORRUPT, Table 12.12 (R331). -/
def LNK_SHARD_CORRUPT : Nat := 0x1F60040
/-- LNK_SB_STATUS, Table 12.13 (R331). -/
def LNK_SB_STATUS (p : Nat) : Nat := 0x4400000 + p * 0x10000
/-- LNK_CTL, Table 12.13 (R331). -/
def LNK_CTL (p i : Nat) : Nat := 0x4400100 + p * 0x10000 + i * 0x40
/-- LNK_STATUS, Table 12.13 (R331). -/
def LNK_STATUS (p i : Nat) : Nat := 0x4400104 + p * 0x10000 + i * 0x40
/-- LNK_PARTNER, Table 12.13 (R331). -/
def LNK_PARTNER (p i : Nat) : Nat := 0x4400108 + p * 0x10000 + i * 0x40
/-- LNK_PARTNER_POS, Table 12.13 (R331). -/
def LNK_PARTNER_POS (p i : Nat) : Nat := 0x440010C + p * 0x10000 + i * 0x40
/-- LNK_FEC_CORR, Table 12.13 (R331). -/
def LNK_FEC_CORR (p i : Nat) : Nat := 0x4400110 + p * 0x10000 + i * 0x40
/-- LNK_FEC_UNCORR, Table 12.13 (R331). -/
def LNK_FEC_UNCORR (p i : Nat) : Nat := 0x4400114 + p * 0x10000 + i * 0x40
/-- LNK_REPLAY, Table 12.13 (R331). -/
def LNK_REPLAY (p i : Nat) : Nat := 0x4400118 + p * 0x10000 + i * 0x40
/-- LNK_RETRAIN, Table 12.13 (R331). -/
def LNK_RETRAIN (p i : Nat) : Nat := 0x440011C + p * 0x10000 + i * 0x40
/-- LNK_DOWN_COUNT, Table 12.13 (R331). -/
def LNK_DOWN_COUNT (p i : Nat) : Nat := 0x4400120 + p * 0x10000 + i * 0x40
/-- LNK_CMIS, Table 12.13 (R331). -/
def LNK_CMIS (p i : Nat) : Nat := 0x4400124 + p * 0x10000 + i * 0x40
/-- CMT_STATUS, Table 13.7 (R355). -/
def CMT_STATUS : Nat := 0x1F70000
/-- CMT_BUDDY, Table 13.7 (R355). -/
def CMT_BUDDY : Nat := 0x1F70004
/-- CMT_WARD, Table 13.7 (R355). -/
def CMT_WARD : Nat := 0x1F70008
/-- CMT_CTL, Table 13.7 (R355). -/
def CMT_CTL : Nat := 0x1F7000C
/-- CMT_MIRROR_CTL, Table 13.7 (R355). -/
def CMT_MIRROR_CTL : Nat := 0x1F70010
/-- CMT_MIRROR_USED, Table 13.7 (R355). -/
def CMT_MIRROR_USED : Nat := 0x1F70014
/-- CMT_JSEQ_LO, Table 13.7 (R355). -/
def CMT_JSEQ_LO : Nat := 0x1F70018
/-- CMT_JSEQ_HI, Table 13.7 (R355). -/
def CMT_JSEQ_HI : Nat := 0x1F7001C
/-- CMT_COMMIT_EPOCH_LO, Table 13.7 (R355). -/
def CMT_COMMIT_EPOCH_LO : Nat := 0x1F70020
/-- CMT_COMMIT_EPOCH_HI, Table 13.7 (R355). -/
def CMT_COMMIT_EPOCH_HI : Nat := 0x1F70024
/-- CMT_PENDING, Table 13.7 (R355). -/
def CMT_PENDING : Nat := 0x1F70028
/-- CMT_COMMITS, Table 13.7 (R355). -/
def CMT_COMMITS : Nat := 0x1F70030
/-- CMT_ABANDONED, Table 13.7 (R355). -/
def CMT_ABANDONED : Nat := 0x1F70034
/-- CMT_REPLAYED, Table 13.7 (R355). -/
def CMT_REPLAYED : Nat := 0x1F70038
/-- CMT_TAKEOVERS, Table 13.7 (R355). -/
def CMT_TAKEOVERS : Nat := 0x1F7003C
/-- CMT_REREP_COUNT, Table 13.7 (R355). -/
def CMT_REREP_COUNT : Nat := 0x1F70040
/-- CMT_SESSION_LOST, Table 13.7 (R355). -/
def CMT_SESSION_LOST : Nat := 0x1F70044
/-- CMT_BITTERN_FENCED, Table 13.7 (R355). -/
def CMT_BITTERN_FENCED : Nat := 0x1F70048
/-- CMT_COMMIT_NS, Table 13.7 (R355). -/
def CMT_COMMIT_NS : Nat := 0x1F7004C
/-- FLT_STATUS, Table 14.10 (R377). -/
def FLT_STATUS : Nat := 0x1F80000
/-- FLT_HIST_LOST, Table 14.10 (R377). -/
def FLT_HIST_LOST : Nat := 0x1F80004
/-- FLT_HOST_CTL, Table 14.10 (R377). -/
def FLT_HOST_CTL : Nat := 0x1F80008
/-- FLT_ALIVE_KICK, Table 14.10 (R377). -/
def FLT_ALIVE_KICK : Nat := 0x1F8000C
/-- FLT_ALIVE_STATUS, Table 14.10 (R377). -/
def FLT_ALIVE_STATUS : Nat := 0x1F80010
/-- FLT_CORE_WD, Table 14.10 (R377). -/
def FLT_CORE_WD : Nat := 0x1F80014
/-- FLT_CORE_KICK, Table 14.10 (R377). -/
def FLT_CORE_KICK : Nat := 0x1F80018
/-- FLT_SRC_SEL, Table 14.10 (R377). -/
def FLT_SRC_SEL : Nat := 0x1F80020
/-- FLT_SRC_CFG, Table 14.10 (R377). -/
def FLT_SRC_CFG : Nat := 0x1F80024
/-- FLT_SRC_INFO, Table 14.10 (R377). -/
def FLT_SRC_INFO : Nat := 0x1F80028
/-- FLT_SRC_COUNT, Table 14.10 (R377). -/
def FLT_SRC_COUNT : Nat := 0x1F8002C
/-- FLT_FORCE_INST, Table 14.10 (R377). -/
def FLT_FORCE_INST : Nat := 0x1F80030
/-- FLT_STBY_FATAL, Table 14.10 (R377). -/
def FLT_STBY_FATAL : Nat := 0x1F80040
/-- FLT_STBY_LAST, Table 14.10 (R377). -/
def FLT_STBY_LAST : Nat := 0x1F80044
/-- FLT_LIFE_STATUS, Table 14.10 (R377). -/
def FLT_LIFE_STATUS : Nat := 0x1F80050
/-- FLT_LIFE_SEQ, Table 14.10 (R377). -/
def FLT_LIFE_SEQ : Nat := 0x1F80054
/-- FLT_BACC_SEL, Table 14.10 (R377). -/
def FLT_BACC_SEL : Nat := 0x1F80060
/-- FLT_BACC_LO, Table 14.10 (R377). -/
def FLT_BACC_LO : Nat := 0x1F80064
/-- FLT_BACC_HI, Table 14.10 (R377). -/
def FLT_BACC_HI : Nat := 0x1F80068
/-- FLT_HIST_SEL, Table 14.10 (R377). -/
def FLT_HIST_SEL : Nat := 0x1F80070
/-- FLT_HIST_DATA, Table 14.10 (R377). -/
def FLT_HIST_DATA (i : Nat) : Nat := 0x1F80080 + i * 0x4
/-- PMC_TILE_SEL, Table 15.7 (R388). -/
def PMC_TILE_SEL (p : Nat) : Nat := 0x7000000 + p * 0x10000
/-- PMC_TILE_FIRE, Table 15.7 (R388). -/
def PMC_TILE_FIRE (p : Nat) : Nat := 0x7000008 + p * 0x10000
/-- PMC_TILE_STARVED, Table 15.7 (R388). -/
def PMC_TILE_STARVED (p : Nat) : Nat := 0x7000010 + p * 0x10000
/-- PMC_TILE_BLOCKED, Table 15.7 (R388). -/
def PMC_TILE_BLOCKED (p : Nat) : Nat := 0x7000018 + p * 0x10000
/-- PMC_TILE_BUSY, Table 15.7 (R388). -/
def PMC_TILE_BUSY (p : Nat) : Nat := 0x7000020 + p * 0x10000
/-- PMC_Q_FULL, Table 15.7 (R388). -/
def PMC_Q_FULL (p : Nat) : Nat := 0x7000028 + p * 0x10000
/-- PMC_Q_HWM, Table 15.7 (R388). -/
def PMC_Q_HWM (p : Nat) : Nat := 0x7000030 + p * 0x10000
/-- PMC_EQ_STAT, Table 15.7 (R388). -/
def PMC_EQ_STAT (p : Nat) : Nat := 0x7000034 + p * 0x10000
/-- PMC_EQ_FULL, Table 15.7 (R388). -/
def PMC_EQ_FULL (p : Nat) : Nat := 0x7000038 + p * 0x10000
/-- PMC_DIE_CYCLES, Table 15.7 (R388). -/
def PMC_DIE_CYCLES (p : Nat) : Nat := 0x7000040 + p * 0x10000
/-- PMC_DIE_RAKE, Table 15.7 (R388). -/
def PMC_DIE_RAKE (p : Nat) : Nat := 0x7000048 + p * 0x10000
/-- PMC_DIE_WAIT, Table 15.7 (R388). -/
def PMC_DIE_WAIT (p : Nat) : Nat := 0x7000050 + p * 0x10000
/-- PMC_HWM_CLR, Table 15.7 (R388). -/
def PMC_HWM_CLR (p : Nat) : Nat := 0x7000058 + p * 0x10000
/-- PMC_PAN_SEL, Table 15.8 (R388). -/
def PMC_PAN_SEL : Nat := 0x1F90000
/-- PMC_PAN_STEPS, Table 15.8 (R388). -/
def PMC_PAN_STEPS : Nat := 0x1F90008
/-- PMC_PAN_ABANDONED, Table 15.8 (R388). -/
def PMC_PAN_ABANDONED : Nat := 0x1F90010
/-- PMC_PAN_RAKES, Table 15.8 (R388). -/
def PMC_PAN_RAKES : Nat := 0x1F90014
/-- PMC_PAN_HIST_SEL, Table 15.8 (R388). -/
def PMC_PAN_HIST_SEL : Nat := 0x1F90018
/-- PMC_PAN_HIST_DATA, Table 15.8 (R388). -/
def PMC_PAN_HIST_DATA : Nat := 0x1F9001C
/-- PMC_PAN_CLR, Table 15.8 (R388). -/
def PMC_PAN_CLR : Nat := 0x1F90020
/-- FW_STATUS, Table 16.15 (R415). -/
def FW_STATUS : Nat := 0x1FA0000
/-- FW_LOCK, Table 16.15 (R415). -/
def FW_LOCK : Nat := 0x1FA0004
/-- FW_VERSION, Table 16.15 (R415). -/
def FW_VERSION : Nat := 0x1FA0008
/-- FW_SVN, Table 16.15 (R415). -/
def FW_SVN : Nat := 0x1FA000C
/-- FW_SVN_ADVANCE, Table 16.15 (R415). -/
def FW_SVN_ADVANCE : Nat := 0x1FA0010
/-- FW_KEY_REVOKE, Table 16.15 (R415). -/
def FW_KEY_REVOKE : Nat := 0x1FA0014
/-- FW_ROLE_MAP, Table 16.15 (R415). -/
def FW_ROLE_MAP : Nat := 0x1FA0018
/-- FW_RESTARTS, Table 16.15 (R415). -/
def FW_RESTARTS : Nat := 0x1FA001C
/-- FW_STBY_LAG, Table 16.15 (R415). -/
def FW_STBY_LAG : Nat := 0x1FA0020
/-- FW_BOOT_RESULT, Table 16.15 (R415). -/
def FW_BOOT_RESULT : Nat := 0x1FA0024
/-- FW_UPDATE_PAUSE, Table 16.15 (R415). -/
def FW_UPDATE_PAUSE : Nat := 0x1FA0028
/-- FW_MEAS_SEL, Table 16.15 (R415). -/
def FW_MEAS_SEL : Nat := 0x1FA0030
/-- FW_MEAS_DATA, Table 16.15 (R415). -/
def FW_MEAS_DATA (i : Nat) : Nat := 0x1FA0040 + i * 0x4
/-- PWR_STATUS, Table 17.8 (R437). -/
def PWR_STATUS : Nat := 0x1FB0000
/-- PWR_CAP_BOARD, Table 17.8 (R437). -/
def PWR_CAP_BOARD : Nat := 0x1FB0004
/-- PWR_CAP_FW, Table 17.8 (R437). -/
def PWR_CAP_FW : Nat := 0x1FB0008
/-- PWR_PKG_POWER, Table 17.8 (R437). -/
def PWR_PKG_POWER : Nat := 0x1FB000C
/-- PWR_ARR_BUDGET, Table 17.8 (R437). -/
def PWR_ARR_BUDGET : Nat := 0x1FB0010
/-- PWR_TEMP_MAX, Table 17.8 (R437). -/
def PWR_TEMP_MAX : Nat := 0x1FB0014
/-- PWR_THROTTLE_COUNT, Table 17.8 (R437). -/
def PWR_THROTTLE_COUNT : Nat := 0x1FB0018
/-- PWR_DROOP_COUNT, Table 17.8 (R437). -/
def PWR_DROOP_COUNT : Nat := 0x1FB001C
/-- PWR_CAP_CHANGES, Table 17.8 (R437). -/
def PWR_CAP_CHANGES : Nat := 0x1FB0020
/-- PWR_RAIL_STATUS, Table 17.8 (R437). -/
def PWR_RAIL_STATUS : Nat := 0x1FB0024
/-- PWR_ROW_VDD, Table 17.8 (R437). -/
def PWR_ROW_VDD (i : Nat) : Nat := 0x1FB0040 + i * 0x4
/-- PWR_DIE_SEL, Table 17.8 (R437). -/
def PWR_DIE_SEL : Nat := 0x1FB0080
/-- PWR_DIE_STATUS, Table 17.8 (R437). -/
def PWR_DIE_STATUS : Nat := 0x1FB0084
/-- PWR_DIE_POWER, Table 17.8 (R437). -/
def PWR_DIE_POWER : Nat := 0x1FB0088

/-- The rows of the arrPkg block. -/
def arrPkgRows : List RegRow :=
  [⟨0x0, 0x0, 1, false, [⟨0, 8, .ro, 0x48⟩, ⟨8, 8, .ro, 0x8⟩, ⟨16, 8, .ro, 0x9⟩]⟩,
   ⟨0x4, 0x0, 1, false, [⟨0, 7, .rw, 0x0⟩, ⟨30, 1, .rw, 0x0⟩, ⟨31, 1, .rw, 0x0⟩]⟩,
   ⟨0x8, 0x0, 1, false, [⟨0, 7, .rw, 0x0⟩, ⟨30, 1, .rw, 0x0⟩, ⟨31, 1, .rw, 0x0⟩]⟩,
   ⟨0x10, 0x0, 1, false, [⟨0, 32, .rw, 0x0⟩]⟩,
   ⟨0x14, 0x0, 1, false, [⟨0, 32, .rw, 0x0⟩]⟩,
   ⟨0x18, 0x0, 1, false, [⟨0, 8, .rw, 0x0⟩]⟩,
   ⟨0x20, 0x0, 1, false, [⟨0, 10, .ro, 0x0⟩]⟩,
   ⟨0x40, 0x0, 1, false, [⟨0, 32, .wo, 0x0⟩]⟩,
   ⟨0x44, 0x0, 1, false, [⟨0, 32, .wo, 0x0⟩]⟩]

/-- The rows of the arrDie block. -/
def arrDieRows : List RegRow :=
  [⟨0x0, 0x0, 1, false, [⟨0, 1, .rw, 0x0⟩, ⟨1, 4, .rw, 0x0⟩, ⟨16, 4, .rw, 0x0⟩, ⟨20, 1, .rw, 0x0⟩]⟩,
   ⟨0x4, 0x0, 1, false, [⟨0, 1, .ro, 0x0⟩, ⟨1, 1, .ro, 0x0⟩, ⟨2, 1, .ro, 0x0⟩, ⟨3, 1, .ro, 0x1⟩]⟩,
   ⟨0x8, 0x0, 1, false, [⟨0, 12, .ro, 0x4E2⟩]⟩,
   ⟨0x10, 0x0, 1, false, [⟨0, 32, .ro, 0x0⟩]⟩,
   ⟨0x14, 0x0, 1, false, [⟨0, 32, .ro, 0x0⟩]⟩,
   ⟨0x18, 0x0, 1, false, [⟨0, 1, .w1c, 0x0⟩, ⟨1, 1, .w1c, 0x0⟩, ⟨2, 1, .w1c, 0x0⟩, ⟨3, 1, .w1c, 0x0⟩, ⟨4, 1, .w1c, 0x0⟩, ⟨8, 1, .w1c, 0x0⟩]⟩,
   ⟨0x1C, 0x0, 1, false, [⟨0, 4, .ro, 0x0⟩, ⟨8, 5, .ro, 0x0⟩, ⟨13, 3, .ro, 0x0⟩, ⟨16, 2, .ro, 0x0⟩, ⟨31, 1, .ro, 0x0⟩]⟩,
   ⟨0x20, 0x0, 1, false, [⟨0, 4, .rw, 0x0⟩, ⟨8, 5, .rw, 0x0⟩]⟩,
   ⟨0x24, 0x0, 1, false, [⟨0, 6, .ro, 0x0⟩, ⟨8, 1, .ro, 0x1⟩, ⟨9, 1, .ro, 0x0⟩, ⟨10, 1, .ro, 0x0⟩]⟩,
   ⟨0x30, 0x0, 1, false, [⟨0, 32, .ro, 0x0⟩]⟩,
   ⟨0x34, 0x0, 1, false, [⟨0, 32, .ro, 0x0⟩]⟩,
   ⟨0x38, 0x0, 1, false, [⟨0, 32, .ro, 0x0⟩]⟩] ++
  [⟨0x3C, 0x0, 1, false, [⟨0, 32, .ro, 0x0⟩]⟩,
   ⟨0x40, 0x0, 1, true, [⟨0, 64, .ro, 0x0⟩]⟩,
   ⟨0x48, 0x0, 1, false, [⟨0, 16, .ro, 0x0⟩]⟩,
   ⟨0x50, 0x0, 1, false, [⟨0, 32, .ro, 0x0⟩]⟩,
   ⟨0x80, 0x0, 1, false, [⟨0, 32, .ro, 0x0⟩]⟩,
   ⟨0x84, 0x0, 1, false, [⟨0, 32, .ro, 0x0⟩]⟩,
   ⟨0x88, 0x0, 1, false, [⟨0, 32, .ro, 0x0⟩]⟩,
   ⟨0x8C, 0x0, 1, false, [⟨0, 32, .ro, 0x0⟩]⟩,
   ⟨0x90, 0x0, 1, false, [⟨0, 1, .wo, 0x0⟩]⟩,
   ⟨0x98, 0x0, 1, false, [⟨0, 32, .wo, 0x0⟩]⟩,
   ⟨0x9C, 0x0, 1, false, [⟨0, 32, .wo, 0x0⟩]⟩,
   ⟨0xC0, 0x0, 1, false, [⟨0, 32, .ro, 0x0⟩]⟩] ++
  [⟨0xC4, 0x0, 1, false, [⟨0, 32, .ro, 0x0⟩]⟩,
   ⟨0xC8, 0x0, 1, false, [⟨0, 32, .ro, 0x0⟩]⟩,
   ⟨0xCC, 0x0, 1, false, [⟨0, 32, .ro, 0x0⟩]⟩,
   ⟨0xD0, 0x0, 1, false, [⟨0, 32, .ro, 0x0⟩]⟩,
   ⟨0xD4, 0x0, 1, false, [⟨0, 32, .ro, 0x0⟩]⟩,
   ⟨0xE0, 0x0, 1, false, [⟨0, 32, .ro, 0x0⟩]⟩,
   ⟨0xE4, 0x0, 1, false, [⟨0, 32, .ro, 0x0⟩]⟩,
   ⟨0xF0, 0x0, 1, false, [⟨0, 32, .ro, 0x0⟩]⟩,
   ⟨0xF4, 0x0, 1, false, [⟨0, 32, .ro, 0x0⟩]⟩]

/-- The rows of the cfgDie block. -/
def cfgDieRows : List RegRow :=
  [⟨0x0, 0x0, 1, false, [⟨0, 32, .ro, 0x0⟩]⟩,
   ⟨0x4, 0x0, 1, false, [⟨0, 32, .rw, 0x0⟩]⟩,
   ⟨0x8, 0x0, 1, false, [⟨0, 9, .ro, 0x0⟩, ⟨16, 1, .ro, 0x0⟩, ⟨17, 1, .ro, 0x0⟩]⟩,
   ⟨0xC, 0x0, 1, false, [⟨0, 2, .rw, 0x0⟩, ⟨8, 2, .ro, 0x0⟩]⟩,
   ⟨0x10, 0x0, 1, false, [⟨0, 1, .w1c, 0x0⟩, ⟨1, 1, .w1c, 0x0⟩]⟩,
   ⟨0x14, 0x0, 1, false, [⟨0, 8, .rwl, 0x40⟩]⟩,
   ⟨0x18, 0x0, 1, false, [⟨0, 32, .ro, 0x0⟩]⟩,
   ⟨0x1C, 0x0, 1, false, [⟨0, 8, .ro, 0x0⟩, ⟨8, 2, .ro, 0x0⟩]⟩,
   ⟨0x20, 0x0, 1, false, [⟨0, 32, .rw, 0x0⟩]⟩,
   ⟨0x24, 0x0, 1, false, [⟨0, 10, .rw, 0x0⟩]⟩,
   ⟨0x28, 0x0, 1, false, [⟨0, 9, .rw, 0x10⟩]⟩,
   ⟨0x2C, 0x0, 1, false, [⟨0, 16, .ro, 0x0⟩, ⟨16, 7, .ro, 0x0⟩]⟩] ++
  [⟨0x30, 0x0, 1, false, [⟨0, 16, .ro, 0x0⟩, ⟨31, 1, .wo, 0x0⟩]⟩,
   ⟨0x40, 0x0, 1, false, [⟨0, 32, .ro, 0x0⟩]⟩,
   ⟨0x44, 0x0, 1, false, [⟨0, 32, .ro, 0x0⟩]⟩,
   ⟨0x48, 0x0, 1, false, [⟨0, 32, .ro, 0x0⟩]⟩]

/-- The rows of the cfgPkg block. -/
def cfgPkgRows : List RegRow :=
  [⟨0x100, 0x20, 16, false, [⟨0, 1, .ro, 0x0⟩, ⟨1, 1, .ro, 0x0⟩, ⟨2, 2, .ro, 0x0⟩, ⟨16, 12, .ro, 0x0⟩]⟩,
   ⟨0x104, 0x20, 16, false, [⟨0, 3, .ro, 0x0⟩, ⟨8, 4, .ro, 0x0⟩, ⟨16, 4, .ro, 0x0⟩, ⟨20, 4, .ro, 0x0⟩]⟩,
   ⟨0x108, 0x20, 16, false, [⟨0, 32, .ro, 0x0⟩]⟩,
   ⟨0x10C, 0x20, 16, false, [⟨0, 1, .ro, 0x0⟩, ⟨1, 1, .ro, 0x0⟩, ⟨2, 1, .ro, 0x0⟩]⟩,
   ⟨0x400, 0x0, 1, false, [⟨0, 5, .ro, 0x0⟩, ⟨8, 5, .ro, 0x0⟩, ⟨16, 5, .ro, 0x0⟩, ⟨24, 5, .ro, 0x0⟩]⟩,
   ⟨0x404, 0x0, 1, false, [⟨0, 32, .ro, 0x0⟩]⟩]

/-- The rows of the tierPkg block. -/
def tierPkgRows : List RegRow :=
  [⟨0x0, 0x0, 1, false, [⟨0, 32, .ro, 0x0⟩]⟩,
   ⟨0x4, 0x0, 1, false, [⟨0, 32, .ro, 0x0⟩]⟩,
   ⟨0x8, 0x0, 1, false, [⟨0, 16, .rwl, 0x1F4⟩]⟩,
   ⟨0xC, 0x0, 1, false, [⟨0, 7, .ro, 0x0⟩, ⟨16, 16, .ro, 0x0⟩]⟩,
   ⟨0x10, 0x0, 1, false, [⟨0, 32, .ro, 0x0⟩]⟩,
   ⟨0x14, 0x0, 1, false, [⟨0, 32, .ro, 0x0⟩]⟩,
   ⟨0x18, 0x0, 1, false, [⟨0, 32, .ro, 0x0⟩]⟩,
   ⟨0x20, 0x0, 1, false, [⟨0, 12, .rw, 0x0⟩]⟩,
   ⟨0x24, 0x0, 1, false, [⟨0, 32, .ro, 0x0⟩]⟩,
   ⟨0x28, 0x0, 1, false, [⟨0, 32, .ro, 0x0⟩]⟩,
   ⟨0x2C, 0x0, 1, false, [⟨0, 32, .ro, 0x0⟩]⟩,
   ⟨0x30, 0x0, 1, false, [⟨0, 32, .ro, 0x0⟩]⟩] ++
  [⟨0x34, 0x0, 1, false, [⟨0, 8, .ro, 0x0⟩, ⟨8, 1, .ro, 0x0⟩]⟩,
   ⟨0x38, 0x0, 1, false, [⟨0, 15, .ro, 0x0⟩, ⟨16, 15, .ro, 0x0⟩]⟩]

/-- The rows of the tierFar block. -/
def tierFarRows : List RegRow :=
  [⟨0x0, 0x0, 1, false, [⟨0, 12, .ro, 0x0⟩, ⟨12, 3, .ro, 0x0⟩, ⟨15, 1, .ro, 0x0⟩, ⟨16, 4, .ro, 0x0⟩, ⟨31, 1, .ro, 0x0⟩]⟩,
   ⟨0x4, 0x0, 1, false, [⟨0, 32, .ro, 0x0⟩]⟩,
   ⟨0x8, 0x0, 1, false, [⟨0, 32, .ro, 0x0⟩]⟩,
   ⟨0xC, 0x0, 1, false, [⟨0, 32, .ro, 0x0⟩]⟩,
   ⟨0x10, 0x0, 1, false, [⟨0, 32, .ro, 0x0⟩]⟩,
   ⟨0x14, 0x0, 1, false, [⟨0, 32, .ro, 0x0⟩]⟩,
   ⟨0x18, 0x0, 1, false, [⟨0, 32, .ro, 0x0⟩]⟩]

/-- The rows of the tierPort block. -/
def tierPortRows : List RegRow :=
  [⟨0x0, 0x0, 1, false, [⟨0, 1, .ro, 0x0⟩]⟩,
   ⟨0x10, 0x0, 1, false, [⟨0, 32, .ro, 0x0⟩]⟩,
   ⟨0x14, 0x0, 1, false, [⟨0, 32, .ro, 0x0⟩]⟩,
   ⟨0x18, 0x0, 1, false, [⟨0, 32, .ro, 0x0⟩]⟩]

/-- The rows of the nearPort block. -/
def nearPortRows : List RegRow :=
  [⟨0x0, 0x0, 1, false, [⟨0, 3, .rwl, 0x4⟩]⟩,
   ⟨0x4, 0x0, 1, false, [⟨0, 3, .ro, 0x0⟩, ⟨3, 4, .ro, 0x0⟩, ⟨7, 3, .ro, 0x0⟩, ⟨10, 1, .ro, 0x0⟩]⟩,
   ⟨0x8, 0x0, 1, false, [⟨0, 6, .ro, 0x0⟩]⟩,
   ⟨0xC, 0x0, 1, false, [⟨0, 11, .ro, 0x0⟩]⟩,
   ⟨0x10, 0x0, 1, false, [⟨0, 1, .rwl, 0x1⟩, ⟨8, 8, .rwl, 0xC⟩]⟩,
   ⟨0x14, 0x0, 1, false, [⟨0, 32, .ro, 0x0⟩]⟩,
   ⟨0x100, 0x40, 4, false, [⟨0, 1, .ro, 0x0⟩, ⟨1, 1, .ro, 0x0⟩, ⟨2, 1, .ro, 0x0⟩, ⟨8, 8, .ro, 0x0⟩, ⟨16, 3, .ro, 0x0⟩]⟩,
   ⟨0x104, 0x40, 4, false, [⟨0, 32, .ro, 0x0⟩]⟩,
   ⟨0x108, 0x40, 4, false, [⟨0, 32, .ro, 0x0⟩]⟩,
   ⟨0x10C, 0x40, 4, false, [⟨0, 32, .ro, 0x0⟩]⟩,
   ⟨0x110, 0x40, 4, false, [⟨0, 32, .ro, 0x0⟩]⟩]

/-- The rows of the farDie block. -/
def farDieRows : List RegRow :=
  [⟨0x0, 0x0, 1, false, [⟨0, 1, .rwl, 0x0⟩]⟩,
   ⟨0x100, 0x40, 3, false, [⟨0, 1, .ro, 0x0⟩, ⟨1, 2, .ro, 0x0⟩, ⟨3, 1, .ro, 0x0⟩, ⟨4, 1, .ro, 0x0⟩, ⟨5, 1, .ro, 0x0⟩, ⟨8, 4, .ro, 0x0⟩]⟩,
   ⟨0x104, 0x40, 3, false, [⟨0, 18, .ro, 0x0⟩]⟩,
   ⟨0x108, 0x40, 3, false, [⟨0, 32, .ro, 0x0⟩]⟩,
   ⟨0x10C, 0x40, 3, false, [⟨0, 32, .ro, 0x0⟩]⟩,
   ⟨0x110, 0x40, 3, false, [⟨0, 32, .ro, 0x0⟩]⟩,
   ⟨0x114, 0x40, 3, false, [⟨0, 32, .ro, 0x0⟩]⟩,
   ⟨0x118, 0x40, 3, false, [⟨0, 11, .ro, 0x0⟩]⟩]

/-- The rows of the seqPkg block. -/
def seqPkgRows : List RegRow :=
  [⟨0x0, 0x0, 1, false, [⟨0, 1, .rw, 0x0⟩]⟩,
   ⟨0x4, 0x0, 1, false, [⟨0, 15, .ro, 0x0⟩, ⟨16, 15, .ro, 0x0⟩]⟩,
   ⟨0x8, 0x0, 1, false, [⟨0, 32, .ro, 0x0⟩]⟩,
   ⟨0xC, 0x0, 1, false, [⟨0, 32, .ro, 0x0⟩]⟩,
   ⟨0x10, 0x0, 1, false, [⟨0, 15, .ro, 0x0⟩]⟩,
   ⟨0x20, 0x0, 1, false, [⟨0, 32, .ro, 0x0⟩]⟩,
   ⟨0x24, 0x0, 1, false, [⟨0, 32, .ro, 0x0⟩]⟩,
   ⟨0x28, 0x0, 1, false, [⟨0, 32, .ro, 0x0⟩]⟩,
   ⟨0x2C, 0x0, 1, false, [⟨0, 32, .ro, 0x0⟩]⟩,
   ⟨0x30, 0x0, 1, false, [⟨0, 32, .ro, 0x0⟩]⟩,
   ⟨0x34, 0x0, 1, false, [⟨0, 32, .ro, 0x0⟩]⟩,
   ⟨0x38, 0x0, 1, false, [⟨0, 32, .ro, 0x0⟩]⟩] ++
  [⟨0x3C, 0x0, 1, false, [⟨0, 32, .ro, 0x0⟩]⟩,
   ⟨0x40, 0x0, 1, false, [⟨0, 32, .ro, 0x0⟩]⟩,
   ⟨0x44, 0x0, 1, false, [⟨0, 32, .ro, 0x0⟩]⟩,
   ⟨0x48, 0x0, 1, false, [⟨0, 32, .ro, 0x0⟩]⟩,
   ⟨0x80, 0x0, 1, false, [⟨0, 12, .rw, 0x0⟩]⟩,
   ⟨0x84, 0x0, 1, false, [⟨0, 20, .ro, 0xC350⟩]⟩,
   ⟨0x88, 0x0, 1, false, [⟨0, 20, .ro, 0xF4240⟩]⟩,
   ⟨0x8C, 0x0, 1, false, [⟨0, 20, .ro, 0x2710⟩]⟩,
   ⟨0x90, 0x0, 1, false, [⟨0, 16, .ro, 0x3E8⟩]⟩,
   ⟨0x100, 0x10, 16, false, [⟨0, 14, .ro, 0x0⟩, ⟨16, 14, .ro, 0x0⟩]⟩,
   ⟨0x104, 0x10, 16, false, [⟨0, 32, .ro, 0x0⟩]⟩,
   ⟨0x108, 0x10, 16, false, [⟨0, 32, .ro, 0x0⟩]⟩] ++
  [⟨0x50, 0x0, 1, false, [⟨0, 32, .ro, 0x0⟩]⟩,
   ⟨0x54, 0x0, 1, false, [⟨0, 32, .ro, 0x0⟩]⟩,
   ⟨0x58, 0x0, 1, false, [⟨0, 32, .ro, 0x0⟩]⟩,
   ⟨0x5C, 0x0, 1, false, [⟨0, 32, .ro, 0x0⟩]⟩,
   ⟨0x60, 0x0, 1, false, [⟨0, 32, .ro, 0x0⟩]⟩,
   ⟨0x64, 0x0, 1, false, [⟨0, 32, .ro, 0x0⟩]⟩,
   ⟨0x68, 0x0, 1, false, [⟨0, 32, .ro, 0x0⟩]⟩,
   ⟨0x6C, 0x0, 1, false, [⟨0, 32, .ro, 0x0⟩]⟩]

/-- The rows of the adpPkg block. -/
def adpPkgRows : List RegRow :=
  [⟨0x0, 0x0, 1, false, [⟨0, 14, .ro, 0x0⟩]⟩,
   ⟨0x4, 0x0, 1, false, [⟨0, 32, .ro, 0x0⟩]⟩,
   ⟨0x8, 0x0, 1, false, [⟨0, 32, .ro, 0x0⟩]⟩,
   ⟨0xC, 0x0, 1, false, [⟨0, 32, .ro, 0x0⟩]⟩,
   ⟨0x10, 0x0, 1, false, [⟨0, 32, .ro, 0x0⟩]⟩,
   ⟨0x20, 0x0, 1, false, [⟨0, 13, .rw, 0x0⟩]⟩,
   ⟨0x24, 0x0, 1, false, [⟨0, 2, .ro, 0x0⟩, ⟨8, 8, .ro, 0x0⟩, ⟨16, 12, .ro, 0x0⟩, ⟨28, 4, .ro, 0x0⟩]⟩,
   ⟨0x28, 0x0, 1, false, [⟨0, 32, .ro, 0x0⟩]⟩,
   ⟨0x30, 0x0, 1, false, [⟨0, 10, .rw, 0x0⟩]⟩,
   ⟨0x34, 0x0, 1, false, [⟨0, 2, .ro, 0x0⟩, ⟨2, 1, .ro, 0x0⟩, ⟨3, 1, .ro, 0x0⟩, ⟨8, 8, .ro, 0x0⟩, ⟨16, 8, .ro, 0x0⟩]⟩,
   ⟨0x100, 0x10, 16, false, [⟨0, 13, .ro, 0x0⟩, ⟨16, 14, .ro, 0x0⟩]⟩]

/-- The rows of the adpDie block. -/
def adpDieRows : List RegRow :=
  [⟨0x0, 0x0, 1, false, [⟨0, 32, .ro, 0x0⟩]⟩,
   ⟨0x4, 0x0, 1, false, [⟨0, 32, .ro, 0x0⟩]⟩,
   ⟨0x8, 0x0, 1, false, [⟨0, 32, .ro, 0x0⟩]⟩,
   ⟨0xC, 0x0, 1, false, [⟨0, 32, .ro, 0x0⟩]⟩]

/-- The rows of the embPkg block. -/
def embPkgRows : List RegRow :=
  [⟨0x0, 0x0, 1, false, [⟨0, 16, .rwl, 0x7D0⟩]⟩,
   ⟨0x4, 0x0, 1, false, [⟨0, 11, .ro, 0x0⟩]⟩,
   ⟨0x8, 0x0, 1, false, [⟨0, 32, .ro, 0x0⟩]⟩,
   ⟨0xC, 0x0, 1, false, [⟨0, 32, .ro, 0x0⟩]⟩,
   ⟨0x10, 0x0, 1, false, [⟨0, 32, .ro, 0x0⟩]⟩,
   ⟨0x14, 0x0, 1, false, [⟨0, 32, .ro, 0x0⟩]⟩,
   ⟨0x18, 0x0, 1, false, [⟨0, 32, .ro, 0x0⟩]⟩,
   ⟨0x20, 0x0, 1, false, [⟨0, 10, .rw, 0x0⟩]⟩,
   ⟨0x24, 0x0, 1, false, [⟨0, 2, .ro, 0x0⟩, ⟨2, 1, .ro, 0x0⟩, ⟨8, 8, .ro, 0x0⟩, ⟨16, 8, .ro, 0x0⟩, ⟨24, 4, .ro, 0x0⟩]⟩]

/-- The rows of the embDie block. -/
def embDieRows : List RegRow :=
  [⟨0x0, 0x0, 1, false, [⟨0, 32, .ro, 0x0⟩]⟩,
   ⟨0x4, 0x0, 1, false, [⟨0, 32, .ro, 0x0⟩]⟩,
   ⟨0x8, 0x0, 1, false, [⟨0, 32, .ro, 0x0⟩]⟩,
   ⟨0xC, 0x0, 1, false, [⟨0, 32, .ro, 0x0⟩]⟩,
   ⟨0x10, 0x0, 1, false, [⟨0, 32, .ro, 0x0⟩]⟩,
   ⟨0x14, 0x0, 1, false, [⟨0, 32, .ro, 0x0⟩]⟩,
   ⟨0x18, 0x0, 1, false, [⟨0, 13, .ro, 0x0⟩]⟩,
   ⟨0x1C, 0x0, 1, false, [⟨0, 32, .ro, 0x0⟩]⟩,
   ⟨0x20, 0x0, 1, false, [⟨0, 32, .ro, 0x0⟩]⟩,
   ⟨0x24, 0x0, 1, false, [⟨0, 32, .ro, 0x0⟩]⟩,
   ⟨0x28, 0x0, 1, false, [⟨0, 32, .ro, 0x0⟩]⟩]

/-- The rows of the cmdFn block. -/
def cmdFnRows : List RegRow :=
  [⟨0x0, 0x0, 1, false, [⟨0, 8, .ro, 0x0⟩, ⟨8, 12, .ro, 0x0⟩, ⟨24, 5, .ro, 0x0⟩]⟩,
   ⟨0x4, 0x0, 1, false, [⟨0, 16, .ro, 0x0⟩, ⟨16, 16, .ro, 0x1⟩]⟩,
   ⟨0x8, 0x0, 1, false, [⟨0, 1, .ro, 0x0⟩, ⟨1, 1, .ro, 0x0⟩]⟩,
   ⟨0xC, 0x0, 1, false, [⟨0, 12, .ro, 0x0⟩]⟩,
   ⟨0x1000, 0x4, 256, false, [⟨0, 5, .rw, 0x10⟩, ⟨16, 7, .rw, 0x8⟩]⟩]

/-- The rows of the cmdCtx block. -/
def cmdCtxRows : List RegRow :=
  [⟨0x0, 0x0, 1, false, [⟨0, 2, .ro, 0x0⟩, ⟨16, 13, .ro, 0x0⟩]⟩,
   ⟨0x4, 0x0, 1, false, [⟨0, 20, .rw, 0x0⟩, ⟨31, 1, .rw, 0x0⟩]⟩,
   ⟨0x8, 0x0, 1, false, [⟨12, 20, .rw, 0x0⟩]⟩,
   ⟨0xC, 0x0, 1, false, [⟨0, 32, .rw, 0x0⟩]⟩,
   ⟨0x10, 0x0, 1, false, [⟨0, 5, .rw, 0x6⟩, ⟨16, 11, .rw, 0x0⟩, ⟨27, 4, .rw, 0x0⟩, ⟨31, 1, .rw, 0x0⟩]⟩,
   ⟨0x14, 0x0, 1, false, [⟨0, 20, .ro, 0x0⟩, ⟨28, 3, .ro, 0x0⟩, ⟨31, 1, .ro, 0x0⟩]⟩,
   ⟨0x40, 0x20, 8, false, [⟨12, 20, .rw, 0x0⟩]⟩,
   ⟨0x44, 0x20, 8, false, [⟨0, 32, .rw, 0x0⟩]⟩,
   ⟨0x48, 0x20, 8, false, [⟨12, 20, .rw, 0x0⟩]⟩,
   ⟨0x4C, 0x20, 8, false, [⟨0, 32, .rw, 0x0⟩]⟩,
   ⟨0x50, 0x20, 8, false, [⟨0, 5, .rw, 0x2⟩, ⟨8, 5, .rw, 0x2⟩, ⟨16, 11, .rw, 0x0⟩, ⟨31, 1, .rw, 0x0⟩]⟩,
   ⟨0x54, 0x20, 8, false, [⟨0, 16, .ro, 0x0⟩, ⟨28, 3, .ro, 0x0⟩, ⟨31, 1, .ro, 0x0⟩]⟩]

/-- The rows of the lnkPkg block. -/
def lnkPkgRows : List RegRow :=
  [⟨0x0, 0x0, 1, false, [⟨0, 10, .ro, 0x0⟩, ⟨10, 1, .ro, 0x1⟩, ⟨11, 1, .ro, 0x0⟩, ⟨16, 16, .ro, 0x0⟩]⟩,
   ⟨0x4, 0x0, 1, false, [⟨0, 4, .ro, 0x0⟩, ⟨4, 5, .ro, 0x0⟩, ⟨9, 2, .ro, 0x0⟩, ⟨11, 1, .ro, 0x0⟩, ⟨12, 1, .ro, 0x0⟩]⟩,
   ⟨0x8, 0x0, 1, false, [⟨0, 1, .ro, 0x0⟩, ⟨1, 1, .ro, 0x1⟩, ⟨8, 10, .ro, 0x3FF⟩]⟩,
   ⟨0x10, 0x0, 1, false, [⟨0, 32, .ro, 0x0⟩]⟩,
   ⟨0x14, 0x0, 1, false, [⟨0, 32, .ro, 0x0⟩]⟩,
   ⟨0x18, 0x0, 1, false, [⟨0, 11, .ro, 0x0⟩]⟩,
   ⟨0x20, 0x0, 1, false, [⟨0, 16, .rwl, 0x1F4⟩]⟩,
   ⟨0x24, 0x0, 1, false, [⟨0, 16, .rwl, 0x7D0⟩]⟩,
   ⟨0x30, 0x0, 1, false, [⟨0, 32, .ro, 0x0⟩]⟩,
   ⟨0x34, 0x0, 1, false, [⟨0, 32, .ro, 0x0⟩]⟩,
   ⟨0x38, 0x0, 1, false, [⟨0, 32, .ro, 0x0⟩]⟩,
   ⟨0x3C, 0x0, 1, false, [⟨0, 32, .ro, 0x0⟩]⟩] ++
  [⟨0x40, 0x0, 1, false, [⟨0, 32, .ro, 0x0⟩]⟩]

/-- The rows of the lnkDie block. -/
def lnkDieRows : List RegRow :=
  [⟨0x0, 0x0, 1, false, [⟨0, 1, .w1c, 0x0⟩]⟩,
   ⟨0x100, 0x40, 6, false, [⟨0, 1, .rw, 0x1⟩, ⟨1, 2, .rwl, 0x0⟩, ⟨3, 2, .rwl, 0x0⟩]⟩,
   ⟨0x104, 0x40, 6, false, [⟨0, 3, .ro, 0x0⟩, ⟨3, 1, .ro, 0x0⟩, ⟨4, 4, .ro, 0x0⟩, ⟨8, 2, .ro, 0x0⟩, ⟨10, 2, .ro, 0x0⟩, ⟨12, 4, .ro, 0x0⟩, ⟨16, 2, .ro, 0x0⟩, ⟨18, 1, .ro, 0x0⟩]⟩,
   ⟨0x108, 0x40, 6, false, [⟨0, 10, .ro, 0x0⟩, ⟨10, 3, .ro, 0x0⟩, ⟨13, 6, .ro, 0x0⟩]⟩,
   ⟨0x10C, 0x40, 6, false, [⟨0, 11, .ro, 0x0⟩, ⟨11, 1, .ro, 0x0⟩, ⟨12, 3, .ro, 0x0⟩]⟩,
   ⟨0x110, 0x40, 6, false, [⟨0, 32, .ro, 0x0⟩]⟩,
   ⟨0x114, 0x40, 6, false, [⟨0, 32, .ro, 0x0⟩]⟩,
   ⟨0x118, 0x40, 6, false, [⟨0, 32, .ro, 0x0⟩]⟩,
   ⟨0x11C, 0x40, 6, false, [⟨0, 32, .ro, 0x0⟩]⟩,
   ⟨0x120, 0x40, 6, false, [⟨0, 32, .ro, 0x0⟩]⟩,
   ⟨0x124, 0x40, 6, false, [⟨0, 1, .ro, 0x0⟩, ⟨1, 3, .ro, 0x0⟩, ⟨4, 1, .ro, 0x0⟩, ⟨8, 8, .ro, 0x0⟩]⟩]

/-- The rows of the cmtPkg block. -/
def cmtPkgRows : List RegRow :=
  [⟨0x0, 0x0, 1, false, [⟨0, 1, .ro, 0x0⟩, ⟨1, 1, .ro, 0x0⟩, ⟨2, 1, .ro, 0x0⟩, ⟨3, 1, .ro, 0x0⟩, ⟨4, 1, .ro, 0x0⟩, ⟨5, 1, .ro, 0x0⟩]⟩,
   ⟨0x4, 0x0, 1, false, [⟨0, 10, .ro, 0x0⟩, ⟨16, 16, .ro, 0x0⟩]⟩,
   ⟨0x8, 0x0, 1, false, [⟨0, 10, .ro, 0x0⟩, ⟨16, 16, .ro, 0x0⟩]⟩,
   ⟨0xC, 0x0, 1, false, [⟨0, 16, .rwl, 0x1F4⟩]⟩,
   ⟨0x10, 0x0, 1, false, [⟨0, 11, .rwl, 0x400⟩]⟩,
   ⟨0x14, 0x0, 1, false, [⟨0, 32, .ro, 0x0⟩]⟩,
   ⟨0x18, 0x0, 1, false, [⟨0, 32, .ro, 0x0⟩]⟩,
   ⟨0x1C, 0x0, 1, false, [⟨0, 32, .ro, 0x0⟩]⟩,
   ⟨0x20, 0x0, 1, false, [⟨0, 32, .ro, 0x0⟩]⟩,
   ⟨0x24, 0x0, 1, false, [⟨0, 32, .ro, 0x0⟩]⟩,
   ⟨0x28, 0x0, 1, false, [⟨0, 15, .ro, 0x0⟩]⟩,
   ⟨0x30, 0x0, 1, false, [⟨0, 32, .ro, 0x0⟩]⟩] ++
  [⟨0x34, 0x0, 1, false, [⟨0, 32, .ro, 0x0⟩]⟩,
   ⟨0x38, 0x0, 1, false, [⟨0, 32, .ro, 0x0⟩]⟩,
   ⟨0x3C, 0x0, 1, false, [⟨0, 32, .ro, 0x0⟩]⟩,
   ⟨0x40, 0x0, 1, false, [⟨0, 32, .ro, 0x0⟩]⟩,
   ⟨0x44, 0x0, 1, false, [⟨0, 32, .ro, 0x0⟩]⟩,
   ⟨0x48, 0x0, 1, false, [⟨0, 32, .ro, 0x0⟩]⟩,
   ⟨0x4C, 0x0, 1, false, [⟨0, 32, .ro, 0x0⟩]⟩]

/-- The rows of the fltPkg block. -/
def fltPkgRows : List RegRow :=
  [⟨0x0, 0x0, 1, false, [⟨0, 1, .ro, 0x0⟩, ⟨1, 1, .ro, 0x0⟩, ⟨2, 1, .ro, 0x0⟩, ⟨4, 6, .ro, 0x0⟩]⟩,
   ⟨0x4, 0x0, 1, false, [⟨0, 32, .ro, 0x0⟩]⟩,
   ⟨0x8, 0x0, 1, false, [⟨0, 11, .rw, 0x0⟩, ⟨16, 1, .rw, 0x0⟩, ⟨17, 1, .rw, 0x0⟩]⟩,
   ⟨0xC, 0x0, 1, false, [⟨0, 16, .wo, 0x0⟩]⟩,
   ⟨0x10, 0x0, 1, false, [⟨0, 1, .ro, 0x0⟩, ⟨1, 1, .ro, 0x0⟩, ⟨2, 1, .ro, 0x0⟩, ⟨3, 1, .ro, 0x0⟩, ⟨16, 16, .ro, 0x0⟩]⟩,
   ⟨0x14, 0x0, 1, false, [⟨0, 8, .w1c, 0x0⟩]⟩,
   ⟨0x18, 0x0, 1, false, [⟨0, 8, .wo, 0x0⟩]⟩,
   ⟨0x20, 0x0, 1, false, [⟨0, 16, .rw, 0x0⟩]⟩,
   ⟨0x24, 0x0, 1, false, [⟨0, 3, .rw, 0x0⟩, ⟨8, 1, .w1s, 0x0⟩, ⟨16, 16, .rw, 0x0⟩]⟩,
   ⟨0x28, 0x0, 1, false, [⟨0, 2, .ro, 0x0⟩, ⟨2, 1, .ro, 0x0⟩, ⟨8, 6, .ro, 0x0⟩, ⟨16, 3, .ro, 0x0⟩]⟩,
   ⟨0x2C, 0x0, 1, false, [⟨0, 32, .ro, 0x0⟩]⟩,
   ⟨0x30, 0x0, 1, false, [⟨0, 8, .rw, 0xFF⟩, ⟨8, 8, .rw, 0xFF⟩]⟩] ++
  [⟨0x40, 0x0, 1, false, [⟨0, 32, .ro, 0x0⟩]⟩,
   ⟨0x44, 0x0, 1, false, [⟨0, 16, .ro, 0x0⟩]⟩,
   ⟨0x50, 0x0, 1, false, [⟨0, 1, .ro, 0x0⟩, ⟨1, 1, .w1c, 0x0⟩, ⟨2, 1, .ro, 0x0⟩, ⟨3, 2, .ro, 0x0⟩]⟩,
   ⟨0x54, 0x0, 1, false, [⟨0, 32, .ro, 0x0⟩]⟩,
   ⟨0x60, 0x0, 1, false, [⟨0, 8, .rw, 0x0⟩, ⟨8, 8, .rw, 0x0⟩]⟩,
   ⟨0x64, 0x0, 1, false, [⟨0, 32, .ro, 0x0⟩]⟩,
   ⟨0x68, 0x0, 1, false, [⟨0, 32, .ro, 0x0⟩]⟩,
   ⟨0x70, 0x0, 1, false, [⟨0, 5, .rw, 0x0⟩]⟩,
   ⟨0x80, 0x4, 8, false, [⟨0, 32, .ro, 0x0⟩]⟩]

/-- The rows of the pmcDie block. -/
def pmcDieRows : List RegRow :=
  [⟨0x0, 0x0, 1, false, [⟨0, 4, .rw, 0x0⟩, ⟨8, 5, .rw, 0x0⟩, ⟨13, 3, .rw, 0x0⟩, ⟨16, 2, .rw, 0x0⟩, ⟨18, 3, .rw, 0x0⟩]⟩,
   ⟨0x8, 0x0, 1, true, [⟨0, 48, .ro, 0x0⟩]⟩,
   ⟨0x10, 0x0, 1, true, [⟨0, 48, .ro, 0x0⟩]⟩,
   ⟨0x18, 0x0, 1, true, [⟨0, 48, .ro, 0x0⟩]⟩,
   ⟨0x20, 0x0, 1, true, [⟨0, 48, .ro, 0x0⟩]⟩,
   ⟨0x28, 0x0, 1, true, [⟨0, 48, .ro, 0x0⟩]⟩,
   ⟨0x30, 0x0, 1, false, [⟨0, 4, .ro, 0x0⟩]⟩,
   ⟨0x34, 0x0, 1, false, [⟨0, 11, .ro, 0x0⟩, ⟨16, 11, .ro, 0x0⟩, ⟨31, 1, .ro, 0x0⟩]⟩,
   ⟨0x38, 0x0, 1, true, [⟨0, 48, .ro, 0x0⟩]⟩,
   ⟨0x40, 0x0, 1, true, [⟨0, 48, .ro, 0x0⟩]⟩,
   ⟨0x48, 0x0, 1, true, [⟨0, 48, .ro, 0x0⟩]⟩,
   ⟨0x50, 0x0, 1, true, [⟨0, 48, .ro, 0x0⟩]⟩] ++
  [⟨0x58, 0x0, 1, false, [⟨0, 1, .wo, 0x0⟩]⟩]

/-- The rows of the pmcPkg block. -/
def pmcPkgRows : List RegRow :=
  [⟨0x0, 0x0, 1, false, [⟨0, 4, .rw, 0x0⟩]⟩,
   ⟨0x8, 0x0, 1, true, [⟨0, 48, .ro, 0x0⟩]⟩,
   ⟨0x10, 0x0, 1, false, [⟨0, 32, .ro, 0x0⟩]⟩,
   ⟨0x14, 0x0, 1, false, [⟨0, 32, .ro, 0x0⟩]⟩,
   ⟨0x18, 0x0, 1, false, [⟨0, 2, .rw, 0x0⟩, ⟨8, 5, .rw, 0x0⟩]⟩,
   ⟨0x1C, 0x0, 1, false, [⟨0, 32, .ro, 0x0⟩]⟩,
   ⟨0x20, 0x0, 1, false, [⟨0, 1, .wo, 0x0⟩]⟩]

/-- The rows of the fwPkg block. -/
def fwPkgRows : List RegRow :=
  [⟨0x0, 0x0, 1, false, [⟨0, 1, .ro, 0x0⟩, ⟨1, 1, .ro, 0x0⟩, ⟨2, 1, .ro, 0x0⟩, ⟨3, 1, .ro, 0x0⟩, ⟨4, 1, .ro, 0x0⟩, ⟨5, 1, .ro, 0x0⟩, ⟨6, 1, .ro, 0x0⟩]⟩,
   ⟨0x4, 0x0, 1, false, [⟨0, 1, .w1s, 0x0⟩]⟩,
   ⟨0x8, 0x0, 1, false, [⟨0, 32, .ro, 0x0⟩]⟩,
   ⟨0xC, 0x0, 1, false, [⟨0, 7, .ro, 0x0⟩, ⟨8, 7, .ro, 0x0⟩, ⟨16, 2, .ro, 0x0⟩, ⟨20, 4, .ro, 0x0⟩]⟩,
   ⟨0x10, 0x0, 1, false, [⟨0, 7, .wo, 0x0⟩]⟩,
   ⟨0x14, 0x0, 1, false, [⟨0, 4, .wo, 0x0⟩]⟩,
   ⟨0x18, 0x0, 1, false, [⟨0, 32, .ro, 0x54332210⟩]⟩,
   ⟨0x1C, 0x0, 1, false, [⟨0, 32, .ro, 0x0⟩]⟩,
   ⟨0x20, 0x0, 1, false, [⟨0, 16, .ro, 0x0⟩]⟩,
   ⟨0x24, 0x0, 1, false, [⟨0, 2, .ro, 0x0⟩, ⟨2, 1, .ro, 0x0⟩, ⟨4, 4, .ro, 0x0⟩, ⟨8, 4, .ro, 0x0⟩]⟩,
   ⟨0x28, 0x0, 1, false, [⟨0, 20, .ro, 0x0⟩]⟩,
   ⟨0x30, 0x0, 1, false, [⟨0, 3, .rw, 0x0⟩]⟩] ++
  [⟨0x40, 0x4, 8, false, [⟨0, 32, .ro, 0x0⟩]⟩]

/-- The rows of the pwrPkg block. -/
def pwrPkgRows : List RegRow :=
  [⟨0x0, 0x0, 1, false, [⟨0, 1, .ro, 0x0⟩, ⟨1, 1, .ro, 0x0⟩, ⟨2, 1, .ro, 0x0⟩, ⟨3, 1, .ro, 0x0⟩, ⟨4, 1, .ro, 0x0⟩]⟩,
   ⟨0x4, 0x0, 1, false, [⟨0, 13, .ro, 0x12C0⟩]⟩,
   ⟨0x8, 0x0, 1, false, [⟨0, 13, .rwl, 0x12C0⟩]⟩,
   ⟨0xC, 0x0, 1, false, [⟨0, 13, .ro, 0x0⟩]⟩,
   ⟨0x10, 0x0, 1, false, [⟨0, 13, .ro, 0x0⟩]⟩,
   ⟨0x14, 0x0, 1, false, [⟨0, 8, .ro, 0x0⟩, ⟨8, 8, .ro, 0xFF⟩]⟩,
   ⟨0x18, 0x0, 1, false, [⟨0, 32, .ro, 0x0⟩]⟩,
   ⟨0x1C, 0x0, 1, false, [⟨0, 32, .ro, 0x0⟩]⟩,
   ⟨0x20, 0x0, 1, false, [⟨0, 32, .ro, 0x0⟩]⟩,
   ⟨0x24, 0x0, 1, false, [⟨0, 7, .ro, 0x0⟩, ⟨8, 7, .w1c, 0x0⟩]⟩,
   ⟨0x40, 0x4, 9, false, [⟨0, 10, .ro, 0x2EE⟩]⟩,
   ⟨0x80, 0x0, 1, false, [⟨0, 8, .rw, 0x0⟩]⟩] ++
  [⟨0x84, 0x0, 1, false, [⟨0, 12, .ro, 0x0⟩, ⟨12, 8, .ro, 0x0⟩, ⟨20, 1, .ro, 0x0⟩, ⟨21, 1, .ro, 0x0⟩]⟩,
   ⟨0x88, 0x0, 1, false, [⟨0, 8, .ro, 0x0⟩]⟩]

/-- Every block of the control register space, and the CMD function and context blocks of BAR0. -/
def regBlocks : List RegBlock :=
  [
   ⟨0x1F00000, 0x0, 1, arrPkgRows⟩,
   ⟨0x2000000, 0x10000, 74, arrDieRows⟩,
   ⟨0x3000000, 0x10000, 74, cfgDieRows⟩,
   ⟨0x1F10000, 0x0, 1, cfgPkgRows⟩,
   ⟨0x1F20000, 0x0, 1, tierPkgRows⟩,
   ⟨0x4100000, 0x10000, 4, tierFarRows⟩,
   ⟨0x4000000, 0x10000, 12, tierPortRows⟩,
   ⟨0x4200000, 0x10000, 12, nearPortRows⟩,
   ⟨0x4300000, 0x10000, 4, farDieRows⟩,
   ⟨0x1F30000, 0x0, 1, seqPkgRows⟩,
   ⟨0x1F40000, 0x0, 1, adpPkgRows⟩,
   ⟨0x5000000, 0x10000, 74, adpDieRows⟩,
   ⟨0x1F50000, 0x0, 1, embPkgRows⟩,
   ⟨0x6000000, 0x10000, 74, embDieRows⟩,
   ⟨0x100000000, 0x10000, 256, cmdFnRows⟩,
   ⟨0x1F60000, 0x0, 1, lnkPkgRows⟩,
   ⟨0x4400000, 0x10000, 8, lnkDieRows⟩,
   ⟨0x1F70000, 0x0, 1, cmtPkgRows⟩,
   ⟨0x1F80000, 0x0, 1, fltPkgRows⟩,
   ⟨0x7000000, 0x10000, 74, pmcDieRows⟩,
   ⟨0x1F90000, 0x0, 1, pmcPkgRows⟩,
   ⟨0x1FA0000, 0x0, 1, fwPkgRows⟩,
   ⟨0x1FB0000, 0x0, 1, pwrPkgRows⟩]

/-- The CMD context blocks of function f (Table 11.20): block k at BAR0 + 0x2000 + k * 0x200. -/
def cmdCtxBlock (f : Nat) : RegBlock := ⟨0x100002000 + f * 0x10000, 0x200, 16, cmdCtxRows⟩

end Sys2Proof.Machine
end

