-- ==== Sys2Proof/Machine/ArrayState.lean ====
section
/-! DEFINITION. The state of the array dies: tiles, queues, planes, rake, counters and the system network
(chapters 1 to 4, 8 to 10, 15). -/

namespace Sys2Proof.Machine

/-- A route entry (R101): TERM, PASS or TAP to an output port and VQ, or UNUSED; ELASTIC and its descriptor index. -/
structure Route where
  type : BitVec 2
  outPort : BitVec 3
  outVq : BitVec 2
  elastic : Bool
  index : BitVec 3
deriving DecidableEq, Repr

/-- An operation record (R102, Table 4.3); inputs and outputs are (port, VQ) keys 4·port + VQ. -/
structure Op where
  func : BitVec 16
  cnt : Bool
  fwdEol : Bool
  next : BitVec 8
  inputs : List Nat
  outputs : List Nat
  ncw : List Word
  param : List Word
  args : List Byte
deriving DecidableEq, Repr

/-- An elastic queue descriptor (R451, Table 4.11). -/
structure EqDesc where
  entryPort : BitVec 3
  entryVq : BitVec 2
  termPort : BitVec 3
  termVq : BitVec 2
  termCol : Nat
  termRow : Nat
  termDx : Int
  termDy : Int
  base : Nat
  size : Nat
deriving DecidableEq, Repr

/-- A tile plane (R100, Table 4.2). A tile without a record has `progLen` 0 and no routes of its own. -/
structure Plane where
  progLen : Nat
  modes : List (BitVec 8)
  limits : List Nat
  endTarget : List (BitVec 8)
  routes : Tab Route
  eqDescs : Tab EqDesc
  ags : List (List Nat)
  ops : List Op
  consts : Mem
  /-- The 64 KiB units of the tile's classes (R123): WEIGHT, KV, ELASTIC, ADAPTER, HOTROW, SPILL, SCRATCH. -/
  units : List Nat
deriving DecidableEq, Repr

/-- A flit in a pass-through stage with its output port and VQ key (R37), and the slot in which it leaves in compatibility mode; 8 in native mode
(R56). -/
structure Staged where
  out : Nat
  slot : Nat
  flit : Flit
deriving DecidableEq, Repr

/-- A flit on a link with its 16-bit sideband (Table 2.3; R58 in slots 0–6 of compatibility mode), the VQ whose route or circuit it follows,
and its slot: 8 in native mode, which has no slots (R36, R40, R56–R58). -/
structure OnLink where
  vq : Nat
  slot : Nat
  side : BitVec 16
  payload : BitVec 512
deriving DecidableEq, Repr

/-- An elastic queue (R45): the ring entry at its head, and the tag store with the kind and argument of each flit, oldest first. The payloads lie
in the T tile's SRAM. -/
structure ElasticQ where
  head : Nat
  tags : List (BitVec 3 × BitVec 10)
deriving DecidableEq, Repr

/-- An accumulator set of an M tile (R72, R77): 32 FP32 values, the K-groups counted and whether only BUBBLE fires were counted. -/
structure AccSet where
  vals : List Word
  groups : Nat
  onlyBubbles : Bool
deriving DecidableEq, Repr

/-- A flit that a fire still owes to an output: the second half of an FP32 flush (R77), or a further flit of a result. -/
structure SecondPush where
  out : Nat
  flit : Flit
deriving DecidableEq, Repr

/-- An embedding bag being collected by a G tile (R261–R264): its pairs and the flits seen. -/
structure Bag where
  pairs : List (Word × Word)
  sawPairs : Bool
  sawBubble : Bool
  /-- The upstream gradient row that arrives with the bag (R274). -/
  grad : List Word
  /-- Its EOL(0) has come; it waits for the next round. -/
  ended : Bool
deriving DecidableEq, Repr

/-- The choices of one token (R239): its row, its offset in the row, and (expert, weight) by rank; a choice that is invalid has no
expert. A BUBBLE row has no choices. -/
structure MoeToken where
  row : Nat
  offset : Nat
  choices : List (Option Nat × Word)
deriving DecidableEq, Repr

/-- The free-running counters of one tile (R378), each modulo 2^48. -/
structure TilePerf where
  fire : Nat
  starved : Nat
  blocked : Nat
  busy : Nat
deriving DecidableEq, Repr

/-- One tile. Queue tables are keyed by 4·port + VQ. -/
structure Tile where
  /-- Active and shadow planes and their validity (R107). -/
  active : Plane
  shadow : Plane
  /-- The route tables and elastic descriptors in force, which change only at the route commit (R112, R113). -/
  routes : Tab Route
  eqDescs : Tab EqDesc
  /-- Program state (R46). -/
  done : Bool
  pc : Nat
  /-- Loop counters, levels 0–3 (R47). -/
  counters : List Nat
  /-- The tile's current sluice epoch c (R109) and mode (R114). -/
  epoch : Nat
  mode : BitVec 2
  /-- Port queues of 8 flits (R43). -/
  queues : Tab (List Flit)
  /-- Elastic queues held by this tile, by descriptor index (R45). -/
  elastic : Tab ElasticQ
  /-- Output registers by output key (R49). -/
  outRegs : Tab (List Flit)
  /-- Pass-through stages by input key, at most 2 flits (R37). -/
  stages : Tab (List Staged)
  /-- Flits on the link into each input port, oldest first (R36); at an interface the crossing queue or slot buffer with them (R44, R59), at port X
  the 64 entries of the crossing from the stream port (R28). -/
  inFlight : Tab (List OnLink)
  /-- Cycles of the tile, modulo the 8 slots of a frame (R56). -/
  frame : Nat
  /-- Entries freed whose credit has not returned to the sender, by input key (R43). -/
  creditDue : Tab Nat
  /-- The VQ each output port served last (R39). -/
  lastServed : Tab Nat
  /-- Busy cycles left (R72, R226) and a pending second push (R77). -/
  busy : Nat
  second : List SecondPush
  /-- M tile: accumulator sets, operand store, the two weight register sets (slices), which is active, fill in progress with its
  cycles left, and which operand-store offset fills (R72). -/
  accs : Tab AccSet
  operands : Mem
  weights : List (List Byte)
  activeSet : Nat
  fill : Option (Nat × Nat)
  filled : Bool
  /-- Scale codes of an MX stream still to be used, by input key (R71). -/
  scales : Tab (List Nat)
  /-- FP32 rows an MM_EMIT still owes: the half already pushed (R77). -/
  emitHalf : Bool
  /-- S tile: accumulator row; the flits of the row being collected with their FP32 values (R87–R96), which MOE_PLACE collects too; the elements of the
  row that have passed; and the values of an MX output that wait for their stream group (R71). -/
  sAcc : List Word
  sBuf : List (Flit × List Word)
  sPos : Nat
  mxBuf : List Word
  /-- A tile: the u vectors held per row (R225). -/
  adpU : List (List Word)
  /-- T tile: SRAM and the positions of the four stream address generators (R32). -/
  sram : Mem
  agsPos : List Nat
  /-- G tile: the bag being read and the bags of the open round (R264). -/
  bag : Bag
  round : List Bag
  /-- Index of the operation whose round is open. -/
  gOp : Nat
  /-- The round is closed and its rows are being fetched (R264): the rows still to request of the merger, and the rows that came. -/
  roundClosed : Bool
  toFetch : List Nat
  fetched : Tab (List Byte)
  /-- Expert choices of the step's tokens so far (R239–R241), in token order. -/
  choices : List MoeToken
  /-- Elements rounded stochastically so far (R82). -/
  srCount : Nat
  /-- Input-starved and output-blocked in the last cycle (R54). -/
  starved : Bool
  blocked : Bool
  /-- The tile raised a contained fault: its queues stand as they are until the abort (R42, R121). -/
  faulted : Bool
  perf : TilePerf
  /-- High-water marks and FULL cycles of port queues and of elastic queues (R378). -/
  hwm : Tab Nat
  full : Tab Nat
  eqHwm : Tab Nat
  eqFull : Tab Nat
deriving DecidableEq, Repr

/-- A spill segment (R119, R120): its number, tag, the queue it lengthens, its flits, whether it still takes arrivals, whether the
RAKE token was pushed, and whether it lies in tier 1. -/
structure Segment where
  id : Nat
  rakeLow : Nat
  epoch : Nat
  col : Nat
  row : Nat
  key : Nat
  flits : List Flit
  accepting : Bool
  tokenSent : Bool
  tier1 : Bool
deriving DecidableEq, Repr

/-- A counter window open on a die (R383): the sample it belongs to, the local counts at which it opens and ends, the tile and die
counter values at the start. -/
structure Window where
  sample : Nat
  start : Nat
  stop : Nat
  cycles0 : Nat
  rake0 : Nat
  wait0 : Nat
  rakes0 : Nat
  perf0 : Tab TilePerf
  full0 : Tab (Tab Nat)
  eqFull0 : Tab (Tab Nat)
  hwmShared : Bool
  swapped : Bool
deriving DecidableEq, Repr

/-- A pinned or replicated embedding row of a die (R268–R270). -/
structure HotCopy where
  entry : Nat
  version : BitVec 8
  row : Nat
  replicated : Bool
  lastRead : Nat
  bytes : List Byte
deriving DecidableEq, Repr

/-- An outstanding row fetch of the die's merger (R265): the row and the tiles that wait for it, by tile key. -/
structure RowFetch where
  entry : Nat
  row : Nat
  waiting : List Nat
  /-- The request has reached the serving die, and that die has sent the row. -/
  asked : Bool
  sent : Bool
  /-- The row's bytes that have reached a stream port of the die (R31). -/
  arrived : Option (List Byte)
deriving DecidableEq, Repr

/-- A received exchange phase (R243): rows received and end markers by sender. -/
structure ExchangeRx where
  layer : Nat
  source : Nat
  phase : Nat
  rows : Nat
  ended : Bool
deriving DecidableEq, Repr

/-- One physical array die. -/
structure Die where
  /-- Tiles by 16·row + column. -/
  tiles : Tab Tile
  /-- Array island powered, self-test failed, clock stopped. -/
  islandOn : Bool
  clockOn : Bool
  failed : Bool
  /-- Cycles since any tile fired since the die's reset, none before the first (R63). -/
  firedFor : Option Nat
  /-- The watchdog's count of cycles without a fire, and cycles for which a done tile has had data at its head (R118). -/
  quiet : Nat
  orphanFor : Nat
  /-- Spill segments in creation order (R119, R120). -/
  segments : List Segment
  /-- CYCLES, RAKE and WAIT (R378). -/
  cycles : Nat
  rakeCycles : Nat
  waitCycles : Nat
  /-- A write of a wave or a DIE_DONE report (Table 4.7). -/
  shadowValid : Bool
  dieDone : Bool
  pendingTiles : Nat
  /-- Accepting epoch of the die's stream ports (R246). -/
  accepting : Option Nat
  /-- Flits that each stream port's crossing of 64 entries holds on the way out of port X, oldest first, with their VQs (R28, R29, R147). -/
  portOut : Tab (List (Nat × Flit))
  /-- Step epoch of the work list that reached the die over CTRL (R201), and of the last STEP tokens placed in its port-X queues. -/
  listed : Nat
  stepSent : Nat
  windows : List Window
  hot : List HotCopy
  fetches : List RowFetch
  /-- Uses of rows in the present step: (entry, row) and count (R268). -/
  rowUse : List (Nat × Nat × Nat)
  /-- Entries of the tables that the die ran EMB_GATHER on in the present step (R268). -/
  gathered : List Nat
  /-- Records of embedding tables that the step reads, by entry: one more than the record that was CURRENT when it was built; 0 for the CURRENT one
  (R271). -/
  embVer : Tab Nat
  exchange : List ExchangeRx
  /-- Expert work items waiting to be claimed (R244). -/
  moeItems : List (List Byte)
  /-- Adapter cache blocks, most recently used first: slot, GEN, point, block (R227). -/
  adpCache : List (Nat × Nat × Nat × Nat)
  /-- Stochastic-rounding seed (R82). -/
  srSeed : Dword
  /-- Seconds-scale droop state: ARRAY_CLK halved (R422), thermally throttled (R423). -/
  drooped : Bool
  throttled : Bool
  mhz : Nat
deriving DecidableEq, Repr

/-- The array and the system network. -/
structure Arr where
  dies : Tab Die
  /-- Packets held in the buffers of each router input, by `bufKey`, in arrival order (R15, R17). -/
  routers : Tab (List Packet)
  /-- The input that each router served last on each network, by 4·router + network (R19). -/
  served : Tab Nat
  /-- DATA: the context whose turn it is at each router and the packets left of its share (R19, R165); 4096 stands for firmware. -/
  turns : Tab (Nat × Nat)
  /-- Mesh edges that failed between working dies, by the two physical dies, the lower first (R24). -/
  edges : List (Nat × Nat)
  /-- Packets that reached a stream port or a periphery die and carry other bytes, newest first. -/
  delivered : List Packet
  /-- Packets discarded for a context mismatch, by router (R19). -/
  discarded : Tab Nat
deriving DecidableEq, Repr

end Sys2Proof.Machine
end

