-- ==== Sys2Proof/Machine/FaultState.lean ====
section
/-! DEFINITION. The state of the fault collector, of ALIVE_OUT and of the lifetime record (chapter 14). -/

namespace Sys2Proof.Machine

/-- A history entry (R366, Table 14.3). -/
structure HistEntry where
  count : Nat
  epoch : Nat
  source : Nat
  cls : Nat
  forced : Bool
  logged : Bool
  prior : Bool
  reaction : Nat
  die : Nat
  col : Nat
  row : Nat
  unit : Nat
  ctx : Option CtxId
  pan : Option Nat
  detail : Nat
  repeats : Nat
deriving DecidableEq, Repr

/-- A fault source (R357, R360, R368): its reaction when FLT_CONFIG set one, events counted, the forced events still to raise with the
tick of the last, and the interrupts of the present second. -/
structure SrcState where
  reaction : Option Nat
  count : Nat
  force : Bool
  repeats : Nat
  forcedAt : Option Nat
  window : Nat
  windowCount : Nat
deriving DecidableEq, Repr

/-- The lifetime record (R373, R374): the RAM shadow by offset, the four flash slots (none: invalid), the slot being written with
its contents, and the ticks of the last write and of the last minute sample. -/
structure LifeState where
  shadow : Mem
  slots : List (Option Mem)
  writing : Option (Nat × Mem)
  lastWrite : Nat
  minuteAt : Nat
  /-- Next place of the event log (Table 14.7). -/
  logNext : Nat
  /-- SEQ of the last write and the slot it went to (none before the first). -/
  seq : Nat
  lastSlot : Option Nat
deriving DecidableEq, Repr

/-- The collector. `presented` holds events that sources have raised and the collector has not yet received; `signals` the interrupts,
NMIs and resets it has sent, newest first: reaction, target core or die, source. -/
structure FltState where
  presented : List FaultEvent
  history : List HistEntry
  srcs : Tab SrcState
  signals : List (Nat × Nat × Nat)
  /-- Ticks of the last heartbeat refresh and of the last edge of ALIVE_OUT. -/
  kickAt : Nat
  edgeAt : Nat
  /-- Ticks of the last watchdog refresh by core. -/
  coreKick : Tab Nat
  /-- Accumulator values at the last read, by register address, and the tick of that read (R372). -/
  baccLast : Tab Nat
  baccAt : Nat
  /-- A fatal event has taken the package out of service (R359), until a reset or the restart of R362. -/
  outOfService : Bool
  /-- Block resets under way: die codes of port and far dies that retrain (R362). -/
  blockResets : List Nat
  life : LifeState
deriving DecidableEq, Repr

end Sys2Proof.Machine
end

