-- ==== Sys2Proof/Machine/LinkState.lean ====
section
/-! DEFINITION. The state of the links, of the fabric plan, of collectives and of weight distribution (chapter 12). A link's state of
Table 12.3, its lanes, rate, level and partner are the fields of its registers (Table 12.13). -/

namespace Sys2Proof.Machine

/-- A frame that a link has sent and that is not acknowledged: when it was last sent, and how often it was replayed (R313). -/
structure SentFrame where
  frame : ElpFrame
  sentAt : Nat
  replays : Nat
deriving DecidableEq, Repr

/-- A link beside its registers: the partner's last record (R315), the ticks of the last record sent and of the last DOWN, the next LSEQ to
send and the next expected, frames sent and not acknowledged oldest first, frames that wait for credit, and whether the receiver has asked
for replay and waits for it. -/
structure Link where
  partner : Option DiscoveryRec
  recSentAt : Option Nat
  downAt : Nat
  txSeq : Nat
  rxSeq : Nat
  unacked : List SentFrame
  waiting : List ElpFrame
  askedReplay : Bool
  /-- Tick of the last poll of its module (R310). -/
  polledAt : Option Nat
deriving DecidableEq, Repr

/-- A package entry of the fabric plan (Table 12.7). -/
structure PlanPkg where
  chip : Nat
  rack : Nat
  tray : Nat
  slot : Nat
  spare : Bool
  aux : Nat
  job : Nat
  buddy : Nat
  idgen : Nat
deriving DecidableEq, Repr

/-- A group of the fabric plan: its number and its members in rank order. -/
structure PlanGroup where
  group : Nat
  members : List Nat
deriving DecidableEq, Repr

/-- A fabric plan (R320). -/
structure FabPlan where
  generation : Nat
  packages : List PlanPkg
  groups : List PlanGroup
deriving DecidableEq, Repr

/-- A message of a collective, whole: its context, group, the ordinal of the collective on that group, the phase (0 ring, 1 tree,
2 gather, 3 block, 4 broadcast, 5 end marker), the chunk or block, the sender's rank, and its bytes. -/
structure CollMsg where
  ctx : CtxId
  group : Nat
  ordinal : Nat
  phase : Nat
  chunk : Nat
  src : Nat
  total : Nat
  bytes : List Byte
deriving DecidableEq, Repr

/-- A collective in progress (R324–R327): its membership and its job are fixed at its start; `done` names the parts of Table 12.9 that this
member has carried out, as (phase, chunk); `since` is the tick at which a member was last heard. -/
structure Coll where
  cmd : CmdRef
  kind : Nat
  format : Nat
  op : Nat
  group : Nat
  ordinal : Nat
  members : List Nat
  boards : List (List Nat)
  rank : Nat
  root : Nat
  length : Nat
  src : Nat
  dst : Nat
  done : List (Nat × Nat)
  since : Nat
deriving DecidableEq, Repr

/-- A distribution pass at its source (R328): the manifest digest, the receivers, when the first JOIN came, and the receivers that wait
for the next pass. -/
structure ShardPass where
  digest : List Byte
  receivers : List Nat
  joinedAt : Nat
  next : List Nat
deriving DecidableEq, Repr

/-- The fabric as this package sees it. `flash` is the plan kept in the SPI flash (R320); `newest` the newest IDGEN seen by chip (R318);
`assumed` a chip ID that a spare has assumed with its IDGEN, job and buddy; `yielded` that the package gave its chip ID up; `held` frames without a path
with the tick since when (R323); `delivered` the frames that this package accepted, newest first. -/
structure LinkState where
  links : Tab Link
  plan : Option FabPlan
  flash : Option FabPlan
  newest : Tab Nat
  assumed : Option (Nat × Nat × Nat × Nat)
  yielded : Bool
  /-- Start-up step 7 has begun (R307). -/
  started : Bool
  conflict : Bool
  held : List (ElpFrame × Nat)
  unreach : List Nat
  nextFlow : Nat
  delivered : List ElpFrame
  colls : List Coll
  msgs : List CollMsg
  ordinals : Tab Nat
  passes : List ShardPass
deriving DecidableEq, Repr

end Sys2Proof.Machine
end

