-- ==== Sys2Proof/Machine/PlatformState.lean ====
section
/-! DEFINITION. The state of the pan histograms (chapter 15), of firmware, fuses and flash (chapter 16), and of power, start-up and pins
(chapters 17 and 18). -/

namespace Sys2Proof.Machine

/-- The histograms and totals of a pan number (R381, R382): bins keyed by 32 × histogram + bin, steps committed and abandoned, and the rakes
of its dies in its steps. -/
structure PanHist where
  bins : Tab Nat
  steps : Nat
  abandoned : Nat
  rakes : Nat
deriving DecidableEq, Repr

/-- What one die reported to a window (R383, R384): its logical and physical number, ARR_CLK.MHZ, CYCLES, RAKE, WAIT and RAKES of the
window, its flags, and the body of Table 15.2. -/
structure DieReport where
  logical : Nat
  physical : Nat
  mhz : Nat
  cycles : Nat
  rake : Nat
  wait : Nat
  rakes : Nat
  hwmShared : Bool
  swapped : Bool
  body : List Byte
deriving DecidableEq, Repr

/-- A PMC_SAMPLE that runs (R383): its command, set, pan (none for the package), window in µs, the logical dies still to open and still to
report, what came, the pan epoch at the start, the tick at which it began, and the window actually run when it was cut short. -/
structure Sample where
  cmd : CmdRef
  seqno : Nat
  set : Nat
  pan : Option Nat
  window : Nat
  toOpen : List Nat
  toReport : List Nat
  reports : List DieReport
  epoch0 : Nat
  began : Nat
  cut : Option Nat
  epoch1 : Nat
deriving DecidableEq, Repr

/-- The counters that CD0 keeps. -/
structure PmcState where
  hists : Tab PanHist
  samples : List Sample
deriving DecidableEq, Repr

/-- A live update (R404): its command, the image to adopt and whether it came from image B, and the tick at which the pause began; none while
the lifetime record is still being written. -/
structure Update where
  cmd : CmdRef
  image : List Byte
  fromB : Bool
  pausedAt : Option Nat
deriving DecidableEq, Repr

/-- Firmware, fuses and the key engine (chapter 16). -/
structure FwState where
  /-- The images of the two flash devices in the order of the ROM's attempts (R397): device 0 A, device 1 A, device 0 B, device 1 B; and the
  attempts whose flash read completes. -/
  flash : List (List Byte)
  readOk : BitVec 4
  /-- The running copy's image, which is the pristine copy's too (R390), and the image that CD1 runs (R394). -/
  running : List Byte
  standby : List Byte
  /-- Anti-rollback fuses blown and revoke fuses (R400); they outlive every reset. -/
  fuseSvn : Nat
  revoked : BitVec 4
  /-- The eight measurements (R409). -/
  measures : List (List Byte)
  /-- Crashed cores with the tick at which the watchdog last was refreshed, and the tick of each core's last restart (R364, R392, R393). -/
  down : List (Nat × Nat)
  restartedAt : Tab Nat
  /-- CD1 failed its self-test (R433). -/
  cd1Failed : Bool
  /-- Tick at which an image from image B became active, while it is not promoted (R406). -/
  activatedB : Option Nat
  /-- The live update under way (R404). -/
  update : Option Update
  /-- The 64 KiB of the handoff block in CD0's tier 0 (R405); empty while nothing was written there. -/
  handoff : List Byte
  /-- Noise sources of CD0 and CD1 that failed their health tests (R407). -/
  badSource0 : Bool
  badSource1 : Bool
deriving DecidableEq, Repr

/-- Where start-up stands (R431, Table 17.5). -/
inductive Stage where
  /-- No rail is up. -/
  | off
  /-- PERST_N is asserted (steps 1 and 2). -/
  | held
  /-- TESTEN_N was sampled low: every die stays in reset (R445). -/
  | testMode
  /-- No image passed, or CD0 or the host port failed its self-test (R397, R433). -/
  | halted
  /-- Steps 5 to 8. -/
  | training
  | selfTest
  | discovery
  | readying
  | ready
deriving DecidableEq, Repr

/-- Where an orderly shutdown stands (R435): none asked, held until a live update ends (Table 17.6), steps settle, the lifetime record is written,
SHUTDOWN_READY answered. -/
inductive Shutdown where
  | none
  | held
  | settling
  | writing
  | answered
deriving DecidableEq, Repr

/-- A pan that a spare swap creates again: its number, context, rectangle, mode, and the model, kind and spill size of its active plane. -/
structure SwapPan where
  pan : Nat
  ctx : CtxId
  x0 : Nat
  y0 : Nat
  w : Nat
  h : Nat
  compat : Bool
  image : Option (Nat × Nat × Nat)
deriving DecidableEq, Repr

/-- A field-spare swap (R22, Table 1.4): the physical die that failed, its logical die, the spare under test (72 or 73), and the pans to
create again with what their planes held. -/
structure Swap where
  failed : Nat
  logical : Nat
  spare : Nat
  pans : List SwapPan
deriving DecidableEq, Repr

/-- The states of the IEEE 1149.1 TAP controller (Table 16.6). -/
inductive Tap where
  | reset | idle | selectDr | captureDr | shiftDr | exit1Dr | pauseDr | exit2Dr | updateDr
  | selectIr | captureIr | shiftIr | exit1Ir | pauseIr | exit2Ir | updateIr
deriving DecidableEq, Repr

/-- Power, temperature, start-up, management and pins (chapters 17 and 18). -/
structure PowerState where
  stage : Stage
  /-- Pins: PERST_N and PWR_GOOD as the board drives them, THERM_TRIP_N asserted, SLOT_ID as sampled (R445). -/
  perst : Bool
  pwrGood : Bool
  thermTrip : Bool
  slotId : Nat
  /-- Samples of the last 5 ms, newest first (R420), and of each die by code, in watts (Table 17.8). -/
  samples : List Nat
  dieWatts : Tab (List Nat)
  /-- Hottest sensor by die code (R423). -/
  temps : Tab Nat
  /-- Dies other than array dies in thermal throttling, by die code, and the 25 MHz steps the governor takes for them (R423). -/
  hot : List Nat
  /-- Dies that failed self-test, by die code (R433). -/
  failedDies : List Nat
  govSteps : Nat
  /-- GDDR7 in self-refresh in the idle hot-spare state (R434). -/
  selfRefresh : Bool
  shutdown : Shutdown
  /-- The spare swap in progress, and failed dies that wait for it (R22). -/
  swap : Option Swap
  swapQueue : List Nat
  /-- Answers on SMBus, newest first: PMBus words, PLDM readings and MCTP messages as bytes (R429, R375). -/
  answers : List (List Byte)
  /-- One more than the tick of a die's last reset apart from the package's, by die code: its local counter starts there (R30). -/
  dieResetAt : Tab Nat
  /-- The JTAG port: its state, the instruction and data shift registers (next bit out first), the instruction in force, and TCK and TDO as
  they stand (Table 16.6). -/
  tap : Tap
  ir : List Bool
  dr : List Bool
  instr : List Bool
  tck : Bool
  tdo : Bool
deriving DecidableEq, Repr

/-- An orderly shutdown has stopped step building and slot fetch (R435). -/
def PowerState.stopping (p : PowerState) : Bool := match p.shutdown with | .none => false | .held => false | .settling => true | .writing => true | .answered => true

end Sys2Proof.Machine
end

