-- ==== Sys2Proof/Machine/State.lean ====
section
/-! DEFINITION. The state of the block, as plain data: every register, queue, table, memory and pin that the manual names, the
queue of waiting commands, and the two fields of the model's own (`tick`, which counts 10 ns, and `free`, which numbers the free
values drawn). `State.reset` is the powered package under reset (R418, R431). -/

namespace Sys2Proof.Machine

/-- The state. -/
structure State where
  /-- Commands that wait, first in first out. -/
  pending : List Instr
  /-- Time in units of 10 ns, the tick of every local counter (R30). -/
  tick : Nat
  /-- Tick of the last reset of the whole package: the local counters start there (R30), but for dies reset since then (`pwr.dieResetAt`). -/
  cd0ResetAt : Nat
  /-- Free values drawn so far (the model's own field; notes/assumptions/8). -/
  free : Nat
  /-- Registers by address, each exclusive-ored with its reset value (Regs.lean), so that an unlisted register holds its reset value. -/
  regs : Tab Word
  /-- The 64-bit accumulator beside each bittern counter, by the counter's address (R372). -/
  acc : Tab Nat
  host : HostPort
  /-- Contexts by number (R279). -/
  ctxs : Tab Ctx
  /-- Accepted commands in acceptance order, until their completions are written or kept (R282, R285). -/
  cmds : List Cmd
  arr : Arr
  /-- Pans by number 0–15 (R104). -/
  pans : Tab (Option Pan)
  balances : List BalanceSet
  mem : MemState
  seq : ServeState
  cmt : CommitState
  flt : FltState
  mdl : ModelState
  lnk : LinkState
  pmc : PmcState
  fw : FwState
  pwr : PowerState
deriving DecidableEq, Repr

/-- Why a step stops as a fault. No meaning of this model raises one: the manual gives every event of its table an effect, and what
is not due leaves the state as it is (safe). -/
inductive Fault where
  /-- Held for an access to state that the manual says does not exist; raised by no meaning (safe). -/
  | noSuchState
deriving DecidableEq, Repr

/-- Why a step refuses. -/
inductive Refusal where
  /-- Raised by Dispatch for a row without a meaning, by the row's mnemonic (safe). -/
  | notModelled (mnemonic : String)
deriving DecidableEq, Repr

/-- What a meaning answers. -/
abbrev Res := Host.Outcome State Fault Refusal

namespace State

/-- The state with f applied to `host`. -/
def onHost (f : HostPort → HostPort) (s : State) : State := { s with host := f s.host }

/-- The state with f applied to `ctxs`. -/
def onCtxs (f : Tab Ctx → Tab Ctx) (s : State) : State := { s with ctxs := f s.ctxs }

/-- The state with f applied to `cmds`. -/
def onCmds (f : List Cmd → List Cmd) (s : State) : State := { s with cmds := f s.cmds }

/-- The state with f applied to `arr`. -/
def onArr (f : Arr → Arr) (s : State) : State := { s with arr := f s.arr }

/-- The state with f applied to `pans`. -/
def onPans (f : Tab (Option Pan) → Tab (Option Pan)) (s : State) : State := { s with pans := f s.pans }

/-- The state with f applied to `balances`. -/
def onBalances (f : List BalanceSet → List BalanceSet) (s : State) : State := { s with balances := f s.balances }

/-- The state with f applied to `mem`. -/
def onMem (f : MemState → MemState) (s : State) : State := { s with mem := f s.mem }

/-- The state with f applied to `seq`. -/
def onSeq (f : ServeState → ServeState) (s : State) : State := { s with seq := f s.seq }

/-- The state with f applied to `cmt`. -/
def onCmt (f : CommitState → CommitState) (s : State) : State := { s with cmt := f s.cmt }

/-- The state with f applied to `flt`. -/
def onFlt (f : FltState → FltState) (s : State) : State := { s with flt := f s.flt }

/-- The state with f applied to `mdl`. -/
def onMdl (f : ModelState → ModelState) (s : State) : State := { s with mdl := f s.mdl }

/-- The state with f applied to `lnk`. -/
def onLnk (f : LinkState → LinkState) (s : State) : State := { s with lnk := f s.lnk }

/-- The state with f applied to `pmc`. -/
def onPmc (f : PmcState → PmcState) (s : State) : State := { s with pmc := f s.pmc }

/-- The state with f applied to `fw`. -/
def onFw (f : FwState → FwState) (s : State) : State := { s with fw := f s.fw }

/-- The state with f applied to `pwr`. -/
def onPwr (f : PowerState → PowerState) (s : State) : State := { s with pwr := f s.pwr }

/-- The state with f applied to `acc`. -/
def onAcc (f : Tab Nat → Tab Nat) (s : State) : State := { s with acc := f s.acc }

/-- The state with f applied to `regs`. -/
def onRegs (f : Tab Word → Tab Word) (s : State) : State := { s with regs := f s.regs }

/-- The package right after power-up under PERST_N (R418, R431): every register at its reset value, every queue and table empty,
nothing in memory, no command waiting. -/
def reset : State :=
  { pending := [], tick := 0, cd0ResetAt := 0, free := 0, regs := [], acc := [],
    host := { mem := [], irqs := [], vfEnable := false, ready := false, updating := false, intakeHeld := false, rrCtx := 0,
              rrTaken := 0, nextSeqno := 0, linkUp := false },
    ctxs := [], cmds := [],
    arr := { dies := [], routers := [], served := [], turns := [], edges := [], delivered := [], discarded := [] },
    pans := [], balances := [],
    mem := { bytes := [], extents := [], frames := [], retiredBlocks := [], retiredFrames := [], marked := [], passCe := [],
             passAt := [], writeBacks := [], near := [], onDie := [], reply := none, lostBlocks := [], streams := [], nextStream := 0, pageIns := [], nextPageIn := 0, reissued := [], tlb := [] },
    seq := { entries := [], archives := [], steps := [], epoch := 0, commitEpoch := 0, holds := 0, ttlClock := 0, ttlCkpt := 0, ttlTick := 0 },
    cmt := { outstanding := [], nextJseq := 1, durable := 0, jbase := 0, ctl := [], ctlAcked := 0, lastSent := 0, mirrorGib := 0, sealNo := 0, mirror := [], mirrorJseq := 1,
             peerSeal := 0, lastWardFrame := 0, fenced := [], claimAt := none, claims := [], acks := [], pairTriedAt := 0,
             snapshotDue := false, refused := false, badTags := 0, pairingOpen := false },
    flt := { presented := [], history := [], srcs := [], signals := [], kickAt := 0, edgeAt := 0, coreKick := [], baccLast := [], baccAt := 0,
             outOfService := false, blockResets := [],
             life := { shadow := [], slots := [none, none, none, none], writing := none, lastWrite := 0, minuteAt := 0, logNext := 0, seq := 0, lastSlot := none } },
    mdl := { models := [], slots := [], embs := [], grads := [], gradIn := [], imports := [] },
    lnk := { links := [], plan := none, flash := none, newest := [], assumed := none, yielded := false, started := false, conflict := false, held := [], unreach := [],
             nextFlow := 0, delivered := [], colls := [], msgs := [], ordinals := [], passes := [] },
    pmc := { hists := [], samples := [] },
    fw := { flash := [[], [], [], []], readOk := 15, running := [], standby := [], fuseSvn := 0, revoked := 0,
            measures := List.replicate 8 (List.replicate 32 0), down := [], restartedAt := [], cd1Failed := false, activatedB := none,
            update := none, handoff := [], badSource0 := false, badSource1 := false },
    pwr := { stage := .held, perst := true, pwrGood := true, thermTrip := false, slotId := 0, samples := [], dieWatts := [], temps := [], hot := [], failedDies := [],
             govSteps := 0, selfRefresh := false, shutdown := .none, swap := none, swapQueue := [], answers := [], dieResetAt := [], tap := .reset, ir := [],
             dr := [], instr := [], tck := false, tdo := false } }

end State

end Sys2Proof.Machine
end

