-- ==== Sys2Proof/Machine/Ops.lean ====
section
/-! DEFINITION. The named operations over registers, contexts, commands, time and host memory that the meanings share. -/

namespace Sys2Proof.Machine

/-! ### Registers (R6–R8, R61) -/

/-- The row of a block that holds a block offset: instance offsets match exactly (R6). -/
def rowAt : List RegRow → Nat → Option RegRow
  | [], _ => none
  | r :: rs, o =>
    if o = r.off || (decide (0 < r.stride) && decide (r.off ≤ o) && decide ((o - r.off) % r.stride = 0)
        && decide ((o - r.off) / r.stride < r.count))
    then some r else rowAt rs o

/-- The row that holds an address in a list of blocks. -/
def blockRow : List RegBlock → Nat → Option RegRow
  | [], _ => none
  | b :: bs, a =>
    let n := if b.stride = 0 then 0 else (a - b.base) / b.stride
    let o := a - b.base - n * b.stride
    if b.base ≤ a && decide (n < b.count) && decide (o < 0x10000) then
      match rowAt b.rows o with
      | some r => some r
      | none => blockRow bs a
    else blockRow bs a

/-- The register row at an address of the control register space or of a function's BAR0 (see Regs.lean). -/
def regRow (a : Nat) : Option RegRow :=
  if 0x100000000 ≤ a && decide (0x2000 ≤ a % 0x10000) then blockRow [cmdCtxBlock ((a - 0x100000000) / 0x10000)] a
  else blockRow regBlocks a

/-- A field's bits in place. -/
def RegField.place (f : RegField) (x : Nat) : Nat := x % 2 ^ f.width * 2 ^ f.lo

/-- The reset value of a register; 0 where its table states none (notes/assumptions/6). -/
def regReset (a : Nat) : Word :=
  match regRow a with
  | some r => BitVec.ofNat 32 ((r.fields.map fun f => f.place f.reset).foldl (· + ·) 0)
  | none => 0

/-- The stored value of a register. -/
def getReg (s : State) (a : Nat) : Word := tget 0 s.regs a ^^^ regReset a

/-- The state with a register set. -/
def setReg (a : Nat) (v : Word) (s : State) : State := s.onRegs fun t => tput 0 t a (v ^^^ regReset a)

/-- Bits [lo + w - 1 : lo] of a stored register. -/
def getFld (s : State) (a lo w : Nat) : Nat := bits (getReg s a).toNat lo w

/-- A word with bits [lo + w - 1 : lo] replaced. -/
def putBits (v : Word) (lo w x : Nat) : Word :=
  BitVec.ofNat 32 (v.toNat - bits v.toNat lo w * 2 ^ lo + x % 2 ^ w * 2 ^ lo)

/-- The state with bits [lo + w - 1 : lo] of a register replaced. -/
def setFld (a lo w x : Nat) (s : State) : State := setReg a (putBits (getReg s a) lo w x) s

/-- The bittern counters (R372, Table 14.6): code, address of the first die's counter, distance between dies, dies, and the die code
of the first. -/
def bitternRows : List (Nat × Nat × Nat × Nat × Nat) :=
  [(0x00, ARR_ARITH_NANCLAMP 0, 0x10000, 74, 0), (0x01, CFG_BITTERN_STALE 0, 0x10000, 74, 0), (0x02, CFG_BITTERN_SPILL 0, 0x10000, 74, 0),
   (0x03, CFG_BITTERN_RAKEID 0, 0x10000, 74, 0), (0x04, ARR_MOE_BITTERN_DROP 0, 0x10000, 74, 0), (0x05, ARR_MOE_BITTERN_INVALID 0, 0x10000, 74, 0),
   (0x06, ARR_MOE_BITTERN_EMPTY 0, 0x10000, 74, 0), (0x07, ARR_MOE_BITTERN_STALE 0, 0x10000, 74, 0), (0x08, EMB_BITTERN_INVALID 0, 0x10000, 74, 0),
   (0x09, EMB_BITTERN_FOREIGN 0, 0x10000, 74, 0)] ++
  [(0x0A, EMB_BITTERN_MISSING 0, 0x10000, 74, 0), (0x0B, ARR_BITTERN_PORTX 0, 0x10000, 74, 0), (0x10, TIER_BITTERN_XCTX 0, 0x10000, 12, 0x50),
   (0x10, TIER_F_BITTERN_XCTX 0, 0x10000, 4, 0x60), (0x11, TIER_BITTERN_ADDR 0, 0x10000, 12, 0x50), (0x11, TIER_F_BITTERN_ADDR 0, 0x10000, 4, 0x60),
   (0x12, TIER_BITTERN_OVERRUN 0, 0x10000, 12, 0x50), (0x12, TIER_F_BITTERN_OVERRUN 0, 0x10000, 4, 0x60), (0x20, TIER_BITTERN_EXPIRED, 0, 1, 0x70),
   (0x21, SEQ_BITTERN_CANCEL, 0, 1, 0x70)] ++
  [(0x22, SEQ_BITTERN_NOCAND, 0, 1, 0x70), (0x23, SEQ_BITTERN_SPEC_DROP, 0, 1, 0x70), (0x24, SEQ_BITTERN_SPEC_TAIL, 0, 1, 0x70),
   (0x25, EMB_BITTERN_GRADDROP, 0, 1, 0x70), (0x26, EMB_BITTERN_REGRAD, 0, 1, 0x70), (0x27, LNK_BITTERN_OLDGEN, 0, 1, 0x70),
   (0x28, LNK_BITTERN_XJOB, 0, 1, 0x70), (0x29, LNK_BITTERN_NOROUTE, 0, 1, 0x70), (0x2A, CMT_BITTERN_FENCED, 0, 1, 0x70)]

/-- The address of the counter of a code on a die, by die code; none when the die has none. -/
def bitternAddr (code die : Nat) : Option Nat :=
  bitternRows.findSome? fun r =>
    if r.1 = code ∧ r.2.2.2.2 ≤ die ∧ die < r.2.2.2.2 + r.2.2.2.1 then some (r.2.1 + (die - r.2.2.2.2) * r.2.2.1) else none

/-- An address is a bittern counter's. -/
def isBittern (a : Nat) : Bool :=
  bitternRows.any fun r => if r.2.2.1 = 0 then decide (a = r.2.1)
    else decide (r.2.1 ≤ a) && decide ((a - r.2.1) % r.2.2.1 = 0) && decide ((a - r.2.1) / r.2.2.1 < r.2.2.2.1)

/-- A counter register plus n, stopping at 0xFFFF_FFFF (R128, R166, R183, R213, R355); a bittern counter's accumulator counts along
without stopping (R372). -/
def bumpBy (a n : Nat) (s : State) : State :=
  let s1 := setReg a (BitVec.ofNat 32 (min ((getReg s a).toNat + n) 0xFFFFFFFF)) s
  if isBittern a && decide (0 < n) then s1.onAcc fun t => tmod 0 t a (· + n) else s1

/-- A counter register plus 1. -/
def bump (a : Nat) (s : State) : State := bumpBy a 1 s

/-- A 64-bit value in a LO and HI register pair. -/
def setReg64 (lo hi x : Nat) (s : State) : State :=
  setReg hi (BitVec.ofNat 32 (x / 2 ^ 32)) (setReg lo (BitVec.ofNat 32 x) s)

/-- The 64-bit value of a LO and HI register pair. -/
def getReg64 (s : State) (lo hi : Nat) : Nat := (getReg s lo).toNat + 2 ^ 32 * (getReg s hi).toNat

/-- The registers of an address range at their reset values (a reset of a die or a function). -/
def resetRegs (lo hi : Nat) (s : State) : State :=
  (s.onRegs fun t => t.filter fun p => !(decide (lo ≤ p.1) && decide (p.1 < hi))).onAcc fun t =>
    t.filter fun p => !(decide (lo ≤ p.1) && decide (p.1 < hi))

/-! ### Raising a fault (R357) -/

/-- A source raises an event; the collector receives it by FAULT_EVENT. -/
def present (e : FaultEvent) (s : State) : State := s.onFlt fun f => { f with presented := f.presented ++ [e] }

/-- An event of a source at a die and unit, without tile, context or pan. -/
def faultOf (source die unit detail : Nat) : FaultEvent :=
  { source := BitVec.ofNat 16 source, die := BitVec.ofNat 8 die, col := 0xFF, row := 0xFF, unit := BitVec.ofNat 8 unit, ctx := none, pan := none,
    detail := BitVec.ofNat 16 detail }

/-- This package's chip ID (R317). -/
def chipId (s : State) : Nat := getFld s LNK_FAB_ID 0 10

/-- A counter of n bytes in the shadow of the lifetime record counts k more (R374). -/
def lifeAdd (off n k : Nat) (s : State) : State :=
  s.onFlt fun f => { f with life := { f.life with
    shadow := memWrite f.life.shadow off (leBytes n (leNat (memRead f.life.shadow off n) + k)) } }

/-! ### Free values -/

/-- The next free value drawn from a family f, and the state with the draw counted. -/
def draw {α : Type} (f : Nat → α) (s : State) : α × State := (f s.free, { s with free := s.free + 1 })

/-! ### Time (R30, R293) -/

/-- The local count of the die of a code: 64 bits, from 0 at the die's reset (R30). -/
def dieCount (s : State) (code : Nat) : Nat :=
  (s.tick - match tget 0 s.pwr.dieResetAt code with | 0 => s.cd0ResetAt | n + 1 => n) % 2 ^ 64

/-- CD0's local count. -/
def cd0Count (s : State) : Nat := (s.tick - s.cd0ResetAt) % 2 ^ 64

/-- The die of a code is reset: its local counter starts at 0 (R30). -/
def restartCount (code : Nat) (s : State) : State :=
  s.onPwr fun p => { p with dieResetAt := tput 0 p.dieResetAt code (s.tick + 1) }

/-- Ticks of a microsecond and of a millisecond: the local counters count every 10 ns (R30). -/
def usTicks (n : Nat) : Nat := 100 * n
/-- Ticks of n milliseconds. -/
def msTicks (n : Nat) : Nat := 100000 * n

/-! ### Contexts, functions and commands (R279–R299) -/

/-- The value of a queue that no ring has used. -/
def Queue.fresh : Queue :=
  { sqHead := 0, sqTail := 0, cqHead := 0, cqTail := 0, phase := true, err := 0, stopped := false, reserved := 0, kept := [], early := none }

/-- A token ring that has not been used. -/
def TokenRing.fresh : TokenRing :=
  { tail := 0, head := 0, phase := true, stopped := false, err := 0, firstSince := none }

/-- The quotas of a context that CTX_SET_QUOTA never named (R164). -/
def Quota.unset : Quota := { t1Units := 0, t2Pages := 0, seqs := 0, objMax := 0, share := 1, kvFp8 := false }

/-- A context that was never opened (R164, R195, R294). -/
def Ctx.fresh : Ctx :=
  { state := 0, quota := Quota.unset, t1Used := 0, t2Used := 0, objs := [], objTable := (0, 0), gens := [], queues := [], tok := TokenRing.fresh,
    visible := [], recent := [], lcGoalUs := 50000, beGoalUs := 1000000, holdMaxMs := 10000, kvWaitSteps := 1000,
    dataKey := none, tweakKey := none, ekgen := 0, wroteT2 := false, expired := [], lostHandles := [], lostState := false,
    kvUsed := [], archUsed := 0, everOpened := false, flr := false }

/-- Context c. -/
def getCtx (s : State) (c : CtxId) : Ctx := tget Ctx.fresh s.ctxs c.toNat

/-- The state with f applied to context c. -/
def modCtx (c : CtxId) (f : Ctx → Ctx) (s : State) : State := s.onCtxs fun t => tmod Ctx.fresh t c.toNat f

/-- Queue q of a context. -/
def Ctx.queue (x : Ctx) (q : Nat) : Queue := tget Queue.fresh x.queues q

/-- The state with f applied to queue q of context c. -/
def modQueue (c : CtxId) (q : Nat) (f : Queue → Queue) (s : State) : State :=
  modCtx c (fun x => { x with queues := tmod Queue.fresh x.queues q f }) s

/-- The function that owns a context (R279). -/
def fnOf (c : CtxId) : Nat := c.toNat / 16

/-- Contexts that function f owns: all 16 of the PF, CONTEXTS of CMD_VF_ALLOT of a VF while VFs are enabled (R279, R280). -/
def fnContexts (s : State) (f : Nat) : Nat :=
  if f = 0 then 16 else if s.host.vfEnable then min 16 (getFld s (CMD_VF_ALLOT 0 f) 0 5) else 0

/-- Vectors of function f: VECTORS of its allotment, and for the PF the 2,048 less the allotments (R280). -/
def fnVectors (s : State) (f : Nat) : Nat :=
  if f = 0 then 2048 - ((List.range 255).map fun i => getFld s (CMD_VF_ALLOT 0 (i + 1)) 16 7).foldl (· + ·) 0
  else getFld s (CMD_VF_ALLOT 0 f) 16 7

/-- Context c is present: its function owns it (R279). -/
def ctxPresent (s : State) (c : CtxId) : Bool := decide (c.toNat % 16 < fnContexts s (fnOf c))

/-- ENABLE of CMD_Q_CFG. -/
def qEnabled (s : State) (c : CtxId) (q : Nat) : Bool := decide (getFld s (CMD_Q_CFG c.toNat q) 31 1 = 1)

/-- Slots of the submission ring and entries of the completion ring (Table 11.22). -/
def sqSize (s : State) (c : CtxId) (q : Nat) : Nat := 2 ^ getFld s (CMD_Q_CFG c.toNat q) 0 5
/-- Entries of the completion ring. -/
def cqSize (s : State) (c : CtxId) (q : Nat) : Nat := 2 ^ getFld s (CMD_Q_CFG c.toNat q) 8 5

/-- Outstanding commands of a context: accepted and not completed (R282). -/
def outstanding (s : State) (c : CtxId) : List Cmd := s.cmds.filter fun m => decide (m.ctx = c) && !m.rejected

/-- A vector of a function is raised (R285, R287, R288). -/
def raiseIrq (fn vec : Nat) (s : State) : State := s.onHost fun h => { h with irqs := (fn, vec) :: h.irqs }

/-- The class of a status (Table 11.17): a failure, where ST_DEADLINE_MISSED is one only with NO_EFFECT. -/
def isFailure (status : Nat) (noEffect : Bool) : Bool :=
  !(decide (status = 0) || decide (status = 1) || decide (status = 2) || decide (status = 0x500)
    || (decide (status = 0x401) && !noEffect))

/-- The key of host memory for a DMA of context c (R279): the PASID's space, or the function's untagged space, and the bus address. -/
def hostAddr (s : State) (c : CtxId) (a : Nat) : Nat :=
  let pasid := (getReg s (CMD_CTX_PASID c.toNat)).toNat
  let space := if bit pasid 31 then 256 + (fnOf c) * 2 ^ 20 + pasid % 2 ^ 20 else fnOf c
  space * 2 ^ 64 + a % 2 ^ 64

/-- A DMA write for a context (R279). -/
def dmaWrite (c : CtxId) (a : Nat) (bs : List Byte) (s : State) : State :=
  s.onHost fun h => { h with mem := memWrite h.mem (hostAddr s c a) bs }

/-! ### Status codes (Table 11.17) -/

/-- A status with its DETAIL. -/
abbrev Status := Nat × Nat

/-- ST_OK. -/
def stOk : Status := (0x0000, 0)
/-- ST_BAD_PARAM with a DETAIL. -/
def stBadParam (d : Nat) : Status := (0x0101, d)
/-- ST_NOT_PERMITTED with a DETAIL. -/
def stNotPermitted (d : Nat) : Status := (0x0103, d)
/-- ST_NO_SPACE with a DETAIL. -/
def stNoSpace (d : Nat) : Status := (0x0200, d)
/-- ST_ADMISSION_DENIED with a DETAIL. -/
def stDenied (d : Nat) : Status := (0x0201, d)
/-- ST_QUOTA. -/
def stQuota : Status := (0x0202, 0)
/-- ST_MODEL_UNAVAILABLE. -/
def stModelUnavailable : Status := (0x0300, 0)
/-- ST_CONFIG_REJECTED with a DETAIL. -/
def stConfigRejected (d : Nat) : Status := (0x0302, d)
/-- ST_CANCELLED with a DETAIL. -/
def stCancelled (d : Nat) : Status := (0x0400, d)
/-- ST_SESSION_LOST. -/
def stSessionLost : Status := (0x0402, 0)
/-- ST_EXPIRED. -/
def stExpired : Status := (0x0403, 0)
/-- ST_FAULT_CONTAINED with a DETAIL. -/
def stFaultContained (d : Nat) : Status := (0x0600, d)

/-! ### Ending a command -/

/-- A command's parameter word k; words beyond PARAM_WORDS are 0 (R283). -/
def Cmd.p (m : Cmd) (k : Nat) : Nat := (m.params.getD k 0).toNat

/-- Bits of a command's parameter word. -/
def Cmd.f (m : Cmd) (k lo w : Nat) : Nat := bits (m.p k) lo w

/-- The first command, accepted and not ended, that a reference names (tags of outstanding commands differ, R284). -/
def findCmd (s : State) (r : CmdRef) : Option Cmd :=
  s.cmds.find? fun m => decide (m.ctx = r.ctx) && decide (m.tag = r.tag) && !m.rejected

/-- The reference of a command. -/
def Cmd.ref (m : Cmd) : CmdRef := { ctx := m.ctx, tag := m.tag }

/-- The state with f applied to the command of acceptance number n. -/
def modCmd (n : Nat) (f : Cmd → Cmd) (s : State) : State :=
  s.onCmds fun l => l.map fun m => if m.seqno = n then f m else m

/-- The completion entry of a status: a failure has NO_EFFECT unless the owning rule states what stands (R297). -/
def entryOf (tag : Dword) (irq : Bool) (st : Status) (noEffect : Bool) (r0 r1 : Nat) : CplEntry :=
  { tag := tag, status := BitVec.ofNat 16 st.1, detail := BitVec.ofNat 16 st.2, noEffect := noEffect, late := false, irq := irq,
    result0 := BitVec.ofNat 64 r0, result1 := BitVec.ofNat 64 r1 }

/-- Opcodes whose completion waits for a COMMAND record (R340): SEQ_, ADP_, STEER_SET, MODEL_, EMB_TABLE_CREATE,
EMB_VERSION_SWITCH, OBJ_CREATE, OBJ_FREE, OBJ_SHARE, CTX_ and CFG_LOAD. -/
def mirrored (op : Nat) : Bool :=
  decide (0x0401 ≤ op) && decide (op ≤ 0x0406) || decide (0x0501 ≤ op) && decide (op ≤ 0x0505)
    || decide (op = 0x0301) || decide (op = 0x0302) || decide (op = 0x0305) || decide (op = 0x0306)
    || decide (op = 0x0201) || decide (op = 0x0202) || decide (op = 0x0207) || decide (0x0101 ≤ op) && decide (op ≤ 0x0105)

/-- PAIRED of CMT_STATUS: the package is protected or becoming so, and commits through its buddy (R333). -/
def paired (s : State) : Bool := decide (getFld s CMT_STATUS 1 1 = 1)

/-- The ACTIVE entry of a chip ID. -/
def FabPlan.ofChip (p : FabPlan) (c : Nat) : Option PlanPkg := p.packages.find? fun e => !e.spare && decide (e.chip = c)

/-- No chip ID is held (R317). -/
def unassigned (s : State) : Bool := decide (getFld s LNK_FAB_ID 10 1 = 1)

/-- The plan entry of this package: of the chip ID it holds. -/
def ownEntry (s : State) : Option PlanPkg := if unassigned s then none else s.lnk.plan.bind fun p => p.ofChip (chipId s)

/-- The buddy that this package's plan entry names (R333). -/
def buddyOf (s : State) : Option Nat := (ownEntry s).map (·.buddy)

/-- The package waits for the buddy that its plan names: neither paired nor refused, it commits nothing (R333, R343). -/
def needsBuddy (s : State) : Bool := (buddyOf s).isSome && !s.cmt.refused && !paired s

/-- CD1 holds the control role: no standby follows it (R395). -/
def cd1Active (s : State) : Bool := decide (getFld s FW_STATUS 2 1 = 1)

/-- No standby follows the control log: CD1 has taken over, or failed its self-test (R395, R433). -/
def noStandby (s : State) : Bool := cd1Active s || s.fw.cd1Failed

/-- Core n's role (Table 16.15): 0 intake, 1 step, 2 tier, 3 fabric, 4 fault, 5 spare, 15 retired. -/
def roleOf (s : State) (n : Nat) : Nat := getFld s FW_ROLE_MAP (4 * n) 4

/-- Core n has crashed and does not run (R364). -/
def coreDown (s : State) (n : Nat) : Bool := s.fw.down.any fun d => decide (d.1 = n)

/-- Some core of a role runs. -/
def roleUp (s : State) (r : Nat) : Bool := (List.range 8).any fun n => decide (roleOf s n = r) && !coreDown s n

/-- A record is durable: acknowledged by the buddy, or on a package that is not protected by CD1 (R336, R394). -/
def recDurable (s : State) (j : Nat) : Bool :=
  if paired s then decide (j ≤ s.cmt.durable) else !needsBuddy s && decide (j ≤ s.cmt.ctlAcked)

/-- A record is formed under the next number: to the buddy when paired, and over the control log to CD1 (R336, R394). A package out of service
forms none (R359). -/
def journal (kind epoch : Nat) (ctx : CtxId) (handle : Dword) (cmd : Option CmdRef) (s : State) : State :=
  let r : JRec := { jseq := s.cmt.nextJseq, epoch := epoch, kind := kind, ctx := ctx, handle := handle, ttl := s.seq.ttlClock, cmd := cmd }
  if s.flt.outOfService then s
  else s.onCmt fun c => { c with
    outstanding := if paired s then c.outstanding ++ [r] else c.outstanding
    nextJseq := c.nextJseq + 1
    sealNo := if paired s then c.sealNo + 1 else c.sealNo
    lastSent := if paired s then s.tick else c.lastSent
    ctl := if noStandby s then c.ctl else c.ctl ++ [r]
    ctlAcked := if noStandby s then c.nextJseq else c.ctlAcked }

/-- A command ends with a status: its entry is due. A successful command that changes mirrored state waits for its COMMAND record
(R340); one that runs again after a core crash answers ST_REPLAYED in place of ST_OK (R353). -/
def endWith (m : Cmd) (st : Status) (noEffect : Bool) (r0 r1 : Nat) (s : State) : State :=
  let st' : Status := if m.replayed && decide (st = stOk) then (0x0500, 0) else st
  let rec? := mirrored m.opcode.toNat && !noEffect
  let s1 := if rec? then journal 4 0 m.ctx (BitVec.ofNat 64 (m.p 0)) (some m.ref) s else s
  let s2 := if m.replayed && decide (st = stOk) then bump CMT_REPLAYED s1 else s1
  modCmd m.seqno (fun x => { x with
    phase := .ended (entryOf m.tag m.irq st' noEffect r0 r1)
    waitJseq := if rec? then some s.cmt.nextJseq else none }) s2

/-- A command ends with a success. -/
def endOk (m : Cmd) (r0 r1 : Nat) (s : State) : State := endWith m stOk false r0 r1 s

/-- A command ends with a failure that changed nothing (R297). -/
def endFail (m : Cmd) (st : Status) (s : State) : State := endWith m st true 0 0 s

end Sys2Proof.Machine
end

