-- ==== Sys2Proof/Machine/MemOps.lean ====
section
/-! DEFINITION. The device address map, allocation in the three tiers, and reads and writes of objects (chapter 5). -/

namespace Sys2Proof.Machine

/-! ### The device address map (R130–R134, R173, R180) -/

/-- A device address of the map: unmapped, tier 0, tier 1 of a slice, or tier 2 of
a port. -/
inductive MapWindow where
  | unmapped
  | tier0
  | tier1 (slice : Nat)
  | ecc
  | tier2 (port : Nat)
deriving DecidableEq, Repr

/-- First 64 KiB block of port die p's tier-0 object pool (R132, R133): 1,024 blocks. -/
def poolBase (p : Nat) : Nat := (0x00384000000 + p * 0x06000000) / 65536

/-- First 64 KiB block of slice p (R134). -/
def sliceBase (p : Nat) : Nat := (0x01000000000 + p * 0x00780000000) / 65536

/-- Mapped blocks of slice p: MAPPED of NEAR_SLICE_MAP in 512 MiB units (R173). -/
def sliceBlocks (s : State) (p : Nat) : Nat := getFld s (NEAR_SLICE_MAP p) 0 6 * 8192

/-- First frame (2 MiB) of CXL port c (R134). -/
def portFrame (c : Nat) : Nat := (0x10000000000 + c * 0x04000000000) / 0x200000

/-- Mapped frames of CXL port c (R180). -/
def portFrames (s : State) (c : Nat) : Nat := getFld s (FAR_PORT_MAPPED (c / 3) (c % 3)) 0 18

/-- The window of a device address (Table 5.1), with the mapped parts of slices and ports (R131, R173, R180). -/
def windowOf (s : State) (a : Nat) : MapWindow :=
  if a < 0x003F8000000 then .tier0
  else if a < 0x01000000000 then .unmapped
  else if a < 0x06A00000000 then
    let p := (a - 0x01000000000) / 0x00780000000
    if (a / 65536) - sliceBase p < sliceBlocks s p then .tier1 p else .unmapped
  else if a < 0x07000000000 then .ecc
  else if a < 0x10000000000 then .unmapped
  else if a < 0x40000000000 then
    let c := (a - 0x10000000000) / 0x04000000000
    if a / 0x200000 - portFrame c < portFrames s c then .tier2 c else .unmapped
  else .unmapped

/-- Where a tier-1 byte lies: the local device that holds its block, the channel of its 256-byte unit, and the 2 KiB page and the unit of that page in the
channel, 30 units of 64 bytes to a page (R134, R170, R173). -/
structure NearPlace where
  device : Nat
  channel : Nat
  page : Nat
  unit : Nat
deriving DecidableEq, Repr

/-- The place of a tier-1 address of slice p, by the devices that worked when the port die trained (R173, R174). -/
def nearPlace (s : State) (p a : Nat) : NearPlace :=
  let w := tget [] s.mem.near p
  let n := max 1 w.length
  let k := a / 65536 - sliceBase p
  let x := k / n * 65536 + a % 65536
  let y := x / 1024 * 256 + x % 256
  { device := w.getD (k % n) 0, channel := x / 256 % 4, page := y / 1920, unit := y % 1920 / 64 }

/-- Device address of the firmware region: the first 512 MiB of the lowest-numbered slice that is not absent (R391). -/
def regionBase (s : State) : Option Nat :=
  ((List.range 12).find? fun p => decide (0 < sliceBlocks s p)).map fun p => sliceBase p * 65536

/-! ### Allocation (R137, R140, R163, R176) -/

/-- An extent [a, a + n) meets a listed extent or a retired block. -/
def clashes (s : State) (a n : Nat) : Bool :=
  (s.mem.extents.any fun e => decide (e.1 < a + n) && decide (a < e.1 + e.2))
    || s.mem.retiredBlocks.any fun b => decide (a ≤ b) && decide (b < a + n)

/-- Where a run of n blocks may start in [base, base + cap): the base, or the first multiple of `al` past a listed extent or retired block; the lowest
that fits (notes/assumptions/14). -/
def firstFit (s : State) (al base cap n : Nat) : Option Nat :=
  let starts := base :: (((s.mem.extents.map fun (e : Nat × Nat) => e.1 + e.2) ++ s.mem.retiredBlocks.map (· + 1)).map fun a => ceilDiv a al * al)
  let ok := starts.filter fun a => decide (base ≤ a) && decide (a + n ≤ base + cap) && !clashes s a n
  ok.foldl (fun r a => match r with | some b => some (min a b) | none => some a) none

/-- Blocks of [base, base + cap) in use or retired. -/
def usedIn (s : State) (base cap : Nat) : Nat :=
  ((s.mem.extents.filter fun e => decide (base ≤ e.1) && decide (e.1 < base + cap)).map (·.2)).foldl (· + ·) 0
    + (s.mem.retiredBlocks.filter fun b => decide (base ≤ b) && decide (b < base + cap)).length

/-- First block and blocks of port die p's pool (tier 0) or slice (tier 1). -/
def areaOf (s : State) (tier p : Nat) : Nat × Nat := if tier = 0 then (poolBase p, 1024) else (sliceBase p, sliceBlocks s p)

/-- Free blocks of port die p's pool or slice. -/
def freeIn (s : State) (tier p : Nat) : Nat := (areaOf s tier p).2 - usedIn s (areaOf s tier p).1 (areaOf s tier p).2

/-- The port die whose pool or slice has the most free space, the lowest among equals (R137). -/
def bestDie (s : State) (tier : Nat) : Nat := (List.range 12).foldl (fun r p => if freeIn s tier r < freeIn s tier p then p else r) 0

/-- A place for n blocks in tier 0 or tier 1, from a multiple of `al` blocks: on the named port die, or on the one with the most free space for 0xFF
(R137). -/
def findAligned (s : State) (al tier die n : Nat) : Option (Nat × Nat) :=
  let p := if die = 0xFF then bestDie s tier else die
  (firstFit s al (areaOf s tier p).1 (areaOf s tier p).2 n).map fun a => (p, a)

/-- A place for n blocks. -/
def findPlace (s : State) (tier die n : Nat) : Option (Nat × Nat) := findAligned s 1 tier die n

/-- Extents in rising order with one more. -/
def insertExtent (e : Nat × Nat) : List (Nat × Nat) → List (Nat × Nat)
  | [] => [e]
  | x :: xs => if e.1 < x.1 then e :: x :: xs else x :: insertExtent e xs

/-- n blocks from block a are taken and scrubbed (R163). -/
def takeBlocks (a n : Nat) (s : State) : State :=
  s.onMem fun m => { m with extents := insertExtent (a, n) m.extents, bytes := memZero m.bytes (a * 65536) (n * 65536) }

/-- n things are taken one after another by an operation that takes one; none when one is wanting. -/
def takeEach (f : State → Option (Nat × State)) : Nat → State → Option (List Nat × State)
  | 0, s => some ([], s)
  | n + 1, s =>
    match f s with
    | none => none
    | some p => (takeEach f n p.2).map fun r => (p.1 :: r.1, r.2)

/-- A block of slice p is withheld for good: listed, counted up to 1,024 and recorded in the lifetime record with the length of its list; beyond that a
fault is raised (R176). -/
def retireBlock (p b : Nat) (s : State) : State :=
  let n := getFld s (NEAR_RETIRED p) 0 11
  let s1 := s.onMem fun m => { m with retiredBlocks := if m.retiredBlocks.contains b then m.retiredBlocks else m.retiredBlocks ++ [b] }
  if n < 1024 then
    setFld (NEAR_RETIRED p) 0 11 (n + 1) (s1.onFlt fun f => { f with life := { f.life with
      shadow := memWrite (memWrite f.life.shadow (0x10000 + 4096 * p + 4 * n) (leBytes 4 (b - sliceBase p))) (0x200 + 4 * p) (leBytes 4 (n + 1)) } })
  else present (faultOf 0x0304 (0x50 + p) 0xFF 0) s1

/-- The extent that starts at block a is returned; its blocks marked for retirement are withheld for good (R176). -/
def freeBlocks (a : Nat) (s : State) : State :=
  let n := ((s.mem.extents.find? fun e => decide (e.1 = a)).map (·.2)).getD 0
  let gone := s.mem.marked.filter fun b => decide (a ≤ b) && decide (b < a + n)
  gone.foldl (fun s b => retireBlock ((b - sliceBase 0) / 491520) b s) (s.onMem fun m => { m with
    extents := m.extents.filter fun e => !decide (e.1 = a)
    marked := m.marked.filter fun b => !gone.contains b })

/-- The first number from f, of n, that a list does not hold. -/
def firstFree (used : List Nat) : Nat → Nat → Option Nat
  | 0, _ => none
  | n + 1, f => if used.contains f then firstFree used n (f + 1) else some f

/-- Frames that contexts may use: the mapped frames less the mirror of a ward (R180, R335). -/
def frameBudget (s : State) : Nat :=
  ((List.range 12).map (portFrames s)).foldl (· + ·) 0
    - (if getFld s CMT_STATUS 2 1 = 1 then getFld s CMT_MIRROR_CTL 0 11 * 512 else 0)

/-- A free tier-2 frame: the lowest (notes/assumptions/14). -/
def findFrame (s : State) : Option Nat :=
  let used := s.mem.frames ++ s.mem.retiredFrames
  if s.mem.frames.length < frameBudget s then
    (List.range 12).findSome? fun c => firstFree used (portFrames s c) (portFrame c)
  else none

/-- Frame f is taken and reads as zeros (R161, R163). -/
def takeFrame (f : Nat) (s : State) : State :=
  s.onMem fun m => { m with frames := f :: m.frames, bytes := memZero m.bytes (f * 0x200000) 0x200000 }

/-- Frames are returned. -/
def freeFrames (fs : List Nat) (s : State) : State :=
  s.onMem fun m => { m with frames := m.frames.filter fun f => !fs.contains f }

/-- n frames, one after another; none when they do not all exist. -/
def takeFrames : Nat → State → Option (List Nat × State)
  | 0, s => some ([], s)
  | n + 1, s =>
    match findFrame s with
    | none => none
    | some f => (takeFrames n (takeFrame f s)).map fun r => (f :: r.1, r.2)

/-- Every trained GDDR7 device enters or leaves self-refresh (R169, R434). -/
def selfRefresh (on : Nat) (s : State) : State :=
  (List.range 12).foldl (fun s p => (tget [] s.mem.near p).foldl (fun s d => setFld (NEAR_DEV_STATUS p d) 2 1 on s) s) s

/-! ### Objects (R135–R143) -/

/-- An entry that is free. -/
def Obj.fresh : Obj :=
  { gen := 0, type := 0, state := 0, tier := 0, portDie := 0, aliased := false, readOnly := false, flitsPerBlock := 0, shareCount := 0,
    size := 0, location := 0, ownerHandle := 0, ownerCtx := 0, pages := [], move := none, oldCopy := none, lost := false, orphan := false }

/-- A page without an entry is ZERO (Table 5.4). -/
def PageEntry.zero : PageEntry := { state := 0, frame := 0, remoteChip := 0 }

/-- The entry at INDEX i of context c. -/
def getObj (s : State) (c : CtxId) (i : Nat) : Obj := tget Obj.fresh (getCtx s c).objs i

/-- The state with f applied to the entry at INDEX i of context c. -/
def modObj (c : CtxId) (i : Nat) (f : Obj → Obj) (s : State) : State :=
  modCtx c (fun x => { x with objs := tmod Obj.fresh x.objs i f }) s

/-- INDEX and GEN of a handle (R135). -/
def hIndex (h : Nat) : Nat := h % 65536
/-- GEN of a handle. -/
def hGen (h : Nat) : Nat := h / 65536 % 65536

/-- The object that handle h names in context c, live or freeing: its INDEX holds an entry of the same GEN (R135). -/
def objAt (s : State) (c : CtxId) (h : Nat) : Option Obj :=
  let o := getObj s c (hIndex h)
  if h = 0 ∨ o.state = 0 ∨ o.gen.toNat ≠ hGen h ∨ o.orphan then none else some o

/-- The object that command m names by h: none where a free INDEX, a stale GEN, or an OBJ_FREE accepted earlier makes it free (R135, R140). -/
def objFor (s : State) (m : Cmd) (h : Nat) : Option Obj :=
  if (outstanding s m.ctx).any fun k => decide (k.opcode = 0x0202) && decide (k.f 0 0 32 = h) && decide (k.seqno < m.seqno)
      && (match k.phase with | .ended _ => false | _ => true) then none
  else objAt s m.ctx h

/-- The object that holds the storage: the owner's for an alias (R139). -/
def storageOf (s : State) (o : Obj) : Obj :=
  if o.aliased then getObj s o.ownerCtx (hIndex o.ownerHandle.toNat) else o

/-- The context and INDEX that hold the storage of an object of context c at INDEX i. -/
def storageKey (s : State) (c : CtxId) (i : Nat) : CtxId × Nat :=
  let o := getObj s c i
  if o.aliased then (o.ownerCtx, hIndex o.ownerHandle.toNat) else (c, i)

/-- An object is read-only: flagged, an alias, or shared (R139). -/
def Obj.isReadOnly (o : Obj) : Bool := o.readOnly || o.aliased || decide (0 < o.shareCount)

/-- Pages of an object (R142). -/
def Obj.pageCount (o : Obj) : Nat := ceilDiv o.size 0x200000

/-- Device address of byte `off` of an object's storage; none on a page without a frame (R141–R143). A MOVING page's frame still holds its contents until
the move ends (R138). -/
def objAddr (o : Obj) (off : Nat) : Option Nat :=
  if o.tier = 2 then
    let e := tget PageEntry.zero o.pages (off / 0x200000)
    if e.state = 1 ∨ e.state = 3 then some (e.frame * 0x200000 + off % 0x200000) else none
  else some (o.location + off)

/-- Byte `off` of an object; a ZERO page reads as zeros (R143). -/
def objByte (s : State) (o : Obj) (off : Nat) : Byte :=
  match objAddr o off with | some a => memGet s.mem.bytes a | none => 0

/-- n bytes of an object from offset `off`. -/
def objBytes (s : State) (o : Obj) (off : Nat) : Nat → List Byte
  | 0 => []
  | n + 1 => objByte s o off :: objBytes s o (off + 1) n

/-- Pages that a range of an object touches. -/
def pagesIn (off n : Nat) : List Nat :=
  if n = 0 then [] else (List.range ((off + n - 1) / 0x200000 + 1 - off / 0x200000)).map (· + off / 0x200000)

/-- The die code and the overrun counter of the die that serves a byte of an object: its far die, or its port die. -/
def servingDie (o : Obj) (off : Nat) : Nat × Nat :=
  if o.tier = 2 then
    let f := ((tget PageEntry.zero o.pages (off / 0x200000)).frame - portFrame 0) / 131072 / 3
    (0x60 + f, TIER_F_BITTERN_OVERRUN f)
  else (0x50 + o.portDie, TIER_BITTERN_OVERRUN o.portDie)

/-- A page of the range is REMOTE or MOVING: the access waits for a page-in (R143, R150). -/
def rangeAway (o : Obj) (off n : Nat) : Bool :=
  decide (o.tier = 2) && (pagesIn off n).any fun p => decide (2 ≤ (tget PageEntry.zero o.pages p).state.toNat)

/-- Frames are taken for the ZERO pages of a range, in order; the flag tells whether they sufficed (R143). -/
def fillZeros (c : CtxId) (i : Nat) : List Nat → State → Bool × State
  | [], s => (true, s)
  | p :: ps, s =>
    let o := getObj s c i
    if (tget PageEntry.zero o.pages p).state = 0 then
      match findFrame s with
      | none => (false, s)
      | some f =>
        fillZeros c i ps (modObj c i (fun x => { x with pages := tput PageEntry.zero x.pages p { state := 1, frame := f, remoteChip := 0 } })
          (takeFrame f s))
    else fillZeros c i ps s

/-- Bytes are written into an object's storage at offset `off`, byte by byte; bytes on a page without a frame are dropped. -/
def pokeObj (o : Obj) (off : Nat) : List Byte → Mem → Mem
  | [], m => m
  | b :: bs, m =>
    pokeObj o (off + 1) bs (match objAddr o off with | some a => tput 0 m a b | none => m)

/-- A host command's write into an object (R143): frames for ZERO pages, then the bytes of the pages that have one. The flag is false
when a frame was missing. A write of the whole object clears LOST (R334). -/
def writeObj (c : CtxId) (i off : Nat) (bs : List Byte) (s : State) : Bool × State :=
  let k := storageKey s c i
  let o := getObj s k.1 k.2
  let r := if o.tier = 2 then fillZeros k.1 k.2 (pagesIn off bs.length) s else (true, s)
  let o' := getObj r.2 k.1 k.2
  let s1 := r.2.onMem fun m => { m with bytes := pokeObj o' off bs m.bytes }
  let s2 := if o.tier = 2 ∧ bs ≠ [] then modCtx k.1 (fun x => { x with wroteT2 := true }) s1 else s1
  (r.1, if off = 0 ∧ bs.length = o.size ∧ r.1 then modObj k.1 k.2 (fun x => { x with lost := false }) s2 else s2)

/-- Tier-1 units that an object is charged: its blocks in tiers 0 and 1, its page table in tier 2 (Table 5.10). -/
def t1Charge (tier size : Nat) : Nat :=
  if tier = 2 then ceilDiv (ceilDiv size 0x200000 * 8) 65536 else ceilDiv size 65536

/-- Tier-2 pages that an object is charged. -/
def t2Charge (tier size : Nat) : Nat := if tier = 2 then ceilDiv size 0x200000 else 0

/-- Tier-2 use of a context in pages: its charges less its pages that are REMOTE (Table 5.10). -/
def t2Use (s : State) (c : CtxId) : Nat :=
  let x := getCtx s c
  x.t2Used - ((x.objs.map fun q => (q.2.pages.filter fun p => decide (p.2.state = 2)).length).foldl (· + ·) 0)

/-- More charges in tier 1 and in tier 2 would exceed a context's quotas; a request that takes nothing of a tier is not refused for it, however far a
lowered quota lies below the use (R164). -/
def overQuota (s : State) (c : CtxId) (t1 t2 used1 : Nat) : Bool :=
  let q := (getCtx s c).quota
  (decide (0 < t1) && decide (q.t1Units < used1 + t1)) || (decide (0 < t2) && decide (q.t2Pages < t2Use s c + t2))

/-- Tier-1 use of a context in 64 KiB units: its charges, and the object table of 64-byte entries that an open context has (R136, R164). -/
def t1Use (s : State) (c : CtxId) : Nat :=
  let x := getCtx s c
  x.t1Used + if x.state = 1 ∨ x.state = 3 then ceilDiv (x.quota.objMax * 64) 65536 else 0

/-- The state with charges added to a context. -/
def charge (c : CtxId) (t1 t2 : Nat) (s : State) : State :=
  modCtx c (fun x => { x with t1Used := x.t1Used + t1, t2Used := x.t2Used + t2 }) s

/-- The state with charges released. -/
def discharge (c : CtxId) (t1 t2 : Nat) (s : State) : State :=
  modCtx c (fun x => { x with t1Used := x.t1Used - t1, t2Used := x.t2Used - t2 }) s

/-- Frames of a page table; a MOVING page keeps its frame until the move ends (R138). -/
def framesOf (ps : Tab PageEntry) : List Nat := ps.filterMap fun p => if p.2.state = 1 ∨ p.2.state = 3 then some p.2.frame else none

/-- Storage of a placement is returned: its blocks (a tier-2 object's page table) and its frames. -/
def freePlace (location : Nat) (pages : Tab PageEntry) (s : State) : State :=
  freeFrames (framesOf pages) (freeBlocks (location / 65536) s)

/-- An object's storage and entry are released, and its charge (R140). -/
def dropObj (c : CtxId) (i : Nat) (s : State) : State :=
  let o := getObj s c i
  let s1 := if o.aliased then s else discharge c (t1Charge o.tier o.size) (t2Charge o.tier o.size) (freePlace o.location o.pages s)
  let s2 := match o.oldCopy with
    | some k => discharge c (t1Charge k.tier o.size) (t2Charge k.tier o.size) (freePlace k.location k.pages s1)
    | none => s1
  modObj c i (fun _ => Obj.fresh) s2

/-- An open context's object table gets blocks in tier 1 (R136), by its OBJ_MAX; the flag is false where none fit. -/
def placeTable (c : CtxId) (s : State) : Bool × State :=
  let n := ceilDiv ((getCtx s c).quota.objMax * 64) 65536
  if n = 0 then (true, modCtx c (fun x => { x with objTable := (0, 0) }) s)
  else match findPlace s 1 0xFF n with
    | some a => (true, modCtx c (fun x => { x with objTable := (a.2 * 65536, n) }) (takeBlocks a.2 n s))
    | none => (false, s)

/-- An object table's blocks are returned. -/
def freeTable (c : CtxId) (s : State) : State :=
  let t := (getCtx s c).objTable
  if t.2 = 0 then s else modCtx c (fun x => { x with objTable := (0, 0) }) (freeBlocks (t.1 / 65536) s)

/-- One alias of an owner's object goes; an orphan whose last alias went is released (R139). -/
def dropAlias (c : CtxId) (i : Nat) (s : State) : State :=
  let s1 := modObj c i (fun o => { o with shareCount := o.shareCount - 1 }) s
  let o := getObj s1 c i
  if o.orphan && decide (o.shareCount = 0) then dropObj c i s1 else s1

/-- A stream has ended. -/
def Stream.isOver (t : Stream) : Bool := match t.phase with | .ended _ _ => true | _ => false

/-- The old copies of completed moves whose readers, commands, streams and built steps, have all ended are freed (R138, R221). -/
def reapOld (s : State) : State :=
  let due : List (Nat × Nat) := (s.ctxs.map fun p => p.2.objs.filterMap fun q =>
    match q.2.oldCopy with
    | some k => if (k.readers.any fun n => s.cmds.any fun m => decide (m.seqno = n))
          || (k.streams.any fun n => match tget none s.mem.streams n with | some t => !t.isOver | none => false)
          || k.steps.any fun n => s.seq.steps.any fun st => decide (st.epoch = n) then none
        else some (p.1, q.1)
    | none => none).flatten
  due.foldl (fun s d =>
    let c : CtxId := BitVec.ofNat 12 d.1
    let o := getObj s c d.2
    match o.oldCopy with
    | some k => modObj c d.2 (fun x => { x with oldCopy := none })
        (discharge c (t1Charge k.tier o.size) (t2Charge k.tier o.size) (freePlace k.location k.pages s))
    | none => s) s

/-- Handles that a command names, each with the context that names it (R140). -/
def handlesOf (m : Cmd) : List (CtxId × Nat) :=
  let lo (k : Nat) := (m.ctx, m.f k 0 32)
  let hi (k : Nat) := (m.ctx, m.f k 32 32)
  match m.opcode.toNat with
  | 0x0202 => [lo 0] | 0x0203 => [lo 0] | 0x0204 => [lo 0, hi 0] | 0x0205 => [lo 0] | 0x0206 => [lo 0]
  | 0x0207 => [(if bit (m.p 1) 16 then BitVec.ofNat 12 (m.f 1 0 12) else m.ctx, m.f 0 0 32)]
  | 0x0301 => [lo 1, lo 2, hi 2, lo 3, hi 3, lo 4, hi 4, lo 5, hi 5]
  | 0x0302 => [lo 1] | 0x0501 => [lo 0] | 0x0506 => [lo 1] | 0x0507 => [lo 1, hi 1] | 0x0508 => [lo 1]
  | 0x0601 => [lo 1] | 0x0603 => [lo 1, hi 1]
  | _ => []

/-- A command other than n that has not ended names the object at INDEX i of context c, or a stream of one does (R140). -/
def objNamed (s : State) (c : CtxId) (i n : Nat) : Bool :=
  (s.cmds.any fun m => !decide (m.seqno = n) && !m.rejected && (match m.phase with | .running => true | .waiting => decide (m.seqno < n) | _ => false)
      && (handlesOf m).any fun h => decide (h.1 = c) && decide (hIndex h.2 = i))
    || s.mem.streams.any fun p => match p.2 with
      | some t => decide (t.ctx = c) && t.kv.isNone && (decide (hIndex t.handle.toNat = i) || (decide (t.use = .copy) && decide (hIndex t.dstHandle.toNat = i)))
      | none => false

/-- A handle of a context names the storage at INDEX i of context c, itself or through an alias (R139). -/
def reaches (s : State) (c : CtxId) (i : Nat) (w : CtxId) (h : Nat) : Bool := decide (storageKey s w (hIndex h) = (c, i)) && decide (h ≠ 0)

/-- Acceptance numbers of the running commands that read an object, themselves or through an alias (R138). -/
def readersOf (s : State) (c : CtxId) (i : Nat) : List Nat :=
  (s.cmds.filter fun m => decide (m.phase = .running) && (handlesOf m).any fun h => reaches s c i h.1 h.2).map (·.seqno)

/-- Streams under way that read or write an object (R138). -/
def streamsOf (s : State) (c : CtxId) (i : Nat) : List Nat :=
  s.mem.streams.filterMap fun p => match p.2 with
    | some t => if !t.isOver ∧ t.kv.isNone ∧ (reaches s c i t.ctx t.handle.toNat ∨ (t.use = .copy ∧ reaches s c i t.ctx t.dstHandle.toNat)) then some p.1 else none
    | none => none

/-- The lowest free INDEX of a context's object table (R135, R136). -/
def freeIndex (s : State) (c : CtxId) : Option Nat :=
  let x := getCtx s c
  firstFree (tkeys x.objs) x.quota.objMax 1

/-- GEN of the next use of an INDEX: one more, skipping 0 (R135). -/
def nextGen (x : Ctx) (i : Nat) : Nat := let g := (tget 0 x.gens i + 1) % 65536; if g = 0 then 1 else g

/-- An entry is placed in a context's table at INDEX i. -/
def putObj (c : CtxId) (i : Nat) (o : Obj) (s : State) : State :=
  let g := nextGen (getCtx s c) i
  modCtx c (fun x => { x with
    objs := tput Obj.fresh x.objs i { o with gen := BitVec.ofNat 16 g }
    gens := tput 0 x.gens i g }) s

end Sys2Proof.Machine
end

