-- ==== Sys2Proof/Machine/PanOps.lean ====
section
/-! DEFINITION. Pans as the other families see them: dies, clocks, predicted step times, and the model of a pan (R20, R27, R104, R193). -/

namespace Sys2Proof.Machine

/-- Pan n. -/
def getPan (s : State) (n : Nat) : Option Pan := tget none s.pans n

/-- The state with f applied to pan n when it exists. -/
def modPan (n : Nat) (f : Pan → Pan) (s : State) : State := s.onPans fun t => tmod none t n (Option.map f)

/-- The physical die that serves logical die l, by the spare map (R20, R22). -/
def physDie (s : State) (l : Nat) : Nat :=
  if getFld s ARR_SPARE0 31 1 = 1 ∧ getFld s ARR_SPARE0 0 7 = l then 72
  else if getFld s ARR_SPARE1 31 1 = 1 ∧ getFld s ARR_SPARE1 0 7 = l then 73 else l

/-- The logical die that physical die p serves: none for an unused spare or a replaced die. -/
def logicalDie (s : State) (p : Nat) : Option Nat :=
  if p = 72 then (if getFld s ARR_SPARE0 31 1 = 1 then some (getFld s ARR_SPARE0 0 7) else none)
  else if p = 73 then (if getFld s ARR_SPARE1 31 1 = 1 then some (getFld s ARR_SPARE1 0 7) else none)
  else if physDie s p = p then some p else none

/-- Logical dies of a pan in row-major order (R12, R104). -/
def Pan.logical (p : Pan) : List Nat :=
  ((List.range p.h).map fun dy => (List.range p.w).map fun dx => 8 * (p.y0 + dy) + p.x0 + dx).flatten

/-- Physical dies of a pan. -/
def panDies (s : State) (p : Pan) : List Nat := p.logical.map (physDie s)

/-- Logical die l is unavailable (R25). -/
def unavailable (s : State) (l : Nat) : Bool :=
  let r := if l < 32 then getReg s ARR_UNAVAIL0 else if l < 64 then getReg s ARR_UNAVAIL1 else getReg s ARR_UNAVAIL2
  bit r.toNat (l % 32)

/-- The pan that physical die p belongs to: PAN of its ARR_DIE_CTL while PAN_VALID (R105). -/
def dieOfPan (s : State) (p : Nat) : Option Nat :=
  if getFld s (ARR_DIE_CTL p) 20 1 = 1 then some (getFld s (ARR_DIE_CTL p) 16 4) else none

/-- The lowest ARR_CLK.MHZ among a pan's dies (R27, R193). -/
def panMhz (s : State) (p : Pan) : Nat :=
  (panDies s p).foldl (fun r d => min r (getFld s (ARR_CLK d) 0 12)) 4095

/-- Rows padded to ROW_GRANULE (R198). -/
def padRows (g rows : Nat) : Nat := ceilDiv rows g * g

/-- The predicted time of R193 in 1/16 ns, rounded up: rows, their tokens, and the sum of their contexts. A pan whose clock stands
still has no finite prediction; its clock counts as 1 MHz then. -/
def predict (ct : CostTable) (mhz rows tokens ctxTokens : Nat) : Nat :=
  let n := tokens + (padRows ct.rowGranule rows - rows)
  ceilDiv (16 * 1250 * (1024 * (ct.baseNs + ct.tokNs * n) + ct.ctxNs * ctxTokens)) (1024 * max 1 mhz)

/-- What the serving plane holds: the active plane, or the other one while the job plane is active (R203). -/
def Pan.serving (p : Pan) : Option PanCfg := if p.jobActive then p.shadow else p.active

/-- Pans of a context whose serving plane holds an image of a model and kind. -/
def pansOf (s : State) (c : CtxId) (model kind : Nat) : List (Nat × Pan × PanCfg) :=
  s.pans.filterMap fun p => match p.2 with
    | some x => match x.serving with
      | some g => if x.ctx = c ∧ g.model = model ∧ g.kind = kind ∧ !x.releasing then some (p.1, x, g) else none
      | none => none
    | none => none

end Sys2Proof.Machine
end

