-- ==== Sys2Proof/Machine/ArrayOps.lean ====
section
/-! DEFINITION. The tile array as its meanings see it: the die map, planes, queues, credits, loop counters, and the faults of a tile
(chapters 1, 2 and 4). -/

namespace Sys2Proof.Machine

/-! ### Fresh planes, tiles and dies -/

/-- A route entry that was never written: TERM (Table 4.2, all zeros). -/
def Route.term : Route := { type := 0, outPort := 0, outVq := 0, elastic := false, index := 0 }

/-- An unused elastic queue descriptor (R451). -/
def EqDesc.unused : EqDesc :=
  { entryPort := 0, entryVq := 0, termPort := 0, termVq := 0, termCol := 0, termRow := 0, termDx := 0, termDy := 0, base := 0, size := 0 }

/-- An empty plane (R105): no program, routes of zeros. -/
def Plane.empty : Plane :=
  { progLen := 0, modes := [0, 0, 0, 0], limits := [0, 0, 0, 0], endTarget := [0xFF, 0xFF, 0xFF, 0xFF], routes := [], eqDescs := [],
    ags := [], ops := [], consts := [], units := [0, 0, 0, 0, 0, 0, 20] }

/-- Counters at 0 (R378). -/
def TilePerf.zero : TilePerf := { fire := 0, starved := 0, blocked := 0, busy := 0 }

/-- A cleared accumulator set (R77). -/
def AccSet.zero : AccSet := { vals := List.replicate 32 0, groups := 0, onlyBubbles := true }

/-- An elastic queue with nothing in it. -/
def ElasticQ.empty : ElasticQ := { head := 0, tags := [] }

/-- A bag with nothing read (R261). -/
def Bag.fresh : Bag := { pairs := [], sawPairs := false, sawBubble := false, grad := [], ended := false }

/-- A tile after the die's reset (R46): the done state, pc 0, counters 0, queues empty. -/
def Tile.fresh : Tile :=
  { active := Plane.empty, shadow := Plane.empty, routes := [], eqDescs := [], done := true, pc := 0, counters := [0, 0, 0, 0], epoch := 0,
    mode := 0, queues := [], elastic := [], outRegs := [], stages := [], inFlight := [], frame := 0, creditDue := [], lastServed := [], busy := 0,
    second := [], accs := [], operands := [], weights := [[], []], activeSet := 0, fill := none, filled := false, scales := [],
    emitHalf := false, sAcc := [], sBuf := [], sPos := 0, mxBuf := [], adpU := [], sram := [], agsPos := [0, 0, 0, 0], bag := Bag.fresh, round := [], gOp := 0, roundClosed := false,
    toFetch := [], fetched := [], choices := [], srCount := 0,
    starved := false, blocked := false, faulted := false, perf := TilePerf.zero, hwm := [], full := [], eqHwm := [], eqFull := [] }

/-- A die after its reset. -/
def Die.fresh : Die :=
  { tiles := [], islandOn := false, clockOn := false, failed := false, firedFor := none, quiet := 0, orphanFor := 0, segments := [], cycles := 0,
    rakeCycles := 0, waitCycles := 0, shadowValid := false, dieDone := false, pendingTiles := 0, accepting := none, portOut := [], listed := 0, stepSent := 0,
    windows := [], hot := [], fetches := [], rowUse := [], gathered := [], embVer := [], exchange := [], moeItems := [], adpCache := [], srSeed := 0, drooped := false,
    throttled := false, mhz := 1250 }

/-- Physical die p. -/
def getDie (s : State) (p : Nat) : Die := tget Die.fresh s.arr.dies p

/-- The state with f applied to physical die p. -/
def modDie (p : Nat) (f : Die → Die) (s : State) : State := s.onArr fun a => { a with dies := tmod Die.fresh a.dies p f }

/-- The key of a tile within its die. -/
def tileKey (col row : Nat) : Nat := 16 * row + col

/-- A tile of a die. -/
def Die.tile (d : Die) (col row : Nat) : Tile := tget Tile.fresh d.tiles (tileKey col row)

/-- A tile of a physical die. -/
def getTile (s : State) (p col row : Nat) : Tile := (getDie s p).tile col row

/-- The state with f applied to a tile. -/
def modTile (p col row : Nat) (f : Tile → Tile) (s : State) : State :=
  modDie p (fun d => { d with tiles := tmod Tile.fresh d.tiles (tileKey col row) f }) s

/-- Every listed tile of a die with f applied. -/
def Die.mapTiles (d : Die) (f : Nat → Nat → Tile → Tile) : Die :=
  { d with tiles := (List.range 320).foldl (fun t k => tmod Tile.fresh t k (f (k % 16) (k / 16))) d.tiles }

/-! ### The die map (R33–R35) -/

/-- Tile kinds of Table 2.2: 0 M, 1 A, 2 S, 3 T, 4 G, 5 E. -/
def kindRows : List (List Nat) :=
  let edge := [3, 5, 3, 5, 3, 5, 3, 5, 3, 5, 3, 5, 3, 5, 3, 5]
  let r2 := [5, 3, 0, 0, 1, 0, 0, 3, 3, 0, 0, 1, 0, 0, 3, 5]
  let r3 := [3, 3, 2, 4, 3, 2, 4, 3, 3, 2, 4, 3, 2, 4, 3, 3]
  let r11 := [3, 3, 0, 0, 1, 0, 0, 3, 3, 0, 0, 1, 0, 0, 3, 3]
  let r12 := [5, 3, 2, 4, 3, 2, 4, 3, 3, 2, 4, 3, 2, 4, 3, 5]
  [edge, [3, 3, 3, 2, 3, 4, 3, 3, 3, 3, 2, 3, 4, 3, 3, 3], r2, r3, r2, r3, r2, r3, r2,
   [3, 3, 3, 4, 3, 2, 3, 3, 3, 3, 4, 3, 2, 3, 3, 3]] ++
  [[5, 3, 3, 2, 3, 4, 3, 3, 3, 3, 2, 3, 4, 3, 3, 5], r11, r12, r11, r12, r11, r12, r11,
   [3, 3, 3, 4, 3, 2, 3, 3, 3, 3, 4, 3, 2, 3, 3, 3], edge]

/-- The kind of the tile at a position. -/
def kindAt (col row : Nat) : Nat := (kindRows.getD row []).getD col 3

/-- The 144 T tiles of a die in row-major order (R123). -/
def tTiles : List (Nat × Nat) := ((List.range 320).map fun k => (k % 16, k / 16)).filter fun x => decide (kindAt x.1 x.2 = 3)

/-- The eight stream-port tiles (R35), in the order NI3, NI4, SI3, SI4, WI3, WI4, EI3, EI4. -/
def streamTiles : List (Nat × Nat) := [(7, 0), (9, 0), (7, 19), (9, 19), (0, 8), (0, 10), (15, 8), (15, 10)]

/-- A tile has a port X (R35). -/
def hasPortX (col row : Nat) : Bool := streamTiles.contains (col, row)

/-- A port of a tile is an E-tile interface (R34): 0 N, 1 E, 2 S, 3 W. -/
def isInterface (col row port : Nat) : Bool :=
  decide (kindAt col row = 5) &&
    ((decide (port = 0) && decide (row = 0)) || (decide (port = 2) && decide (row = 19))
      || (decide (port = 3) && decide (col = 0)) || (decide (port = 1) && decide (col = 15) && decide (row ≠ 0) && decide (row ≠ 19)))

/-- The port that faces a port across a link. -/
def facing (port : Nat) : Nat := match port with | 0 => 2 | 1 => 3 | 2 => 0 | 3 => 1 | n => n

/-- The tile next to a port inside the die. -/
def innerNeighbour (col row port : Nat) : Option (Nat × Nat) :=
  match port with
  | 0 => if 0 < row then some (col, row - 1) else none
  | 1 => if col < 15 then some (col + 1, row) else none
  | 2 => if row < 19 then some (col, row + 1) else none
  | 3 => if 0 < col then some (col - 1, row) else none
  | _ => none

/-- The logical die across a mesh edge (R12). -/
def meshNeighbour (l port : Nat) : Option Nat :=
  match port with
  | 0 => if 8 ≤ l then some (l - 8) else none
  | 1 => if l % 8 < 7 then some (l + 1) else none
  | 2 => if l < 64 then some (l + 8) else none
  | 3 => if 0 < l % 8 then some (l - 1) else none
  | _ => none

/-- An edge of physical die p is enabled: its EDGE_EN bit (R55). -/
def edgeOn (s : State) (p port : Nat) : Bool := decide (getFld s (ARR_DIE_CTL p) (1 + port) 1 = 1)

/-- Where a flit that leaves an output port arrives: physical die, tile, and input port. An interface leads to the matching interface
of the mesh neighbour, directly or by a tunnel (R13, R22, R24), while both ends are enabled; a port that faces nothing leads nowhere. -/
def linkEnd (s : State) (p col row port : Nat) : Option (Nat × Nat × Nat × Nat) :=
  match innerNeighbour col row port with
  | some (c, r) => some (p, c, r, facing port)
  | none =>
    if isInterface col row port then
      match (logicalDie s p).bind (meshNeighbour · port) with
      | some l =>
        let q := physDie s l
        if edgeOn s p port && edgeOn s q (facing port) then
          some (q, if port = 1 then 0 else if port = 3 then 15 else col, if port = 0 then 19 else if port = 2 then 0 else row, facing port)
        else none
      | none => none
    else none

/-- The mesh edge between two physical dies has failed (R24). -/
def edgeFailed (s : State) (p q : Nat) : Bool := s.arr.edges.contains (min p q, max p q)

/-- The interfaces between physical dies p and q are bound to tunnels: one of them is a spare (R22), or their edge has failed (R24). -/
def tunnelled (s : State) (p q : Nat) : Bool := decide (72 ≤ p) || decide (72 ≤ q) || edgeFailed s p q

/-! ### Sidebands (R40, R56–R58) -/

/-- Whether the die runs in compatibility mode: COMPAT of ARR_DIE_CTL (R55). -/
def compatDie (s : State) (p : Nat) : Bool := decide (getFld s (ARR_DIE_CTL p) 0 1 = 1)

/-- The native sideband of a flit on a VQ (Table 2.3). -/
def nativeSide (vq : Nat) (f : Flit) : BitVec 16 := BitVec.ofNat 16 (f.arg.toNat + 2 ^ 11 * f.kind.toNat + 2 ^ 14 * (vq % 4))

/-- The YD200 sideband of a flit in slots 0–6 (R58): its kind in bits 7:5 and an EOL's level in bits 1:0. -/
def circuitSide (f : Flit) : BitVec 16 := BitVec.ofNat 16 (32 * f.kind.toNat + if f.kind = 1 then f.arg.toNat % 4 else 0)

/-- A flit put on a link in a slot: 8 native, 7 a control token's, 0–6 a circuit's. -/
def OnLink.of (slot vq : Nat) (f : Flit) : OnLink :=
  { vq := vq, slot := slot, side := if slot < 7 then circuitSide f else nativeSide vq f, payload := f.payload }

/-- What a receiver makes of a flit on a link: the flit, or none for a reserved kind (R42). In slots 0–6 only DATA and EOL are kinds, a DATA flit
being full (R58); in slot 7 only SLUICE, RAKE and STEP (R57; notes/assumptions/95). -/
def OnLink.flit? (x : OnLink) : Option Flit :=
  let b := x.side.toNat
  if x.slot < 7 then
    if bits b 5 3 = 0 then some { kind := 0, arg := 63, payload := x.payload }
    else if bits b 5 3 = 1 then some { kind := 1, arg := BitVec.ofNat 10 (b % 4), payload := x.payload } else none
  else
    let k := bits b 11 3
    if 6 ≤ k ∨ (x.slot = 7 ∧ k ≠ 2 ∧ k ≠ 3 ∧ k ≠ 5) then none else some { kind := BitVec.ofNat 3 k, arg := BitVec.ofNat 10 b, payload := x.payload }

/-- An IDLE flit fills a slot that has nothing to send (R58). -/
def OnLink.isIdle (x : OnLink) : Bool := decide (x.slot < 7) && decide (bits x.side.toNat 5 3 = 7)

/-! ### Planes and programs (R46, R100–R102) -/

/-- An operation whose FUNCTION is 0. -/
def Op.isEmpty (o : Op) : Bool := decide (o.func = 0)

/-- Operations below PROG_LEN. -/
def Plane.live (p : Plane) : List Op := p.ops.take p.progLen

/-- The plane has a program: some operation below PROG_LEN is not empty (R102). -/
def Plane.hasProgram (p : Plane) : Bool := p.live.any fun o => !o.isEmpty

/-- The input set and the output set (R46). -/
def Plane.inputSet (p : Plane) : List Nat := dedup ((p.live.filter fun o => !o.isEmpty).map (·.inputs)).flatten
/-- The output set. -/
def Plane.outputSet (p : Plane) : List Nat := dedup ((p.live.filter fun o => !o.isEmpty).map (·.outputs)).flatten

/-- An operation that no record gives. -/
def Op.empty : Op := { func := 0, cnt := false, fwdEol := false, next := 0xFF, inputs := [], outputs := [], ncw := [], param := [], args := [] }

/-- The operation at the tile's pc; an empty one names nothing (R102). -/
def Tile.op (t : Tile) : Op :=
  let o := t.active.ops.getD t.pc Op.empty
  if o.isEmpty then { o with inputs := [], outputs := [] } else o

/-- NCW and PARAM of the tile's mode (R102, R114). -/
def Tile.ncw (t : Tile) (o : Op) : Word := o.ncw.getD t.mode.toNat 0
/-- PARAM of the tile's mode. -/
def Tile.param (t : Tile) (o : Op) : Word := o.param.getD t.mode.toNat 0

/-- A byte of an operation's ARGS. -/
def Op.arg (o : Op) (k : Nat) : Nat := (o.args.getD k 0).toNat
/-- The 32-bit argument at bytes 4–7. -/
def Op.arg4 (o : Op) : Nat := fieldAt o.args 4 4

/-! ### Queues, stages and credits (R37, R43–R45, R119) -/

/-- The route entry in force at an input key. -/
def Tile.route (t : Tile) (key : Nat) : Route := tget Route.term t.routes key

/-- A port queue. -/
def Tile.queue (t : Tile) (key : Nat) : List Flit := tget [] t.queues key

/-- The used elastic descriptor of a T tile whose ENTRY is a key, with its index. -/
def Tile.eqAt (t : Tile) (key : Nat) : Option (Nat × EqDesc) :=
  t.eqDescs.find? fun p => decide (0 < p.2.size) && decide (4 * p.2.entryPort.toNat + p.2.entryVq.toNat = key)

/-- The open segment that lengthens a queue and takes its arrivals (R119). -/
def Die.segmentOn (d : Die) (col row key : Nat) : Option Segment :=
  d.segments.find? fun g => decide (g.col = col) && decide (g.row = row) && decide (g.key = key) && g.accepting

/-- MiB of the tier-1 spill region of die p: that of the load whose planes are active (R120, R124). -/
def spillRegion (s : State) (p : Nat) : Nat :=
  match ((dieOfPan s p).bind (getPan s)).bind (·.active) with | some g => g.spillMib | none => 0

/-- Flits that the die's spill space holds: the SPILL units of its T tiles, then its tier-1 region (R120, R123). -/
def spillCapacity (s : State) (p : Nat) (d : Die) : Nat :=
  1024 * (d.tiles.map fun q => q.2.active.units.getD 5 0).foldl (· + ·) 0 + 16384 * spillRegion s p

/-- Flits in the die's segments. -/
def Die.spilled (d : Die) : Nat := (d.segments.map fun g => g.flits.length).foldl (· + ·) 0

/-- A port of a tile is fed by a crossing queue: an interface, or a stream port (R14, R28). -/
def isCrossing (col row port : Nat) : Bool := isInterface col row port || decide (port = 4)

/-- First byte of a partition in a tile's local store: the partitions lie in the order of their classes (R123; notes/assumptions/154). -/
def Plane.partBase (p : Plane) (cls : Nat) : Nat := 65536 * (p.units.take cls).foldl (· + ·) 0

/-- Flits in elastic queue i. -/
def Tile.eqLen (t : Tile) (i : Nat) : Nat := (tget ElasticQ.empty t.elastic i).tags.length

/-- Where entry k of the ring of elastic queue i lies in the tile's SRAM (R45, R451). -/
def Tile.eqSlot (t : Tile) (i k : Nat) : Nat :=
  let e := tget EqDesc.unused t.eqDescs i
  t.active.partBase 2 + 4096 * e.base + 64 * (k % (64 * max 1 e.size))

/-- The flit at place k of elastic queue i: its tag, and its payload from the SRAM. -/
def Tile.eqFlit (t : Tile) (i k : Nat) : Option Flit :=
  let q := tget ElasticQ.empty t.elastic i
  (q.tags[k]?).map fun g => { kind := g.1, arg := g.2, payload := BitVec.ofNat 512 (leNat (memRead t.sram (t.eqSlot i (q.head + k)) 64)) }

/-- A flit enters elastic queue i: its payload goes to the SRAM, its sideband to the tag store (R45). -/
def Tile.eqPush (t : Tile) (i : Nat) (f : Flit) : Tile :=
  let q := tget ElasticQ.empty t.elastic i
  { t with
    sram := memWrite t.sram (t.eqSlot i (q.head + q.tags.length)) (leBytes 64 f.payload.toNat)
    elastic := tput ElasticQ.empty t.elastic i { q with tags := q.tags ++ [(f.kind, f.arg)] } }

/-- The head of elastic queue i leaves. -/
def Tile.eqPop (t : Tile) (i : Nat) : Tile :=
  let e := tget EqDesc.unused t.eqDescs i
  { t with elastic := tmod ElasticQ.empty t.elastic i fun q => { head := (q.head + 1) % (64 * max 1 e.size), tags := q.tags.tail } }

/-- Free entries of the local queue of a key: of its open segment, or of its port queue. -/
def queueRoom (s : State) (p : Nat) (d : Die) (col row key : Nat) : Nat :=
  match d.segmentOn col row key with
  | some _ => spillCapacity s p d - d.spilled
  | none => 8 - ((d.tile col row).queue key).length

/-- Free entries of the stage that flits of a key reach: an elastic queue, a pass-through stage of the key's own (notes/assumptions/155), an open
segment, or a port queue. -/
def roomAt (s : State) (p : Nat) (d : Die) (col row key : Nat) : Nat :=
  let t := d.tile col row
  match t.eqAt key with
  | some (i, e) => 64 * e.size - t.eqLen i
  | none =>
    let r := t.route key
    if r.type = 1 ∨ r.type = 2 then 2 - (tget [] t.stages key).length else queueRoom s p d col row key

/-- Flits of a VQ on the link into a port. -/
def Tile.flying (t : Tile) (port vq : Nat) : Nat := ((tget [] t.inFlight port).filter fun f => decide (f.vq = vq)).length

/-- Flits of a VQ that packets carry through a tunnel towards an interface (R22). -/
def tunnelFlying (s : State) (p col row port vq : Nat) : Nat :=
  (s.arr.routers.map fun q => (q.2.filter fun k => match k.body, k.dest with
    | .tunnelled c r ip v _, .array l => decide (c = col) && decide (r = row) && decide (ip = port) && decide (v = vq) && decide (physDie s l = p)
    | _, _ => false).length).foldl (· + ·) 0

/-- Credits that the sender into an input port holds for a VQ: the free entries less flits on the way and entries whose credit has not
returned (R43); a crossing queue, and a circuit's slot buffer, has 8 entries for each VQ (R44, R59). -/
def credits (s : State) (p col row port vq : Nat) : Nat :=
  let d := getDie s p
  let t := d.tile col row
  let key := 4 * port + vq
  let due := tget 0 t.creditDue key
  if isCrossing col row port then 8 - t.flying port vq - due - tunnelFlying s p col row port vq
  else roomAt s p d col row key - t.flying port vq - due

/-- An entry of a key that its sender holds a credit for is freed: the credit is due (R43). -/
def oweCredit (owes : Bool) (key : Nat) (t : Tile) : Tile :=
  if owes then { t with creditDue := tmod 0 t.creditDue key (· + 1) } else t

/-- The stage whose entries the sender into a key counts: 0 the crossing queue, 1 an elastic queue, 2 a pass-through stage, 3 an open segment,
4 the port queue. One credit is owed when a flit leaves that stage, and none at the stages behind it. -/
def creditStage (d : Die) (col row key : Nat) : Nat :=
  let t := d.tile col row
  if isCrossing col row (key / 4) then 0
  else if (t.eqAt key).isSome then 1
  else if (t.route key).type = 1 ∨ (t.route key).type = 2 then 2
  else if (d.segmentOn col row key).isSome then 3 else 4

/-- Spill in use of a die in 64 KiB units: 1,024 flits each (R120). -/
def Die.spillUnits (d : Die) : Nat := ceilDiv d.spilled 1024

/-- The spill high-water mark follows the use (R128). -/
def noteSpill (p : Nat) (s : State) : State :=
  let u := (getDie s p).spillUnits
  if getFld s (CFG_SPILL_HWM p) 0 16 < u then setFld (CFG_SPILL_HWM p) 0 16 (min u 65535) s else s

/-- A flit enters the local queue of a key: the tail of its open segment, or the port queue. -/
def enqueue (p col row key : Nat) (f : Flit) (s : State) : State :=
  match (getDie s p).segmentOn col row key with
  | some g => noteSpill p (modDie p (fun d => { d with segments := d.segments.map fun h => if h.id = g.id then { h with flits := h.flits ++ [f] } else h }) s)
  | none => modTile p col row (fun t => { t with queues := tmod [] t.queues key (· ++ [f]) }) s

/-! ### Faults of a tile (R42, R48, R51, R52) -/

/-- The pan and context of a physical die. -/
def panCtx (s : State) (p : Nat) : Option (Fin 16) × Option CtxId :=
  match dieOfPan s p with
  | some n => (if h : n < 16 then some ⟨n, h⟩ else none, (getPan s n).map (·.ctx))
  | none => (none, none)

/-- An event of a tile's source. -/
def tileEvent (s : State) (source p col row key detail : Nat) : FaultEvent :=
  { source := BitVec.ofNat 16 source, die := BitVec.ofNat 8 p, col := BitVec.ofNat 8 col, row := BitVec.ofNat 8 row,
    unit := BitVec.ofNat 8 (key / 4 + 8 * (key % 4)), ctx := (panCtx s p).2, pan := (panCtx s p).1, detail := BitVec.ofNat 16 detail }

/-- A token error is recorded in ARR_TOKEN_ERR and ARR_TOKEN_ERR_TILE, and ARR_TOKEN is raised: bits 0 KIND, 1 PARITY, 2 LOOP, 3 STATE,
4 MISALIGN, 8 MULTI (R63). The tile then stands until the abort. -/
def tokenError (p col row key errBit : Nat) (s : State) : State :=
  let old := (getReg s (ARR_TOKEN_ERR p)).toNat
  let first := decide (old % 32 = 0)
  let v := old ||| 2 ^ errBit ||| (if first then 0 else 256)
  let s1 := setReg (ARR_TOKEN_ERR p) (BitVec.ofNat 32 v) s
  let s2 := if first then
      setReg (ARR_TOKEN_ERR_TILE p) (BitVec.ofNat 32 (col + 256 * row + 8192 * (key / 4) + 65536 * (key % 4) + 2 ^ 31)) s1
    else s1
  modTile p col row (fun t => { t with faulted := true }) (present (tileEvent s 0x0101 p col row key (v % 512)) s2)

/-- A contained fault of a tile from another source. -/
def tileFault (source p col row key detail : Nat) (s : State) : State :=
  modTile p col row (fun t => { t with faulted := true }) (present (tileEvent s source p col row key detail) s)

/-! ### Loop counters (R47, R48) -/

/-- MODE of a level: 0 OFF, 1 COUNT, 2 TOKEN. -/
def Plane.mode (p : Plane) (l : Nat) : Nat := (p.modes.getD l 0).toNat
/-- LIMIT of a level; 0 in TOKEN mode means 4,294,967,295. -/
def Plane.limit (p : Plane) (l : Nat) : Nat :=
  let n := p.limits.getD l 0
  if n = 0 ∧ p.mode l = 2 then 4294967295 else n

/-- Where the program goes after a cascade: new counters, the target, and a LOOP error. -/
structure Cascade where
  counters : List Nat
  target : Nat
  loopErr : Bool
deriving DecidableEq, Repr

/-- Level l ends (R48): counters 0 to l become 0, and the next enabled level above counts one; in COUNT mode at its LIMIT it ends as
well; in TOKEN mode a counter that reaches its LIMIT is an error. -/
def endLevel (pl : Plane) : Nat → Nat → List Nat → Cascade
  | 0, l, c => { counters := c, target := (pl.endTarget.getD l 0xFF).toNat, loopErr := false }
  | fuel + 1, l, c =>
    let c0 := c.zipIdx.map fun p => if p.2 ≤ l then 0 else p.1
    match ([0, 1, 2, 3].filter fun k => decide (l < k) && decide (pl.mode k ≠ 0)).head? with
    | none => { counters := c0, target := (pl.endTarget.getD l 0xFF).toNat, loopErr := false }
    | some m =>
      let c1 := c0.set m (c0.getD m 0 + 1)
      if pl.mode m = 1 ∧ c1.getD m 0 = pl.limit m then endLevel pl fuel m c1
      else { counters := c1, target := (pl.endTarget.getD l 0xFF).toNat, loopErr := decide (pl.mode m = 2) && decide (pl.limit m ≤ c1.getD m 0) }

/-- The highest level whose counter counts when the counter of level l does (R48). -/
def climb (pl : Plane) : Nat → Nat → List Nat → Nat
  | 0, l, _ => l
  | fuel + 1, l, c =>
    if pl.mode l = 1 ∧ c.getD l 0 + 1 = pl.limit l then
      match ([0, 1, 2, 3].filter fun k => decide (l < k) && decide (pl.mode k ≠ 0)).head? with
      | some m => climb pl fuel m c
      | none => l
    else l

/-- The highest level that an end of level l makes count, or l itself (R48). -/
def climbEnd (pl : Plane) (l : Nat) (c : List Nat) : Nat :=
  match ([0, 1, 2, 3].filter fun k => decide (l < k) && decide (pl.mode k ≠ 0)).head? with
  | some m => climb pl 4 m c
  | none => l

/-- A target is taken: 0xFF is DONE (R46). -/
def Tile.goTo (t : Tile) (target : Nat) : Tile := if target = 0xFF then { t with done := true } else { t with pc := target }

/-- A data fire ends (R47, R49): with CNT level 0 counts one, and ends in COUNT mode at its LIMIT; otherwise the program goes to NEXT.
The flag is a LOOP error. -/
def afterData (t : Tile) (o : Op) : Tile × Bool :=
  let pl := t.active
  if o.cnt && decide (pl.mode 0 ≠ 0) then
    let c := t.counters.set 0 (t.counters.getD 0 0 + 1)
    if pl.mode 0 = 1 ∧ c.getD 0 0 = pl.limit 0 then
      let r := endLevel pl 4 0 c
      (({ t with counters := r.counters }).goTo r.target, r.loopErr)
    else if pl.mode 0 = 2 ∧ pl.limit 0 ≤ c.getD 0 0 then ({ t with counters := c }, true)
    else (({ t with counters := c }).goTo o.next.toNat, false)
  else (t.goTo o.next.toNat, false)

/-- A data fire of the operation ends the run of fires at level l: the level's counter or one above it counts, or the program leaves the operation, which the
flag alone says (notes/assumptions/21). -/
def fireEnds (t : Tile) (o : Op) : (Nat → Bool) × Bool :=
  let a := (afterData t o).1
  let left := a.done || decide (a.pc ≠ t.pc)
  (fun l => left || (o.cnt && decide (t.active.mode 0 ≠ 0) && decide (l ≤ climb t.active 4 0 t.counters)), left)

/-- A control token ends the run of fires at level l: a STEP does, and an EOL of this level, of one above, or that makes one of them count or the program
leave the operation. -/
def tokenEnds (t : Tile) (f : Flit) (l : Nat) : Bool :=
  decide (f.kind = 5) || (decide (f.kind = 1) && (
    let k := f.arg.toNat % 4
    let a := t.goTo (endLevel t.active 4 k t.counters).target
    a.done || decide (a.pc ≠ t.pc) || decide (l ≤ climbEnd t.active k t.counters)))

/-! ### Die status (R54, R62, R63, R110) -/

/-- Flits of a tile: queues, elastic queues, stages and flits on its links. -/
def Tile.holds (t : Tile) : Bool :=
  t.queues.any (fun p => !p.2.isEmpty) || t.elastic.any (fun p => !p.2.tags.isEmpty)

/-- Some queue of the die is non-empty (R54). -/
def Die.nonEmpty (d : Die) : Bool := d.tiles.any fun p => p.2.holds

/-- Every tile with a program is in the done state. -/
def Die.allDone (d : Die) : Bool := d.tiles.all fun p => p.2.done || !p.2.active.hasProgram

/-- Nothing is under way in a die: queues, stages, output registers, links and crossings are empty and no segment exists (R110). -/
def Die.quietNow (d : Die) : Bool :=
  d.segments.isEmpty && d.portOut.all (fun p => p.2.isEmpty)
    && d.tiles.all fun p => !p.2.holds && p.2.stages.all (fun q => q.2.isEmpty) && p.2.outRegs.all (fun q => q.2.isEmpty)
        && p.2.inFlight.all (fun q => q.2.isEmpty) && p.2.second.isEmpty

/-- Streams of a pan that have an outstanding request: running and not ended. -/
def panStreamsBusy (s : State) (n : Nat) : Bool :=
  s.mem.streams.any fun p => match p.2 with
    | some t => decide (t.use = .run) && decide (t.pan = n) && (match t.phase with | .ended _ _ => false | _ => true)
    | none => false

/-- A packet of the system network brings a flit to physical die p: tokens, stream data or a tunnelled flit. -/
def flitsFor (s : State) (p : Nat) (k : Packet) : Bool :=
  let here : Bool := match k.dest with
    | .array l => decide (physDie s l = p)
    | .rect x0 y0 w h => match logicalDie s p with
      | some l => decide (x0 ≤ l % 8) && decide (l % 8 < x0 + w) && decide (y0 ≤ l / 8) && decide (l / 8 < y0 + h)
      | none => false
    | .periphery _ => false
  here && (match k.body with | .notice _ | .portFlits _ _ _ _ | .tunnelled _ _ _ _ _ => true | _ => false)

/-- No packet on its way brings a flit to physical die p. -/
def networkQuiet (s : State) (p : Nat) : Bool := s.arr.routers.all fun q => q.2.all fun k => !flitsFor s p k

/-- A pan is at a step-boundary drain (R110). -/
def drained (s : State) (n : Nat) (p : Pan) : Bool :=
  (panDies s p).all (fun d => (getDie s d).allDone && (getDie s d).quietNow && networkQuiet s d) && !panStreamsBusy s n

end Sys2Proof.Machine
end

