-- ==== Sys2Proof/Machine/Crc.lean ====
section
/-! DEFINITION. CRC-32C, as tile records, KV pages, frames, records and the lifetime slots use it. -/

namespace Sys2Proof.Machine

/-- One bit of the reflected CRC-32C register. -/
def crcBit (c : Nat) : Nat := if c % 2 = 1 then (c / 2).xor 0x82F63B78 else c / 2

/-- One byte enters the register. -/
def crcByte (c b : Nat) : Nat := crcBit (crcBit (crcBit (crcBit (crcBit (crcBit (crcBit (crcBit (c.xor b))))))))

/-- CRC-32C of a list of bytes: initial value and final inversion of all ones. -/
def crc32c (bs : List Byte) : Nat := (bs.foldl (fun c b => crcByte c b.toNat) 0xFFFFFFFF).xor 0xFFFFFFFF

end Sys2Proof.Machine
end

