-- ==== Sys2Proof/Machine/Life.lean ====
section
/-! DEFINITION. The history queue and the lifetime record (R365–R367, R372–R375). -/

namespace Sys2Proof.Machine

/-! ### History entries (R365, R366) -/

/-- The 32 bytes of a history entry (Table 14.3). -/
def histBytes (e : HistEntry) : List Byte :=
  leBytes 8 e.count ++ leBytes 8 e.epoch ++ leBytes 2 e.source
    ++ leBytes 1 (e.cls + 4 * b2n e.forced + 8 * b2n e.logged + 16 * b2n e.prior) ++ leBytes 1 e.reaction
    ++ leBytes 1 e.die ++ leBytes 1 e.col ++ leBytes 1 e.row ++ leBytes 1 e.unit
    ++ leBytes 2 (match e.ctx with | some c => c.toNat + 0x8000 | none => 0)
    ++ leBytes 1 (match e.pan with | some n => n % 16 + 0x80 | none => 0) ++ leBytes 1 0
    ++ leBytes 2 e.detail ++ leBytes 2 e.repeats

/-- HIST_ENTRIES shows the queue's length. -/
def showHist (s : State) : State := setFld FLT_STATUS 4 6 s.flt.history.length s

/-- A corrected event merges into the newest entry (R365): same source, die and unit, both corrected, less than 1 s apart; entries from before a
reset do not compare, and forced events stay apart from real ones (Table 14.8). -/
def mergesInto (n e : HistEntry) : Bool :=
  decide (e.cls = 1) && decide (n.cls = 1) && decide (n.source = e.source) && decide (n.die = e.die) && decide (n.unit = e.unit)
    && !n.prior && decide (n.forced = e.forced) && decide (e.count < n.count + 100000000)

/-- The list without its first element that satisfies a test. -/
def dropFirst (f : HistEntry → Bool) : List HistEntry → List HistEntry
  | [] => []
  | e :: es => if f e then es else e :: dropFirst f es

/-- The queue, oldest first, less the entry that a new one overwrites when 32 are held: the oldest corrected, else the oldest (R365). -/
def makeRoom (l : List HistEntry) : List HistEntry :=
  if l.any fun e => decide (e.cls = 1) then dropFirst (fun e => decide (e.cls = 1)) l else l.drop 1

/-- A new entry goes in behind the others; events that reach the collector at one count lie in rising source ID (R365). -/
def placeEntry (e : HistEntry) (l : List HistEntry) : List HistEntry :=
  let late : List HistEntry := (l.reverse.takeWhile fun x => !x.prior && decide (x.count = e.count) && decide (e.source < x.source)).reverse
  l.take (l.length - late.length) ++ [e] ++ late

/-- The queue takes an event (R365). -/
def record (e : HistEntry) (s : State) : State :=
  match s.flt.history.getLast? with
  | some n =>
    if mergesInto n e then s.onFlt fun f => { f with history := f.history.dropLast ++ [{ n with repeats := min 65535 (n.repeats + 1) }] }
    else if 32 ≤ s.flt.history.length then
      showHist (bump FLT_HIST_LOST (s.onFlt fun f => { f with history := placeEntry e (makeRoom f.history) }))
    else showHist (s.onFlt fun f => { f with history := placeEntry e f.history })
  | none => showHist (s.onFlt fun f => { f with history := [e] })

/-! ### The shadow (R373, R374) -/

/-- An entry is appended to the event log of the shadow, the oldest overwritten (Table 14.7). -/
def logEntry (e : HistEntry) (s : State) : State :=
  s.onFlt fun f => { f with life := { f.life with
    shadow := memWrite f.life.shadow (0xA000 + 32 * (f.life.logNext % 256)) (histBytes e)
    logNext := (f.life.logNext + 1) % 256 } }

/-- The shadow's header (Table 14.7). Offsets within it are the model's (notes/assumptions/57): MAGIC 0x00, FORMAT 0x04, SEQ 0x08, power-on
minutes 0x10, fatal events 0x18, chip resets 0x20, ARR_SPARE0 and 1 0x28, ARR_UNAVAIL0–2 0x30, CRC 0x3C, lengths of the retired lists 0x200. -/
def withHeader (s : State) (seq : Nat) (m : Mem) : Mem :=
  memWrite (memWrite m 0 (leBytes 4 0x4546494C ++ leBytes 4 1 ++ leBytes 8 seq)) 0x28
    (leBytes 4 (getReg s ARR_SPARE0).toNat ++ leBytes 4 (getReg s ARR_SPARE1).toNat ++ leBytes 4 (getReg s ARR_UNAVAIL0).toNat
      ++ leBytes 4 (getReg s ARR_UNAVAIL1).toNat ++ leBytes 4 (getReg s ARR_UNAVAIL2).toNat)

/-- The contents of a slot that a write stores: the shadow under its header, with the CRC-32C of the slot (Table 14.7). -/
def slotImage (s : State) (seq : Nat) : Mem :=
  let m := memZero (withHeader s seq s.flt.life.shadow) 0x3C 4
  memWrite m 0x3C (leBytes 4 (crc32c (memRead m 0 0x100000)))

/-- A write of the record begins in the slot after the last (R373). -/
def beginLifeWrite (s : State) : State :=
  if s.flt.life.writing.isSome then s
  else
    let l := s.flt.life
    let k := match l.lastSlot with | some x => (x + 1) % 4 | none => 0
    let s1 := s.onFlt fun f => { f with life := { l with
      slots := l.slots.set k none
      writing := some (k, slotImage s (l.seq + 1))
      seq := l.seq + 1
      lastWrite := s.tick } }
    setReg FLT_LIFE_SEQ (BitVec.ofNat 32 (l.seq + 1)) (setFld FLT_LIFE_STATUS 0 1 1 s1)

/-- The write ends with its verify (R373). -/
def endLifeWrite (ok : Bool) (s : State) : State :=
  match s.flt.life.writing with
  | none => s
  | some (k, m) =>
    let s1 := s.onFlt fun f => { f with life := { f.life with
      slots := f.life.slots.set k (if ok then some m else none), writing := none, lastSlot := some k } }
    let s2 := setFld FLT_LIFE_STATUS 3 2 k (setFld FLT_LIFE_STATUS 0 1 0 s1)
    if ok then s2 else setFld FLT_LIFE_STATUS 1 1 1 s2

/-- A write that a fatal event abandons: its slot is not valid (Table 14.8). -/
def dropLifeWrite (s : State) : State :=
  match s.flt.life.writing with
  | none => s
  | some (k, _) => setFld FLT_LIFE_STATUS 0 1 0 (s.onFlt fun f => { f with life := { f.life with writing := none, lastSlot := some k } })

/-- SEQ of a slot. -/
def slotSeq (m : Mem) : Nat := leNat (memRead m 8 8)

/-- Valid slots, newest first, with their places. -/
def validSlots (s : State) : List (Nat × Mem) :=
  sortBy (fun a b => decide (slotSeq b.2 ≤ slotSeq a.2)) (s.flt.life.slots.zipIdx.filterMap fun p => p.1.map fun m => (p.2, m))

/-- A byte of the space in which the record is read (R375): the shadow, then the three newest slots; beyond a valid slot 0. -/
def lifeByte (s : State) (o : Nat) : Byte :=
  if o < 0x100000 then memGet (withHeader s s.flt.life.seq s.flt.life.shadow) o
  else match (validSlots s)[o / 0x100000 - 1]? with
    | some (_, m) => if o < 0x400000 then memGet m (o % 0x100000) else 0
    | none => 0

/-- n bytes of the record space from an offset. -/
def lifeBytes (s : State) (o n : Nat) : List Byte := (List.range n).map fun k => lifeByte s (o + k)

/-! ### Bittern totals (R372) -/

/-- Firmware reads one accumulator and adds its increase since the last read to the total of its code. -/
def readBacc (code a : Nat) (s : State) : State :=
  let v := tget 0 s.acc a
  let w := tget 0 s.flt.baccLast a
  let n := if v < w then v else v - w
  (if n = 0 then s else lifeAdd (0x6000 + 8 * code) 8 n s).onFlt fun f => { f with baccLast := tput 0 f.baccLast a v }

/-- Firmware reads every accumulator (R372). -/
def readAllBacc (s : State) : State :=
  bitternRows.foldl (fun s r => (List.range r.2.2.2.1).foldl (fun s i => readBacc r.1 (r.2.1 + i * r.2.2.1) s) s)
    (s.onFlt fun f => { f with baccAt := s.tick })

/-! ### Minutes of power-on time (R374) -/

/-- The bin of a temperature: 5 °C wide, below 40 °C first, 110 °C and above last. -/
def tempBin (t : Nat) : Nat := min 15 ((t - 35) / 5)

/-- The bin of a VDD_ARR set point: 25 mV wide from 600 mV, 10 bins, 850 mV in the last. -/
def voltBin (mv : Nat) : Nat := min 9 ((mv - 600) / 25)

/-- The row domain that feeds physical array die p (R417). -/
def rowDomain (p : Nat) : Nat := if p < 72 then p / 8 else p - 68

/-- A minute of power-on time passes: it is counted, and each die's temperature and each powered island's VDD_ARR are sampled. -/
def minuteSample (s : State) : State :=
  let s1 := lifeAdd 0x10 8 1 (s.onFlt fun f => { f with life := { f.life with minuteAt := s.tick } })
  let s2 := s.pwr.temps.foldl (fun s t => lifeAdd (0x7000 + 64 * t.1 + 4 * tempBin t.2) 4 1 s) s1
  (List.range 74).foldl (fun s p =>
    if (getDie s p).islandOn then lifeAdd (0x9000 + 40 * p + 4 * voltBin (getFld s (PWR_ROW_VDD (rowDomain p)) 0 10)) 4 1 s else s) s2

/-! ### Start-up (R374) -/

/-- Retired list k of the record (0–11 slices, 12–23 ports): its entries at an offset; its length stands in the header (notes/assumptions/120). -/
def retiredList (m : Mem) (k o : Nat) : List Nat :=
  (List.range (min 1024 (leNat (memRead m (0x200 + 4 * k) 4)))).map fun j => leNat (memRead m (o + 4 * j) 4)

/-- Retired blocks and frames and the spare map are reapplied from the record. -/
def reapply (m : Mem) (s : State) : State :=
  let s1 := (List.range 12).foldl (fun s p =>
    let l := retiredList m p (0x10000 + 4096 * p)
    setFld (NEAR_RETIRED p) 0 11 l.length (s.onMem fun x => { x with
      retiredBlocks := x.retiredBlocks ++ l.map fun b => (0x01000000000 + p * 0x00780000000) / 65536 + b })) s
  let s2 := (List.range 12).foldl (fun s c =>
    let l := retiredList m (12 + c) (0x20000 + 4096 * c)
    setFld (FAR_PORT_RETIRED (c / 3) (c % 3)) 0 11 l.length (s.onMem fun x => { x with
      retiredFrames := x.retiredFrames ++ l.map fun f => (0x10000000000 + c * 0x04000000000) / 0x200000 + f })) s1
  let w (o : Nat) : Word := BitVec.ofNat 32 (leNat (memRead m o 4))
  setReg ARR_UNAVAIL2 (w 0x38) (setReg ARR_UNAVAIL1 (w 0x34) (setReg ARR_UNAVAIL0 (w 0x30) (setReg ARR_SPARE1 (w 0x2C) (setReg ARR_SPARE0 (w 0x28) s2))))

/-- Firmware takes the newest valid slot as the shadow, or starts a fresh record; it adds the fatal events of the standby register and a chip
reset, logs entries without LOGGED, and reapplies the retired lists and the spare map (R374). -/
def loadLife (s : State) : State :=
  let s1 := match validSlots s with
    | (k, m) :: _ => reapply m (s.onFlt fun f => { f with life := { f.life with
        shadow := memZero m 0x3C 4, seq := slotSeq m, lastSlot := some k, lastWrite := s.tick, minuteAt := s.tick } })
    | [] => setFld FLT_LIFE_STATUS 2 1 1 (s.onFlt fun f => { f with life := { f.life with shadow := [], lastWrite := s.tick, minuteAt := s.tick } })
  let s2 := lifeAdd 0x20 8 (getFld s1 FLT_STATUS 2 1) (lifeAdd 0x18 8 (getReg s1 FLT_STBY_FATAL).toNat s1)
  let s3 := (s2.flt.history.filter fun e => !e.logged).foldl (fun s e => logEntry e s) (setReg FLT_STBY_FATAL 0 s2)
  s3.onFlt fun f => { f with history := f.history.map fun e => { e with logged := true } }

end Sys2Proof.Machine
end

