-- ==== Sys2Proof/Machine/Boot.lean ====
section
/-! DEFINITION. Resets of the package and the ROM: image checks, measurements and the start of firmware (R363, R390, R396–R400, R409, R418). -/

namespace Sys2Proof.Machine

/-! ### Images (R398, R399) -/

/-- IMAGE_BYTES of an image. -/
def imgLen (b : List Byte) : Nat := fieldAt b 0x10 4
/-- SVN of an image. -/
def imgSvn (b : List Byte) : Nat := fieldAt b 0xC 1
/-- KEY_SLOT of an image. -/
def imgSlot (b : List Byte) : Nat := fieldAt b 0xD 1
/-- VERSION of an image. -/
def imgVersion (b : List Byte) : Nat := fieldAt b 8 4

/-- The image digest (R398): SHAKE256, 512 bits, over every byte but SIGNATURE. -/
def imgDigest (b : List Byte) : List Byte := Config.shake512 (b.take 0x9C0 ++ (b.take (imgLen b)).drop 0x16AD)

/-- Segment k: OFFSET, LENGTH and LOAD (Table 16.4). -/
def imgSegment (b : List Byte) (k : Nat) : Nat × Nat × Nat := (fieldAt b (0x24 + 16 * k) 4, fieldAt b (0x28 + 16 * k) 4, fieldAt b (0x2C + 16 * k) 4)

/-- MAGIC, FORMAT, IMAGE_BYTES and the segments are in range (Table 16.5, code 2). -/
def imgForm (b : List Byte) : Bool :=
  decide (fieldAt b 0 4 = 0x57464359) && decide (fieldAt b 4 2 = 1) && decide (8192 ≤ imgLen b) && decide (imgLen b ≤ 8388608)
    && decide (imgLen b ≤ b.length) && decide (1 ≤ fieldAt b 6 2) && decide (fieldAt b 6 2 ≤ 32)
    && (List.range (fieldAt b 6 2)).all fun k =>
      let g := imgSegment b k
      decide (g.1 + g.2.1 ≤ imgLen b) && decide (g.2.2 + g.2.1 ≤ 0x2000000)

/-- KEY_SLOT is a slot that is not revoked and holds the digest of PUBLIC_KEY (code 3). -/
def imgKeyOk (revoked : BitVec 4) (b : List Byte) : Bool :=
  decide (imgSlot b < 4) && !bit revoked.toNat (imgSlot b) && decide (Config.shake256 (bytesAt b 0x220 1952) = Config.fuseKey (imgSlot b))

/-- SIGNATURE verifies over the image digest, and each used SEG_DIGEST is its segment's (code 4). -/
def imgSigned (b : List Byte) : Bool :=
  Config.mldsaVerify (bytesAt b 0x220 1952) (imgDigest b) (bytesAt b 0x9C0 3309)
    && (List.range (fieldAt b 6 2)).all fun k =>
      let g := imgSegment b k
      decide (bytesAt b (0x1700 + 32 * k) 32 = Config.shake256 (bytesAt b g.1 g.2.1))

/-- FAIL_CODE of an image attempt; 0 when it passes (Table 16.5). -/
def imgFail (s : State) (readOk : Bool) (b : List Byte) : Nat :=
  if !readOk then 1 else if !imgForm b then 2 else if !imgKeyOk s.fw.revoked b then 3 else if !imgSigned b then 4
  else if imgSvn b < s.fw.fuseSvn then 5 else 0

/-- FAIL_CODE of attempt k of the flash: 0 device 0 A, 1 device 1 A, 2 device 0 B, 3 device 1 B (R397). -/
def flashFail (s : State) (k : Nat) : Nat := imgFail s (bit s.fw.readOk.toNat k) (s.fw.flash.getD k [])

/-- The segments of a core, by CORES of its entry (Table 16.4), agree with their SEG_DIGESTs: what a restart checks of the pristine copy (R392). -/
def segmentsGood (b : List Byte) (core : Nat) : Bool :=
  (List.range (fieldAt b 6 2)).all fun k =>
    let g := imgSegment b k
    !bit (fieldAt b (0x21 + 16 * k) 1) core || decide (bytesAt b (0x1700 + 32 * k) 32 = Config.shake256 (bytesAt b g.1 g.2.1))

/-- Offset of the handoff block in CD0's tier 0, behind the shadow of the lifetime record in R391's order (notes/assumptions/178). -/
def handoffAt : Nat := 0x19E0000

/-! ### Measurements (R409) -/

/-- MEASURE[i] is extended by a value. -/
def extend (i : Nat) (v : List Byte) (s : State) : State :=
  s.onFw fun f => { f with measures := f.measures.set i (Config.shake256 (f.measures.getD i [] ++ v)) }

/-! ### Resets (R363, R418) -/

/-- The history queue across a reset: PRIOR is set in every entry (R365). -/
def priorHist (l : List HistEntry) : List HistEntry := l.map fun e => { e with prior := true }

/-- Every die is reset but the VDD_STBY logic of CD0, which keeps the history queue and its registers; the flash, the fuses and host memory
stand; CD0's counter starts again (R30, R363). PERST_N and a chip reset alike. -/
def resetPackage (s : State) : State :=
  let r := State.reset
  let s1 : State := { r with
    pending := s.pending
    tick := s.tick
    cd0ResetAt := s.tick
    free := s.free
    host := { r.host with mem := s.host.mem }
    flt := { r.flt with
      history := priorHist s.flt.history
      life := { r.flt.life with slots := s.flt.life.slots, lastSlot := s.flt.life.lastSlot, seq := s.flt.life.seq, logNext := s.flt.life.logNext } }
    lnk := { r.lnk with flash := s.lnk.flash }
    fw := { r.fw with flash := s.fw.flash, readOk := s.fw.readOk, fuseSvn := s.fw.fuseSvn, revoked := s.fw.revoked }
    pwr := { r.pwr with
      stage := s.pwr.stage, perst := s.pwr.perst, pwrGood := s.pwr.pwrGood, thermTrip := s.pwr.thermTrip, slotId := s.pwr.slotId
      answers := s.pwr.answers, tap := s.pwr.tap, ir := s.pwr.ir, dr := s.pwr.dr, instr := s.pwr.instr, tck := s.pwr.tck, tdo := s.pwr.tdo } }
  setFld LNK_FAB_POS 9 2 s.pwr.slotId <| showHist (setReg FW_BOOT_RESULT (getReg s FW_BOOT_RESULT) (setReg FLT_STBY_LAST (getReg s FLT_STBY_LAST)
    (setReg FLT_STBY_FATAL (getReg s FLT_STBY_FATAL) (setReg FLT_HIST_LOST (getReg s FLT_HIST_LOST) s1))))

/-! ### The ROM (R397) -/

/-- FW_VERSION and FW_SVN show the running image and the fuses (Table 16.15). -/
def showFw (s : State) : State :=
  let b := s.fw.running
  setReg FW_SVN (BitVec.ofNat 32 (imgSvn b % 128 + 256 * s.fw.fuseSvn + 65536 * (imgSlot b % 4) + 2 ^ 20 * s.fw.revoked.toNat))
    (setReg FW_VERSION (BitVec.ofNat 32 (imgVersion b)) s)

/-- An image becomes the running, the pristine and CD1's copy; every core's watchdog starts, firmware draws the run salt
(R93), and it reads the lifetime record. -/
def startImage (k : Nat) (b : List Byte) (s : State) : State :=
  let s1 := extend 2 (leBytes 1 (imgSvn b) ++ leBytes 1 s.fw.fuseSvn ++ leBytes 1 (imgSlot b)) (extend 1 (imgDigest b) s)
  let s2 := s1.onFw fun f => { f with running := b, standby := b }
  let s3 := (showFw s2).onPwr fun p => { p with stage := .training }
  let s3 := setReg64 ARR_RUN_SALT_LO ARR_RUN_SALT_HI (Config.freeDword s3.free).toNat { s3 with free := s3.free + 1 }
  let s4 := loadLife (s3.onFlt fun f => { f with coreKick := (List.range 8).map fun n => (n, s.tick + 1), baccAt := s.tick })
  if k = 0 then s4 else present (faultOf 0x0801 0x70 0xFF (getReg s4 FW_BOOT_RESULT).toNat) s4

/-- The ROM tries the images in order; the first that passes is started, and without one it halts with every core held (R397). -/
def romBoot (s : State) : State :=
  let s0 := extend 0 Config.romRevision (s.onFw fun f => { f with measures := List.replicate 8 (List.replicate 32 0) })
  let codes := (List.range 4).map (flashFail s0)
  let tried := codes.takeWhile fun c => decide (c ≠ 0)
  let mask := 2 ^ tried.length - 1
  let last := tried.getLast?.getD 0
  if tried.length < 4 then
    startImage tried.length (s0.fw.flash.getD tried.length []) (setReg FW_BOOT_RESULT (BitVec.ofNat 32 (tried.length + 4 + 16 * mask + 256 * last)) s0)
  else setReg FW_BOOT_RESULT (BitVec.ofNat 32 (16 * mask + 256 * last)) (s0.onPwr fun p => { p with stage := .halted })

/-- A chip reset (R363): PRIOR entries and standby registers stay, CHIP_RESET_SEEN is set, ALIVE_OUT keeps its level until the
first refresh of the new firmware (R370), and the package restarts from the ROM. -/
def chipReset (s : State) : State :=
  romBoot ((setFld FLT_STATUS 2 1 1 (setFld FLT_ALIVE_STATUS 0 1 (getFld s FLT_ALIVE_STATUS 0 1) (resetPackage s))).onHost fun h => { h with linkUp := true })

/-- Firmware runs on CD0 (R397, R431). -/
def fwRuns (s : State) : Bool :=
  match s.pwr.stage with
  | .off => false | .held => false | .testMode => false | .halted => false
  | .training => true | .selfTest => true | .discovery => true | .readying => true | .ready => true

end Sys2Proof.Machine
end

