-- ==== Sys2Proof/Machine/Tokens.lean ====
section
/-! DEFINITION. The token ring: its entries, its vector and the release of committed tokens (R210, R211, R286, R287). -/

namespace Sys2Proof.Machine

/-- Entries of a context's token ring. -/
def tokSize (s : State) (c : CtxId) : Nat := 2 ^ getFld s (CMD_TOK_CFG c.toNat) 0 5

/-- ENABLE of CMD_TOK_CFG. -/
def tokEnabled (s : State) (c : CtxId) : Bool := decide (getFld s (CMD_TOK_CFG c.toNat) 31 1 = 1)

/-- The ring takes one more entry: enabled, not stopped, in service, and not full (R287, R288, R359). -/
def tokRoom (s : State) (c : CtxId) : Bool :=
  let t := (getCtx s c).tok
  tokEnabled s c && !t.stopped && s.host.ready && !decide ((t.tail + 1) % tokSize s c = t.head)

/-- The bytes of Table 11.5. -/
def tokBytes (e : TokEntry) (phase : Bool) : List Byte :=
  let fl := b2n phase + (match e.endReason with | some r => 2 + 4 * r.toNat | none => 0) + 32 * b2n e.first
  leBytes 8 e.handle.toNat ++ leBytes 4 e.token.toNat ++ leBytes 3 e.epoch.toNat ++ leBytes 1 fl

/-- The token ring vector is raised, and the holdoff starts over (R287). -/
def raiseTok (c : CtxId) (s : State) : State :=
  modCtx c (fun x => { x with tok := { x.tok with firstSince := none } })
    (raiseIrq (fnOf c) (getFld s (CMD_TOK_CFG c.toNat) 16 11) s)

/-- One entry is written to a ring that has room: the bytes, the tail and phase, and the vector (R286, R287). -/
def tokWrite (c : CtxId) (e : TokEntry) (s : State) : State :=
  let t := (getCtx s c).tok
  let base := getReg64 s (CMD_TOK_BASE_LO c.toNat) (CMD_TOK_BASE_HI c.toNat)
  let tail := (t.tail + 1) % tokSize s c
  let s1 := dmaWrite c (base + 16 * t.tail) (tokBytes e t.phase) s
  let s2 := modCtx c (fun x => { x with tok := { x.tok with
      tail := tail
      phase := if tail = 0 then !t.phase else t.phase
      firstSince := match t.firstSince with | some n => some n | none => some s.tick } }) s1
  if e.endReason.isSome || decide (getFld s (CMD_TOK_CFG c.toNat) 27 4 = 0) then raiseTok c s2 else s2

/-- Entry i of the active sequence table. -/
def getEntry (s : State) (i : Nat) : Option SeqEntry := tget none s.seq.entries i

/-- The state with f applied to entry i when it is live. -/
def modEntry (i : Nat) (f : SeqEntry → SeqEntry) (s : State) : State :=
  s.onSeq fun q => { q with entries := tmod none q.entries i (Option.map f) }

/-- The listed entry of context c whose oldest held token has the lowest step epoch, the order of commits (R210). -/
def nextHeld (c : CtxId) : Tab (Option SeqEntry) → Option (Nat × TokEntry)
  | [] => none
  | (i, some e) :: t =>
    match e.releaseBuf, nextHeld c t with
    | k :: _, some (j, k') => if e.ctx = c then (if k'.epoch.toNat < k.epoch.toNat then some (j, k') else some (i, k)) else some (j, k')
    | k :: _, none => if e.ctx = c then some (i, k) else none
    | [], r => r
  | (_, none) :: t => nextHeld c t

/-- Held tokens of a context are released while the ring has room (R211). -/
def releaseHeld (c : CtxId) : Nat → State → State
  | 0, s => s
  | n + 1, s =>
    if tokRoom s c then
      match nextHeld c s.seq.entries with
      | some (i, k) =>
        releaseHeld c n (modEntry i (fun e => { e with releaseBuf := e.releaseBuf.tail, releaseHeld := e.releaseHeld - 1 })
          (tokWrite c k s))
      | none => s
    else s

/-- Tokens that the entries of a context hold. -/
def heldTokens (s : State) (c : CtxId) : Nat :=
  (s.seq.entries.map fun p => match p.2 with | some e => if e.ctx = c then e.releaseBuf.length else 0 | none => 0).foldl (· + ·) 0

/-- A ring event of a context: every held token that now fits is released (R211). -/
def retryRelease (c : CtxId) (s : State) : State := releaseHeld c (heldTokens s c) s

/-- A committed token of entry i is released, or held behind the tokens of its sequence (R210, R211). -/
def releaseToken (i : Nat) (k : TokEntry) (s : State) : State :=
  match getEntry s i with
  | none => s
  | some e =>
    if e.releaseBuf.isEmpty && tokRoom s e.ctx then tokWrite e.ctx k s
    else modEntry i (fun x => { x with releaseBuf := x.releaseBuf ++ [k], releaseHeld := x.releaseHeld + 1 }) s

end Sys2Proof.Machine
end

