-- ==== Sys2Proof/Machine/HostQueue.lean ====
section
/-! DEFINITION. Rings, slots, completions and their order (chapter 11): the commands of the host port's queues. -/

namespace Sys2Proof.Machine

/-! ### Opcodes (Tables 11.8–11.16) -/

/-- A row of the opcode tables: the opcode, whether only PF rings take it (R295), and the listed bits of each parameter word. -/
structure OpRow where
  op : Nat
  pf : Bool
  masks : List Nat
deriving DecidableEq, Repr

/-- The opcodes and the parameter bits that Tables 11.8–11.16 list. -/
def opRows : List OpRow :=
  [⟨0x0101, false, [0xFFFFFFFF]⟩,
   ⟨0x0102, false, []⟩,
   ⟨0x0103, false, [0xFFFFFFFFFFFFFFFF]⟩,
   ⟨0x0104, true, [0xFFF, 0xFFFFFFFFFFFFFFFF, 0xFFFFFFFFFFFFFFFF, 0x1FFFFFF7FFF]⟩,
   ⟨0x0105, false, [0xFFFFFFFFFFFFFFFF, 0xFFFF]⟩,
   ⟨0x0201, false, [0x7FF00FFFFFF, 0xFFFFFFFFFFFFFFFF]⟩,
   ⟨0x0202, false, [0xFFFFFFFF]⟩,
   ⟨0x0203, false, [0xFFFFFFFFFFFF]⟩,
   ⟨0x0204, false, [0xFFFFFFFFFFFFFFFF, 0xFFFFFFFFFFFFFFFF, 0xFFFFFFFFFFFFFFFF, 0xFFFFFFFFFFFFFFFF]⟩,
   ⟨0x0205, false, [0xFFFFFFFF, 0xFFFFFFFFFFFFFFFF, 0xFFFFFFFFFFFFFFFF, 0xFFFFFFFFFFFFFFFF]⟩,
   ⟨0x0206, false, [0xFFFFFFFF, 0xFFFFFFFFFFFFFFFF, 0xFFFFFFFFFFFFFFFF, 0xFFFFFFFFFFFFFFFF]⟩,
   ⟨0x0207, false, [0xFFFFFFFFFFF, 0x10FFF]⟩,
   ⟨0x0301, false, [0x3FF, 0xFFFFFFFF, 0xFFFFFFFFFFFFFFFF, 0xFFFFFFFFFFFFFFFF, 0xFFFFFFFFFFFFFFFF, 0xFFFFFFFFFFFFFFFF, 0x83FF]⟩,
   ⟨0x0302, false, [0x1FF1F, 0x303FFFFFFFFFF]⟩,
   ⟨0x0303, false, [0x1FF0F07]⟩,
   ⟨0x0304, false, [0xF]⟩,
   ⟨0x0305, false, [0x103FF]⟩,
   ⟨0x0306, false, [0x103FF]⟩,
   ⟨0x0401, false, [0xFFFFFFFFFFFFFFFF, 0xFFFFFFFF001F03FF, 0xFFFFFFFF00000F03, 0xFFFFFFFFFFFFFFFF, 0xFFFFFFFFFFFFFFFF, 0xFFFFFFFFFFFFFFFF, 0xFFFFFFFFFFFFFFFF, 0xFF0FFFFFFFFFFFFF, 0xFFFFFFFFFFFFFFFF, 0xFFFFFFFF]⟩,
   ⟨0x0402, false, [0xFFFFFFFFFFFFFFFF, 0xFFFFFFFFFFFFFFFF, 0x1FFFFFFFF]⟩,
   ⟨0x0403, false, [0xFFFFFFFFFFFFFFFF, 0x1007FFFFF]⟩,
   ⟨0x0404, false, [0xFFFFFFFFFFFFFFFF, 0x1]⟩,
   ⟨0x0405, false, [0xFFFFFFFFFFFFFFFF, 0x1]⟩,
   ⟨0x0406, false, [0xFFFFFFFFFFFFFFFF]⟩,
   ⟨0x0407, false, [0xFFFFF000FFFFF, 0xFFFF000FFFFF, 0x11F1FFFFF]⟩,
   ⟨0x0408, false, [0xFFFFFFFFFFFFFFFF, 0xF0101]⟩,
   ⟨0x0409, false, [0x303FF, 0xFFFFFFFFFFFFFFFF, 0xFF, 0xFFFFFFFFFFFFFFFF, 0xFFFFFFFFFFFFFFFF, 0xFFFFFFFFFFFFFFFF, 0xFFFFFFFFFFFFFFFF, 0xFFFFFFFFFFFFFFFF, 0xFFFFFFFFFFFFFFFF, 0xFFFFFFFFFFFFFFFF, 0xFFFFFFFFFFFFFFFF]⟩,
   ⟨0x0501, false, [0xFFFF03FFFFFFFFFF, 0x1]⟩,
   ⟨0x0502, false, [0xFFFFFFFFFFFFFFFF, 0xFFFFFFFF]⟩,
   ⟨0x0503, false, [0x10F03FF, 0xFFFFFFFFFFFFFFFF, 0x3FFF]⟩,
   ⟨0x0504, false, [0xFFFF01FF03FF, 0xFFFFFFFFFFFFFFFF, 0xFFFFFFFFFFFFFFFF, 0xFFFFFFFF0000FFFF, 0xFFFFFFFFFFFFFFFF, 0xFFFFFFFFFFFFFFFF, 0xFFFFFFFFFFFFFFFF, 0xFFFFFFFFFFFFFFFF]⟩,
   ⟨0x0505, false, [0x703FF]⟩,
   ⟨0x0506, false, [0x103FF, 0xFFFFFFFF, 0xFFFFFFFF]⟩,
   ⟨0x0507, false, [0xF03FF, 0xFFFFFFFFFFFFFFFF]⟩,
   ⟨0x0508, false, [0x303FF, 0xFFFFFFFFFFFFFFFF, 0xFFFFFFFF, 0xFFFFFFFFFFFFFFFF]⟩,
   ⟨0x0601, false, [0x10F, 0x1FFFFFFFFFFF]⟩,
   ⟨0x0603, false, [0xFFFF3F0F, 0xFFFFFFFFFFFFFFFF, 0xFFFFFFFFFFFFFFFF, 0x3FF]⟩,
   ⟨0x0604, false, [0x3]⟩,
   ⟨0x0701, true, [0xFFFFFFFFFFFFFFFF, 0x1]⟩,
   ⟨0x0702, true, [0x7FFFF]⟩,
   ⟨0x0703, true, [0xFFFFFFFFFFFFFFFF, 0xFFFFFFFFFFFFFFFF, 0xFFFFFFFFFFFFFFFF]⟩,
   ⟨0x0704, false, [0xFF0F, 0xFFFFFFFFFFFFFFFF, 0xFFFFFFFF]⟩,
   ⟨0x0801, true, [0xFFFFFFFFFFFFFFFF, 0xFFFFFFFFFFFFFFFF, 0x1]⟩,
   ⟨0x0802, true, [0x1]⟩,
   ⟨0x0803, false, [0xFFFFFFFFFFFFFFFF, 0xFFFFFFFFFFFFFFFF, 0xFFFFFFFFFFFFFFFF, 0xFFFFFFFFFFFFFFFF, 0xFFFFFFFFFFFFFFFF]⟩,
   ⟨0x0804, true, [0xFFFFFFFFFFFFFFFF, 0xFFFFFFFFFFFFFFFF]⟩,
   ⟨0x0805, true, [0xFFFFFFFFFFFFFFFF]⟩,
   ⟨0x0901, true, [0xFFFFFFFF]⟩,
   ⟨0x0902, true, [0xFF7F, 0xFFFFFFFFFFFFFFFF]⟩]

/-- The row of an opcode. -/
def opRow (op : Nat) : Option OpRow := opRows.find? fun r => decide (r.op = op)

/-- Unlisted parameter bits are reserved and are checked (R296). -/
def maskOk : List Nat → List Dword → Bool
  | _, [] => true
  | [], p :: ps => decide (p = 0) && maskOk [] ps
  | m :: ms, p :: ps => decide (p &&& BitVec.ofNat 64 m = p) && maskOk ms ps

/-! ### Completion rings (R285, R288) -/

/-- The bytes of a completion entry (Table 11.4). -/
def cplBytes (e : CplEntry) (sqHead : Nat) (phase : Bool) : List Byte :=
  leBytes 8 e.tag.toNat ++ leBytes 2 e.status.toNat ++ leBytes 2 e.detail.toNat ++ leBytes 2 sqHead
    ++ leBytes 2 (b2n phase + 2 * b2n e.noEffect + 4 * b2n e.late) ++ leBytes 8 e.result0.toNat ++ leBytes 8 e.result1.toNat

/-- Entries written and not yet returned. -/
def cqUsed (s : State) (c : CtxId) (q : Nat) : Nat :=
  let x := (getCtx s c).queue q
  (x.cqTail + cqSize s c q - x.cqHead) % cqSize s c q

/-- The queue delivers completions: enabled, not stopped, and the host port in service (R288, R359). -/
def qLive (s : State) (c : CtxId) (q : Nat) : Bool := qEnabled s c q && !((getCtx s c).queue q).stopped && s.host.ready

/-- The queue's vector is raised. -/
def raiseQueue (c : CtxId) (q : Nat) (s : State) : State :=
  raiseIrq (fnOf c) (getFld s (CMD_Q_CFG c.toNat q) 16 11) s

/-- One entry is written at the completion tail; the vector is raised for IRQ or a failure (R285). -/
def cplWrite (c : CtxId) (q : Nat) (e : CplEntry) (s : State) : State :=
  let x := (getCtx s c).queue q
  let base := getReg64 s (CMD_CQ_BASE_LO c.toNat q) (CMD_CQ_BASE_HI c.toNat q)
  let tail := (x.cqTail + 1) % cqSize s c q
  let s1 := dmaWrite c (base + 32 * x.cqTail) (cplBytes e x.sqHead x.phase) s
  let s2 := modQueue c q (fun y => { y with cqTail := tail, phase := if tail = 0 then !x.phase else x.phase }) s1
  if e.irq || isFailure e.status.toNat e.noEffect then raiseQueue c q s2 else s2

/-- Kept entries are delivered in order while the ring has room (R288). -/
def deliverKept (c : CtxId) (q : Nat) : Nat → State → State
  | 0, s => s
  | n + 1, s =>
    match ((getCtx s c).queue q).kept with
    | [] => s
    | e :: es =>
      if qLive s c q && decide (cqUsed s c q + 1 < cqSize s c q) then
        deliverKept c q n (cplWrite c q e (modQueue c q (fun y => { y with kept := es }) s))
      else s

/-- A queue stops with an error code: its visible slots are given up and its vector is raised (R288). -/
def stopQueue (c : CtxId) (q code : Nat) (s : State) : State :=
  raiseQueue c q (modCtx c (fun x => { x with
    queues := tmod Queue.fresh x.queues q fun y => { y with err := code, stopped := true }
    visible := x.visible.filter fun v => !decide (v.1 = q) }) s)

/-! ### Doorbells (R281, R287, R303, R432) -/

/-- Slots of queue q that doorbells made visible and that are not yet fetched. -/
def visibleOf (x : Ctx) (q : Nat) : Nat := ((x.visible.filter fun v => decide (v.1 = q)).map (·.2)).foldl (· + ·) 0

/-- A submission tail is taken (R281): a tail beyond the ring, or over slots not yet freed, stops the queue with ERR_CODE 3. -/
def sqTail (c : CtxId) (q value : Nat) (s : State) : State :=
  let x := getCtx s c
  let y := x.queue q
  let t := value % 65536
  let n := sqSize s c q
  let add := (t + n - y.sqTail) % n
  if !qEnabled s c q || y.stopped then s
  else if n ≤ t || decide (n < visibleOf x q + add) then stopQueue c q 3 s
  else if add = 0 then s
  else modCtx c (fun x => { x with
    queues := tmod Queue.fresh x.queues q fun y => { y with sqTail := t }
    visible := x.visible ++ [(q, add)] }) s

/-- CMD_DB_SQ_TAIL (R281); before Ready the doorbell is kept and acted on at Ready (R432). -/
def execCmdDbSqTail (ctx : CtxId) (q : Fin 8) (value : Word) (s : State) : Res :=
  .next (if !ctxPresent s ctx then s
    else if s.host.ready then sqTail ctx q value.toNat s
    else modQueue ctx q (fun y => { y with early := some value.toNat }) s)

/-- CMD_DB_CQ_HEAD (R285, R303): entries up to HEAD are returned, and kept entries may follow. -/
def execCmdDbCqHead (ctx : CtxId) (q : Fin 8) (value : Word) (s : State) : Res :=
  let h := value.toNat % 65536
  .next (if !ctxPresent s ctx || !qEnabled s ctx q || decide (cqSize s ctx q ≤ h) then s
    else deliverKept ctx q ((getCtx s ctx).queue q).kept.length (modQueue ctx q (fun y => { y with cqHead := h }) s))

/-- CMD_DB_TOK_HEAD (R287): token entries are returned, and held tokens are released (R211). -/
def execCmdDbTokHead (ctx : CtxId) (value : Word) (s : State) : Res :=
  let h := value.toNat % 2 ^ 20
  .next (if !ctxPresent s ctx || !tokEnabled s ctx || decide (tokSize s ctx ≤ h) then s
    else retryRelease ctx (modCtx ctx (fun x => { x with tok := { x.tok with head := h } }) s))

/-- TOKEN_IRQ_HOLDOFF (R287): HOLDOFF × 16 µs after the first entry since the last raise, the vector is raised. -/
def execTokenIrqHoldoff (ctx : CtxId) (s : State) : Res :=
  .next (match (getCtx s ctx).tok.firstSince with
    | some t => if t + usTicks (16 * getFld s (CMD_TOK_CFG ctx.toNat) 27 4) ≤ s.tick then raiseTok ctx s else s
    | none => s)

/-! ### Ring configuration (R280, R288, R299, R302) -/

/-- The defined bits of CMD_Q_CFG and of CMD_TOK_CFG. -/
def qCfgBits : Word := 0x87FF1F1F
/-- The defined bits of CMD_TOK_CFG. -/
def tokCfgBits : Word := 0xFFFF001F

/-- A write of CMD_Q_CFG: ignored with ERR_CODE 5 where R280 says so; setting ENABLE restarts the rings and delivers kept entries. -/
def qCfgWrite (c : CtxId) (q : Nat) (v : Word) (s : State) : State :=
  let sq := bits v.toNat 0 5
  let cq := bits v.toNat 8 5
  let bad := decide (sq < 2) || decide (16 < sq) || decide (cq < sq) || decide (16 < cq)
    || decide (fnVectors s (fnOf c) ≤ bits v.toNat 16 11)
  let was := qEnabled s c q
  let isOn := bit v.toNat 31
  if !ctxPresent s c then s
  else if bad then
    (if was && !((getCtx s c).queue q).stopped then stopQueue c q 5 s
     else modQueue c q (fun y => { y with err := 5, stopped := true }) s)
  else
    let s1 := setReg (CMD_Q_CFG c.toNat q) (v &&& qCfgBits) s
    if isOn && !was then
      let s2 := modCtx c (fun x => { x with
        queues := tmod Queue.fresh x.queues q fun y => { y with
          sqHead := 0, sqTail := 0, cqHead := 0, cqTail := 0, phase := true, err := 0, stopped := false }
        visible := x.visible.filter fun p => !decide (p.1 = q) }) s1
      deliverKept c q ((getCtx s c).queue q).kept.length s2
    else if isOn then s1
    else modCtx c (fun x => { x with visible := x.visible.filter fun p => !decide (p.1 = q) }) s1

/-- QUEUE_ENABLE (R288): a write of CMD_Q_CFG with ENABLE set. -/
def execQueueEnable (ctx : CtxId) (q : Fin 8) (value : Word) (s : State) : Res :=
  .next (qCfgWrite ctx q (value ||| 0x80000000) s)

/-- QUEUE_DISABLE (R299): a write of CMD_Q_CFG with ENABLE clear; running commands go on and their entries are kept. -/
def execQueueDisable (ctx : CtxId) (q : Fin 8) (value : Word) (s : State) : Res :=
  .next (qCfgWrite ctx q (value &&& 0x7FFFFFFF) s)

/-- A write of CMD_TOK_CFG (R287, R302): setting ENABLE starts the ring afresh and releases held tokens; a size or vector out of range leaves
the register as it is (notes/assumptions/12). -/
def tokCfgWrite (c : CtxId) (v : Word) (s : State) : State :=
  let sz := bits v.toNat 0 5
  if !ctxPresent s c || decide (sz < 6) || decide (20 < sz) || decide (fnVectors s (fnOf c) ≤ bits v.toNat 16 11) then s
  else
    let s1 := setReg (CMD_TOK_CFG c.toNat) (v &&& tokCfgBits) s
    if bit v.toNat 31 && !tokEnabled s c then retryRelease c (modCtx c (fun x => { x with tok := TokenRing.fresh }) s1) else s1

/-- TOKEN_RING_CFG (R287, R302). -/
def execTokenRingCfg (ctx : CtxId) (value : Word) (s : State) : Res := .next (tokCfgWrite ctx value s)

/-- A write of CMD_VF_ALLOT of VF n (R280): taken only while VFs are disabled, within the ranges of Table 11.21, and leaving the PF a vector. -/
def vfAllot (n : Nat) (v : Word) (s : State) : State :=
  let vec := bits v.toNat 16 7
  if decide (n = 0) || s.host.vfEnable || decide (16 < bits v.toNat 0 5) || decide (64 < vec) || decide (fnVectors s 0 + fnVectors s n < vec + 1) then s
  else setReg (CMD_VF_ALLOT 0 n) (v &&& 0x007F001F) s

/-- CMD_VF_ALLOT_WRITE (R280). -/
def execCmdVfAllotWrite (vf : BitVec 8) (value : Word) (s : State) : Res := .next (vfAllot vf.toNat value s)

/-- VF_ENABLE (R280): the VFs and their contexts become present or absent. -/
def execVfEnable (value : Bool) (s : State) : Res := .next (s.onHost fun h => { h with vfEnable := value })

/-! ### Slot fetch (R282–R284, R290) -/

/-- Intake may fetch the slot at the head of the context's visible slots: queue live, context below 4,096 outstanding commands and not
closing, and a completion entry free to reserve (R282, R299). -/
def canFetch (s : State) (c : CtxId) : Option Nat :=
  let x := getCtx s c
  match x.visible with
  | [] => none
  | (q, _) :: _ =>
    let y := x.queue q
    if qLive s c q && !s.host.intakeHeld && !s.host.updating && roleUp s 0 && !s.pwr.stopping && !decide (x.state = 3)
        && decide ((outstanding s c).length < 4096)
        && decide (cqUsed s c q + y.reserved + y.kept.length + 1 < cqSize s c q) then some q else none

/-- The context whose turn it is: the present one until it has given 8 slots, then the next with a slot to fetch, in rising order and
around (R282). -/
def turnCtx (s : State) : Option Nat :=
  let ks := (tkeys s.ctxs).filter fun k => (canFetch s (BitVec.ofNat 12 k)).isSome
  if ks.contains s.host.rrCtx && decide (s.host.rrTaken < 8) then some s.host.rrCtx
  else match ks.find? fun k => decide (s.host.rrCtx < k) with
    | some k => some k
    | none => ks.head?

/-- Tags among the last completions of a context, newest first, with whether each counts as a failure (R284, R290). -/
def recentOf (x : Ctx) (t : Dword) : Option Bool := (x.recent.find? fun r => decide (r.1 = t)).map (·.2.2)

/-- The header checks of Table 11.3, in its order. -/
def headerCheck (s : State) (c : CtxId) (q : Nat) (sl : List Byte) : Option Status :=
  let op := fieldAt sl 0 2
  let x := getCtx s c
  let tag : Dword := BitVec.ofNat 64 (fieldAt sl 8 8)
  let dep : Dword := BitVec.ofNat 64 (fieldAt sl 0x10 8)
  let openish := decide (op = 0x0101) || decide (op = 0x0103)
  let live (t : Dword) : Bool := (outstanding s c).any fun m => decide (m.tag = t)
  let known (t : Dword) : Bool := s.cmds.any fun m => decide (m.ctx = c) && decide (m.tag = t)
  if fieldAt sl 4 2 % 4096 ≠ c.toNat ∨ fieldAt sl 6 2 % 8 ≠ q then some (stBadParam 1)
  else if fieldAt sl 4 2 / 4096 ≠ 0 ∨ fieldAt sl 6 2 / 8 ≠ 0 ∨ fieldAt sl 2 1 / 8 ≠ 0 then some (stBadParam 2)
  else match opRow op with
    | none => some (0x0100, 0)
    | some r =>
      if x.state = 0 ∧ !openish then some (stNotPermitted 1)
      else if x.state = 2 ∧ !openish then some (0x0102, 0)
      else if r.pf ∧ fnOf c ≠ 0 then some (stNotPermitted 2)
      else if tag = 0 ∨ live tag then some (stBadParam 3)
      else if fieldAt sl 3 1 < r.masks.length then some (stBadParam 4)
      else if dep ≠ 0 ∧ !known dep ∧ (recentOf x dep).isNone then some (stBadParam 5)
      else none

/-- The command that a slot spells (Table 11.2). -/
def parseSlot (s : State) (c : CtxId) (q : Nat) (sl : List Byte) : Cmd :=
  { ctx := c, queue := q, opcode := BitVec.ofNat 16 (fieldAt sl 0 2), irq := bit (fieldAt sl 2 1) 0, ordered := bit (fieldAt sl 2 1) 1,
    depAny := bit (fieldAt sl 2 1) 2, tag := BitVec.ofNat 64 (fieldAt sl 8 8), depends := BitVec.ofNat 64 (fieldAt sl 0x10 8),
    deadline := BitVec.ofNat 64 (fieldAt sl 0x18 8),
    params := (List.range (min 56 (fieldAt sl 3 1))).map fun k => BitVec.ofNat 64 (fieldAt sl (0x20 + 8 * k) 8),
    acceptedAt := s.tick, ttlAt := s.seq.ttlClock, seqno := s.host.nextSeqno, phase := .waiting, started := false, waitJseq := none, replayed := false,
    rejected := false, waitsOn := none, count0 := 0, count1 := 0 }

/-- A command whose slot was fetched joins the accepted commands: rejected by the header checks, cancelled by a failed prerequisite of
the past, or waiting (R284, R290). -/
def acceptCmd (s : State) (c : CtxId) (q : Nat) (sl : List Byte) : Cmd :=
  let m := parseSlot s c q sl
  match headerCheck s c q sl with
  | some st => { m with rejected := true, phase := .ended (entryOf m.tag m.irq st true 0 0) }
  | none =>
    match (outstanding s c ++ s.cmds.filter fun k => decide (k.ctx = c) && k.rejected).find? fun k => decide (m.depends ≠ 0) && decide (k.tag = m.depends) with
    | some k => { m with waitsOn := some k.seqno }
    | none =>
      if m.depends ≠ 0 ∧ recentOf (getCtx s c) m.depends = some true ∧ !m.depAny then
        { m with phase := .ended (entryOf m.tag m.irq (stCancelled 1) true 0 0) }
      else m

/-- SLOT_FETCH (R282): the slot at the head of the context's visible slots is copied and freed, a completion entry is reserved, and
the command is accepted. Nothing happens where it is not this queue's turn. -/
def execSlotFetch (ctx : CtxId) (q : Fin 8) (slot : List Byte) (s : State) : Res :=
  .next (if decide (turnCtx s = some ctx.toNat) && decide (canFetch s ctx = some q.val) then
    let m := acceptCmd s ctx q slot
    let n := sqSize s ctx q
    let s1 := modCtx ctx (fun x => { x with
      queues := tmod Queue.fresh x.queues q fun y => { y with sqHead := (y.sqHead + 1) % n, reserved := y.reserved + 1 }
      visible := match x.visible with
        | (v, k) :: r => if k ≤ 1 then r else (v, k - 1) :: r
        | [] => [] }) s
    let s2 := s1.onCmds (· ++ [m])
    s2.onHost fun h => { h with
      nextSeqno := h.nextSeqno + 1
      rrTaken := if h.rrCtx = ctx.toNat ∧ h.rrTaken < 8 then h.rrTaken + 1 else 1
      rrCtx := ctx.toNat }
  else s)

/-! ### Start conditions (R289–R293) -/

/-- Pan that a command names, for the pan order of R289. -/
def panNamed (m : Cmd) : Option Nat :=
  match m.opcode.toNat with
  | 0x0302 => some (m.f 0 0 4) | 0x0304 => some (m.f 0 0 4) | 0x0601 => some (m.f 0 0 4) | 0x0507 => some (m.f 0 16 4)
  | _ => none

/-- Embedding table that a command writes, for the table order of R289. -/
def tableNamed (m : Cmd) : Option Nat :=
  match m.opcode.toNat with
  | 0x0505 => some (m.f 0 0 10) | 0x0506 => some (m.f 0 0 10) | 0x0508 => some (m.f 0 0 10)
  | _ => none

/-- Sequence handle that a SEQ_ command names (R208, R289). -/
def seqNamed (m : Cmd) : Option Nat :=
  if 0x0401 ≤ m.opcode.toNat ∧ m.opcode.toNat ≤ 0x0406 then some (m.p 0) else none

/-- The command has ended; its entry is due. -/
def Cmd.isEnded (m : Cmd) : Bool := match m.phase with | .ended _ => true | _ => false

/-- An earlier outstanding command k holds command m back: a FENCE of m's scope, any command of the queue when m is ORDERED, or one
that the orders of R289 put before it. -/
def holdsBack (m k : Cmd) : Bool :=
  (decide (k.opcode = 0x0604) && (decide (k.queue = m.queue) || bit (k.p 0) 0))
    || (m.ordered && decide (k.queue = m.queue))
    || ((seqNamed m).isSome && decide (seqNamed m = seqNamed k) && !k.started && !k.isEnded)
    || ((panNamed m).isSome && decide (panNamed m = panNamed k) && !k.isEnded)
    || ((tableNamed m).isSome && decide (tableNamed m = tableNamed k) && !k.isEnded)

/-- The deadline of a command, as a tick (R293). -/
def deadlineTick (m : Cmd) : Nat := m.acceptedAt + usTicks m.deadline.toNat

/-- A waiting command may start (R293): no prerequisite, no FENCE, ORDERED or order of R289 before it, and its deadline not passed. -/
def startable (s : State) (m : Cmd) : Bool :=
  decide (m.phase = .waiting) && m.waitsOn.isNone
    && !((outstanding s m.ctx).any fun k => decide (k.seqno < m.seqno) && holdsBack m k)
    && (decide (m.deadline = 0) || decide (s.tick ≤ deadlineTick m))

/-- The state in which command m runs. -/
def markStarted (m : Cmd) (s : State) : State := modCmd m.seqno (fun x => { x with phase := .running, started := true }) s

/-- The row of an opcode: the accepted command that c names, when it is of this opcode, may start and is not held by its owning rule,
has its reserved parameter bits checked (R296), starts and has its effect; where it may not start yet, nothing happens. -/
def startHeld (op : Nat) (c : CmdRef) (s : State) (held : Cmd → Bool) (body : Cmd → State → State) : State :=
  match findCmd s c with
  | none => s
  | some m =>
    if decide (m.opcode.toNat = op) && startable s m && !held m then
      if maskOk ((opRow op).map (·.masks) |>.getD []) m.params then body m (markStarted m s)
      else endFail m (stBadParam 7) s
    else s

/-- The row of an opcode that no rule of its own holds. -/
def startCmd (op : Nat) (c : CmdRef) (s : State) (body : Cmd → State → State) : State :=
  startHeld op c s (fun _ => false) body

/-- The later part of a command that runs: f applied when c names a running command of this opcode. -/
def whileRunning (op : Nat) (c : CmdRef) (s : State) (f : Cmd → State → State) : State :=
  match findCmd s c with
  | some m => if decide (m.opcode.toNat = op) && decide (m.phase = .running) then f m s else s
  | none => s

/-- FENCE's TOKENS condition (R291): every step of the context built before the fence was accepted has committed or been abandoned;
each of its tokens is then written or held. -/
def fenceTokensDone (s : State) (m : Cmd) : Bool :=
  !(s.seq.steps.any fun st => decide (st.ctx = m.ctx) && decide (st.builtSeqno ≤ m.seqno))

/-- FENCE (R291): it completes once every earlier command of its scope has completed. -/
def execFence (c : CmdRef) (s : State) : Res :=
  let done (m : Cmd) (s : State) : Bool :=
    !((outstanding s m.ctx).any fun k => decide (k.seqno < m.seqno) && (bit (m.p 0) 0 || decide (k.queue = m.queue)))
      && (!bit (m.p 0) 1 || fenceTokensDone s m)
  let try' (m : Cmd) (s : State) : State := if done m s then endOk m 0 0 s else s
  .next (match findCmd s c with
    | some m => if m.phase = .running then whileRunning 0x0604 c s try' else startCmd 0x0604 c s try'
    | none => s)

/-- COMMAND_DEADLINE_EXPIRY (R293): a command that has not started when its deadline passes ends with ST_DEADLINE_MISSED. -/
def execCommandDeadlineExpiry (c : CmdRef) (s : State) : Res :=
  .next (match findCmd s c with
    | some m => if m.phase = .waiting ∧ m.deadline ≠ 0 ∧ deadlineTick m < s.tick then endFail m (0x0401, 0) s else s
    | none => s)

/-! ### Completion (R285, R290, R299) -/

/-- The ended command that a reference names: the first whose entry is due. -/
def findEnded (s : State) (r : CmdRef) : Option (Cmd × CplEntry) :=
  match s.cmds.find? fun m => decide (m.ctx = r.ctx) && decide (m.tag = r.tag) && m.isEnded with
  | some m => match m.phase with | .ended e => some (m, e) | _ => none
  | none => none

/-- Every effect of the command is in place: its COMMAND record is durable (R340), and for CTX_CLOSE every other command of the
context has completed (Table 11.19). -/
def entryDue (s : State) (m : Cmd) : Bool :=
  (match m.waitJseq with | some j => recDurable s j | none => true)
    && (!decide (m.opcode = 0x0102) || m.rejected || decide ((outstanding s m.ctx).length ≤ 1))

/-- The dependents of a completed command: cancelled when it failed, unless DEP_ANY is set; otherwise free of it (R290). -/
def settleDependents (n : Nat) (failed : Bool) (detail : Nat) (s : State) : State :=
  s.onCmds fun l => l.map fun m =>
    if m.waitsOn = some n then
      if failed && !m.depAny then
        { m with waitsOn := none, phase := .ended (entryOf m.tag m.irq (stCancelled detail) true 0 0) }
      else { m with waitsOn := none }
    else m

/-- A command completes: it leaves the outstanding commands, its tag joins the last 1,024, and its dependents are settled. -/
def retireCmd (m : Cmd) (e : CplEntry) (detail : Nat) (s : State) : State :=
  let failed := isFailure e.status.toNat e.noEffect
  let s1 := s.onCmds fun l => l.filter fun k => !decide (k.seqno = m.seqno)
  let s2 := modCtx m.ctx (fun x => { x with
    queues := tmod Queue.fresh x.queues m.queue fun y => { y with reserved := y.reserved - 1 }
    recent := ((m.tag, e.status, failed) :: x.recent).take 1024 }) s1
  settleDependents m.seqno failed detail s2

/-- COMPLETION_WRITE (R285): the entry of an ended command is written to its ring, or kept while the queue is stopped or disabled
(R288, R299); a context that CTX_CLOSE closed becomes CLOSED. -/
def execCompletionWrite (c : CmdRef) (s : State) : Res :=
  .next (match findEnded s c with
    | none => s
    | some (m, e) =>
      if !entryDue s m then s
      else
        let x := getCtx s m.ctx
        let e' := { e with late := m.started && !decide (m.deadline = 0) && decide (deadlineTick m < s.tick) }
        let s1 := reapOld (retireCmd m e' (if x.flr then 3 else 1) s)
        let s2 :=
          if x.flr then s1
          else if qLive s1 m.ctx m.queue && (x.queue m.queue).kept.isEmpty then cplWrite m.ctx m.queue e' s1
          else modQueue m.ctx m.queue (fun y => { y with kept := y.kept ++ [e'] }) s1
        if decide (m.opcode = 0x0102) && !m.rejected then modCtx m.ctx (fun y => { y with state := 0, lostState := false }) s2 else s2)

end Sys2Proof.Machine
end

