-- ==== Sys2Proof/Machine/FabricOps.lean ====
section
/-! DEFINITION. The named operations of the fabric: generations, the plan, positions, routes, sending and moving frames, and settling links
under Table 12.6 (R304–R323). -/

namespace Sys2Proof.Machine

/-! ### Generations, plan and positions (R316–R318, R320, R345) -/

/-- Generation a is older than b: RFC 1982 order, with 0 older than every other (R318, R345). -/
def olderGen (a b : Nat) : Bool :=
  if a = b then false else if a = 0 then true else if b = 0 then false
  else decide ((b + 65536 - a) % 65536 < 32768)

/-- The generation after g: an increment that would give 0 gives 1 (R345). -/
def nextIdgen (g : Nat) : Nat := if (g + 1) % 65536 = 0 then 1 else (g + 1) % 65536

/-- The entry of a position. -/
def FabPlan.ofPos (p : FabPlan) (rack tray slot : Nat) : Option PlanPkg :=
  p.packages.find? fun e => decide (e.rack = rack) && decide (e.tray = tray) && decide (e.slot = slot)

/-- This package's slot: SLOT_ID[1:0] (R316). -/
def ownSlot (s : State) : Nat := getFld s LNK_FAB_POS 9 2

/-- This package's generation. -/
def ownIdgen (s : State) : Nat := getFld s LNK_FAB_ID 16 16

/-- This package's job. -/
def ownJob (s : State) : Nat := getFld s LNK_FAB_STATUS 8 10

/-- This package's own position, once found. -/
def ownPos (s : State) : Option (Nat × Nat × Nat) :=
  if getFld s LNK_FAB_POS 11 1 = 1 then some (getFld s LNK_FAB_POS 0 4, getFld s LNK_FAB_POS 4 5, ownSlot s) else none

/-- The position that the plan, or without one the default of R317, gives a chip ID. -/
def chipPos (s : State) (c : Nat) : Option (Nat × Nat × Nat) :=
  match s.lnk.plan with
  | some p => (p.ofChip c).map fun e => (e.rack, e.tray, e.slot)
  | none => some (c / 64, c / 4 % 16, c % 4)

/-- The newest generation seen of a chip ID; 0 when none was. -/
def newestGen (s : State) (c : Nat) : Nat := tget 0 s.lnk.newest c

/-- A generation of a chip ID is seen (R318). -/
def seeGen (c g : Nat) (s : State) : State :=
  if olderGen (newestGen s c) g then s.onLnk fun l => { l with newest := tput 0 l.newest c g } else s

/-! ### Links and their registers -/

/-- A link that has carried nothing. -/
def Link.fresh : Link :=
  { partner := none, recSentAt := none, downAt := 0, txSeq := 0, rxSeq := 0, unacked := [], waiting := [], askedReplay := false, polledAt := none }

/-- Link j. -/
def getLink (s : State) (j : Nat) : Link := tget Link.fresh s.lnk.links j

/-- The state with f applied to link j. -/
def modLink (j : Nat) (f : Link → Link) (s : State) : State := s.onLnk fun l => { l with links := tmod Link.fresh l.links j f }

/-- LNK_STATUS of link j. -/
def lnkStatus (j : Nat) : Nat := LNK_STATUS (j / 6) (j % 6)

/-- A link's state of Table 12.3. -/
def linkState (s : State) (j : Nat) : Nat := getFld s (lnkStatus j) 0 3

/-- A link takes a state and a REASON. -/
def setLink (j st reason : Nat) (s : State) : State := setFld (lnkStatus j) 4 4 reason (setFld (lnkStatus j) 0 3 st s)

/-- Links of the pair to the board package at distance d. -/
def pairLinks (d : Nat) : List Nat := (List.range 4).map fun k => 4 * (d - 1) + k

/-- Links of leaf plane p. -/
def planeLinks (p : Nat) : List Nat := (List.range 4).map fun k => 12 + 4 * p + k

/-- The links of the pair or plane that a link belongs to; an auxiliary link stands alone. -/
def mates (j : Nat) : List Nat := if j < 12 then pairLinks (j / 4 + 1) else if j < 44 then planeLinks ((j - 12) / 4) else [j]

/-- Those of some links that are ACTIVE. -/
def activeOf (s : State) (l : List Nat) : List Nat := l.filter fun j => decide (linkState s j = 5)

/-! ### Sending frames (R311–R314, R323) -/

/-- A frame of this package. -/
def ownFrame (s : State) (dest vc kind : Nat) (ctx : CtxId) (fw : Bool) (flow epoch : Nat) (payload : List Byte) : ElpFrame :=
  { destChip := BitVec.ofNat 10 dest, srcChip := BitVec.ofNat 10 (chipId s), srcIdgen := BitVec.ofNat 16 (ownIdgen s), vc := BitVec.ofNat 2 vc,
    kind := BitVec.ofNat 8 kind, ctx := ctx, fw := fw, flow := BitVec.ofNat 32 flow, stepEpoch := BitVec.ofNat 64 epoch, lseq := 0,
    payload := payload, crcOk := true, ack := 0, replay := false }

/-- Bytes that a frame takes of a channel's credit: header, payload and trailer in 64-byte units (R311, R312). -/
def frameUnits (f : ElpFrame) : Nat := ceilDiv (40 + f.payload.length) 64 * 64

/-- Credit is left for a frame: 512 KiB of its channel and 1 MiB of the replay buffer. Credit returns with the acknowledgement
(notes/assumptions/51). -/
def creditLeft (l : Link) (f : ElpFrame) : Bool :=
  let units (q : List SentFrame) : Nat := (q.map fun x => frameUnits x.frame).foldl (· + ·) 0
  decide (units (l.unacked.filter fun x => decide (x.frame.vc = f.vc)) + frameUnits f ≤ 0x80000) && decide (units l.unacked + frameUnits f ≤ 0x100000)

/-- Waiting frames leave in order, each channel until it lacks credit (R312). -/
def pumpFrames (tick : Nat) : List ElpFrame → List (BitVec 2) → Link → Link
  | [], _, l => l
  | f :: fs, full, l =>
    if full.contains f.vc ∨ !creditLeft l f then pumpFrames tick fs (f.vc :: full) { l with waiting := l.waiting ++ [f] }
    else
      let g := { f with lseq := BitVec.ofNat 32 l.txSeq, ack := BitVec.ofNat 32 (l.rxSeq + 0xFFFFFFFF), replay := l.askedReplay }
      pumpFrames tick fs full { l with
        unacked := l.unacked ++ [{ frame := g, sentAt := tick, replays := 0 }]
        txSeq := (l.txSeq + 1) % 2 ^ 32 }

/-- A link sends what it may: discovery records from NEGOTIATE on, traffic when ACTIVE; only records wait at a link in HOLD. -/
def pumpLink (j : Nat) (s : State) : State :=
  if 3 ≤ linkState s j ∧ linkState s j ≤ 5 then modLink j (fun l => pumpFrames s.tick l.waiting [] { l with waiting := [] }) s else s

/-- A frame waits at link j for its turn. -/
def sendOn (j : Nat) (f : ElpFrame) (s : State) : State := pumpLink j (modLink j (fun l => { l with waiting := l.waiting ++ [f] }) s)

/-- A link carries a frame of the same flow that is not acknowledged (R314). -/
def flowLink (s : State) (f : ElpFrame) : Option Nat :=
  (s.lnk.links.find? fun p => (p.2.unacked.any fun x => decide (x.frame.flow = f.flow) && decide (x.frame.srcChip = f.srcChip))
    || p.2.waiting.any fun x => decide (x.flow = f.flow) && decide (x.srcChip = f.srcChip)).map (·.1)

/-- One of a list by the hash of a flow. -/
def byHash (f : ElpFrame) (l : List Nat) : Option Nat := l[Config.flowHash f.flow % max 1 l.length]?

/-- The leaf-plane link of a frame (R323). -/
def leafLink (s : State) (f : ElpFrame) : Option Nat :=
  (byHash f ((List.range 8).filter fun p => !(activeOf s (planeLinks p)).isEmpty)).bind fun p => byHash f (activeOf s (planeLinks p))

/-- The link that a frame leaves by (R323); discovery, control and journal frames never pass through a package on the way (R322); whether a board package has links to the destination too is not shown to this package and is
free (notes/assumptions/52). -/
def routeFrame (f : ElpFrame) (s : State) : Option Nat × State :=
  match chipPos s f.destChip.toNat, ownPos s with
  | some d, some o =>
    if d.1 = o.1 ∧ d.2.1 = o.2.1 ∧ d.2.2 ≠ o.2.2 then
      match byHash f (activeOf s (pairLinks ((d.2.2 + 4 - o.2.2) % 4))) with
      | some j => (some j, s)
      | none =>
        let via := if f.kind = 0 ∨ f.kind = 5 ∨ f.kind = 7 then none else (List.range 4).findSome? fun p =>
          if p = d.2.2 ∨ p = o.2.2 then none
          else match s.lnk.plan.bind fun q => q.ofPos d.1 d.2.1 p with
            | some e => if !e.spare ∧ e.job = ownJob s then byHash f (activeOf s (pairLinks ((p + 4 - o.2.2) % 4))) else none
            | none => none
        match via with
        | some j =>
          let b := draw Config.freeBool s
          (if b.1 then some j else leafLink s f, b.2)
        | none => (leafLink s f, s)
    else (leafLink s f, s)
  | _, _ => (leafLink s f, s)

/-- A frame is sent: on the link that carries its flow, else by its route; without a path it is held (R314, R323). A package without a chip
ID, or out of service, sends discovery frames only (R317, R359). -/
def sendFrame (f : ElpFrame) (s : State) : State :=
  if (unassigned s ∨ s.flt.outOfService) ∧ f.kind ≠ 0 then s
  else match flowLink s f with
    | some j => sendOn j f s
    | none =>
      let r := routeFrame f s
      match r.1 with
      | some j => sendOn j f (r.2.onLnk fun l => { l with unreach := l.unreach.filter fun c => !decide (c = f.destChip.toNat) })
      | none => r.2.onLnk fun l => { l with held := l.held ++ [(f, s.tick)] }

/-- Flow identifiers that this package gives out. -/
def newFlow (s : State) : Nat × State := (s.lnk.nextFlow, s.onLnk fun l => { l with nextFlow := (l.nextFlow + 1) % 2 ^ 32 })

/-- Bytes in pieces of at most n. -/
def pieces (n : Nat) : Nat → List Byte → List (List Byte)
  | 0, _ => []
  | fuel + 1, b => if b.isEmpty then [] else b.take n :: pieces n fuel (b.drop n)

/-- LNK_UNREACH shows the length of the unreachable list. -/
def showUnreach (s : State) : State := setReg LNK_UNREACH (BitVec.ofNat 32 s.lnk.unreach.length) s

/-- Held frames with a path go. -/
def retryFrames (s : State) : State :=
  showUnreach ((s.lnk.held).foldl (fun s p => sendFrame p.1 s) (s.onLnk fun l => { l with held := [] }))

/-- Frames move off a link that carries traffic no more: in LSEQ order to another ACTIVE link of its pair or plane, else by their routes;
its discovery records go (R314). -/
def moveFrames (j : Nat) (s : State) : State :=
  let l := getLink s j
  let fs := (l.unacked.map (·.frame) ++ l.waiting).filter fun f => f.kind ≠ 0
  let s1 := modLink j (fun l => { l with unacked := [], waiting := [] }) s
  let others := (activeOf s1 (mates j)).filter fun k => !decide (k = j)
  fs.foldl (fun s f =>
    match flowLink s f, byHash f others with
    | none, some k => sendOn k f s
    | _, _ => sendFrame f s) s1

/-! ### Position and chip ID (R316, R317) -/

/-- The position of a partner's record when it is VALID: rack and tray. -/
def recPlace (r : DiscoveryRec) : Option (Nat × Nat) := if r.posValid then some (r.rack.toNat, r.tray.toNat) else none

/-- Link j is ACTIVE or in HOLD. -/
def settled (s : State) (j : Nat) : Bool := decide (linkState s j = 4) || decide (linkState s j = 5)

/-- The rack and tray of R316: the value most leaf links report, alone at the top; without any, a board partner's. -/
def findPlace316 (s : State) : Option (Nat × Nat) :=
  let seen := ((List.range 32).map (· + 12)).filterMap fun j => if settled s j then (getLink s j).partner.bind recPlace else none
  let count (v : Nat × Nat) : Nat := (seen.filter fun w => decide (w = v)).length
  if seen.isEmpty then (List.range 12).findSome? fun j => if settled s j then (getLink s j).partner.bind recPlace else none
  else
    let top := (seen.map count).foldl max 0
    match dedup ((seen.filter fun v => decide (count v = top)).map fun v => v.1 * 32 + v.2) with
    | [v] => some (v / 32, v % 32)
    | _ => none

/-- A partner's record claims this package's own position (R317): a package partner with the same rack, tray and slot, or a switch on a link
that is not a leaf link reporting this tray (notes/assumptions/53). -/
def claimsOwn (s : State) (j : Nat) : Bool :=
  match (getLink s j).partner, findPlace316 s with
  | some r, some p => settled s j && decide (recPlace r = some p)
      && ((decide (r.kind = 0) && decide (r.slot.toNat = ownSlot s)) || (decide (r.kind = 1) && (decide (j < 12) || decide (43 < j))))
  | _, _ => false

/-- Chip ID, generation, job, UNASSIGNED and SPARE by R317. -/
def idByPlan (s : State) (p : Option (Nat × Nat)) (conflict : Bool) : Nat × Nat × Nat × Bool × Bool :=
  match s.lnk.assumed with
  | some a => (a.1, a.2.1, a.2.2.1, false, false)
  | none =>
    if s.lnk.yielded then (0, 0, 0x3FF, true, true)
    else match p with
      | none => (0, 0, 0x3FF, true, false)
      | some v =>
        if conflict then (0, 0, 0x3FF, true, false)
        else match s.lnk.plan with
          | some q =>
            match q.ofPos v.1 v.2 (ownSlot s) with
            | some e => if e.spare then (0, 0, 0x3FF, true, true) else (e.chip, max 1 e.idgen, e.job, false, false)
            | none => (0, 0, 0x3FF, true, false)
          | none => if v.2 < 16 then (v.1 * 64 + v.2 * 4 + ownSlot s, 1, 0x3FF, false, false) else (0, 0, 0x3FF, true, true)

/-- Position and chip ID are taken anew and shown (R316, R317). A generation already seen of the own chip ID stands over the plan's first. -/
def takeId (s : State) : State :=
  let p := findPlace316 s
  let c := (List.range 48).any (claimsOwn s)
  let d := idByPlan s p c
  let g := if d.2.2.2.1 then 0 else if ownIdgen s ≠ 0 ∧ chipId s = d.1 ∧ !unassigned s then ownIdgen s else d.2.1
  let pos := (match p with | some v => v.1 + 16 * v.2 + 2048 | none => 0) + 512 * ownSlot s + 4096 * b2n c
  let s1 := setReg LNK_FAB_POS (BitVec.ofNat 32 pos) s
  let s2 := setReg LNK_FAB_ID (BitVec.ofNat 32 (d.1 + 1024 * b2n d.2.2.2.1 + 2048 * b2n d.2.2.2.2 + 65536 * g)) s1
  let s3 := setFld LNK_FAB_STATUS 8 10 d.2.2.1 s2
  let s4 := s3.onLnk fun l => { l with conflict := c }
  if d.2.2.2.1 then s4 else seeGen d.1 g s4

/-! ### Settling links (R319, Table 12.6) -/

/-- The partner kind that a link's role or the plan asks for; none where the plan names no partner for it. -/
def wantKind (s : State) (j : Nat) : Option Nat :=
  if j < 12 then some 0 else if j < 44 then some 1
  else match (ownEntry s).map (·.aux) with
    | some 1 => some 2
    | some 2 => some 3
    | _ => none

/-- The plan names the board partner at a record's position, or there is no plan. -/
def planNames (s : State) (r : DiscoveryRec) : Bool :=
  match s.lnk.plan with
  | none => true
  | some p => (p.ofPos r.rack.toNat r.tray.toNat r.slot.toNat).isSome || !r.posValid

/-- State and REASON of a trained link with its partner's record (Table 12.6). -/
def linkOutcome (s : State) (j : Nat) (r : DiscoveryRec) : Nat × Nat :=
  let own := findPlace316 s
  if claimsOwn s j then (4, 12)
  else match wantKind s j with
    | none => (4, 6)
    | some k =>
      if r.kind.toNat ≠ k then (4, 8)
      else if j < 12 ∧ r.slot.toNat ≠ (ownSlot s + j / 4 + 1) % 4 then (4, 7)
      else if 12 ≤ j ∧ j < 44 ∧ (r.plane.toNat ≠ (j - 12) / 4 ∨ (own.isSome ∧ (recPlace r).isSome ∧ recPlace r ≠ own)) then (4, 7)
      else if j < 12 ∧ !planNames s r then (4, 6)
      else (5, 0)

/-- A link runs below what LNK_CTL permits (R309). -/
def linkDegraded (s : State) (j : Nat) : Bool :=
  let lanes := getFld s (lnkStatus j) 8 2
  let rate := getFld s (lnkStatus j) 10 2
  let ctl := LNK_CTL (j / 6) (j % 6)
  decide (linkState s j = 5) && (decide (lanes + getFld s ctl 3 2 < 3) || decide (getFld s ctl 1 2 < rate))

/-- The plan, or without one the role, names a partner for a link. -/
def linkPlanned (s : State) (j : Nat) : Bool :=
  if j < 12 then
    match s.lnk.plan, findPlace316 s with
    | some p, some v => (p.ofPos v.1 v.2 ((ownSlot s + j / 4 + 1) % 4)).isSome
    | _, _ => true
  else if j < 44 then true else (wantKind s j).isSome

/-- The package is DEGRADED: any such case of Table 12.6, or no chip ID held (R317). -/
def fabricDegraded (s : State) : Bool :=
  unassigned s || s.lnk.conflict || (List.range 48).any fun j =>
    linkDegraded s j || (linkPlanned s j && !decide (linkState s j = 5))
      || (decide (linkState s j = 4) && [7, 8].contains (getFld s (lnkStatus j) 4 4))

/-- LNK_FAB_STATUS and each link's DEGRADED bit follow from the links and the plan. -/
def showFabric (s : State) : State :=
  let s1 := (List.range 48).foldl (fun s j => setFld (lnkStatus j) 3 1 (b2n (linkDegraded s j)) s) s
  setFld LNK_FAB_STATUS 1 1 (b2n s1.lnk.plan.isNone) (setFld LNK_FAB_STATUS 0 1 (b2n (fabricDegraded s1)) s1)

/-- A settled link takes its outcome; one that leaves ACTIVE gives its frames to others. -/
def settleLink (s : State) (j : Nat) : State :=
  match (getLink s j).partner with
  | some r =>
    if settled s j then
      let o := linkOutcome s j r
      let was := linkState s j
      let s1 := setLink j o.1 o.2 s
      if was = 5 ∧ o.1 ≠ 5 then moveFrames j s1 else if o.1 = 5 then pumpLink j s1 else s1
    else s
  | none => s

/-- The links are settled anew (R319), frames without a path are tried again, and the status follows. -/
def settleAll (s : State) : State :=
  let s1 := (List.range 48).foldl settleLink (takeId s)
  showFabric (retryFrames s1)

/-- A link goes DOWN (R314): counted, and a corrected fault of the link source. LINK_DOWN moves its frames. -/
def goDown (j reason : Nat) (s : State) : State :=
  let s1 := setReg (lnkStatus j) (BitVec.ofNat 32 (7 + 16 * reason)) s
  let s2 := modLink j (fun l => { l with downAt := s.tick, partner := none, recSentAt := none, rxSeq := 0, txSeq := 0, askedReplay := false }) s1
  present (faultOf 0x0401 (0x68 + j / 6) (j % 6) 0) (lifeAdd (0x4008 + 128 * j) 8 1 (bump (LNK_DOWN_COUNT (j / 6) (j % 6)) s2))

/-- The pairing with the buddy ends; it is tried again (R333, R413). -/
def endPairing (s : State) : State :=
  setFld CMT_STATUS 0 2 0 (s.onCmt fun c => { c with pairTriedAt := s.tick, pairingOpen := false })

end Sys2Proof.Machine
end

