-- ==== Sys2Proof/Machine/ModelTab.lean ====
section
/-! DEFINITION. The model table, the adapter slots, the steering areas and the embedding directory as every family sees them
(R214–R221, R228, R258–R260). -/

namespace Sys2Proof.Machine

/-! ### Fresh records -/

/-- An EMPTY version record. -/
def VerRec.empty : VerRec :=
  { version := 0, vstate := 0, maxRank := 0, points := 0, maxDistinct := 0, steerPoints := 0, kinds := 0, shape := 0, images := [],
    weights := [], digest8 := [], hidden := 0, manifest := [], shardSums := [] }

/-- +∞, the default exit threshold (R254). -/
def posInf : Word := 0x7F800000

/-- A FREE model table entry. -/
def ModelEntry.free : ModelEntry :=
  { ctx := 0, state := 0, current := 0, steerArea := 0, steerLive := 0, v0 := VerRec.empty, v1 := VerRec.empty,
    exits := List.replicate 16 posInf, draftGen := 0, switch := none }

/-- A slot that was never loaded. -/
def AdpSlot.free : AdpSlot :=
  { handle := 0, ctx := 0, model := 0, state := 0, format := 0, rank := 0, gen := 0, dataAddr := 0, bytesPerPoint := 0, lastEpoch := 0 }

/-- An EMPTY embedding version record. -/
def EmbRec.empty : EmbRec :=
  { version := 0, vstate := 0, format := 0, sparse := false, dim := 0, stride := 0, base := 0, bitmap := 0, rows := 0, scale := 0,
    rowsPerBlock := 0 }

/-- A FREE directory entry. -/
def EmbEntry.free : EmbEntry :=
  { ctx := 0, state := 0, current := 0, shardShift := 0, appliedGepoch := 0, homes := [], r0 := EmbRec.empty, r1 := EmbRec.empty,
    maintBy := none }

/-! ### Look up and update -/

/-- Model table entry e. -/
def getModel (s : State) (e : Nat) : ModelEntry := tget ModelEntry.free s.mdl.models e

/-- The state with f applied to model table entry e. -/
def modModel (e : Nat) (f : ModelEntry → ModelEntry) (s : State) : State :=
  s.onMdl fun m => { m with models := tmod ModelEntry.free m.models e f }

/-- Adapter slot n. -/
def getSlot (s : State) (n : Nat) : AdpSlot := tget AdpSlot.free s.mdl.slots n

/-- The state with f applied to adapter slot n. -/
def modSlot (n : Nat) (f : AdpSlot → AdpSlot) (s : State) : State :=
  s.onMdl fun m => { m with slots := tmod AdpSlot.free m.slots n f }

/-- Embedding directory entry e. -/
def getEmb (s : State) (e : Nat) : EmbEntry := tget EmbEntry.free s.mdl.embs e

/-- The state with f applied to embedding directory entry e. -/
def modEmb (e : Nat) (f : EmbEntry → EmbEntry) (s : State) : State :=
  s.onMdl fun m => { m with embs := tmod EmbEntry.free m.embs e f }

/-- Version record k of a model entry. -/
def ModelEntry.ver (x : ModelEntry) (k : Nat) : VerRec := if k = 0 then x.v0 else x.v1

/-- A model entry with f applied to version record k. -/
def ModelEntry.onVer (k : Nat) (f : VerRec → VerRec) (x : ModelEntry) : ModelEntry :=
  if k = 0 then { x with v0 := f x.v0 } else { x with v1 := f x.v1 }

/-- The CURRENT record of a model entry. -/
def ModelEntry.cur (x : ModelEntry) : VerRec := x.ver x.current

/-- The record of a model entry that holds a version; the CURRENT one when neither does. A built step keeps its version (R233). -/
def ModelEntry.byVer (x : ModelEntry) (n : Nat) : VerRec :=
  if x.v0.vstate ≠ 0 ∧ x.v0.version = n then x.v0 else if x.v1.vstate ≠ 0 ∧ x.v1.version = n then x.v1 else x.cur

/-- Version record k of an embedding entry. -/
def EmbEntry.ver (x : EmbEntry) (k : Nat) : EmbRec := if k = 0 then x.r0 else x.r1

/-- One more than the record of each embedding table that is CURRENT (R271). -/
def embNow (s : State) : Tab Nat := s.mdl.embs.map fun q => (q.1, q.2.current + 1)

/-- An embedding entry with f applied to version record k. -/
def EmbEntry.onVer (k : Nat) (f : EmbRec → EmbRec) (x : EmbEntry) : EmbEntry :=
  if k = 0 then { x with r0 := f x.r0 } else { x with r1 := f x.r1 }

/-- The CURRENT record of an embedding entry. -/
def EmbEntry.cur (x : EmbEntry) : EmbRec := x.ver x.current

/-! ### Model entries (R214–R216) -/

/-- A model entry that admission and the step builder may use: present and not UNAVAILABLE (Table 7.6), and the context's own (R214). -/
def modelUsable (s : State) (c : CtxId) (e : Nat) : Bool :=
  let x := getModel s e
  decide (x.ctx = c) && (decide (x.state = 1) || decide (x.state = 2))

/-- The version that a step built now runs (R233). -/
def currentVer (s : State) (e : Nat) : BitVec 8 := BitVec.ofNat 8 (getModel s e).cur.version

/-! ### Adapter slots (R218–R221) -/

/-- BINDS of a slot: live sequences whose ADAPTER_SLOT names it. -/
def slotBinds (s : State) (n : Nat) : Nat :=
  (s.seq.entries.filter fun p => match p.2 with | some e => decide (e.adapterSlot.toNat = n) | none => false).length

/-- A sequence's slot is none, or READY, of its context and of its model (R220). -/
def adapterOk (s : State) (c : CtxId) (e : Nat) (slot : Nat) : Bool :=
  let x := getSlot s slot
  decide (slot = 0xFFFF) || (decide (slot < 8192) && decide (x.state = 2) && decide (x.ctx = c) && decide (x.model = e))

/-- Device address of an adapter object's data in tier 0 or tier 1 (R218). -/
def adapterAddr (s : State) (c : CtxId) (h dataOff : Nat) : Nat := (storageOf s (getObj s c (hIndex h))).location + dataOff

/-- Epochs of the built steps that read an object through an adapter slot, at the address it had at their build (R221). -/
def slotSteps (s : State) (c : CtxId) (i : Nat) : List Nat :=
  (s.seq.steps.filter fun st => st.groups.any fun g =>
    let x := getSlot s g.slot
    decide (x.gen = g.gen) && decide (storageKey s x.ctx (hIndex x.handle) = (c, i))).map (·.epoch)

/-- An object in tier 0 or tier 1 has moved: the slots that point into it take its new address (R221). -/
def refreshSlots (c : CtxId) (i : Nat) (old : Nat) (s : State) : State :=
  s.onMdl fun m => { m with slots := m.slots.map fun p =>
    if p.2.state ≠ 0 ∧ storageKey s p.2.ctx (hIndex p.2.handle) = (c, i) then
      (p.1, { p.2 with dataAddr := (getObj s c i).location + (p.2.dataAddr - old) })
    else p }

/-! ### Steering areas (R228–R230) -/

/-- Address of a steering copy. -/
def steerCopy (x : ModelEntry) (k : Nat) : Nat := x.steerArea + k * 16384

/-- The directory entry of a set in the live copy: OFFSET, BYTES, POINTS, VECTORS, FORMAT, VALID (Table 8.8). -/
structure SteerSet where
  offset : Nat
  bytes : Nat
  points : Nat
  vectors : Nat
  format : Nat
  valid : Bool
deriving DecidableEq, Repr

/-- Set n of a copy of an entry's steering area. -/
def steerSet (s : State) (x : ModelEntry) (copy n : Nat) : SteerSet :=
  let b := memRead s.mem.bytes (steerCopy x copy + 16 * n) 16
  { offset := fieldAt b 0 2, bytes := fieldAt b 2 2, points := fieldAt b 4 1, vectors := fieldAt b 5 1, format := fieldAt b 6 1,
    valid := bit (fieldAt b 7 1) 0 }

/-- A sequence's STEER_SLOT is none, or a VALID set of its model entry (R230). -/
def steerOk (s : State) (_c : CtxId) (e : Nat) (slot : Nat) : Bool :=
  decide (slot = 0xFFFF) || (decide (slot < 16) && (steerSet s (getModel s e) (getModel s e).steerLive slot).valid)

/-! ### Embedding tables (R258–R262) -/

/-- An image's EMB_GATHER may name the entry (R261). -/
def embUsable (s : State) (c : CtxId) (e : Nat) : Bool :=
  let x := getEmb s e
  decide (x.ctx = c) && (decide (x.state = 1) || decide (x.state = 2))

/-- DIM of the entry's current record. -/
def embDim (s : State) (e : Nat) : Nat := (getEmb s e).cur.dim

/-- The record that fits an image's model entry, kind and digest: the one whose DIGEST8 it matches, else the CURRENT one. -/
def recFor (s : State) (e kind : Nat) (digest8 : List Byte) : VerRec :=
  let x := getModel s e
  if (x.ver 0).vstate ≠ 0 ∧ (x.ver 0).digest8.getD kind [] = digest8 then x.ver 0
  else if (x.ver 1).vstate ≠ 0 ∧ (x.ver 1).digest8.getD kind [] = digest8 then x.ver 1 else x.cur

/-- ADAPTER units that a die of the pan needs for two slices of rank ADP_MAX_RANK (R227). -/
def adapterUnits (s : State) (e kind : Nat) (digest8 : List Byte) (dies : Nat) : Nat :=
  let r := recFor s e kind digest8
  if r.maxRank = 0 then 0 else 2 * Config.sliceBlocks r.shape r.maxRank dies

/-- OBJ_FREE of this object is refused: a READY adapter slot names it (R221), or it is the BASE or BITMAP of an embedding record
(Table 10.3). -/
def freeRefusal (s : State) (c : CtxId) (h : Nat) : Option Status :=
  if s.mdl.slots.any fun p => decide (p.2.state = 2) && decide (p.2.ctx = c) && decide (p.2.handle = h) then some (stNotPermitted 0)
  else if s.mdl.embs.any fun p => decide (p.2.state ≠ 0) && decide (p.2.ctx = c)
      && ((decide (p.2.r0.vstate ≠ 0) && (decide (p.2.r0.base = h) || decide (p.2.r0.bitmap = h)))
        || (decide (p.2.r1.vstate ≠ 0) && (decide (p.2.r1.base = h) || decide (p.2.r1.bitmap = h)))) then some (stNotPermitted 0x35)
  else none

/-- OBJ_PLACE of this object to a tier is refused: a READY adapter slot names it and the tier is 2 (R221). -/
def placeRefused (s : State) (c : CtxId) (h tier : Nat) : Bool :=
  decide (tier = 2) && s.mdl.slots.any fun p => decide (p.2.state = 2) && decide (storageKey s p.2.ctx (hIndex p.2.handle) = storageKey s c (hIndex h))

end Sys2Proof.Machine
end

