-- ==== Sys2Proof/Machine/EmbOps.lean ====
section
/-! DEFINITION. Rows of embedding tables: homes, places, presence, values and updates (R258–R263, R272, R275). -/

namespace Sys2Proof.Machine

/-- The home package of row i: HOMES of its range (R260). -/
def rowHome (x : EmbEntry) (i : Nat) : Nat := x.homes.getD (i / 2 ^ x.shardShift % max 1 x.homes.length) 0

/-- The local index of row i on its home (R260). -/
def rowLocal (x : EmbEntry) (i : Nat) : Nat :=
  i / 2 ^ x.shardShift / max 1 x.homes.length * 2 ^ x.shardShift + i % 2 ^ x.shardShift

/-- Byte offset of local row j in BASE (R259). -/
def rowOffset (r : EmbRec) (j : Nat) : Nat := j / max 1 r.rowsPerBlock * 65536 + j % max 1 r.rowsPerBlock * (r.stride * 64)

/-- Storage of a handle of a context. -/
def handleObj (s : State) (c : CtxId) (h : Nat) : Obj := storageOf s (getObj s c (hIndex h))

/-- The bytes of row i of a record, STRIDE × 64 of them. -/
def rowBytes (s : State) (x : EmbEntry) (r : EmbRec) (i : Nat) : List Byte :=
  objBytes s (handleObj s x.ctx r.base) (rowOffset r (rowLocal x i)) (r.stride * 64)

/-- Row i is present: of a table that is not SPARSE always, else by its bit (R260). -/
def rowPresent (s : State) (x : EmbEntry) (r : EmbRec) (i : Nat) : Bool :=
  let j := rowLocal x i
  !r.sparse || bit (objByte s (handleObj s x.ctx r.bitmap) (j / 8)).toNat (j % 8)

/-- The first case of R262 that drops a pair's index: 0 invalid, 1 foreign, 2 missing. -/
def rowDrop (s : State) (x : EmbEntry) (r : EmbRec) (i : Nat) : Option Nat :=
  if r.rows ≤ i then some 0 else if rowHome x i ≠ chipId s then some 1 else if !rowPresent s x r i then some 2 else none

/-- Element code k of a row's bytes. -/
def rowCode (r : EmbRec) (b : List Byte) (k : Nat) : Nat :=
  let w := fmtWidth r.format / 8
  fieldAt b ((if r.format = 10 then 4 else 0) + w * k) w

/-- The integer that an INT8 code is. -/
def int8Val (x : Nat) : Fv := intVal x 8 0

/-- The FP32 value of element k of a row (R259). -/
def rowValue (r : EmbRec) (b : List Byte) (k : Nat) : Word :=
  let c := rowCode r b k
  if r.format = 0 then BitVec.ofNat 32 c
  else if r.format = 1 then toFp (bf16.decode c)
  else if r.format = 10 then toFp ((int8Val c).mul (fpOf (BitVec.ofNat 32 (fieldAt b 0 4))))
  else toFp (((fmtOf r.format).decode c).mul (fpOf r.scale))

/-- The FP32 values of a row. -/
def rowValues (r : EmbRec) (b : List Byte) : List Word := (List.range r.dim).map (rowValue r b)

/-- a ÷ b rounded once to FP32, for finite numbers with b not 0: the quotient is taken to 60 bits and a sticky bit. -/
def divFp (a b : Fv) : Word :=
  match a, b with
  | .num na ma ea, .num nb mb eb =>
    if mb = 0 then (if ma = 0 then 0x7FC00000 else toFp (.inf (na != nb)))
    else
      let k := 64 + Nat.log2 mb
      let q := ma * 2 ^ k / mb
      toFp (.num (na != nb) (2 * q + b2n (decide (ma * 2 ^ k % mb ≠ 0))) (ea - eb - k - 1))
  | .inf na, .num nb _ _ => toFp (.inf (na != nb))
  | .num na _ _, .inf nb => toFp (.num (na != nb) 0 0)
  | _, _ => 0x7FC00000

/-- The code of an updated element: FP32 value back to the table's format by RNE with SAT, under SCALE or the row's scale (R275). -/
def rowEncode (r : EmbRec) (rowScale : Word) (v : Word) : Nat :=
  if r.format = 0 then v.toNat
  else if r.format = 1 then bf16.encode (fpOf v)
  else if r.format = 10 then (int8Out (fpOf (divFp (fpOf v) (fpOf rowScale))) (ArithEv.none 0)).1
  else (fp8Out (fmtOf r.format) false 0 (fpOf (divFp (fpOf v) (fpOf r.scale))) (ArithEv.none 0)).1

/-- The bytes of a row with new FP32 values; its row scale and padding stay. -/
def rowRebuild (r : EmbRec) (b : List Byte) (vs : List Word) : List Byte :=
  let w := fmtWidth r.format / 8
  let hd := if r.format = 10 then b.take 4 else []
  let body := (vs.map fun v => leBytes w (rowEncode r (BitVec.ofNat 32 (fieldAt b 0 4)) v)).flatten
  hd ++ body ++ b.drop (hd.length + body.length)

/-- A whole row is written, in one access (R272), and for a SPARSE table its presence bit is set; the flag is false when a frame was
missing. -/
def writeRow (x : EmbEntry) (r : EmbRec) (i : Nat) (b : List Byte) (s : State) : Bool × State :=
  let s1 := writeObj x.ctx (hIndex r.base) (rowOffset r (rowLocal x i)) b s
  let j := rowLocal x i
  if r.sparse && s1.1 then
    let old := (objByte s1.2 (handleObj s1.2 x.ctx r.bitmap) (j / 8)).toNat
    writeObj x.ctx (hIndex r.bitmap) (j / 8) [BitVec.ofNat 8 (if bit old (j % 8) then old else old + 2 ^ (j % 8))] s1.2
  else s1

/-- A row's presence bit is cleared; its bytes stay (R272). -/
def deleteRow (x : EmbEntry) (r : EmbRec) (i : Nat) (s : State) : State :=
  let j := rowLocal x i
  if r.sparse then
    let old := (objByte s (handleObj s x.ctx r.bitmap) (j / 8)).toNat
    (writeObj x.ctx (hIndex r.bitmap) (j / 8) [BitVec.ofNat 8 (if bit old (j % 8) then old - 2 ^ (j % 8) else old)] s).2
  else s

/-! ### Hot copies (R268–R270) -/

/-- Bytes of a die's HOTROW units (R123). -/
def hotCapacity (d : Die) : Nat := 65536 * (d.tiles.map fun q => q.2.active.units.getD 4 0).foldl (· + ·) 0

/-- Bytes that a die's copies take. -/
def hotUsed (d : Die) : Nat := (d.hot.map fun h => h.bytes.length).foldl (· + ·) 0

/-- The die's copy of a row of a version. -/
def hotCopy (d : Die) (entry version i : Nat) : Option HotCopy :=
  d.hot.find? fun h => decide (h.entry = entry) && decide (h.version.toNat = version) && decide (h.row = i)

/-- A copy enters a die's HOTROW units, or is refused and counted (R268, R270). -/
def addHot (p : Nat) (h : HotCopy) (s : State) : State :=
  let d := getDie s p
  if d.hot.any fun k => decide (k.entry = h.entry) && decide (k.row = h.row) && decide (k.version = h.version) then
    modDie p (fun d => { d with hot := d.hot.map fun k =>
      if k.entry = h.entry ∧ k.row = h.row ∧ k.version = h.version then { k with replicated := k.replicated || h.replicated } else k }) s
  else if hotCapacity d < hotUsed d + h.bytes.length ∨ (h.replicated ∧ 4096 ≤ (d.hot.filter (·.replicated)).length) then bump (EMB_HOT_FULL p) s
  else modDie p (fun d => { d with hot := d.hot ++ [h] }) s

/-- A die drops its copies of a table's row or version that a test names. -/
def dropHot (p : Nat) (f : HotCopy → Bool) (s : State) : State :=
  modDie p (fun d => { d with hot := d.hot.filter fun h => !f h }) s

/-- A use of a copy by its die: the boundary at which it was last read (R270). -/
def readHot (p : Nat) (h : HotCopy) (boundary : Nat) (s : State) : State :=
  modDie p (fun d => { d with hot := d.hot.map fun k => if k = h then { k with lastRead := boundary } else k }) s

/-- No step that is built for the pan of a die waits or runs. -/
def dieAtBoundary (s : State) (p : Nat) : Bool := match (dieOfPan s p).bind (getPan s) with | some n => n.step.isNone | none => true

/-- A die at a step boundary drops its copies of versions that are no longer CURRENT: no built step of its pan reads them (R271). -/
def dropStale (s : State) (p : Nat) : State :=
  if dieAtBoundary s p then dropHot p (fun h => decide (h.version.toNat ≠ (getEmb s h.entry).cur.version)) s else s

end Sys2Proof.Machine
end

