-- ==== Sys2Proof/Machine/KvMap.lean ====
section
/-! DEFINITION. KV maps: the radix tree's nodes, the bytes of an entry's range of tokens, and input pages (R154, R191, R201, R247). -/

namespace Sys2Proof.Machine

/-! ### Nodes (R154, Table 5.8) -/

/-- A leaf entry with LOC 0. -/
def KvPage.absent : KvPage := { loc := 0, addr := 0, fp8 := false, crc := 0, scale := 0, remote := false }

/-- A page in tier 1 at a number of 256 KiB. -/
def KvPage.atPage (a : Nat) : KvPage := { KvPage.absent with loc := 1, addr := a * 0x40000 }

/-- The nodes on the way to page index i: the root, its middle node and its leaf node. -/
def nodesOf (i : Nat) : List Nat := [0, 1 + i / 65536 % 256, 257 + i / 256 % 65536]

/-- Where map nodes may lie: the last 120 MiB of the firmware region, which holds what else firmware keeps in tier 1 (R391;
notes/assumptions/170). -/
def nodeBase (s : State) : Option Nat := (regionBase s).map (· + 392 * 0x100000)

/-- Node places in use. -/
def nodesUsed (s : State) : List Nat := (s.seq.entries.filterMap fun p => p.2.map fun e => e.kvNodes.map (·.2)).flatten

/-- Entry i's map gets node k when it has none; none when the region has no place left. -/
def addNode (i : Nat) (s : State) (k : Nat) : Option State :=
  match getEntry s i with
  | none => some s
  | some e =>
    if (tkeys e.kvNodes).contains k then some s
    else match nodeBase s with
      | none => none
      | some b =>
        match (List.range 30720).find? fun j => !(nodesUsed s).contains (b + 4096 * j) with
        | none => none
        | some j => some (modEntry i (fun x => { x with kvNodes := tput 0 x.kvNodes k (b + 4096 * j) }) s)

/-- Entry i's map gets the nodes of a list. -/
def growNodes (i : Nat) (l : List Nat) (s : State) : Option State := l.foldlM (addNode i) s

/-- Nodes that a list of page indices needs. -/
def nodesFor (ps : List Nat) : List Nat := dedup (ps.map nodesOf).flatten

/-- Entry j of a node as a 128-bit number (Table 5.8): of a leaf node, a page; of another, its child when that exists. -/
def nodeWord (map : Tab KvPage) (nodes : Tab Nat) (loc k j : Nat) : Nat :=
  if 257 ≤ k then
    let p := tget KvPage.absent map (256 * (k - 257) + j)
    p.loc + 4 * b2n p.fp8 + p.addr / 4096 * 4096 + 2 ^ 64 * p.crc.toNat + 2 ^ 96 * p.scale.toNat
  else
    let a := tget 0 nodes (if k = 0 then 1 + j else 257 + 256 * (k - 1) + j)
    if a = 0 then 0 else loc + a / 4096 * 4096

/-- The 4,096 bytes of a node. -/
def nodeBytes (map : Tab KvPage) (nodes : Tab Nat) (loc k : Nat) : List Byte :=
  ((List.range 256).map fun j => leBytes 16 (nodeWord map nodes loc k j)).flatten

/-- KV_ROOT (Table 7.1). -/
def SeqEntry.kvRoot (e : SeqEntry) : Nat := tget 0 e.kvNodes 0

/-! ### What a KV descriptor covers (R154, R201, R247, R248) -/

/-- The pieces of a range, in the order of the page index: page, offset within the page, and bytes (R154). The draft state page is one piece. -/
def kvPieces (r : KvRange) (length : Nat) : List (Nat × Nat × Nat) :=
  if r.draft then [(0xFFFFFF, 65536 * r.first, length)]
  else if r.stop ≤ r.first then []
  else
    let b0 := r.first / max 1 r.tpp
    ((List.range ((r.stop - 1) / max 1 r.tpp + 1 - b0)).map fun k => (List.range r.lg).map fun g =>
      let lo := max r.first ((b0 + k) * r.tpp)
      let hi := min r.stop ((b0 + k + 1) * r.tpp)
      ((b0 + k) * r.lg + g, (lo - (b0 + k) * r.tpp) * r.bytes, (hi - lo) * r.bytes)).flatten

/-- The page and offset of byte k of pieces. -/
def pieceAt : List (Nat × Nat × Nat) → Nat → Option (Nat × Nat)
  | [], _ => none
  | (p, o, n) :: r, k => if k < n then some (p, o + k) else pieceAt r (k - n)

/-- Device address of byte k of a KV descriptor's range: through the sequence's map (R146, R154); none where the page is absent. -/
def kvAddr (s : State) (r : KvRange) (length k : Nat) : Option Nat :=
  match getEntry s r.index with
  | none => none
  | some e =>
    match pieceAt (kvPieces r length) k with
    | none => none
    | some (p, o) =>
      let x := tget KvPage.absent e.kvMap p
      if x.loc = 1 ∧ !x.remote then some (x.addr + o) else none

/-! ### Input pages (R191) -/

/-- Device address of the k-th token of input not yet prefilled. -/
def SeqEntry.inputAddr (e : SeqEntry) (k : Nat) : Nat :=
  e.inputPages.getD ((e.inputAt + k) / 65536) 0 * 0x40000 + 4 * ((e.inputAt + k) % 65536)

/-- Tokens are written to an entry's input pages from its k-th token on, as INT32. -/
def pokeInput (e : SeqEntry) : Nat → List Word → Mem → Mem
  | _, [], m => m
  | k, t :: ts, m => pokeInput e (k + 1) ts (memWrite m (e.inputAddr k) (leBytes 4 t.toNat))

/-- Input pages that n tokens after those used up of the first page need. -/
def inputPagesNeed (at' n : Nat) : Nat := if n = 0 then 0 else ceilDiv (at' + n) 65536

/-- n tokens of an entry's input are used up: whole pages are given back with the last of them; the pages and the entry (R191). -/
def SeqEntry.useInput (e : SeqEntry) (n : Nat) : List Nat × SeqEntry :=
  let rest := e.input.drop n
  let at' := e.inputAt + min n e.input.length
  let k := if rest.isEmpty then e.inputPages.length else at' / 65536
  (e.inputPages.take k, { e with
    input := rest, inputPages := e.inputPages.drop k, inputAt := if rest.isEmpty then 0 else at' % 65536, inputPending := e.inputPending - n })

end Sys2Proof.Machine
end

