-- ==== Sys2Proof/Machine/Image.lean ====
section
/-! DEFINITION. Configuration images: their layout (R99–R102, R123, R192, R451) and the checks of CFG_LOAD in the order of Table 4.4. -/

namespace Sys2Proof.Machine

/-! ### Layout -/

/-- The image header (Table 4.1). -/
structure ImgHdr where
  magic : Nat
  major : Nat
  flags : Nat
  w : Nat
  h : Nat
  model : Nat
  records : Nat
  dieOff : Nat
  partOff : Nat
  costOff : Nat
  bytes : Nat
deriving DecidableEq, Repr

/-- The header of an image. -/
def imgHdr (b : List Byte) : ImgHdr :=
  { magic := fieldAt b 0 4, major := fieldAt b 5 1, flags := fieldAt b 6 2, w := fieldAt b 8 1, h := fieldAt b 9 1,
    model := fieldAt b 0x0A 2 % 1024, records := fieldAt b 0x0C 4, dieOff := fieldAt b 0x10 4, partOff := fieldAt b 0x14 4,
    costOff := fieldAt b 0x18 4, bytes := fieldAt b 0x20 8 }

/-- KIND of an image: 0 prefill, 1 decode, 2 draft, 3 verify. -/
def ImgHdr.kind (h : ImgHdr) : Nat := bits h.flags 2 2

/-- A die section: dx, dy, record count and offset. -/
structure DieSect where
  dx : Nat
  dy : Nat
  count : Nat
  off : Nat
deriving DecidableEq, Repr

/-- The die section table. -/
def dieSects (b : List Byte) (h : ImgHdr) : List DieSect :=
  (List.range (h.w * h.h)).map fun k =>
    let o := h.dieOff + 16 * k
    { dx := fieldAt b o 1, dy := fieldAt b (o + 1) 1, count := fieldAt b (o + 4) 4, off := fieldAt b (o + 8) 8 }

/-- A tile record: its place and raw plane, and whether its CRC-32C holds. -/
structure TileRec where
  dx : Nat
  dy : Nat
  col : Nat
  row : Nat
  kind : Nat
  units : Nat
  raw : List Byte
  crcOk : Bool
deriving DecidableEq, Repr

/-- n records of a die from an offset; none where one lies beyond the image. -/
def tileRecs (b : List Byte) (d : DieSect) : Nat → Nat → Option (List TileRec)
  | 0, _ => some []
  | n + 1, o =>
    let u := fieldAt b (o + 4) 2
    if b.length < o + 12 + 64 * u then none
    else
      let raw := bytesAt b (o + 8) (64 * u)
      (tileRecs b d n (o + 12 + 64 * u)).map fun r =>
        { dx := d.dx, dy := d.dy, col := fieldAt b o 1, row := fieldAt b (o + 1) 1, kind := fieldAt b (o + 2) 1, units := u, raw := raw,
          crcOk := decide (fieldAt b (o + 8 + 64 * u) 4 = crc32c raw) } :: r

/-- A route entry's fields (R101). -/
def parseRoute (x : Nat) : Route :=
  { type := BitVec.ofNat 2 x, outPort := BitVec.ofNat 3 (x / 4), outVq := BitVec.ofNat 2 (x / 32), elastic := bit x 7,
    index := BitVec.ofNat 3 (x / 256) }

/-- A signed byte. -/
def signedByte (x : Nat) : Int := if 128 ≤ x then (x : Int) - 256 else x

/-- An elastic queue descriptor (Table 4.11). -/
def parseEq (b : List Byte) : EqDesc :=
  { entryPort := BitVec.ofNat 3 (fieldAt b 0 1), entryVq := BitVec.ofNat 2 (fieldAt b 0 1 / 8), termPort := BitVec.ofNat 3 (fieldAt b 1 1),
    termVq := BitVec.ofNat 2 (fieldAt b 1 1 / 8), termCol := fieldAt b 2 1, termRow := fieldAt b 3 1, termDx := signedByte (fieldAt b 4 1),
    termDy := signedByte (fieldAt b 5 1), base := fieldAt b 8 4, size := fieldAt b 12 4 }

/-- A named port and VQ of an operation: none for port 7. -/
def parsePq (x : Nat) : Option Nat := if x % 8 = 7 then none else some (4 * (x % 8) + x / 8 % 4)

/-- An operation record (Table 4.3). Port codes above 4 stay visible in the key. Inputs and outputs are sets (R49): a port and VQ that is named twice counts
once (notes/assumptions/179). -/
def parseOp (b : List Byte) : Op :=
  { func := BitVec.ofNat 16 (fieldAt b 0 2), cnt := bit (fieldAt b 2 1) 0, fwdEol := bit (fieldAt b 2 1) 1, next := b.getD 3 0,
    inputs := dedup ((List.range 4).filterMap fun k => parsePq (fieldAt b (4 + k) 1)),
    outputs := dedup ((List.range 8).filterMap fun k => parsePq (fieldAt b (8 + k) 1)),
    ncw := (List.range 4).map fun k => BitVec.ofNat 32 (fieldAt b (16 + 4 * k) 4),
    param := (List.range 4).map fun k => BitVec.ofNat 32 (fieldAt b (32 + 4 * k) 4),
    args := bytesAt b 48 16 }

/-- A table of parsed things, without those that equal the default. -/
def tabOf {α : Type} [DecidableEq α] (d : α) (l : List α) : Tab α := l.zipIdx.foldl (fun t p => tput d t p.2 p.1) []

/-- A tile plane (Table 4.2) with the tile's tier-0 units. -/
def parsePlane (b : List Byte) (units : List Nat) : Plane :=
  { progLen := fieldAt b 0 1 % 128, modes := (List.range 4).map fun k => b.getD (4 + k) 0,
    limits := (List.range 4).map fun k => fieldAt b (8 + 4 * k) 4, endTarget := (List.range 4).map fun k => b.getD (24 + k) 0,
    routes := tabOf Route.term ((List.range 20).map fun k => parseRoute (fieldAt b (0x40 + 4 * k) 4)),
    eqDescs := tabOf EqDesc.unused ((List.range 8).map fun k => parseEq (bytesAt b (0x100 + 16 * k) 16)),
    ags := (List.range 4).map fun g => (List.range 6).map fun k => fieldAt b (0x180 + 64 * g + 8 * k) 8,
    ops := (List.range (fieldAt b 0 1 % 128)).map fun k => parseOp (bytesAt b (0x280 + 64 * k) 64),
    consts := tabOf 0 (bytesAt b 0x1280 19840), units := units }

/-- The seven unit counts of T tile t of die section d, with the units not assigned counted as SCRATCH (R123). -/
def partUnits (b : List Byte) (h : ImgHdr) (d t : Nat) : List Nat :=
  let u := (List.range 7).map fun k => fieldAt b (h.partOff + 8 * (144 * d + t) + k) 1
  u.set 6 (u.getD 6 0 + (20 - u.foldl (· + ·) 0))

/-- The sum of the bytes of a partition entry, which R123 bounds; the reserved eighth byte counts among them (notes/assumptions/180). -/
def partSum (b : List Byte) (h : ImgHdr) (d t : Nat) : Nat :=
  ((List.range 8).map fun k => fieldAt b (h.partOff + 8 * (144 * d + t) + k) 1).foldl (· + ·) 0

/-- The Guend cost table (Table 7.5). -/
def parseCost (b : List Byte) (h : ImgHdr) : CostTable :=
  let f (o n : Nat) : Nat := fieldAt b (h.costOff + o) n
  { baseNs := f 0 4, tokNs := f 4 4, ctxNs := f 8 4, maxRows := f 0x0C 2, rowGranule := f 0x0E 2, maxTokens := f 0x10 4, chunkMax := f 0x14 4,
    tpp := f 0x18 2, lg := f 0x1A 2, kvBytes := f 0x1C 4, kvPort := f 0x20 1, verifyMax := f 0x21 1, commands := f 0x22 1, maxCmdNs := f 0x24 4 }

/-- A tile of the image with its parsed plane. -/
structure ImgTile where
  dx : Nat
  dy : Nat
  col : Nat
  row : Nat
  plane : Plane
  raw : List Byte
deriving DecidableEq, Repr

/-- The parsed image: header, tiles with records, and every die section's T-tile units. -/
structure Img where
  hdr : ImgHdr
  tiles : List ImgTile
  cost : CostTable
deriving DecidableEq, Repr

/-! ### Malformed images and records (0x0001 to 0x0003) -/

/-- DETAIL 0x0001. -/
def imgMalformed (b : List Byte) (size : Nat) : Bool :=
  let h := imgHdr b
  let ds := dieSects b h
  decide (h.magic ≠ 0x43464E59) || decide (h.major ≠ 1) || decide (h.bytes ≠ size) || decide (h.bytes < h.dieOff + 16 * (h.w * h.h))
    || decide (h.bytes < h.partOff + 8 * 144 * (h.w * h.h)) || decide (h.bytes < h.costOff + 64)
    || ds.any (fun d => decide (h.w ≤ d.dx) || decide (h.h ≤ d.dy)) || !decide ((ds.map fun d => (d.dx, d.dy)).Nodup)
    || decide (h.records ≠ (ds.map (·.count)).foldl (· + ·) 0) || ds.any fun d => (tileRecs b d d.count d.off).isNone

/-- Every tile record of an image. -/
def allRecs (b : List Byte) : List TileRec :=
  ((dieSects b (imgHdr b)).map fun d => (tileRecs b d d.count d.off).getD []).flatten

/-- DETAIL 0x0003. -/
def recsBad (rs : List TileRec) : Bool :=
  rs.any (fun r => !r.crcOk || decide (15 < r.col) || decide (19 < r.row) || decide (r.kind ≠ kindAt r.col r.row) || decide (r.units = 0)
      || decide (384 < r.units))
    || !decide ((rs.map fun r => (r.dx, r.dy, r.col, r.row)).Nodup)

/-- The parsed image; a tile's units come from the partition entry of its die section. -/
def parseImg (b : List Byte) : Img :=
  let h := imgHdr b
  let ds := dieSects b h
  { hdr := h, cost := parseCost b h,
    tiles := (allRecs b).map fun r =>
      let d := ds.findIdx fun d => decide (d.dx = r.dx) && decide (d.dy = r.dy)
      let u := if kindAt r.col r.row = 3 then partUnits b h d (tTiles.findIdx fun x => decide (x = (r.col, r.row))) else [0, 0, 0, 0, 0, 0, 0]
      { dx := r.dx, dy := r.dy, col := r.col, row := r.row, plane := parsePlane r.raw u, raw := r.raw } }

/-! ### Programs (0x0013) -/

/-- Input and output counts of a function (Table 4.12): least and most inputs, least and most outputs; none for a code that the kind
does not list. Where the owning rule gives the counts, any that an operation can name pass. -/
def fnCounts (kind f : Nat) (flush : Bool) : Option (Nat × Nat × Nat × Nat) :=
  match kind with
  | 0 => if f = 1 then (if flush then some (1, 1, 1, 1) else some (1, 1, 0, 0)) else if f = 2 then some (0, 0, 0, 0)
    else if f = 3 then some (1, 1, 0, 0) else if f = 4 then some (0, 0, 1, 8) else none
  | 1 => if f = 1 then some (2, 2, 0, 0) else if f = 2 then some (3, 3, 1, 8) else none
  | 2 =>
    if f = 3 then some (3, 3, 1, 8) else if 1 ≤ f ∧ f ≤ 5 then some (2, 2, 1, 8) else if f = 6 then some (1, 1, 0, 0)
    else if f = 7 then some (0, 0, 1, 8) else if 0x10 ≤ f ∧ f ≤ 0x1C then some (1, 1, 1, 8) else if f = 0x23 then some (1, 2, 1, 8)
    else if 0x20 ≤ f ∧ f ≤ 0x26 then some (1, 1, 1, 8) else if f = 0x30 ∨ f = 0x31 then some (1, 1, 1, 8)
    else if f = 0x32 then some (1, 3, 1, 8) else if f = 0x40 ∨ f = 0x41 then some (0, 4, 0, 8) else none
  | 3 => if f = 1 then some (1, 1, 0, 0) else if f = 2 then some (0, 0, 1, 8) else none
  | 4 => if f = 0x40 ∨ f = 0x41 then some (0, 4, 0, 8) else if f = 0x50 then some (1, 1, 1, 8) else if f = 0x51 then some (2, 2, 1, 8) else none
  | _ => none

/-- An operation breaks Table 4.12 for its tile's kind. -/
def opBad (kind : Nat) (o : Op) : Bool :=
  if o.isEmpty then false
  else match fnCounts kind o.func.toNat (o.ncw.any fun w => decide (ncwFlush w ≠ 0)) with
    | none => true
    | some (a, b, c, d) => decide (o.inputs.length < a) || decide (b < o.inputs.length) || decide (o.outputs.length < c) || decide (d < o.outputs.length)

/-- A target at or above PROG_LEN and not DONE (R46). -/
def targetBad (n x : Nat) : Bool := decide (n ≤ x) && decide (x ≠ 0xFF)

/-- DETAIL 0x0013 for one tile. -/
def progBad (t : ImgTile) : Bool :=
  let p := t.plane
  decide (p.progLen = 0) || decide (64 < p.progLen) || p.modes.any (fun m => decide (2 < m.toNat))
    || p.live.any (fun o => opBad (kindAt t.col t.row) o || targetBad p.progLen o.next.toNat)
    || (List.range 4).any fun l => decide (p.mode l ≠ 0) && targetBad p.progLen (p.endTarget.getD l 0).toNat

/-! ### Routes (0x0004 to 0x0007) -/

/-- Where a path of the image ends. -/
inductive TraceEnd where
  | queue (tile : Nat × Nat × Nat × Nat) (key : Nat)
  | unused
  | nowhere
  | streamPort
  | loop
deriving DecidableEq, Repr

/-- The tile of an image at a place. -/
def Img.at (g : Img) (x : Nat × Nat × Nat × Nat) : Option ImgTile :=
  g.tiles.find? fun t => decide ((t.dx, t.dy, t.col, t.row) = x)

/-- The route entry of an image's tile; a bystander's entries are zeros. -/
def Img.route (g : Img) (x : Nat × Nat × Nat × Nat) (key : Nat) : Route :=
  match g.at x with | some t => tget Route.term t.plane.routes key | none => Route.term

/-- The tile and input port across a port, inside the pan. An interface on the pan's edge has no die of the pan behind it: a route to it counts as one to an
unconnected port (R34; notes/assumptions/181). -/
def Img.across (g : Img) (x : Nat × Nat × Nat × Nat) (port : Nat) : Option ((Nat × Nat × Nat × Nat) × Nat) :=
  let (dx, dy, c, r) := x
  match innerNeighbour c r port with
  | some (c', r') => some ((dx, dy, c', r'), facing port)
  | none =>
    if isInterface c r port then
      match port with
      | 0 => if 0 < dy then some ((dx, dy - 1, c, 19), 2) else none
      | 1 => if dx + 1 < g.hdr.w then some ((dx + 1, dy, 0, r), 3) else none
      | 2 => if dy + 1 < g.hdr.h then some ((dx, dy + 1, c, 0), 0) else none
      | 3 => if 0 < dx then some ((dx - 1, dy, 15, r), 1) else none
      | _ => none
    else none

/-- What a flit that leaves a tile by an output key reaches (R37), and what a flit that arrives at an input key reaches. -/
def traceIn (g : Img) : Nat → (Nat × Nat × Nat × Nat) → Nat → List TraceEnd
  | 0, _, _ => [.loop]
  | fuel + 1, x, key =>
    let r := g.route x key
    let onward : List TraceEnd :=
      if r.outPort = 4 then (if hasPortX x.2.2.1 x.2.2.2 then [.streamPort] else [.nowhere])
      else match g.across x r.outPort.toNat with
        | some (y, ip) => traceIn g fuel y (4 * ip + r.outVq.toNat)
        | none => [.nowhere]
    match r.type.toNat with
    | 0 => [.queue x key]
    | 1 => onward
    | 2 => .queue x key :: onward
    | _ => [.unused]

/-- The path from an output key. -/
def traceOut (g : Img) (fuel : Nat) (x : Nat × Nat × Nat × Nat) (key : Nat) : List TraceEnd :=
  if key / 4 = 4 then (if hasPortX x.2.2.1 x.2.2.2 then [.streamPort] else [.nowhere])
  else match g.across x (key / 4) with
    | some (y, ip) => traceIn g fuel y (4 * ip + key % 4)
    | none => [.nowhere]

/-- More hops than a path without a loop can have. -/
def Img.fuel (g : Img) : Nat := 20 * g.tiles.length + 1

/-- Place of a tile. -/
def ImgTile.place (t : ImgTile) : Nat × Nat × Nat × Nat := (t.dx, t.dy, t.col, t.row)

/-- Edges of the tile graph (R452), by place. -/
def Img.edges (g : Img) : List ((Nat × Nat × Nat × Nat) × (Nat × Nat × Nat × Nat)) :=
  let nodes := g.tiles.filter fun t => t.plane.hasProgram
  (nodes.map fun t => ((t.plane.outputSet.map (traceOut g g.fuel t.place)).flatten.filterMap fun e => match e with
    | .queue y _ => if nodes.any fun u => decide (u.place = y) then some (t.place, y) else none
    | _ => none)).flatten

/-- Nodes that still have an edge into them after n rounds of removing those that have none: empty when the graph has no cycle. -/
def peel {α : Type} [DecidableEq α] (edges : List (α × α)) : Nat → List α → List α
  | 0, ns => ns
  | n + 1, ns =>
    let keep := ns.filter fun x => edges.any fun e => decide (e.2 = x) && ns.contains e.1
    if keep.length = ns.length then ns else peel edges n keep

/-- DETAIL 0x0004: a cycle of tiles, or a route that never ends. -/
def graphCyclic (g : Img) : Bool :=
  let nodes := (g.tiles.filter fun t => t.plane.hasProgram).map ImgTile.place
  !(peel g.edges (nodes.length + 1) nodes).isEmpty

/-- Queues that paths from the port-X inputs reach, through the programs of the tiles they enter. -/
def reachX (g : Img) : Nat → List ((Nat × Nat × Nat × Nat) × Nat) → List ((Nat × Nat × Nat × Nat) × Nat)
  | 0, qs => qs
  | n + 1, qs =>
    let new := (g.tiles.filter fun t => t.plane.hasProgram && t.plane.inputSet.any fun k => qs.contains (t.place, k)).map fun t =>
      ((t.plane.outputSet.map (traceOut g g.fuel t.place)).flatten.filterMap fun e => match e with | .queue y k => some (y, k) | _ => none)
    let add := new.flatten.foldl (fun (r : List ((Nat × Nat × Nat × Nat) × Nat)) q => if qs.contains q || r.contains q then r else r ++ [q]) []
    if add.isEmpty then qs else reachX g n (qs ++ add)

/-- Queues that flits from the stream ports reach directly. -/
def startX (g : Img) : List ((Nat × Nat × Nat × Nat) × Nat) :=
  let dies := (g.tiles.map fun t => (t.dx, t.dy)).eraseDups
  ((dies.map fun d => (streamTiles.map fun c => (List.range 4).map fun vq =>
    (traceIn g g.fuel (d.1, d.2, c.1, c.2) (16 + vq)).filterMap fun e => match e with | .queue y k => some (y, k) | _ => none).flatten.flatten).flatten).eraseDups

/-- DETAIL 0x0005. -/
def inputsUnreached (g : Img) : Bool :=
  let qs := reachX g (20 * g.tiles.length + 1) (startX g)
  (g.tiles.filter fun t => t.plane.hasProgram).any fun t => t.plane.inputSet.isEmpty || t.plane.inputSet.any fun k => !qs.contains (t.place, k)

/-- Output keys that route entries of a plane drive. -/
def routeOuts (p : Plane) : List Nat :=
  ((List.range 20).map fun k => tget Route.term p.routes k).filterMap fun r =>
    if r.type = 1 ∨ r.type = 2 then some (4 * r.outPort.toNat + r.outVq.toNat) else none

/-- DETAIL 0x0006 (R38). -/
def twoDrivers (t : ImgTile) : Bool :=
  let outs := routeOuts t.plane
  !decide outs.Nodup || outs.any fun o => t.plane.outputSet.contains o

/-- A port code that may not stand in a route entry or an operation of a tile (R101). -/
def portBad (col row port : Nat) : Bool := decide (4 < port) || (decide (port = 4) && !hasPortX col row)

/-- DETAIL 0x0007. -/
def routesBad (g : Img) : Bool :=
  g.tiles.any fun t =>
    ((List.range 20).any fun k =>
      let r := tget Route.term t.plane.routes k
      decide (r.outPort.toNat = 5) || decide (r.outPort.toNat = 6)
        || ((decide (r.type = 1) || decide (r.type = 2)) && (portBad t.col t.row r.outPort.toNat
            || (decide (r.outPort ≠ 4) && match g.across t.place r.outPort.toNat with
                | none => true
                | some (y, ip) => decide ((g.route y (4 * ip + r.outVq.toNat)).type = 3)))))
      || (t.plane.live.filter fun o => !o.isEmpty).any fun o =>
          (o.inputs ++ o.outputs).any (fun k => portBad t.col t.row (k / 4))
            || o.outputs.any fun k => (traceOut g g.fuel t.place k).any fun e => decide (e = .unused) || decide (e = .nowhere)

/-! ### Words, arguments and compatibility (0x0008 to 0x0012) -/

/-- DETAIL 0x0008. -/
def countZero (t : ImgTile) : Bool := (List.range 4).any fun l => decide (t.plane.mode l = 1) && decide (t.plane.limits.getD l 0 = 0)

/-- DETAIL 0x0009. -/
def wordsBad (t : ImgTile) : Bool :=
  let kind := kindAt t.col t.row
  (t.plane.live.filter fun o => !o.isEmpty).any fun o =>
    let product := decide (kind = 0) && decide (o.func = 1)
    o.ncw.any fun w => ncwBad kind product w || (product && decide (pairRate (ncwFmtA w) (ncwFmtB w) = 0))

/-- Formats that compatibility mode knows: BF16, E4M3, INT8 (R60). -/
def compatFmt (c : Nat) : Bool := decide (c = 1) || decide (c = 2) || decide (c = 10)

/-- A numeric control word of an operation names a format outside compatibility mode (R60). An M-tile operation other than MM_PRODUCT ignores FMT_A and
FMT_B (R452); FMT_B is 0 where the function has one operand (Table 3.4). -/
def compatWordBad (kind : Nat) (o : Op) (w : Word) : Bool :=
  let product := decide (kind = 0) && decide (o.func = 1)
  let two := product || (decide (2 ≤ o.inputs.length) && decide (o.func ≠ 0x23))
  !compatFmt (ncwFmtOut w)
    || ((product || decide (kind = 2)) && (!compatFmt (ncwFmtA w) || !(compatFmt (ncwFmtB w) || (!two && decide (ncwFmtB w = 0)))))

/-- DETAIL 0x000A (R60). -/
def compatBad (t : ImgTile) : Bool :=
  let kind := kindAt t.col t.row
  (t.plane.live.filter fun o => !o.isEmpty).any fun o =>
    decide (kind = 1) || (decide (kind = 4) && decide (o.func = 0x50)) || (decide (kind = 0 ∨ kind = 2) && o.ncw.any (compatWordBad kind o))

/-- DETAIL 0x0010 (R238). -/
def moeBad (o : Op) : Bool :=
  let e := o.arg 0 + 1
  let k := o.arg 1 % 16
  decide (k < 1) || decide (8 < k) || decide (e < k) || decide (fieldAt o.args 2 2 = 0) || decide (fieldAt o.args 4 2 = 0)
    || decide (fieldAt o.args 6 2 < fieldAt o.args 4 2) || decide (8192 < fieldAt o.args 6 2)

/-- Operations of a function of a tile kind. -/
def Img.opsOf (g : Img) (kind f : Nat) : List Op :=
  ((g.tiles.filter fun t => decide (kindAt t.col t.row = kind)).map fun t => t.plane.live.filter fun o => decide (o.func.toNat = f)).flatten

/-- DETAIL 0x0011 (R247). -/
def draftBad (g : Img) : Bool :=
  decide (2 ≤ g.hdr.kind) && decide (g.cost.tpp ≠ 0) && decide (g.cost.lg ≠ 0) && decide (0xFFFFFF < ceilDiv 2097152 g.cost.tpp * g.cost.lg)

/-! ### Elastic queues, partition, cost table (0x000B to 0x000D) -/

/-- Used descriptors of a tile. -/
def usedEqs (t : ImgTile) : List (Nat × EqDesc) := t.plane.eqDescs.filter fun p => decide (0 < p.2.size)

/-- The tile that owns a descriptor's queue. -/
def eqOwner (t : ImgTile) (e : EqDesc) : Option (Nat × Nat × Nat × Nat) :=
  let dx := (t.dx : Int) + e.termDx
  let dy := (t.dy : Int) + e.termDy
  if 0 ≤ dx ∧ 0 ≤ dy then some (dx.toNat, dy.toNat, e.termCol, e.termRow) else none

/-- A used descriptor fails R451. -/
def eqBad (g : Img) (t : ImgTile) (i : Nat) (e : EqDesc) : Bool :=
  let entry := 4 * e.entryPort.toNat + e.entryVq.toNat
  let term := 4 * e.termPort.toNat + e.termVq.toNat
  decide (3 < e.entryPort.toNat) || decide (4 < e.termPort.toNat) || decide (16 < e.size)
    || decide (16 * t.plane.units.getD 2 0 < e.base + e.size)
    || (usedEqs t).any (fun p => decide (p.1 ≠ i) && decide (p.2.base < e.base + e.size) && decide (e.base < p.2.base + p.2.size))
    || match eqOwner t e with
      | none => true
      | some y =>
        let r := g.route y term
        !r.elastic || decide (r.index.toNat ≠ i) || decide (r.type ≠ 0)
          || !(traceIn g g.fuel t.place entry).contains (.queue y term)
          || (decide ((g.route t.place entry).type = 0) && !(decide (y = t.place) && decide (entry = term)))

/-- DETAIL 0x000B (R45, R451). -/
def elasticBad (g : Img) : Bool :=
  g.tiles.any (fun t =>
    if kindAt t.col t.row = 3 then (usedEqs t).any fun p => eqBad g t p.1 p.2
    else decide (leNat (bytesAt t.raw 0x100 128) ≠ 0))
  || g.tiles.any fun t => (List.range 20).any fun k =>
      let r := tget Route.term t.plane.routes k
      decide (r.type = 0) && r.elastic && decide ((((g.tiles.filter fun u => decide (kindAt u.col u.row = 3)).map fun u =>
        (usedEqs u).filter fun p => decide (p.1 = r.index.toNat) && decide (eqOwner u p.2 = some t.place)
          && decide (4 * p.2.termPort.toNat + p.2.termVq.toNat = k)).flatten).length ≠ 1)

/-- R192's conditions on a cost table. -/
def costBad (c : CostTable) : Bool :=
  decide (c.maxRows = 0) || decide (8192 < c.maxRows) || decide (c.rowGranule = 0) || decide (c.maxRows % c.rowGranule ≠ 0)
    || decide (2000000 < c.maxCmdNs) || decide (c.tpp = 0) || decide (c.lg = 0) || decide (262144 < c.tpp * c.kvBytes)

/-- Units of a class over the T tiles of a die section. -/
def classUnits (b : List Byte) (h : ImgHdr) (d cls : Nat) : Nat :=
  ((List.range 144).map fun t => (partUnits b h d t).getD cls 0).foldl (· + ·) 0

/-- DETAIL 0x000C (R123, R124, R192, R227, R261). -/
def partBad (s : State) (b : List Byte) (g : Img) : Bool :=
  let n := g.hdr.w * g.hdr.h
  (List.range n).any (fun d => (List.range 144).any (fun t => decide (20 < partSum b g.hdr d t))
    || decide (classUnits b g.hdr d 3 < adapterUnits s g.hdr.model g.hdr.kind (bytesAt b 0x30 8) n))
    || (g.opsOf 4 0x50).any (fun o => decide (fieldAt o.args 2 2 * 65536 < 4 * embDim s (fieldAt o.args 0 2)))
    || costBad g.cost

/-- DETAIL 0x000D. -/
def spillBad (b : List Byte) (g : Img) : Bool := (List.range (g.hdr.w * g.hdr.h)).any fun d => decide (classUnits b g.hdr d 5 < 64)

/-- The first condition of Table 4.4 that an image of `size` bytes fails for a pan; none when it may be loaded. -/
def imgCheck (s : State) (c : CtxId) (p : Pan) (b : List Byte) (size : Nat) : Option Nat :=
  let h := imgHdr b
  let rs := allRecs b
  let g := parseImg b
  if imgMalformed b size then some 1
  else if h.w ≠ p.w ∨ h.h ≠ p.h ∨ bit h.flags 0 ≠ p.compat then some 2
  else if recsBad rs then some 3
  else if g.tiles.any progBad then some 0x13
  else if graphCyclic g then some 4
  else if inputsUnreached g then some 5
  else if g.tiles.any twoDrivers then some 6
  else if routesBad g then some 7
  else if g.tiles.any countZero then some 8
  else if g.tiles.any wordsBad then some 9
  else if p.compat && g.tiles.any compatBad then some 0xA
  else if (g.opsOf 4 0x40).any moeBad then some 0x10
  else if draftBad g then some 0x11
  else if (g.opsOf 4 0x50).any fun o => !embUsable s c (fieldAt o.args 0 2) then some 0x12
  else if elasticBad g then some 0xB
  else if partBad s b g then some 0xC
  else if spillBad b g then some 0xD
  else if p.logical.any (unavailable s) then some 0xE
  else none

end Sys2Proof.Machine
end

