-- ==== Sys2Proof/Machine/ModelOps.lean ====
section
/-! DEFINITION. The images of model entries (R98, R192, R215). -/

namespace Sys2Proof.Machine

/-- The bytes of an object that context c names by a handle. -/
def handleBytes (s : State) (c : CtxId) (h : Nat) : List Byte :=
  let o := storageOf s (getObj s c (hIndex h))
  objBytes s o 0 o.size

/-- The cost table of a kind's image of a version record; zeros when it has none. -/
def verCost (s : State) (c : CtxId) (v : VerRec) (kind : Nat) : CostTable :=
  let h := v.images.getD kind 0
  let b := if h = 0 then [] else handleBytes s c h
  parseCost b (imgHdr b)

/-- TPP and LG of a model entry's KV map (R154, R192): those of its decode image, else of its verify or prefill image. -/
def modelKv (s : State) (e : Nat) : Nat × Nat :=
  let x := getModel s e
  let v := x.cur
  let k := ([1, 3, 0].find? fun k => decide (v.images.getD k 0 ≠ 0)).getD 2
  ((verCost s x.ctx v k).tpp, (verCost s x.ctx v k).lg)

end Sys2Proof.Machine
end

