-- ==== Sys2Proof/Machine/Transcode.lean ====
section
/-! DEFINITION. KV transcoding between BF16 and scaled E4M3 (R156). -/

namespace Sys2Proof.Machine

/-- The BF16 codes of bytes, two at a time. -/
def bf16Codes : List Byte → List Nat
  | a :: b :: r => (a.toNat + 256 * b.toNat) :: bf16Codes r
  | _ => []

/-- The page's scale exponent: ⌈log2(amax ÷ 448)⌉, clamped to −124 to 120; a page without a finite value other than 0 takes −124
(notes/assumptions/42). -/
def pageScale (vs : List Fv) : Int :=
  let a := amaxOf vs
  if a.1 = 0 then -124 else max (-124) (min 120 (ceilLog2Quot a.1 a.2 448 0))

/-- The E4M3 code of a BF16 code under a scale exponent (R80, R156): to nearest even with saturation, infinity as ±448, NaN as 0x7F. -/
def transcodeElem (s : Int) (x : Nat) : Byte :=
  match bf16.decode x with
  | .nan => 0x7F
  | v => BitVec.ofNat 8 (fp8Out e4m3 false 0 (v.scale (-s)) (ArithEv.none 0)).1

/-- The BF16 code of an E4M3 code under a scale exponent (R156): exact, above the maximum finite value that value with the sign, and
0x7F the canonical NaN. -/
def expandElem (s : Int) (b : Byte) : Nat :=
  match (e4m3.decode b.toNat).scale s with
  | .num neg m e => if dyLe m e bf16.maxFinite.1 bf16.maxFinite.2 then bf16.encode (.num neg m e) else bf16.pack neg bf16.maxFinite.1 bf16.maxFinite.2
  | v => bf16.encode v

/-- A transcoded page: its scale as an E8M0 code (R68, Table 5.8), and its bytes. -/
def transcodePage (b : List Byte) : BitVec 8 × List Byte :=
  let cs := bf16Codes b
  let s := pageScale (cs.map bf16.decode)
  (BitVec.ofInt 8 (s + 127), cs.map (transcodeElem s))

/-- The bytes that a transcoded page expands to. -/
def expandPage (s : BitVec 8) (b : List Byte) : List Byte := (b.map fun c => leBytes 2 (expandElem (s.toNat - 127 : Int) c)).flatten

end Sys2Proof.Machine
end

