-- ==== Sys2Proof/Machine/Serve.lean ====
section
/-! DEFINITION. The active sequence table: admission, lifecycle, pause, resume and cancellation (R186–R197, R205–R209). -/

namespace Sys2Proof.Machine

/-! ### Entries and KV pages (R144, R154, R186–R189) -/

/-- Live entries with their indices. -/
def liveEntries (s : State) : List (Nat × SeqEntry) := s.seq.entries.filterMap fun p => p.2.map fun e => (p.1, e)

/-- The entry of a context's handle. -/
def findEntry (s : State) (c : CtxId) (h : Dword) : Option (Nat × SeqEntry) :=
  (liveEntries s).find? fun p => decide (p.2.ctx = c) && decide (p.2.handle = h)

/-- The archive of a context's handle. -/
def findArchive (s : State) (c : CtxId) (h : Dword) : Option Archive :=
  s.seq.archives.find? fun a => decide (a.ctx = c) && decide (a.handle = h)

/-- What a handle found nowhere answers (R158, R188, R350). -/
def unknownHandle (s : State) (c : CtxId) (h : Dword) : Status :=
  let x := getCtx s c
  if x.lostHandles.contains h then stSessionLost
  else if x.expired.contains h then stExpired
  else if x.lostState then stSessionLost else stBadParam 0

/-- Entries of a context in the table. -/
def seqsUsed (s : State) (c : CtxId) : Nat := ((liveEntries s).filter fun p => decide (p.2.ctx = c)).length

/-- The lowest FREE index. -/
def freeEntry (s : State) : Option Nat := firstFree (tkeys s.seq.entries) 16384 0

/-- Addresses of a context's KV pages: 256 KiB each, from its KV_POOL objects in tier 1 (R144). -/
def poolPages (s : State) (c : CtxId) : List (Nat × Nat) :=
  (getCtx s c).objs.filterMap fun p =>
    if p.2.type = 6 ∧ p.2.state = 1 then
      some (ceilDiv p.2.location 0x40000, (p.2.location + p.2.size) / 0x40000 - ceilDiv p.2.location 0x40000) else none

/-- KV pages of a context's pools. -/
def poolSize (s : State) (c : CtxId) : Nat := ((poolPages s c).map (·.2)).foldl (· + ·) 0

/-- KV pages reserved by the context's sequences other than index i, and not yet held (R189). -/
def reservedBy (s : State) (c : CtxId) (i : Nat) : Nat :=
  ((liveEntries s).map fun p => if p.2.ctx = c ∧ p.1 ≠ i then p.2.kvReserved else 0).foldl (· + ·) 0

/-- KV pages of a context that sequence i may take beyond its reservation (R189, R200). -/
def freeKv (s : State) (c : CtxId) (i : Nat) : Nat :=
  poolSize s c - (getCtx s c).kvUsed.length - reservedBy s c i - ((getEntry s i).map (·.kvReserved)).getD 0

/-- A free KV page of a context's pools, by address / 256 KiB. -/
def findKv (s : State) (c : CtxId) : Option Nat :=
  (poolPages s c).findSome? fun p => firstFree (getCtx s c).kvUsed p.2 p.1

/-- n KV pages are taken from the pools; none when they do not all exist. -/
def takeKv (c : CtxId) : Nat → State → Option (List Nat × State)
  | 0, s => some ([], s)
  | n + 1, s =>
    match findKv s c with
    | none => none
    | some a => (takeKv c n (modCtx c (fun x => { x with kvUsed := a :: x.kvUsed }) s)).map fun r => (a :: r.1, r.2)

/-- KV pages return to the pool. -/
def giveKv (c : CtxId) (ps : List Nat) (s : State) : State :=
  modCtx c (fun x => { x with kvUsed := x.kvUsed.filter fun a => !ps.contains a }) s

/-- Tier-1 pages that an entry holds: KV pages and input pages. -/
def pagesOf (e : SeqEntry) : List Nat :=
  (e.kvMap.filterMap fun p => if p.2.loc = 1 then some (p.2.addr / 0x40000) else none) ++ e.inputPages

/-- The reservation of R189. -/
def reservation (s : State) (e : SeqEntry) : Nat :=
  let k := modelKv s e.model
  ceilDiv (e.position + e.inputPending + e.reserveTokens) (max 1 k.1) * k.2 - e.kvPages

/-- Pages of the mirror that the ward's mirrored state takes at the buddy, in 2 MiB pages (R335). -/
def mirrorUse (s : State) : Nat :=
  (s.seq.archives.map (·.t2Pages)).foldl (· + ·) 0
    + ceilDiv (((liveEntries s).map fun p => p.2.kvPages + p.2.inputPages.length).foldl (· + ·) 0) 8

/-- n further KV pages fit in the mirror (R335). -/
def mirrorRoom (s : State) (n : Nat) : Bool := !paired s || decide (mirrorUse s + ceilDiv n 8 ≤ s.cmt.mirrorGib * 512)

/-! ### Admission (R193–R197) -/

/-- Context tokens and tokens of an admitted row of a pan (R194). -/
def rowCost (kind : Nat) (e : SeqEntry) : Nat × Nat := (e.position + 1, if kind = 3 then e.specDepth + 1 else 1)

/-- The time check of R194 for a new row, which counts one token beyond POSITION + INPUT_PENDING in C (R193); deferred where no pan holds the model. -/
def timeCheck (s : State) (e : SeqEntry) : Bool :=
  let kind := if e.specOn then 3 else 1
  let ps := pansOf s e.ctx e.model kind
  let x := getCtx s e.ctx
  let goal := if e.be then x.beGoalUs else x.lcGoalUs
  ps.isEmpty || ps.any fun p =>
    let rows := (liveEntries s).filter fun q => decide (q.2.ctx = e.ctx) && decide (q.2.model = e.model) && decide (q.2.state = .decode)
      && (!q.2.be || e.be) && (match q.2.pan with | some n => decide (n = p.1) | none => true)
    let cs := rows.map fun q => rowCost kind q.2
    let t := predict p.2.2.cost (panMhz s p.2.1) (rows.length + 1) ((cs.map (·.2)).foldl (· + ·) 0 + 1)
      ((cs.map (·.1)).foldl (· + ·) 0 + e.position + e.inputPending + 1)
    decide (t ≤ 16000 * goal)

/-- The space check of R194 for entry i: the reservation, and the input pages, fit in the free pages, and the mirror has room (R335). -/
def spaceCheck (s : State) (i : Nat) (e : SeqEntry) (more : Nat) : Bool :=
  let need := reservation s e + more
  decide (need + reservedBy s e.ctx i + (getCtx s e.ctx).kvUsed.length ≤ poolSize s e.ctx) && mirrorRoom s need

/-- The admission outcomes of Table 7.6 before the checks of R194. -/
def admitRefusal (s : State) (e : SeqEntry) : Option Status :=
  if (getCtx s e.ctx).quota.seqs ≤ seqsUsed s e.ctx then some stQuota
  else if (freeEntry s).isNone then some (stNoSpace 0)
  else if !modelUsable s e.ctx e.model then some stModelUnavailable
  else if (getCtx s e.ctx).quota.t1Units < reservation s e * 4 then some stQuota
  else none

/-- The entry that fails a check of R194: DETAIL 1 time, 2 space. -/
def admitFails (s : State) (i : Nat) (e : SeqEntry) (more : Nat) : Option Nat :=
  if !timeCheck s e then some 1 else if !spaceCheck s i e more then some 2 else none

/-- An entry enters the table. -/
def putEntry (i : Nat) (e : SeqEntry) (s : State) : State := s.onSeq fun q => { q with entries := tput none q.entries i (some e) }

/-- No pan holds the model of an entry's decode or verify rows: its time check is deferred (R194). -/
def timeDeferred (s : State) (e : SeqEntry) : Bool := (pansOf s e.ctx e.model (if e.specOn then 3 else 1)).isEmpty

/-- The input pages that an entry's tokens need (R191). -/
def inputPagesFor (e : SeqEntry) : Nat := inputPagesNeed e.inputAt e.input.length

/-- The held entries of an entry's class and context, which a later arrival may not pass (R196). -/
def heldAhead (s : State) (e : SeqEntry) : Bool :=
  (liveEntries s).any fun p => decide (p.2.state = .held) && decide (p.2.ctx = e.ctx) && decide (p.2.be = e.be)

/-- An entry that is held: it takes its place in the order of holds (R196). -/
def holdEntry (i : Nat) (e : SeqEntry) (s : State) : State :=
  putEntry i { e with state := .held, heldSince := s.tick, heldNo := s.seq.holds } (s.onSeq fun q => { q with holds := q.holds + 1 })

/-- A new sequence is admitted: its reservation is withheld, its input pages are taken, and it starts its turn or rests (Table 7.3). -/
def grantAdmission (i : Nat) (e : SeqEntry) (s : State) : State :=
  match takeKv e.ctx (inputPagesFor e) s with
  | none => s
  | some (ps, s1) =>
    let e1 := { e with
      state := if e.input.isEmpty then .idle else .prefill
      kvReserved := reservation s e, inputPages := ps, cmd := none, waitSince := s.tick, timeDue := timeDeferred s e }
    bump SEQ_ADMIT_OK (putEntry i e1 (s1.onMem fun m => { m with bytes := pokeInput e1 0 e1.input m.bytes }))

/-- The entry that SEQ_ADMIT's parameters describe (R189, Table 11.11). -/
def admitEntry (m : Cmd) (input : List Word) (s : State) : SeqEntry :=
  let toks := input.take (m.f 9 0 32)
  { handle := BitVec.ofNat 64 (m.p 0), ctx := m.ctx, state := .held, be := bit (m.p 1) 16, generate := bit (m.p 1) 17, interrupt := false,
    cancelPending := false, pausePending := false, specOn := bit (m.p 1) 19 && decide (0 < m.f 7 48 4), fp8OnPause := bit (m.p 1) 20, heldResume := false,
    model := m.f 1 0 10, modelVer := 0, pan := none, stepEpoch := 0, commitEpoch := 0, position := 0, inputPending := toks.length,
    turnNew := 0, maxNew := m.f 1 32 32, kvPages := 0, kvReserved := 0,
    stops := [BitVec.ofNat 32 (m.f 5 0 32), BitVec.ofNat 32 (m.f 5 32 32), BitVec.ofNat 32 (m.f 6 0 32), BitVec.ofNat 32 (m.f 6 32 32)],
    adapterSlot := BitVec.ofNat 16 (m.f 7 0 16), adapterScale := BitVec.ofNat 16 (m.f 7 16 16), steerSlot := BitVec.ofNat 16 (m.f 7 32 16),
    specDepth := m.f 7 48 4, specZero := 0, exitPolicy := BitVec.ofNat 8 (m.f 7 56 8), sampleMode := BitVec.ofNat 2 (m.f 2 0 2),
    topK := m.f 2 8 4, temperature := BitVec.ofNat 32 (m.f 2 32 32), pTop := BitVec.ofNat 32 (m.f 3 0 32), seed := BitVec.ofNat 64 (m.p 4),
    waitSince := s.tick, kvSkips := 0, releaseHeld := 0, kvMap := [], kvNodes := [], inputPages := [], inputAt := 0, input := toks, lastToken := none, drafts := [], kept := [], specGen := 0, draftGen := 0,
    reserveTokens := if m.f 3 32 32 = 0 then 4096 else m.f 3 32 32, releaseBuf := [], last64 := [], cmd := some m.ref,
    heldSince := s.tick, heldNo := 0, timeDue := false, autoPause := false, pauseTtl := 0, transcode := false, prior := .idle, retireCmd := none, turnEndedAt := none,
    t2Copy := 0, reread := false }

/-- SEQ_ADMIT's fields outside their ranges (R296, Tables 7.1 and 11.11). -/
def admitFieldsBad (m : Cmd) : Bool :=
  decide (m.f 1 32 32 = 0) || decide (2097152 < m.f 1 32 32) || decide (m.f 2 0 2 = 3) || decide (m.f 2 8 4 = 0) || decide (8 < m.f 2 8 4)
    || decide (8 < m.f 7 48 4) || decide (m.f 7 56 8 / 32 ≠ 0) || decide (65536 < m.f 9 0 32)

/-- SEQ_ADMIT (R189, R194–R196). -/
def execSeqAdmit (c : CmdRef) (input : List Word) (s : State) : Res :=
  .next (startCmd 0x0401 c s fun m s =>
    let e := admitEntry m input s
    let h := e.handle
    if admitFieldsBad m then endFail m (stBadParam 7) s
    else if (findEntry s m.ctx h).isSome ∨ (findArchive s m.ctx h).isSome then endFail m (stBadParam 0x10) s
    else
      match admitRefusal s e with
      | some st => endFail m st s
      | none =>
        if !adapterOk s m.ctx e.model e.adapterSlot.toNat then endFail m (stBadParam 0x27) s
        else if !steerOk s m.ctx e.model e.steerSlot.toNat then endFail m (stBadParam 0x28) s
        else
          match freeEntry s with
          | none => endFail m (stNoSpace 0) s
          | some i =>
            match admitFails s i e (inputPagesFor e), heldAhead s e with
            | none, false => endOk m i 0 (grantAdmission i e s)
            | d, _ =>
              if bit (m.p 1) 18 then holdEntry i e s
              else bump SEQ_ADMIT_DENIED (endFail m (stDenied (d.getD 1)) s))

/-! ### Steps in flight (R208, R209) -/

/-- A step built and not yet committed carries entry i (R209). -/
def inFlight (s : State) (i : Nat) : Bool := s.seq.steps.any fun st => st.rows.any fun r => decide (r.index = i) && !r.withheld

/-- A step that carries entry i, its tokens withheld or not, has neither committed nor been abandoned. -/
def carried (s : State) (i : Nat) : Bool := s.seq.steps.any fun st => st.rows.any fun r => decide (r.index = i)

/-- The tokens of entry i in steps in flight are withheld (R209). -/
def withhold (i : Nat) (s : State) : State :=
  s.onSeq fun q => { q with steps := q.steps.map fun st => { st with
    rows := st.rows.map fun r => if r.index = i then { r with withheld := true } else r } }

/-- An END entry without a token (Table 7.4). -/
def endEntry (e : SeqEntry) (reason : BitVec 3) : TokEntry :=
  { handle := e.handle, token := 0xFFFFFFFF, epoch := BitVec.ofNat 64 e.stepEpoch, endReason := some reason, first := false }

/-- Held proposals are discarded and counted (R253). -/
def dropDrafts (i : Nat) (s : State) : State :=
  match getEntry s i with
  | none => s
  | some e =>
    if e.drafts.isEmpty then s
    else bumpBy SEQ_BITTERN_SPEC_DROP e.drafts.length (modEntry i (fun x => { x with drafts := [] }) s)

/-- A turn ends without a last token: tokens in flight withheld, input not yet prefilled dropped, END entry, IDLE (R191, R209). -/
def endTurn (i : Nat) (reason : BitVec 3) (s : State) : State :=
  match getEntry s i with
  | none => s
  | some e =>
    let s1 := giveKv e.ctx e.inputPages (withhold i (dropDrafts i s))
    modEntry i (fun x => { x with state := .idle, turnNew := 0, inputPending := 0, input := [], inputPages := [], inputAt := 0, lastToken := none, kept := [] })
      (releaseToken i (endEntry e reason) s1)

/-- Entry i becomes FREE: its pages and reservation return (R209). -/
def freeSeq (i : Nat) (s : State) : State :=
  match getEntry s i with
  | none => s
  | some e =>
    (giveKv e.ctx (pagesOf e) s).onSeq fun q => { q with entries := tput none q.entries i none }

/-- ENDING entries that no step carries and that hold no committed token become FREE, and their SEQ_RETIRE ends (R209). -/
def reapEnding (s : State) : State :=
  (liveEntries s).foldl (fun s p =>
    let e := p.2
    if e.state = .ending ∧ !carried s p.1 ∧ e.releaseBuf.isEmpty then
      let s1 := freeSeq p.1 s
      match e.retireCmd with
      | some r => match findCmd s1 r with | some m => endOk m 0 0 s1 | none => s1
      | none => s1
    else s) s

/-- A session ends: ENDING, then FREE when its steps have settled (R209). -/
def endSession (i : Nat) (s : State) : State :=
  reapEnding (modEntry i (fun e => { e with state := .ending, cancelPending := true }) (withhold i (dropDrafts i s)))

/-- The command that entry e keeps waiting ends with a status. -/
def endWaiting (e : SeqEntry) (st : Status) (s : State) : State :=
  match e.cmd with
  | some r => match findCmd s r with | some m => endFail m st s | none => s
  | none => s

/-- Pages of a context's KV_ARCHIVE objects become ZERO: their frames go. -/
def clearArchPages (c : CtxId) (ps : List (Nat × Nat)) (s : State) : State :=
  ps.foldl (fun s p => modObj c p.1 (fun o => { o with pages := tput PageEntry.zero o.pages p.2 PageEntry.zero }) s) s

/-- The archive of a handle is freed: its frames and pages (R158, R209). -/
def freeArchive (a : Archive) (s : State) : State :=
  let s1 := clearArchPages a.ctx a.objPages (freeFrames a.frames (modCtx a.ctx (fun x => { x with archUsed := x.archUsed - a.t2Pages }) s))
  s1.onSeq fun q => { q with archives := q.archives.filter fun b => !(decide (b.ctx = a.ctx) && decide (b.handle = a.handle)) }

/-! ### Input, pause, resume, cancel (R191, R205–R209) -/

/-- A command that waits at a sequence: started already, or startable; f decides whether it goes on. -/
def startOrContinue (op : Nat) (c : CmdRef) (s : State) (f : Cmd → State → State) : State :=
  match findCmd s c with
  | some m => if m.phase = .running then whileRunning op c s f else startCmd op c s f
  | none => s

/-- The input of an append enters an entry: pages are taken and the tokens join INPUT_PENDING (R191). -/
def addInput (i : Nat) (e : SeqEntry) (toks : List Word) (s : State) : Option State :=
  let need := inputPagesNeed e.inputAt (e.input.length + toks.length) - e.inputPages.length
  if 32 < e.inputPages.length + need then none
  else if freeKv s e.ctx i < need then none
  else
    (takeKv e.ctx need s).map fun r =>
      let e1 := { e with
        state := .prefill, turnNew := 0, inputPages := e.inputPages ++ r.1, input := e.input ++ toks
        inputPending := e.inputPending + toks.length, waitSince := s.tick }
      putEntry i e1 (r.2.onMem fun m => { m with bytes := pokeInput e1 e.input.length toks m.bytes })

/-- SEQ_APPEND (R188, R191): starts a turn of an IDLE sequence; with INTERRUPT it ends the turn of a DECODE sequence first; otherwise it waits
for the turn's end, or for a PAUSING, RESUMING or HELD sequence to come back. In PREFILL it is refused, as Table 7.3 lists no such event. -/
def execSeqAppend (c : CmdRef) (input : List Word) (s : State) : Res :=
  .next (startOrContinue 0x0402 c s fun m s =>
    let h : Dword := BitVec.ofNat 64 (m.p 0)
    let n := m.f 2 0 32
    let finish (i : Nat) (ended : Bool) (s : State) : State :=
      match getEntry s i with
      | none => s
      | some e => match addInput i e (input.take n) s with
        | some s1 => endOk m 0 0 s1
        | none => endWith m (stNoSpace 0) (!ended) 0 0 s
    if n = 0 ∨ 65536 < n then endFail m (stBadParam 7) s
    else
      match findEntry s m.ctx h with
      | none => endFail m (if (findArchive s m.ctx h).isSome then stNotPermitted 0 else unknownHandle s m.ctx h) s
      | some (i, e) =>
        if !modelUsable s m.ctx e.model then endFail m stModelUnavailable s
        else if 2097152 ≤ e.position then endFail m (stNoSpace 0) s
        else match e.state with
          | .idle => finish i false s
          | .decode =>
            if bit (m.p 2) 32 then finish i true (modEntry i (fun x => { x with interrupt := carried s i }) (endTurn i 4 s)) else s
          | .prefill | .ending => endFail m (stBadParam 0x10) s
          | _ => s)

/-- Bytes that KV page i takes in an archive: a transcoded page 128 KiB, any other 256 KiB (R144, R156); the draft state page is never transcoded (R247). -/
def archSize (fp8 : Bool) (i : Nat) : Nat := if fp8 ∧ i ≠ 0xFFFFFF then 0x20000 else 0x40000

/-- Bytes of an archive's KV and input pages. -/
def archiveData (e : SeqEntry) (fp8 : Bool) : Nat := (e.kvMap.map fun p => archSize fp8 p.1).foldl (· + ·) 0 + e.inputPages.length * 0x40000

/-- Archive pages of 2 MiB that a sequence needs (R155, R156, the worked example of chapter 5): its pages, and its map nodes with the record. -/
def archivePages (e : SeqEntry) (fp8 : Bool) : Nat :=
  ceilDiv (archiveData e fp8) 0x200000 + ceilDiv (e.kvNodes.length * 4096 + 512) 0x200000

/-- The pages of a context's KV_ARCHIVE objects, in 2 MiB pages (R155). -/
def archiveSize (s : State) (c : CtxId) : Nat :=
  ((getCtx s c).objs.map fun p => if p.2.type = 7 ∧ p.2.state = 1 then p.2.size / 0x200000 else 0).foldl (· + ·) 0

/-- Transcoding applies (R156): the policy permits it, the pause asks for it, and the pages are BF16. -/
def transcodes (s : State) (e : SeqEntry) : Bool :=
  (getCtx s e.ctx).quota.kvFp8 && (e.transcode || (e.autoPause && e.fp8OnPause)) && Config.kvBf16 (getModel s e.model).cur.shape

/-- Why a pause cannot have its archive pages, as a DETAIL (R155, R335). -/
def archiveRefusal (s : State) (e : SeqEntry) : Option Nat :=
  let n := archivePages e (transcodes s e)
  if archiveSize s e.ctx < (getCtx s e.ctx).archUsed + n then some 1
  else if frameBudget s < s.mem.frames.length + n then some 2
  else if !mirrorRoom s 0 then some 0 else none

/-- The archives of a handle are held by a resume that was accepted in time, or no longer (R158, R197). -/
def holdArchive (c : CtxId) (h : Dword) (b : Bool) (s : State) : State :=
  s.onSeq fun q => { q with archives := q.archives.map fun x => if x.ctx = c ∧ x.handle = h then { x with resuming := b } else x }

/-- SEQ_PAUSE (R205, R188, R197): PAUSE_PENDING, or for a HELD entry, which no step carries and which has no pages, PAUSING at once. -/
def execSeqPause (c : CmdRef) (s : State) : Res :=
  .next (startCmd 0x0403 c s fun m s =>
    let h : Dword := BitVec.ofNat 64 (m.p 0)
    let ttl := if m.f 1 0 23 = 0 then 604800 else m.f 1 0 23
    if 5443200 < ttl then endFail m (stBadParam 7) s
    else
      match findEntry s m.ctx h with
      | none => endFail m (if (findArchive s m.ctx h).isSome then stBadParam 0x10 else unknownHandle s m.ctx h) s
      | some (i, e) =>
        let want (s : State) := modEntry i (fun x => { x with
          pausePending := true, cmd := some m.ref, pauseTtl := ttl, transcode := bit (m.p 1) 32 }) (dropDrafts i s)
        match e.state with
        | .held =>
          if e.heldResume then
            let s1 := endWaiting e (stCancelled 0) s
            match findArchive s1 m.ctx h with
            | some a =>
              endOk m a.t2Pages 0 (freeSeq i (holdArchive m.ctx h false s1))
            | none => endOk m 0 0 (freeSeq i s1)
          else
            match archiveRefusal s e with
            | some d => endFail m (stNoSpace d) s
            | none => modEntry i (fun x => { x with state := .pausing, prior := .held }) (want (endWaiting e (stCancelled 0) s))
        | .prefill | .decode | .idle =>
          if e.pausePending ∧ !e.autoPause then endFail m (stBadParam 0x10) s else want s
        | _ => endFail m (stBadParam 0x10) s)

/-- The entry that an archive record restores (R207). -/
def restored (a : Archive) (cmd : Option CmdRef) (tick : Nat) : SeqEntry :=
  { a.entry with state := .resuming, cmd := cmd, pan := none, stepEpoch := 0, commitEpoch := 0, waitSince := tick,
                 kvSkips := 0, releaseHeld := 0, kvReserved := 0, heldSince := tick, pausePending := false, reread := false }

/-- KV pages and input pages that a resume brings back. -/
def resumePages (e : SeqEntry) : Nat := e.kvMap.length + inputPagesFor e

/-- A held resume: the entry holds only HANDLE, CONTEXT, MODEL and CLASS (R197). -/
def heldResumeEntry (e : SeqEntry) : SeqEntry :=
  { e with
    state := .held, heldResume := true, generate := false, interrupt := false, cancelPending := false, specOn := false, fp8OnPause := false, modelVer := 0, position := 0,
    inputPending := 0, turnNew := 0, maxNew := 0, kvPages := 0, stops := [], adapterSlot := 0xFFFF, adapterScale := 0, steerSlot := 0xFFFF,
    specDepth := 0, specZero := 0, exitPolicy := 0, sampleMode := 0, topK := 0, temperature := 0, pTop := 0, seed := 0, kvMap := [],
    kvNodes := [], inputPages := [], inputAt := 0, input := [], lastToken := none, drafts := [], kept := [], releaseBuf := [], last64 := [] }

/-- A resume is admitted (R207): RESUMING, with the pages that come back and the reservation withheld until they are there. -/
def grantResume (i : Nat) (e : SeqEntry) (s : State) : State :=
  bump SEQ_ADMIT_OK (holdArchive e.ctx e.handle true (putEntry i { e with kvReserved := reservation s e + resumePages e, timeDue := timeDeferred s e } s))

/-- SEQ_RESUME (R197, R207): the archive's deadline, the admission outcomes, then RESUMING or HELD. -/
def execSeqResume (c : CmdRef) (s : State) : Res :=
  .next (startCmd 0x0404 c s fun m s =>
    let h : Dword := BitVec.ofNat 64 (m.p 0)
    match findArchive s m.ctx h with
    | none => endFail m (if (findEntry s m.ctx h).isSome then stBadParam 0x10 else unknownHandle s m.ctx h) s
    | some a =>
      if (findEntry s m.ctx h).isSome then endFail m (stBadParam 0x10) s
      else if a.deadline ≤ m.ttlAt then endFail m stExpired s
      else
        let e := restored a (some m.ref) s.tick
        match admitRefusal s e with
        | some st => endFail m st s
        | none =>
          match freeEntry s with
          | none => endFail m (stNoSpace 0) s
          | some i =>
            match admitFails s i e (resumePages e), heldAhead s e with
            | none, false => grantResume i e s
            | d, _ =>
              if bit (m.p 1) 0 then holdArchive m.ctx h true (holdEntry i (heldResumeEntry e) s)
              else bump SEQ_ADMIT_DENIED (endFail m (stDenied (d.getD 1)) s))

/-- SEQ_CANCEL (R209, Table 7.10). -/
def execSeqCancel (c : CmdRef) (s : State) : Res :=
  .next (startCmd 0x0405 c s fun m s =>
    let h : Dword := BitVec.ofNat 64 (m.p 0)
    let session := bit (m.p 1) 0
    let cancelled (s : State) := endWith m (stCancelled 0) false 0 0 s
    match findEntry s m.ctx h with
    | none =>
      match findArchive s m.ctx h with
      | some a => if session then cancelled (freeArchive a s) else endFail m (stCancelled 0) s
      | none => endFail m (unknownHandle s m.ctx h) s
    | some (i, e) =>
      match e.state with
      | .decode | .prefill => if session then cancelled (endSession i s) else cancelled (endTurn i 4 s)
      | .idle =>
        if (match e.turnEndedAt with | some t => decide (m.acceptedAt ≤ t) | none => false) then
          endWith m (0x0001, 0) false 0 0 (if session then endSession i s else s)
        else if session then cancelled (endSession i s) else endFail m (stCancelled 0) s
      | .held =>
        if e.heldResume ∧ !session then endFail m (stCancelled 0) s
        else
          let s1 := freeSeq i (endWaiting e (stCancelled 0) s)
          cancelled (match findArchive s1 m.ctx h with | some a => freeArchive a s1 | none => s1)
      | .pausing => if session then cancelled (endSession i (endWaiting e (stCancelled 0) s)) else endFail m (stCancelled 0) s
      | .resuming =>
        if session then
          let s1 := endSession i (endWaiting e (stCancelled 0) s)
          cancelled (match findArchive s1 m.ctx h with | some a => freeArchive a s1 | none => s1)
        else endFail m (stCancelled 0) s
      | .ending | .free => endFail m (stBadParam 0x10) s)

/-- SEQ_RETIRE (R209): a SESSION cancel that lets the steps in flight commit and releases their tokens. -/
def execSeqRetire (c : CmdRef) (s : State) : Res :=
  .next (startCmd 0x0406 c s fun m s =>
    let h : Dword := BitVec.ofNat 64 (m.p 0)
    match findEntry s m.ctx h with
    | none =>
      match findArchive s m.ctx h with
      | some a => endOk m 0 0 (freeArchive a s)
      | none => endFail m (unknownHandle s m.ctx h) s
    | some (i, e) =>
      if e.state = .ending then endFail m (stBadParam 0x10) s
      else
        let s1 := endWaiting e (stCancelled 0) s
        let s2 := match findArchive s1 m.ctx h with | some a => freeArchive a s1 | none => s1
        reapEnding (modEntry i (fun x => { x with state := .ending, cancelPending := true, retireCmd := some m.ref }) s2))

/-- Held entries in the order of R196: LC before BE, each in the order they were held. -/
def heldOrder (s : State) : List (Nat × SeqEntry) :=
  let hs := (liveEntries s).filter fun p => decide (p.2.state = .held)
  let sorted (l : List (Nat × SeqEntry)) := sortBy (fun a b => decide (a.2.heldNo ≤ b.2.heldNo)) l
  sorted (hs.filter fun p => !p.2.be) ++ sorted (hs.filter fun p => p.2.be)

/-- One held entry is retried: admitted, or restored from its archive record and resumed, when its checks pass; otherwise its context takes no later
one (R196, R197). -/
def retryHeld (p : Nat × SeqEntry) (r : State × List CtxId) : State × List CtxId :=
  let (s, stopped) := r
  let e := if p.2.heldResume then (match findArchive s p.2.ctx p.2.handle with | some a => restored a p.2.cmd s.tick | none => p.2) else p.2
  if stopped.contains e.ctx then r
  else
    let more := if p.2.heldResume then resumePages e else inputPagesFor e
    if modelUsable s e.ctx e.model ∧ (admitFails s p.1 e more).isNone then
      if p.2.heldResume then (grantResume p.1 e s, stopped)
      else
        let s1 := grantAdmission p.1 e s
        match e.cmd with
        | some c => (match findCmd s1 c with | some m => (endOk m p.1 0 s1, stopped) | none => (s1, stopped))
        | none => (s1, stopped)
    else (s, e.ctx :: stopped)

/-- HELD_ADMISSION_RETRY (R196). -/
def execHeldAdmissionRetry (s : State) : Res :=
  .next ((heldOrder s).foldl (fun r p => retryHeld p r) (s, [])).1

/-- HOLD_EXPIRY (R196, R197): an entry held for HOLD_MAX_MS answers ST_ADMISSION_DENIED and is counted. -/
def execHoldExpiry (c : CmdRef) (s : State) : Res :=
  .next (match (liveEntries s).find? fun p => decide (p.2.state = .held) && decide (p.2.cmd = some c) with
    | some (i, e) =>
      if e.heldSince + msTicks (getCtx s e.ctx).holdMaxMs ≤ s.tick then
        bump SEQ_HOLD_EXPIRED (bump SEQ_ADMIT_DENIED (freeSeq i (holdArchive e.ctx e.handle false (endWaiting e (stDenied 0) s))))
      else s
    | none => s)

/-! ### Archives (R155–R158) -/

/-- A range of n bytes of memory is copied; only listed bytes move. -/
def memMove (src dst n : Nat) (m : Mem) : Mem :=
  let moved := m.filterMap fun p => if src ≤ p.1 ∧ p.1 < src + n then some (p.1 - src + dst, p.2) else none
  moved.foldl (fun m p => tput 0 m p.1 p.2) (memZero m dst n)

/-- A pause fails: the sequence stays as it is, with PAUSE_PENDING clear (R155). -/
def failPause (i : Nat) (e : SeqEntry) (d : Nat) (s : State) : State :=
  modEntry i (fun x => { x with pausePending := false, autoPause := false, cmd := none, kvSkips := x.kvSkips - 1 }) (endWaiting e (stNoSpace d) s)

/-- PAUSE_ARCHIVE_START (R205, R155): every step that carries the row has settled; the space is checked and the entry becomes PAUSING, the archive
recording the state that it has now. An auto-paused turn gets its END entry (R200). -/
def execPauseArchiveStart (index : Fin 16384) (s : State) : Res :=
  let i := index.val
  .next (match getEntry s i with
    | none => s
    | some e =>
      let live := decide (e.state = .prefill) || decide (e.state = .decode) || decide (e.state = .idle)
      if !e.pausePending || !live || carried s i then s
      else
        match archiveRefusal s e with
        | some d => failPause i e d s
        | none =>
          let s1 := if e.autoPause ∧ (e.state = .decode ∨ e.state = .prefill) then releaseToken i (endEntry e 5) s else s
          modEntry i (fun x => { x with state := .pausing, prior := e.state }) s1)

/-- Device address of byte o of an archive, by its frames. -/
def archiveAddr (fs : List Nat) (o : Nat) : Nat := fs.getD (o / 0x200000) 0 * 0x200000 + o % 0x200000

/-- Where the KV pages of a map lie in an archive, in map order: pages of 256 KiB from `big` on, transcoded ones from `small` on
(notes/assumptions/175). -/
def archiveOffsets (fp8 : Bool) : Nat → Nat → Tab KvPage → List ((Nat × KvPage) × Nat)
  | _, _, [] => []
  | big, small, p :: r =>
    if archSize fp8 p.1 = 0x20000 then (p, small) :: archiveOffsets fp8 big (small + 0x20000) r
    else (p, big) :: archiveOffsets fp8 (big + 0x40000) small r

/-- The first offset of an archive's input pages. -/
def archiveInputAt (e : SeqEntry) (fp8 : Bool) : Nat := 0x40000 * (e.kvMap.filter fun p => decide (archSize fp8 p.1 = 0x40000)).length

/-- KV pages move into an archive, transcoded or as they stand, and their CRC is set from the bytes as stored (R155, R156); the map of the archived
pages is the result. -/
def archivePagesOut (fs : List Nat) (fp8 : Bool) : List ((Nat × KvPage) × Nat) → Mem → List (Nat × KvPage) × Mem
  | [], m => ([], m)
  | ((i, p), o) :: r, m =>
    let a := archiveAddr fs o
    let t := if archSize fp8 i = 0x20000 then transcodePage (memRead m p.addr 0x40000) else (0, memRead m p.addr 0x40000)
    let rest := archivePagesOut fs fp8 r (memWrite m a t.2)
    ((i, { p with loc := 2, addr := a, fp8 := decide (archSize fp8 i = 0x20000), scale := t.1, crc := BitVec.ofNat 32 (crc32c t.2) }) :: rest.1, rest.2)

/-- The bytes of an active sequence table entry (Table 7.1). -/
def SeqEntry.bytes (e : SeqEntry) : List Byte :=
  let st : Nat := match e.state with
    | .free => 0 | .held => 1 | .prefill => 2 | .decode => 3 | .idle => 4 | .pausing => 5 | .resuming => 6 | .ending => 7
  let fl := b2n e.be + 2 * b2n e.generate + 4 * b2n e.interrupt + 8 * b2n e.cancelPending + 16 * b2n e.pausePending + 32 * b2n e.specOn
    + 64 * b2n e.fp8OnPause + 128 * b2n e.heldResume
  leBytes 8 e.handle.toNat ++ leBytes 2 e.ctx.toNat ++ leBytes 1 st ++ leBytes 1 fl ++ leBytes 2 e.model ++ leBytes 1 e.modelVer.toNat
    ++ leBytes 1 (match e.pan with | some n => n % 16 + 128 | none => 0) ++ leBytes 8 e.stepEpoch ++ leBytes 8 e.commitEpoch ++ leBytes 4 e.position
    ++ leBytes 4 e.inputPending ++ leBytes 4 e.turnNew ++ leBytes 4 e.maxNew ++ leBytes 8 e.kvRoot ++ leBytes 4 e.kvPages ++ leBytes 4 e.kvReserved
    ++ leBytes 8 (e.inputPages.headD 0 * 0x40000) ++ ((List.range 4).map fun k => leBytes 4 (e.stops.getD k 0xFFFFFFFF).toNat).flatten
    ++ leBytes 2 e.adapterSlot.toNat ++ leBytes 2 e.adapterScale.toNat ++ leBytes 2 e.steerSlot.toNat ++ leBytes 1 e.specDepth ++ leBytes 1 e.specZero
    ++ leBytes 1 e.exitPolicy.toNat ++ leBytes 1 e.sampleMode.toNat ++ leBytes 1 e.topK ++ leBytes 1 0 ++ leBytes 4 e.temperature.toNat
    ++ leBytes 4 e.pTop.toNat ++ leBytes 4 0 ++ leBytes 8 e.seed.toNat ++ leBytes 8 e.waitSince ++ leBytes 2 e.kvSkips ++ leBytes 2 e.releaseHeld ++ leBytes 124 0

/-- The archive record (R155): the sequence table entry stands in bytes 0x40–0x13F, a CRC-32C of the rest in its last four (notes/assumptions/175). -/
def archiveRecord (e : SeqEntry) (root deadline : Nat) : List Byte :=
  let b := leBytes 8 e.handle.toNat ++ leBytes 2 e.ctx.toNat ++ leBytes 2 e.model ++ leBytes 4 e.modelVer.toNat ++ leBytes 8 root
    ++ leBytes 4 e.kvMap.length ++ leBytes 4 deadline ++ leBytes 32 0 ++ e.bytes ++ leBytes 188 0
  b ++ leBytes 4 (crc32c b)

/-- The map nodes of an archive move behind its pages: node, address. -/
def archiveNodes (fs : List Nat) (off : Nat) (e : SeqEntry) : Tab Nat := e.kvNodes.zipIdx.map fun p => (p.1.1, archiveAddr fs (off + 4096 * p.2))

/-- n free pages of a context's KV_ARCHIVE objects get frames: INDEX and page with their frames; none where the pages or the frames do not suffice. -/
def takeArchive (c : CtxId) : Nat → State → Option (List ((Nat × Nat) × Nat) × State)
  | 0, s => some ([], s)
  | n + 1, s =>
    let free := (getCtx s c).objs.findSome? fun q =>
      if q.2.type = 7 ∧ q.2.state = 1 then
        ((List.range (q.2.size / 0x200000)).find? fun k => decide (tget PageEntry.zero q.2.pages k = PageEntry.zero)).map fun k => (q.1, k)
      else none
    match free, findFrame s with
    | some (i, k), some f =>
      (takeArchive c n (modObj c i (fun o => { o with pages := tput PageEntry.zero o.pages k { state := 1, frame := f, remoteChip := 0 } })
        (takeFrame f s))).map fun r => (((i, k), f) :: r.1, r.2)
    | _, _ => none

/-- What an archive holds: pages, map nodes and record are written into the frames (R155). -/
def writeArchive (e : SeqEntry) (fp8 : Bool) (ps : List ((Nat × Nat) × Nat)) (ttl : Nat) (m : Mem) : Archive × Mem :=
  let fs := ps.map (·.2)
  let inAt := archiveInputAt e fp8
  let kv := archivePagesOut fs fp8 (archiveOffsets fp8 0 (inAt + 0x40000 * e.inputPages.length) e.kvMap) m
  let ins := e.inputPages.zipIdx.map fun p => (p.1, archiveAddr fs (inAt + 0x40000 * p.2))
  let m1 := ins.foldl (fun m p => memMove (p.1 * 0x40000) p.2 0x40000 m) kv.2
  let off := ceilDiv (archiveData e fp8) 0x200000 * 0x200000
  let nodes := archiveNodes fs off e
  let m2 := nodes.foldl (fun m p => memWrite m p.2 (nodeBytes kv.1 nodes 2 p.1)) m1
  let rec' := { e with state := e.prior, pausePending := false, autoPause := false, cmd := none, kvMap := kv.1, kvNodes := nodes, inputPages := [] }
  ({ handle := e.handle, ctx := e.ctx, entry := rec', pageCount := e.kvMap.length, deadline := ttl + e.pauseTtl, t2Pages := ps.length, frames := fs,
     objPages := ps.map (·.1), inputAddrs := ins.map (·.2), resuming := false, remote := [] },
   memWrite m2 (archiveAddr fs (off + 4096 * e.kvNodes.length)) (archiveRecord { e with state := e.prior, pausePending := false } (tget 0 nodes 0) (ttl + e.pauseTtl)))

/-- PAUSE_ARCHIVE_DONE (R155, R158, R205): once the committed tokens are out, the archive record is written, the tier-1 pages are freed, and SEQ_PAUSE
ends with the archive's size. -/
def execPauseArchiveDone (index : Fin 16384) (s : State) : Res :=
  let i := index.val
  .next (match getEntry s i with
    | none => s
    | some e =>
      let fp8 := transcodes s e
      let n := archivePages e fp8
      if e.state ≠ .pausing ∨ e.releaseBuf ≠ [] then s
      else
        match takeArchive e.ctx n s with
        | some (ps, s0) =>
          let a := writeArchive e fp8 ps s.seq.ttlClock s0.mem.bytes
          let s1 := modCtx e.ctx (fun x => { x with archUsed := x.archUsed + n, wroteT2 := true })
            (freeSeq i (s0.onMem fun m => { m with bytes := a.2 }))
          let s2 := s1.onSeq fun q => { q with archives := q.archives ++ [a.1] }
          match e.cmd with
          | some r => match findCmd s2 r with | some m => endOk m n 0 s2 | none => journal 4 0 e.ctx e.handle none s2
          | none => journal 4 0 e.ctx e.handle none s2
        | none => failPause i e 2 (modEntry i (fun x => { x with state := x.prior }) s))

/-- A sequence is lost: its entry goes, its handle joins the lost list, and it is counted (R157, R350). -/
def loseSeq (i : Nat) (s : State) : State :=
  match getEntry s i with
  | none => s
  | some e =>
    let s1 := freeSeq i (endWaiting e stSessionLost s)
    bump CMT_SESSION_LOST (modCtx e.ctx (fun x => { x with lostHandles := (e.handle :: x.lostHandles).take 4096 }) s1)

/-- The bytes of an archived KV page as stored. -/
def archivedPage (s : State) (p : KvPage) : List Byte := memRead s.mem.bytes p.addr (if p.fp8 then 0x20000 else 0x40000)

/-- The pages of an archive come back into KV pages, and its input pages behind them (R156, R157). -/
def bringPages (a : Archive) (ps : List Nat) (m : Mem) : Mem :=
  let kv := (a.entry.kvMap.zip ps).foldl (fun b p =>
    if p.1.2.fp8 then memWrite b (p.2 * 0x40000) (expandPage p.1.2.scale (memRead b p.1.2.addr 0x20000))
    else memMove p.1.2.addr (p.2 * 0x40000) 0x40000 b) m
  (a.inputAddrs.zip (ps.drop a.entry.kvMap.length)).foldl (fun b p => memMove p.1 (p.2 * 0x40000) 0x40000 b) kv

/-- The entry of a resume whose pages are back: in tier 1, in the state recorded, a HELD one admitted as R189 has it (notes/assumptions/176). -/
def resumed (s : State) (e : SeqEntry) (a : Archive) (ps : List Nat) : SeqEntry :=
  let e1 : SeqEntry := { e with
    state := if a.entry.state = SeqState.held then (if e.input.isEmpty then SeqState.idle else SeqState.prefill) else a.entry.state
    kvMap := (a.entry.kvMap.zip ps).map fun p => (p.1.1, { p.1.2 with loc := 1, addr := p.2 * 0x40000, fp8 := false })
    kvNodes := [], inputPages := ps.drop a.entry.kvMap.length, cmd := none, t2Copy := a.t2Pages, waitSince := s.tick }
  { e1 with kvReserved := reservation s e1 }

/-- RESUME_PAGES_DONE (R157, R207): the pages are back with their CRC checked and the sequence takes its recorded state; a page that does not match
its CRC, or whose transfer failed, is read once more, and then ends it with ST_SESSION_LOST. -/
def execResumePagesDone (index : Fin 16384) (crcOk : Bool) (s : State) : Res :=
  let i := index.val
  .next (match getEntry s i with
    | none => s
    | some e =>
      match findArchive s e.ctx e.handle with
      | none => s
      | some a =>
        if e.state ≠ .resuming ∨ a.remote ≠ [] then s
        else if !crcOk || a.entry.kvMap.any fun p => decide (crc32c (archivedPage s p.2) ≠ p.2.crc.toNat) then
          if !e.reread then modEntry i (fun x => { x with reread := true }) s
          else
            let d := (a.frames.headD 0 * 0x200000 - 0x10000000000) / 0x04000000000 / 3
            present { faultOf 0x0205 (0x60 + d) 0xFF 0 with ctx := some e.ctx } (loseSeq i (freeArchive a s))
        else
          match takeKv e.ctx (resumePages a.entry) s with
          | none => s
          | some (ps, s1) =>
            let e1 := resumed s1 e a ps
            let s2 := putEntry i e1 (s1.onMem fun m => { m with bytes := pokeInput e1 0 (if a.inputAddrs.isEmpty then e1.input else []) (bringPages a ps m.bytes) })
            match growNodes i (nodesFor (tkeys e1.kvMap)) s2 with
            | none => s
            | some s3 =>
              match e.cmd with
              | some r => match findCmd s3 r with | some m => endOk m i 0 s3 | none => s3
              | none => s3)

/-- A resume of the archive was accepted before its deadline and has not ended (R158). -/
def resumeAccepted (s : State) (a : Archive) : Bool :=
  a.resuming || s.cmds.any fun m => decide (m.opcode = 0x0404) && decide (m.ctx = a.ctx) && decide (BitVec.ofNat 64 (m.p 0) = a.handle)
    && !m.rejected && !m.isEnded && decide (m.ttlAt < a.deadline)

/-- TTL_SWEEP (R158): archives at or past their deadline, and not held by a resume accepted in time, are freed and counted. -/
def execTtlSweep (s : State) : Res :=
  let due := s.seq.archives.filter fun a => decide (a.deadline ≤ s.seq.ttlClock) && !resumeAccepted s a
  .next (due.foldl (fun s a =>
    journal 4 0 a.ctx a.handle none
      (bump TIER_BITTERN_EXPIRED (modCtx a.ctx (fun x => { x with expired := (a.handle :: x.expired).take 4096 }) (freeArchive a s)))) s)

/-- A checkpoint of the TTL clock (R159): the clock is written to tier 2, where `ttlCkpt` is what the checkpoint holds, and journalled as a CLOCK record
when protected. -/
def ttlWrite (s : State) : State :=
  journal 5 0 0 0 none (setReg TIER_TTL_CKPT (BitVec.ofNat 32 s.seq.ttlClock) (s.onSeq fun q => { q with ttlCkpt := q.ttlClock }))

/-- TTL_CHECKPOINT (R159): a checkpoint is written 60 s of the clock after the last. -/
def execTtlCheckpoint (s : State) : Res :=
  .next (if s.seq.ttlCkpt + 60 ≤ s.seq.ttlClock then ttlWrite s else s)

/-- STEP_POLICY's balance set (R125): the pans are the context's, of one shape and one model, and each holds a prefill or decode image. -/
def balanceOk (s : State) (c : CtxId) (ps : List Nat) : Bool :=
  let xs := ps.map (getPan s)
  xs.all (fun x => match x with | some p => decide (p.ctx = c) && p.active.isSome | none => false)
    && match xs with
      | some p :: _ => xs.all fun x => match x with
        | some q => decide (q.w = p.w) && decide (q.h = p.h) && decide ((q.active.map (·.kind)).getD 2 ≤ 1) && decide (q.active.map (·.model) = p.active.map (·.model))
        | none => false
      | _ => true

/-- Prefill pans of a list. -/
def prefillPans (s : State) (ps : List Nat) : Nat :=
  (ps.filter fun n => match getPan s n with | some p => decide (p.active.map (·.kind) = some 0) | none => false).length

/-- STEP_POLICY (R125, R195). -/
def execStepPolicy (c : CmdRef) (s : State) : Res :=
  .next (startCmd 0x0407 c s fun m s =>
    let lc := m.f 0 0 20
    let be := m.f 0 32 20
    let hold := m.f 1 0 20
    let kv := m.f 1 32 16
    let ps := (List.range 16).filter fun n => bit (m.p 2) n
    if lc = 0 ∨ 1000000 < lc ∨ be = 0 ∨ 1000000 < be ∨ 600000 < hold ∨ kv = 0 then endFail m (stBadParam 7) s
    else if bit (m.p 2) 32 ∧ (!balanceOk s m.ctx ps ∨ m.f 2 24 5 < m.f 2 16 5) then endFail m (stBadParam 0xB) s
    else
      let s1 := modCtx m.ctx (fun x => { x with lcGoalUs := lc, beGoalUs := be, holdMaxMs := hold, kvWaitSteps := kv }) s
      endOk m 0 0 (if bit (m.p 2) 32 then
        setReg CFG_BAL (BitVec.ofNat 32 (m.f 2 16 5 + 256 * m.f 2 24 5 + 65536 * prefillPans s ps + 2 ^ 24 * ps.length))
          (s1.onBalances fun l =>
            (l.filter fun b => !decide (b.ctx = m.ctx)) ++
              (if ps.isEmpty then [] else [{ ctx := m.ctx, pans := ps, minP := m.f 2 16 5, maxP := m.f 2 24 5, lastEval := cd0Count s,
                                             streak := 0, dirUp := false, window := [] }]))
        else s1))

end Sys2Proof.Machine
end

