-- ==== Sys2Proof/Machine/StepHooks.lean ====
section
/-! DEFINITION. What the step builder and the commit take from other chapters: adapter sections (R222–R224), slots (R219), accepting
epochs (R246), the buddy's consent (R333) and the step histograms (R381). -/

namespace Sys2Proof.Machine

/-! ### Adapters in the batch (R219, R222–R224) -/

/-- Distinct adapter slots of rows. -/
def slotsOf (rows : List WRow) : List Nat :=
  dedup ((rows.filter fun r => decide (r.adapterSlot ≠ 0xFFFF)).map fun r => r.adapterSlot.toNat)

/-- Entry e's slot is none, already in the step, or within the distinct limit (R223). -/
def distinctRoom (s : State) (rows : List WRow) (e : SeqEntry) : Bool :=
  let d := min (getModel s e.model).cur.maxDistinct 4096
  let ss := slotsOf rows
  decide (e.adapterSlot = 0xFFFF) || (decide (0 < d) && ss.contains e.adapterSlot.toNat) || decide (ss.length < d)

/-- Rows in ROW order (R222): by adapter slot, then those without, each in selection order. -/
def orderRows (rows : List WRow) : List WRow :=
  let a := sortBy (fun x y => decide (x.adapterSlot.toNat ≤ y.adapterSlot.toNat)) (rows.filter fun r => decide (r.adapterSlot ≠ 0xFFFF))
  (a ++ rows.filter fun r => decide (r.adapterSlot = 0xFFFF)).zipIdx.map fun p => { p.1 with row := p.2 }

/-- The group entries of ordered rows (Table 8.6). -/
def adapterGroups (s : State) (rows : List WRow) : List AdpGroup :=
  (slotsOf rows).map fun n =>
    let g := rows.filter fun r => decide (r.adapterSlot.toNat = n)
    let x := getSlot s n
    { slot := n, firstRow := (g.head?.map (·.row)).getD 0, rows := g.length, gen := x.gen, format := x.format, rank := x.rank,
      dataAddr := x.dataAddr }

/-- A built step's groups are shown in ADP_PAN_GROUPS, and its slots take its epoch (R218, R236). -/
def groupCounts (pan : Nat) (st : Step) (s : State) : State :=
  let rows := (st.groups.map (·.rows)).foldl (· + ·) 0
  let s1 := setReg (ADP_PAN_GROUPS pan) (BitVec.ofNat 32 (st.groups.length + 65536 * rows)) s
  st.groups.foldl (fun s g => modSlot g.slot (fun x => { x with lastEpoch := st.epoch }) s) s1

/-- An UNLOADING slot is FREE once no step at or below LAST_EPOCH waits to commit, and its ADP_LOAD with UNLOAD ends (R219). -/
def settleSlots (s : State) : State :=
  s.mdl.slots.foldl (fun s p =>
    let x := p.2
    if x.state = 3 ∧ !(s.seq.steps.any fun st => decide (st.epoch ≤ x.lastEpoch)) then
      let s1 := modSlot p.1 (fun y => { AdpSlot.free with gen := y.gen }) s
      match s1.cmds.find? fun m => decide (m.ctx = x.ctx) && decide (m.opcode = 0x0501) && decide (m.phase = .running) && bit (m.p 1) 0
          && decide (m.f 0 48 16 = p.1) with
      | some m => endOk m (p.1 + 65536 * x.gen) 0 s1
      | none => s1
    else s) s

/-! ### Accepting epochs (R246) -/

/-- The die's stream ports accept exchange packets of this epoch. -/
def acceptEpoch (d epoch : Nat) (vers : Tab Nat) (s : State) : State :=
  modDie d (fun x => { x with accepting := some epoch, exchange := [], rowUse := [], gathered := [], embVer := vers }) s

/-- The dies of a pan that accept a step's epoch accept none any more. -/
def clearAccept (pan epoch : Nat) (s : State) : State :=
  match getPan s pan with
  | some p => (panDies s p).foldl (fun s d =>
      if (getDie s d).accepting = some epoch then modDie d (fun x => { x with accepting := none }) s else s) s
  | none => s

/-- At a step's end the pins that are not replicated are released, and copies of a version that is no longer CURRENT go (R268, R271). -/
def releasePins (pan : Nat) (s : State) : State :=
  match getPan s pan with
  | some p => (panDies s p).foldl (fun s d => dropHot d (fun h => !h.replicated || decide (h.version.toNat ≠ (getEmb s h.entry).cur.version)) s) s
  | none => s

/-! ### Step histograms (R381) -/

/-- A pan number that no step has used. -/
def PanHist.fresh : PanHist := { bins := [], steps := 0, abandoned := 0, rakes := 0 }

/-- The histograms of pan n. -/
def getHist (s : State) (n : Nat) : PanHist := tget PanHist.fresh s.pmc.hists n

/-- The state with f applied to the histograms of pan n. -/
def modHist (n : Nat) (f : PanHist → PanHist) (s : State) : State := s.onPmc fun p => { p with hists := tmod PanHist.fresh p.hists n f }

/-- The bin of a time in µs (Table 15.1): below 32, then by powers of two, 8,388,608 and above last. -/
def timeBin (us : Nat) : Nat := if us < 32 then 0 else min 19 (Nat.log2 us - 4)

/-- The bin of a time in ns against a prediction: eighths, 1.875 and above last. -/
def ratioBin (ns pred : Nat) : Nat := if pred = 0 then 15 else min 15 (8 * ns / pred)

/-- One more in a bin, which stops at 0xFFFF_FFFF. -/
def PanHist.count (hist bin : Nat) (h : PanHist) : PanHist :=
  { h with bins := tmod 0 h.bins (32 * hist + bin) fun n => min (n + 1) 0xFFFFFFFF }

/-- A committed step enters its pan's histograms and totals (R381); its slots and accepting epochs settle,
and the old copies that it read are freed (R221). -/
def stepHist (st : Step) (s : State) : State :=
  let dt := st.endedAt - st.builtAt
  reapOld (settleSlots (clearAccept st.pan st.epoch (modHist st.pan (fun h =>
    let h1 := ((h.count 0 (timeBin (dt / 100))).count 1 (timeBin ((s.tick - st.endedAt) / 100))).count 2 (ratioBin (10 * dt) st.predNs)
    { h1 with steps := h.steps + 1, rakes := h.rakes + st.rakes }) s)))

/-- An abandoned step enters the totals only (R381); its slots and accepting epochs settle. -/
def abandonedHist (st : Step) (s : State) : State :=
  reapOld (settleSlots (clearAccept st.pan st.epoch (modHist st.pan (fun h => { h with abandoned := h.abandoned + 1, rakes := h.rakes + st.rakes }) s)))

end Sys2Proof.Machine
end

