-- ==== Sys2Proof/Machine/PmcOps.lean ====
section
/-! DEFINITION. Counter windows and their records (R378–R386). -/

namespace Sys2Proof.Machine

/-- A high-water mark table after a clear: the present occupancies (R378). -/
def occupancies (q : Tab Nat) : Tab Nat := q.foldl (fun t p => tput 0 t p.1 p.2) []

/-- Every high-water mark of a die is cleared (R383, R387). -/
def clearHwm (p : Nat) (s : State) : State :=
  modDie p (fun d => { d with tiles := d.tiles.foldl (fun t q => tput Tile.fresh t q.1 { q.2 with
    hwm := occupancies (q.2.queues.map fun x => (x.1, x.2.length)), eqHwm := occupancies (q.2.elastic.map fun x => (x.1, x.2.tags.length)) }) [] }) s

/-- The difference of two 48-bit counts, which fits 32 bits (R383). -/
def diff48 (now before : Nat) : Nat := (now + 2 ^ 48 - before) % 2 ^ 48

/-- Tile positions in the order of Table 2.2: row, then column. -/
def tileOrder : List (Nat × Nat) := ((List.range 20).map fun r => (List.range 16).map fun c => (c, r)).flatten

/-- A window opens on a die (R383): its bounds are counts of the die's own counter (R30), its counter values are recorded and its high-water marks cleared; windows already open share them (R384). -/
def openWindow (seqno len p : Nat) (s : State) : State :=
  let d := getDie s p
  let w : Window := { sample := seqno, start := dieCount s p, stop := dieCount s p + usTicks len, cycles0 := d.cycles, rake0 := d.rakeCycles, wait0 := d.waitCycles,
                      rakes0 := (getReg s (CFG_RAKE_COUNT p)).toNat, perf0 := d.tiles.map fun q => (q.1, q.2.perf),
                      full0 := d.tiles.map fun q => (q.1, q.2.full), eqFull0 := d.tiles.map fun q => (q.1, q.2.eqFull),
                      hwmShared := false, swapped := false }
  modDie p (fun d => { d with windows := (d.windows.map fun x => { x with hwmShared := true }) ++ [w] }) (clearHwm p s)

/-- The body of a set for one tile (Table 15.2). -/
def tileBody (set : Nat) (w : Window) (d : Die) (c : Nat × Nat) : List Byte :=
  let t := d.tile c.1 c.2
  let k := tileKey c.1 c.2
  if set = 1 then
    let p0 := tget TilePerf.zero w.perf0 k
    leBytes 4 (diff48 t.perf.fire p0.fire) ++ leBytes 4 (diff48 t.perf.starved p0.starved) ++ leBytes 4 (diff48 t.perf.blocked p0.blocked)
      ++ leBytes 4 (diff48 t.perf.busy p0.busy)
  else if set = 2 then
    ((List.range 20).map fun q =>
      if 16 ≤ q ∧ !hasPortX c.1 c.2 then leBytes 8 0
      else leBytes 4 (tget 0 t.hwm q) ++ leBytes 4 (diff48 (tget 0 t.full q) (tget 0 (tget [] w.full0 k) q))).flatten
  else if kindAt c.1 c.2 = 3 then
    ((List.range 8).map fun i =>
      leBytes 2 (tget 0 t.eqHwm i) ++ leBytes 2 (b2n (decide (0 < (tget EqDesc.unused t.eqDescs i).size)))
        ++ leBytes 4 (diff48 (tget 0 t.eqFull i) (tget 0 (tget [] w.eqFull0 k) i))).flatten
  else []

/-- What a die reports when its window closes. -/
def dieReport (s : State) (set logical p : Nat) (w : Window) : DieReport :=
  let d := getDie s p
  { logical := logical, physical := p, mhz := getFld s (ARR_CLK p) 0 12, cycles := diff48 d.cycles w.cycles0, rake := diff48 d.rakeCycles w.rake0,
    wait := diff48 d.waitCycles w.wait0, rakes := (getReg s (CFG_RAKE_COUNT p)).toNat - w.rakes0, hwmShared := w.hwmShared, swapped := w.swapped,
    body := (tileOrder.map (tileBody set w d)).flatten }

/-- A die's section of a sample record (Table 15.3). -/
def reportBytes (r : DieReport) : List Byte :=
  leBytes 1 r.logical ++ leBytes 1 r.physical ++ leBytes 2 r.mhz ++ leBytes 4 r.cycles ++ leBytes 4 r.rake ++ leBytes 4 r.wait ++ leBytes 2 r.rakes
    ++ leBytes 1 (b2n r.hwmShared + 2 * b2n r.swapped) ++ leBytes 13 0 ++ r.body

/-- The record of a window (R386): header, then the sections by logical die. -/
def sampleBytes (x : Sample) : List Byte :=
  let rs := sortBy (fun a b => decide (a.logical ≤ b.logical)) x.reports
  let flags := b2n x.cut.isSome + 2 * b2n (rs.any (·.hwmShared)) + 4 * b2n (rs.any (·.swapped)) + 8 * b2n (decide (x.epoch0 ≠ x.epoch1))
  leBytes 1 x.set ++ leBytes 1 (x.pan.getD 0xF) ++ leBytes 1 rs.length ++ leBytes 1 flags ++ leBytes 4 (x.cut.getD x.window)
    ++ leBytes 4 x.epoch0 ++ leBytes 4 x.epoch1 ++ leBytes 48 0 ++ (rs.map reportBytes).flatten

/-- The epoch of the pan of a sample; 0 for the package. -/
def sampleEpoch (s : State) (pan : Option Nat) : Nat := match pan.bind (getPan s) with | some p => p.epoch | none => 0

/-- The state with f applied to the sample of a command. -/
def modSample (seqno : Nat) (f : Sample → Sample) (s : State) : State :=
  s.onPmc fun p => { p with samples := p.samples.map fun x => if x.seqno = seqno then f x else x }

/-- A sample whose dies have all reported is written and its command ends (R383). -/
def finishSample (seqno : Nat) (s : State) : State :=
  match s.pmc.samples.find? fun x => decide (x.seqno = seqno) with
  | none => s
  | some x =>
    if !x.toOpen.isEmpty ∨ !x.toReport.isEmpty then s
    else
      let y := { x with epoch1 := sampleEpoch s x.pan }
      let s1 := s.onPmc fun p => { p with samples := p.samples.filter fun z => !decide (z.seqno = seqno) }
      match findCmd s1 x.cmd with
      | some m => if m.seqno = seqno then endOk m (sampleBytes y).length 0 (dmaWrite m.ctx (m.p 1) (sampleBytes y) s1) else s1
      | none => s1

/-- A die's window of a sample closes, and the die reports (R383). -/
def closeWindow (x : Sample) (logical p : Nat) (s : State) : State :=
  match (getDie s p).windows.find? fun w => decide (w.sample = x.seqno) with
  | none => s
  | some w =>
    let r := dieReport s x.set logical p w
    finishSample x.seqno (modSample x.seqno (fun y => { y with
        reports := y.reports ++ [r], toReport := y.toReport.filter fun l => !decide (l = logical) })
      (modDie p (fun d => { d with windows := d.windows.filter fun w => !decide (w.sample = x.seqno) }) s))

/-- Pan n is released: every window of its samples closes, with TRUNCATED and the window run (R384). -/
def cutSamples (n : Nat) (s : State) : State :=
  (s.pmc.samples.filter fun x => decide (x.pan = some n)).foldl (fun s x =>
    let s1 := x.toOpen.foldl (fun s l => openWindow x.seqno x.window (physDie s l) s) s
    let s2 := modSample x.seqno (fun y => { y with toOpen := [], toReport := y.toReport ++ x.toOpen, cut := some ((s.tick - x.began) / 100) }) s1
    (x.toReport ++ x.toOpen).foldl (fun s l => closeWindow x l (physDie s l) s) s2) s

end Sys2Proof.Machine
end

