-- ==== Sys2Proof/Machine/Network.lean ====
section
/-! DEFINITION. The system network: attach ports, routes, replication, arbitration, the context check of its routers, and what a packet does
where it lands (R15–R19, R28, R31). Routers are numbered by physical die; AD72 and AD73 hang on the west of X0 at Y4 and Y5 (Table 1.3). -/

namespace Sys2Proof.Machine

/-! ### Routers and their buffers (R15–R17, R28) -/

/-- The number of a virtual network. -/
def VNet.num : VNet → Nat
  | .ctrl => 0 | .req => 1 | .data => 2 | .tun => 3

/-- Inputs of a router: 0–3 the links from N, E, S and W, 4–11 the die's stream ports 0–7, 12–15 the attach ports, 16 the die's tunnelled
interfaces. -/
def routerInputs : Nat := 17

/-- Key of the buffer of a router input for a virtual network (R17). -/
def bufKey (r input net : Nat) : Nat := 4 * (32 * r + input) + net

/-- What the buffer of a router input holds. -/
def bufAt (s : State) (r input net : Nat) : List Packet := tget [] s.arr.routers (bufKey r input net)

/-- Channel beats of a packet: one for the header, and 192 payload bytes in each further one (R15, R17). -/
def packetBeats (k : Packet) : Nat := 1 + ceilDiv k.body.bytes 192

/-- The routers to which a periphery die attaches, one for each attach port (Table 1.3), by die code. -/
def attachPorts (code : Nat) : List Nat :=
  if 0x50 ≤ code ∧ code < 0x5C then
    let row := if code < 0x56 then 0 else 64
    ([[0, 0, 0, 1], [1, 1, 2, 2], [2, 3, 3, 3], [4, 4, 4, 5], [5, 5, 6, 6], [6, 7, 7, 7]].getD ((code - 0x50) % 6) []).map (row + ·)
  else if 0x60 ≤ code ∧ code < 0x64 then [[0, 8], [16, 24], [48, 56], [56, 64]].getD (code - 0x60) []
  else if 0x68 ≤ code ∧ code < 0x6C then List.replicate 4 (8 * (code - 0x68) + 7)
  else if 0x6C ≤ code ∧ code < 0x70 then List.replicate 4 (8 * (code - 0x68 + 1) + 7)
  else if code = 0x70 ∨ code = 0x71 then [39, 39] else []

/-- The periphery dies with attach ports, by code. -/
def peripheryCodes : List Nat := (List.range 12).map (0x50 + ·) ++ (List.range 4).map (0x60 + ·) ++ (List.range 10).map (0x68 + ·)

/-- The input of router r that port j of a periphery die feeds: the ports attached to the router, in the order of the die codes. -/
def attachInput (r code j : Nat) : Nat :=
  12 + ((peripheryCodes.map fun c => ((attachPorts c).zipIdx.filter fun q => decide (q.1 = r)).map fun q => (c, q.2)).flatten.findIdx
    fun q => decide (q = (code, j)))

/-- Hops of X-then-Y routing between two routers of the grid. -/
def gridHops (a b : Nat) : Nat := (a % 8 - b % 8) + (b % 8 - a % 8) + (a / 8 - b / 8) + (b / 8 - a / 8)

/-- The router of the grid that a router is reached by: itself, or the one beside a spare. -/
def gridOf (r : Nat) : Nat := if r = 72 then 32 else if r = 73 then 40 else r

/-- The attach port that packets between a periphery die and router t use: of the ports nearest to t, the one that t's number picks
(notes/assumptions/41). It depends on source and destination alone, so that R19's order holds. -/
def attachPort (code t : Nat) : Nat :=
  let l := (attachPorts code).zipIdx
  let best := l.foldl (fun m q => min m (gridHops q.1 (gridOf t))) 1000
  let near := l.filter fun q => decide (gridHops q.1 (gridOf t) = best)
  (near.getD (t % max 1 near.length) (0, 0)).2

/-- The router at which packets between a periphery die and router t enter or leave the grid. -/
def attachRouter (code t : Nat) : Nat := (attachPorts code).getD (attachPort code t) 39

/-- A packet enters a buffer. -/
def pushPacket (r input : Nat) (k : Packet) (s : State) : State :=
  s.onArr fun a => { a with routers := tmod [] a.routers (bufKey r input (VNet.num k.vnet)) (· ++ [k]) }

/-- An input takes a packet: a router link's queue has 16 beats for each channel and network, and a packet enters while fewer are held, its
tail streaming in behind (R28; notes/assumptions/156); what a die sends waits in that die. -/
def inputRoom (s : State) (r input net : Nat) : Bool :=
  decide (4 ≤ input) || decide (((bufAt s r input net).map packetBeats).foldl (· + ·) 0 < 16)

/-- A packet leaves physical die p by stream port j. -/
def sendFromPort (p j : Nat) (k : Packet) (s : State) : State := pushPacket p (4 + j) k s

/-- A packet leaves a periphery die for a router. -/
def sendFromDie (code t : Nat) (k : Packet) (s : State) : State :=
  let j := attachPort code t
  pushPacket ((attachPorts code).getD j 39) (attachInput ((attachPorts code).getD j 39) code j) k s

/-! ### Routes (R18) -/

/-- The next router towards a router: along the entry row, then along the column (R18); none at the destination. -/
def nextRouter (r t : Nat) : Option Nat :=
  if r = t then none
  else if r = 72 then some 32
  else if r = 73 then some 40
  else
    let g := gridOf t
    if r % 8 < g % 8 then some (r + 1)
    else if g % 8 < r % 8 then some (r - 1)
    else if r / 8 < g / 8 then some (r + 8)
    else if g / 8 < r / 8 then some (r - 8)
    else if t = 72 ∨ t = 73 then some t else none

/-- The input of router q that its neighbour r feeds. -/
def linkInput (r q : Nat) : Nat :=
  if r = 72 ∨ r = 73 then 3 else if q = 72 ∨ q = 73 then 1 else if q = r + 1 then 3 else if r = q + 1 then 1 else if q = r + 8 then 0 else 2

/-- What a router does with a packet or with one of its copies. -/
inductive Hop where
  /-- On to router q. -/
  | link (q : Nat) (k : Packet)
  /-- Into the router's own die. -/
  | land (k : Packet)
  /-- Out of an attach port. -/
  | out (k : Packet)
  /-- Discarded: a rectangle on a network other than DATA (R18). -/
  | discard
deriving DecidableEq, Repr

/-- A packet for physical die p: on, or landed. -/
def hopTo (r p : Nat) (k : Packet) : Hop := match nextRouter r p with | some q => .link q k | none => .land k

/-- The copies of a packet to a rectangle at router r, split by the next step of X-then-Y routing (R18): each die gets one copy; the copy of a
logical die that a spare serves goes on to the spare. -/
def rectHops (s : State) (r x0 y0 w h : Nat) (k : Packet) : List Hop :=
  if r = 72 ∨ r = 73 then [.link (gridOf r) k]
  else
    let x := r % 8
    let y := r / 8
    let go (q a b c d : Nat) : List Hop := if c = 0 ∨ d = 0 then [] else [.link q { k with dest := .rect a b c d }]
    let across := go (r - 1) x0 y0 (min w (x - x0)) h ++ go (r + 1) (max x0 (x + 1)) y0 (x0 + w - max x0 (x + 1)) h
    if x < x0 ∨ x0 + w ≤ x then across
    else
      let down := go (r - 8) x y0 1 (min h (y - y0)) ++ go (r + 8) x (max y0 (y + 1)) 1 (y0 + h - max y0 (y + 1))
      if y < y0 ∨ y0 + h ≤ y then across ++ down
      else if hr : r < 72 then across ++ down ++ [hopTo r (physDie s r) { k with dest := .array ⟨r, hr⟩ }]
      else across ++ down

/-- Where a packet at the head of a buffer of router r goes. -/
def hopsOf (s : State) (r : Nat) (k : Packet) : List Hop :=
  match k.dest with
  | .array d => [hopTo r (physDie s d) k]
  | .periphery _ => [match nextRouter r k.exit with | some q => .link q k | none => .out k]
  | .rect x0 y0 w h => if k.vnet = .data then rectHops s r x0 y0 w h k else [.discard]

/-! ### Landing (R19, R28, R31) -/

/-- A path of routes from an input key to the queues that it reaches. -/
def pathEnds (s : State) : Nat → Nat → Nat → Nat → Nat → List (Nat × Nat × Nat × Nat)
  | 0, _, _, _, _ => []
  | fuel + 1, p, col, row, key =>
    let r := (getTile s p col row).route key
    let onward :=
      if r.outPort = 4 then []
      else match linkEnd s p col row r.outPort.toNat with
        | some (q, c, w, ip) => pathEnds s fuel q c w (4 * ip + r.outVq.toNat)
        | none => []
    match r.type.toNat with
    | 0 => [(p, col, row, key)]
    | 1 => onward
    | 2 => (p, col, row, key) :: onward
    | _ => []

/-- Port-X inputs of a die from which a flit reaches a queue that a program of an active plane names (Table 4.7, step 2). -/
def portXInputs (s : State) (p : Nat) : List (Nat × Nat × Nat) :=
  (streamTiles.map fun c => (List.range 4).filterMap fun vq =>
    if (pathEnds s 400 p c.1 c.2 (16 + vq)).any fun e => (getTile s e.1 e.2.1 e.2.2.1).active.inputSet.contains e.2.2.2
    then some (c.1, c.2, vq) else none).flatten

/-- The slot in which a flit enters port X of a die: none in native mode; in compatibility mode a control token's, or a circuit's
(notes/assumptions/95). -/
def slotX (s : State) (p : Nat) (f : Flit) : Nat :=
  if compatDie s p then (if f.kind = 2 ∨ f.kind = 3 ∨ f.kind = 5 then 7 else 0) else 8

/-- Free entries of the crossing into port X of a stream port's tile: 64 for all its VQs together (R28, R29). -/
def roomX (s : State) (p col row : Nat) : Nat := 64 - (tget [] (getTile s p col row).inFlight 4).length

/-- Flits enter the crossing towards port X of a tile on a VQ. -/
def enterX (p col row vq : Nat) (fs : List Flit) (s : State) : State :=
  modTile p col row (fun t => { t with inFlight := tmod [] t.inFlight 4 (· ++ fs.map fun f => OnLink.of (slotX s p f) vq f) }) s

/-- A stream port places tokens in each of a die's port-X queues that a program names (Table 4.7, step 2). -/
def sendX (p : Nat) (fs : List Flit) (s : State) : State :=
  (portXInputs s p).foldl (fun s x => enterX p x.1 x.2.1 x.2.2 fs s) s

/-- Flits enter the crossing towards port X of a stream port's tile. -/
def deliverX (die port vq : Nat) (l : List Flit) (s : State) : State :=
  enterX die (streamTiles.getD port (7, 0)).1 (streamTiles.getD port (7, 0)).2 vq l s

/-- A router delivers a packet only to its die when that die lies in a pan of the packet's context, or with the firmware bit (R19). -/
def landAllowed (s : State) (p : Nat) (k : Packet) : Bool := k.fw || decide ((panCtx s p).2 = some k.ctx)

/-- The stream ports of die p have room for what a packet brings. -/
def landRoom (s : State) (p : Nat) (k : Packet) : Bool :=
  match k.body with
  | .notice fs => (portXInputs s p).all fun x => decide (((portXInputs s p).filter fun y => decide (y.1 = x.1) && decide (y.2.1 = x.2.1)).length
      * fs.length ≤ roomX s p x.1 x.2.1)
  | .portFlits _ port _ fs => decide (fs.length ≤ roomX s p (streamTiles.getD port (7, 0)).1 (streamTiles.getD port (7, 0)).2)
  | _ => true

/-- Stream n. -/
def getStream (s : State) (n : Nat) : Option Stream := tget none s.mem.streams n

/-- The state with f applied to stream n when it exists. -/
def modStream (n : Nat) (f : Stream → Stream) (s : State) : State :=
  s.onMem fun m => { m with streams := tmod none m.streams n (Option.map f) }

/-- A packet of a stream's block has reached the last mover: die p, or 0 for a die outside the array. -/
def noteLanded (n p : Nat) (s : State) : State := modStream n (fun t => { t with landed := tmod 0 t.landed p (· + 1) }) s

/-- The step epoch of the first STEP token among tokens. -/
def stepOf (fs : List Flit) : Option Nat := (fs.find? fun f => decide (f.kind = 5)).map fun f => f.payload.toNat % 2 ^ 64

/-- A packet has reached physical die p: its stream ports take it when the die lies in a pan of its context; otherwise it is discarded and
counted (R19; notes/assumptions/98). -/
def landPacket (p : Nat) (k : Packet) (s : State) : State :=
  if !landAllowed s p k then s.onArr fun a => { a with discarded := tmod 0 a.discarded p (· + 1) }
  else match k.body with
    | .workList e last _ => if last then modDie p (fun d => { d with listed := e }) s else s
    | .notice fs =>
      let s1 := sendX p fs s
      match stepOf fs with | some e => modDie p (fun d => { d with stepSent := e }) s1 | none => s1
    | .portFlits n port vq fs =>
      let s1 := deliverX p port vq fs s
      match n with | some n => noteLanded n p s1 | none => s1
    | .tunnelled c r ip vq f => modTile p c r (fun t => { t with inFlight := tmod [] t.inFlight ip (· ++ [OnLink.of (slotX s p f) vq f]) }) s
    | .rowData e row b => modDie p (fun d => { d with
        fetches := d.fetches.map fun g => if g.entry = e ∧ g.row = row then { g with arrived := some (g.arrived.getD [] ++ b) } else g }) s
    | _ => s.onArr fun a => { a with delivered := k :: a.delivered }

/-- A packet leaves an attach port for a periphery die: a request reaches its mover, data reaches the mover that writes it (R31). -/
def leavePacket (k : Packet) (s : State) : State :=
  match k.body with
  | .readReq n => modStream n (fun t => { t with asked := t.asked + 1 }) s
  | .rowReq e row => modDie k.src.toNat (fun d => { d with
      fetches := d.fetches.map fun g => if g.entry = e ∧ g.row = row then { g with asked := true } else g }) s
  | .moverData n b => noteLanded n 0 (modStream n (fun t => { t with arrived := t.arrived ++ b }) s)
  | _ => s.onArr fun a => { a with delivered := k :: a.delivered }

/-! ### Arbitration (R19, R165) -/

/-- A hop may happen now: the next input has room, or the die takes the packet. -/
def hopOk (s : State) (r : Nat) : Hop → Bool
  | .link q k => inputRoom s q (linkInput r q) (VNet.num k.vnet)
  | .land k => !landAllowed s r k || landRoom s r k
  | .out _ => true
  | .discard => true

/-- A hop happens. -/
def doHop (r : Nat) (s : State) : Hop → State
  | .link q k => pushPacket q (linkInput r q) k s
  | .land k => landPacket r k s
  | .out k => leavePacket k s
  | .discard => s.onArr fun a => { a with discarded := tmod 0 a.discarded r (· + 1) }

/-- The packet at the head of an input's buffer may move with all its copies. -/
def movable (s : State) (r net input : Nat) : Option Packet :=
  match bufAt s r input net with
  | k :: _ => if (hopsOf s r k).all (hopOk s r) then some k else none
  | [] => none

/-- Inputs of a router in round-robin order after the one served last (R19). -/
def inputOrder (s : State) (r net : Nat) : List Nat :=
  let last := tget (routerInputs - 1) s.arr.served (4 * r + net)
  (List.range routerInputs).map fun k => (last + 1 + k) % routerInputs

/-- The context in whose share a packet counts; 4096 for the firmware bit. -/
def packetPayer (k : Packet) : Nat := if k.fw then 4096 else k.ctx.toNat

/-- Packets that a context may send in its turn: its share weight (R165); 1 for firmware (notes/assumptions/156). -/
def shareOf (s : State) (c : Nat) : Nat := if c = 4096 then 1 else max 1 (getCtx s (BitVec.ofNat 12 c)).quota.share

/-- The next context after c in rising order of number, among those with a packet that may move. -/
def nextPayer (c : Nat) (l : List Nat) : Nat :=
  let above := l.filter fun x => decide (c < x)
  (if above.isEmpty then l else above).foldl min 5000

/-- On DATA, the context that is served and the turn that is left after it: the one whose turn it is while it has packets and share left,
otherwise the next (R19, R165). -/
def takeTurn (s : State) (r : Nat) (l : List Nat) : Nat × (Nat × Nat) :=
  let t := tget (5000, 0) s.arr.turns r
  if l.contains t.1 ∧ 0 < t.2 then (t.1, (t.1, t.2 - 1))
  else
    let c := nextPayer t.1 l
    (c, (c, shareOf s c - 1))

/-- The input that a router serves on a network, its packet, and the turn that is left on DATA. -/
def arbitrate (s : State) (r net : Nat) : Option (Nat × Packet × (Nat × Nat)) :=
  let l := (inputOrder s r net).filterMap fun i => (movable s r net i).map fun k => (i, k)
  if l.isEmpty then none
  else if net = 2 then
    let t := takeTurn s r (l.map fun q => packetPayer q.2)
    (l.find? fun q => decide (packetPayer q.2 = t.1)).map fun q => (q.1, q.2, t.2)
  else l.head?.map fun q => (q.1, q.2, tget (5000, 0) s.arr.turns r)

/-- ROUTER_PACKET (R18, R19): a router serves one of its inputs on a virtual network: the packet at the head of its buffer is forwarded,
replicated, delivered or discarded. -/
def execRouterPacket (router : Fin 74) (net : VNet) (s : State) : Res :=
  .next (match arbitrate s router (VNet.num net) with
    | none => s
    | some (i, k, turn) =>
      let s1 := s.onArr fun a => { a with
        routers := tmod [] a.routers (bufKey router i (VNet.num net)) List.tail
        served := tput (routerInputs - 1) a.served (4 * router + VNet.num net) i
        turns := tput (5000, 0) a.turns router turn }
      (hopsOf s router k).foldl (fun s h => doHop router s h) s1)

/-! ### What the dies send (R17, R31) -/

/-- CD0 sends a packet to logical die l on CTRL. -/
def sendCtrl (l : Nat) (c : CtxId) (b : PacketBody) (s : State) : State :=
  if h : l < 72 then
    sendFromDie 0x70 (physDie s l) { vnet := .ctrl, src := 0x70, dest := .array ⟨l, h⟩, exit := 39, ctx := c, fw := false, body := b } s
  else s

/-- CD0 asks the first mover of a copy for a block, on CTRL. -/
def sendMover (code : Nat) (c : CtxId) (b : PacketBody) (s : State) : State :=
  sendFromDie 0x70 (attachRouter code 39) { vnet := .ctrl, src := 0x70, dest := .periphery (BitVec.ofNat 8 code), exit := attachRouter code 39, ctx := c, fw := true, body := b } s

/-- A mover outside the array sends data to another one on DATA (R31). -/
def sendBetween (a b : Nat) (c : CtxId) (k : PacketBody) (s : State) : State :=
  sendFromDie a (attachRouter b 39) { vnet := .data, src := BitVec.ofNat 8 a, dest := .periphery (BitVec.ofNat 8 b), exit := attachRouter b 39, ctx := c, fw := false, body := k } s

/-- Die p's stream port j sends data to a periphery die on DATA. -/
def sendData (p j code : Nat) (c : CtxId) (b : PacketBody) (s : State) : State :=
  sendFromPort p j { vnet := .data, src := BitVec.ofNat 8 p, dest := .periphery (BitVec.ofNat 8 code), exit := attachRouter code p, ctx := c, fw := false, body := b } s

/-- Die p's stream port j asks a periphery die on REQ. -/
def sendReq (p j code : Nat) (c : CtxId) (b : PacketBody) (s : State) : State :=
  sendFromPort p j { vnet := .req, src := BitVec.ofNat 8 p, dest := .periphery (BitVec.ofNat 8 code), exit := attachRouter code p, ctx := c, fw := false, body := b } s

/-- A periphery die answers physical die p on DATA. -/
def sendToDie (code p : Nat) (c : CtxId) (b : PacketBody) (s : State) : State :=
  match logicalDie s p with
  | some l =>
    if h : l < 72 then
      sendFromDie code p { vnet := .data, src := BitVec.ofNat 8 code, dest := .array ⟨l, h⟩, exit := 39, ctx := c, fw := false, body := b } s
    else s
  | none => s

/-- A periphery die sends a packet to a rectangle of logical dies on DATA (R18). -/
def sendToRect (code x0 y0 w h : Nat) (c : CtxId) (b : PacketBody) (s : State) : State :=
  sendFromDie code (8 * y0 + x0) { vnet := .data, src := BitVec.ofNat 8 code, dest := .rect x0 y0 w h, exit := 39, ctx := c, fw := false, body := b } s

/-- The flit of an interface whose edge is bound to a tunnel goes on TUN to the matching interface of logical die l (R22, R24). -/
def sendTunnel (p l col row port vq : Nat) (f : Flit) (s : State) : State :=
  if h : l < 72 then
    pushPacket p 16 { vnet := .tun, src := BitVec.ofNat 8 p, dest := .array ⟨l, h⟩, exit := 39, ctx := ((panCtx s p).2).getD 0, fw := false
                      body := .tunnelled col row port vq f } s
  else s

/-- Packets that bring flits to one of these dies are dropped: their pan aborts or ends (R106, R121). -/
def dropPackets (dies : List Nat) (s : State) : State :=
  s.onArr fun a => { a with routers := (a.routers.map fun q => (q.1, q.2.filter fun k => !dies.any fun p => flitsFor s p k)).filter fun q => !q.2.isEmpty }

end Sys2Proof.Machine
end

