-- ==== Sys2Proof/Machine/Steps.lean ====
section
/-! DEFINITION. Steps: building, ending, committing and abandoning (R198–R204, R210, R248–R252, R337–R340). -/

namespace Sys2Proof.Machine

/-- Steps that carry entry i. -/
def stepsOf (s : State) (i : Nat) : List Step := s.seq.steps.filter fun st => st.rows.any fun r => decide (r.index = i)

/-- The outcome that a step's row has at CD0. -/
def outcomeOf (st : Step) (r : WRow) : RowOutcome :=
  (st.outcome.find? fun o => decide (o.row = r.row)).getD { row := r.row, tokens := [], accepted := 0, proposals := [], exited := false }

/-- Tokens by which a row's ended step advances its position once it commits. -/
def rowAdvance (st : Step) (r : WRow) : Nat :=
  if r.withheld then 0 else if st.kind = 0 then r.tokens else if st.kind = 2 then 0 else max 1 (outcomeOf st r).tokens.length

/-- POSITION after the steps in flight that have ended: the position of the row's next token (R198). -/
def nextPos (s : State) (i : Nat) (e : SeqEntry) : Nat :=
  e.position + (((stepsOf s i).map fun st => ((st.rows.filter fun r => decide (r.index = i)).map (rowAdvance st)).foldl (· + ·) 0)).foldl (· + ·) 0

/-- The token that the row takes in next: the last token sampled at CD0 (Table 7.8, INPUT_TOKEN). -/
def nextToken (s : State) (i : Nat) (e : SeqEntry) : Option Word :=
  (stepsOf s i).foldl (fun t st =>
    (st.rows.filter fun r => decide (r.index = i)).foldl (fun t r =>
      match (outcomeOf st r).tokens.getLast? with | some k => if st.kind = 2 then t else some k | none => t) t) e.lastToken

/-- The tokens that the row's last verify step kept, as far as its outcome is at CD0 (Table 9.5). -/
def nextKept (s : State) (i : Nat) (e : SeqEntry) : List Word :=
  (stepsOf s i).foldl (fun t st =>
    (st.rows.filter fun r => decide (r.index = i)).foldl (fun t r => if st.kind = 3 ∧ st.ended then (outcomeOf st r).tokens else t) t) e.kept

/-- Tokens of input not yet placed in a step. -/
def inputLeft (s : State) (i : Nat) (e : SeqEntry) : Nat :=
  e.inputPending - (((stepsOf s i).map fun st => if st.kind = 0 then ((st.rows.filter fun r => decide (r.index = i)).map (·.tokens)).foldl (· + ·) 0 else 0)).foldl (· + ·) 0

/-- A row's kind of work and token count (R199, R200, R248): 0 prefill, 1 decode, 2 draft, 3 verify; the flag marks a fallback to decode. -/
def rowWork (s : State) (i : Nat) (e : SeqEntry) (ct : CostTable) : Nat × Nat × Bool :=
  if e.state = .prefill then
    (0, min (min (inputLeft s i e) (if ct.chunkMax = 0 then inputLeft s i e else ct.chunkMax)) (2097152 - nextPos s i e), false)
  else if e.specOn then
    if (pansOf s e.ctx e.model 2).isEmpty ∨ (pansOf s e.ctx e.model 3).isEmpty then (1, 1, true)
    else
      let vmax := ((pansOf s e.ctx e.model 3).head?.map fun p => p.2.2.cost.verifyMax).getD 0
      let d := min e.specDepth vmax
      if d = 0 then (1, 1, true) else if e.drafts.isEmpty then (2, d, false) else (3, e.drafts.length + 1, false)
  else (1, 1, false)

/-- Context tokens and tokens with which a placed row counts in its pan's prediction: n(r), and POSITION + n(r) (R193, R200). -/
def rowTokens (s : State) (ct : CostTable) (q : Nat × SeqEntry) : Nat × Nat :=
  let n := (rowWork s q.1 q.2 ct).2.1
  (nextPos s q.1 q.2 + n, n)

/-- The row stays with the pan in PAN while that pan keeps its kind; otherwise it goes to the pan of the kind with the least predicted
time (R199), predicted for the rows whose PAN names it. -/
def rowGoesTo (s : State) (e : SeqEntry) (kind pan : Nat) : Bool :=
  let ps := pansOf s e.ctx e.model kind
  match e.pan with
  | some n => if ps.any fun p => decide (p.1 = n) then decide (n = pan) else best ps
  | none => best ps
where
  /-- The named pan is the first with the least prediction. -/
  best (ps : List (Nat × Pan × PanCfg)) : Bool :=
    let t (p : Nat × Pan × PanCfg) : Nat :=
      let rows := (liveEntries s).filter fun q => decide (q.2.pan = some p.1) && (decide (q.2.state = .decode) || decide (q.2.state = .prefill))
      let cs := rows.map (rowTokens s p.2.2.cost)
      predict p.2.2.cost (panMhz s p.2.1) rows.length ((cs.map (·.2)).foldl (· + ·) 0) ((cs.map (·.1)).foldl (· + ·) 0)
    match ps.foldl (fun r p => match r with | some b => if t p < t b then some p else r | none => some p) none with
    | some b => decide (b.1 = pan)
    | none => false

/-- A row waits for nothing but ring space and its turn: state, pending flags, the outcome of its previous step (R199), and a time check that was
deferred to the first step in which a pan holds the model (R194; notes/assumptions/174). -/
def rowSettled (s : State) (i : Nat) (e : SeqEntry) : Bool :=
  (decide (e.state = .prefill) || decide (e.state = .decode)) && !e.cancelPending && !e.pausePending && !e.interrupt && (!e.timeDue || timeCheck s e)
    && !(e.kvMap.any fun p => p.2.remote)
    && !((stepsOf s i).any fun st => !st.ended || st.rows.any fun r => decide (r.index = i) && r.endsTurn)
    && (decide (e.state = .decode) || decide (0 < inputLeft s i e))

/-- Row slots in use (R198). -/
def poolUsed (s : State) : Nat := (s.seq.steps.map fun st => st.rows.length + st.padding).foldl (· + ·) 0

/-- The builder's work in progress: state, rows, token and context sums, LC rows, and whether its loop ended. -/
structure Build where
  st : State
  rows : List WRow
  tokens : Nat
  ctxTokens : Nat
  stop : Bool

/-- kv_pages(r) of R200: pages for positions up to `upto` are taken from the reservation, then from the free pages; none where they do
not suffice or the mirror has no room (R335). A draft state page is created with zeros (R247), and zero-filled again at the first placement after a
switch that changed the draft image (Table 9.8). -/
def kvPagesFor (i : Nat) (e : SeqEntry) (ct : CostTable) (upto : Nat) (draft : Bool) (s : State) : Option State :=
  let need := if draft then (if (tget KvPage.absent e.kvMap 0xFFFFFF).loc = 0 then 1 else 0)
    else ceilDiv upto (max 1 ct.tpp) * ct.lg - e.kvPages
  let gen := (getModel s e.model).draftGen
  let fresh (s : State) : State :=
    if draft then modEntry i (fun x => { x with draftGen := gen }) (if e.draftGen = gen then s
      else s.onMem fun m => { m with bytes := memZero m.bytes (tget KvPage.absent e.kvMap 0xFFFFFF).addr 0x40000 }) else s
  if need = 0 then some (fresh s)
  else if e.kvReserved + freeKv s e.ctx i < need ∨ !mirrorRoom s need then none
  else
    match takeKv e.ctx need s with
    | none => none
    | some r =>
      let at' (k : Nat) : Nat := if draft then 0xFFFFFF else e.kvPages + k
      growNodes i (nodesFor ((List.range need).map at')) (modEntry i (fun x => { x with
        kvReserved := x.kvReserved - need
        kvPages := if draft then x.kvPages else x.kvPages + need
        draftGen := if draft then gen else x.draftGen
        kvMap := r.1.zipIdx.foldl (fun t p => tput KvPage.absent t (at' p.2) (KvPage.atPage p.1)) x.kvMap })
        (if draft then r.2.onMem fun m => { m with bytes := r.1.foldl (fun b a => memZero b (a * 0x40000) 0x40000) m.bytes } else r.2))

/-- skip(r) of R200: the row is counted, and auto-paused after KV_WAIT_STEPS. -/
def skipRow (i : Nat) (e : SeqEntry) (s : State) : State :=
  let s1 := bump SEQ_KV_SKIP (modEntry i (fun x => { x with kvSkips := x.kvSkips + 1 }) s)
  if (getCtx s e.ctx).kvWaitSteps ≤ e.kvSkips + 1 ∧ !e.pausePending then
    bump SEQ_KV_AUTOPAUSE (modEntry i (fun x => { x with pausePending := true, autoPause := true, pauseTtl := 604800, transcode := false, cmd := none })
      (dropDrafts i s1))
  else s1

/-- The work-list row of a placed entry (Table 7.8). -/
def workRow (s : State) (i : Nat) (e : SeqEntry) (row kind n : Nat) : WRow :=
  { index := i, handle := e.handle, row := row, be := e.be, firstChunk := decide (nextPos s i e = 0) && decide (kind = 0),
    lastChunk := decide (kind = 0) && decide (inputLeft s i e = n), generate := e.generate, specDepth := e.specDepth,
    position := nextPos s i e, tokens := n, inputToken := if kind = 0 then none else nextToken s i e,
    adapterSlot := e.adapterSlot, adapterScale := e.adapterScale, steerSlot := e.steerSlot, sampleMode := e.sampleMode, topK := e.topK,
    temperature := e.temperature, pTop := e.pTop, seed := e.seed,
    inputAddr := if kind = 0 then e.inputAddr (e.inputPending - inputLeft s i e) else 0, withheld := false, endsTurn := false,
    drafts := if kind = 3 then e.drafts else [], specGen := e.specGen, exitPolicy := e.exitPolicy,
    absorb := if kind ≠ 2 then [] else if (nextKept s i e).isEmpty then (nextToken s i e).toList else nextKept s i e }

/-- One ready row is tried (R200): the caps end the loop, a BE row also when the goal would be passed; a row without KV pages is skipped. A draft
placement follows the verify row and leaves PAN (R199; notes/assumptions/172); a fallback to plain decode discards held proposals
(notes/assumptions/184). -/
def tryRow (pan kind : Nat) (p : Pan) (ct : CostTable) (goal : Option Nat) (q : Nat × SeqEntry) (b : Build) : Build :=
  if b.stop then b
  else
    match getEntry b.st q.1 with
    | none => b
    | some e =>
      let w := rowWork b.st q.1 e ct
      let n := w.2.1
      let pos := nextPos b.st q.1 e
      if b.rows.length = ct.maxRows ∨ ct.maxTokens < b.tokens + n ∨ 8192 ≤ b.rows.length
          ∨ 16384 < poolUsed b.st + padRows ct.rowGranule (b.rows.length + 1) then
        { b with stop := true, st := if goal.isNone then bump SEQ_LC_CAP b.st else b.st }
      else if (match goal with
          | some g => decide (16000 * g < predict ct (panMhz b.st p) (b.rows.length + 1) (b.tokens + n) (b.ctxTokens + pos + n))
          | none => false) then { b with stop := true }
      else if !distinctRoom b.st b.rows e then { b with st := bump ADP_DISTINCT_SKIP b.st }
      else
        match kvPagesFor q.1 e ct (pos + n) (decide (kind = 2)) b.st with
        | none => { b with st := skipRow q.1 e b.st }
        | some s1 =>
          let s2 := if w.2.2 then bump SEQ_SPEC_FALLBACK (dropDrafts q.1 s1) else s1
          { b with
            st := modEntry q.1 (fun x => { x with kvSkips := 0, timeDue := false, pan := if kind = 2 then x.pan else some pan }) s2
            rows := b.rows ++ [workRow b.st q.1 e b.rows.length kind n]
            tokens := b.tokens + n, ctxTokens := b.ctxTokens + pos + n }

/-- Entries whose work is for this pan now, by WAIT_SINCE (R199, R200). -/
def readyRows (s : State) (pan : Nat) (p : Pan) (g : PanCfg) (be : Bool) : List (Nat × SeqEntry) :=
  sortBy (fun a b => decide (a.2.waitSince ≤ b.2.waitSince)) ((liveEntries s).filter fun q =>
    decide (q.2.ctx = p.ctx) && decide (q.2.model = g.model) && decide (q.2.be = be) && rowSettled s q.1 q.2
      && decide ((rowWork s q.1 q.2 g.cost).1 = g.kind) && rowGoesTo s q.2 g.kind pan
      && decide (q.2.releaseHeld + (rowWork s q.1 q.2 g.cost).2.1 ≤ 64))

/-- Rows that only a full release buffer keeps from being ready (R211). -/
def releaseBound (s : State) (pan : Nat) (p : Pan) (g : PanCfg) : Nat :=
  ((liveEntries s).filter fun q =>
    decide (q.2.ctx = p.ctx) && decide (q.2.model = g.model) && rowSettled s q.1 q.2
      && decide ((rowWork s q.1 q.2 g.cost).1 = g.kind) && rowGoesTo s q.2 g.kind pan
      && decide (64 < q.2.releaseHeld + (rowWork s q.1 q.2 g.cost).2.1)).length

/-- The builder may build the pan's next step (R198): building enabled and in service, the pan on its serving plane with no step, job
command, wave or hold under way. -/
def mayBuild (s : State) (p : Pan) : Bool :=
  decide (getFld s SEQ_CTL 0 1 = 1) && s.host.ready && !s.host.updating && p.step.isNone && p.run.isNone && p.wave.isNone && !p.releasing
    && !p.jobActive && !s.flt.outOfService && roleUp s 1 && !s.pwr.stopping

/-- The rows that a build of pan n takes: the ready LC rows in order, then BE rows while the step stays inside its goal (R200, R201). -/
def buildRows (pan : Nat) (p : Pan) (g : PanCfg) (s : State) : Build :=
  let x := getCtx s p.ctx
  let b0 : Build := { st := s, rows := [], tokens := 0, ctxTokens := 0, stop := false }
  let b1 := (readyRows s pan p g false).foldl (fun b q => tryRow pan g.kind p g.cost none q b) b0
  let goal := if b1.rows.isEmpty then x.beGoalUs else x.lcGoalUs
  (readyRows s pan p g true).foldl (fun b q => tryRow pan g.kind p g.cost (some goal) q b) { b1 with stop := false }

/-- The predicted time of a build's step, in sixteenths of a nanosecond (R194). -/
def buildTime (p : Pan) (g : PanCfg) (b : Build) : Nat := predict g.cost (panMhz b.st p) b.rows.length b.tokens b.ctxTokens

/-- The KV descriptors of a valid row (R201, R248): KIND, what they cover, and LENGTH. -/
def kvDescs (kind : Nat) (ct : CostTable) (r : WRow) : List (Nat × KvRange × Nat) :=
  let range (a b : Nat) : KvRange := { index := r.index, first := a, stop := b, tpp := ct.tpp, lg := ct.lg, bytes := ct.kvBytes, draft := false }
  let page (b : Nat) : KvRange := { range b b with draft := true }
  if kind = 2 then [(0, page 0, 0x40000), (1, page 1, 0x30000)]
  else
    (if r.position = 0 ∨ (kind = 0 ∧ r.firstChunk) then [] else [(0, range 0 r.position, r.position * ct.kvBytes * ct.lg)])
      ++ [(1, range r.position (r.position + r.tokens), r.tokens * ct.kvBytes * ct.lg)] ++ (if kind = 3 then [(1, page 0, 0x10000)] else [])

/-- The step that a build makes: the next step epoch, its rows in work-list order, the padding and the predicted time (R200, R201). -/
def buildStep (pan : Nat) (p : Pan) (g : PanCfg) (b : Build) : Step :=
  let s := b.st
  let rows := orderRows b.rows
  let pad := padRows g.cost.rowGranule b.rows.length - b.rows.length
  { epoch := s.seq.epoch + 1, pan := pan, ctx := p.ctx, model := g.model, kind := g.kind, ver := currentVer s g.model, rows := rows,
    padding := pad, lcRows := (b.rows.filter fun r => !r.be).length, tokens := b.tokens + pad, predNs := ceilDiv (buildTime p g b) 16,
    delivered := false, builtAt := s.tick, builtSeqno := s.host.nextSeqno, ended := false, endedAt := 0, outcome := [], deltas := [],
    commitSeq := none, groups := adapterGroups s rows, exits := (getModel s g.model).exits, exited := [], rakes := 0,
    kvDescs := (rows.map fun r => (kvDescs g.kind g.cost r).length).foldl (· + ·) 0, steerLive := (getModel s g.model).steerLive, embVer := embNow s }

/-- The window of the balance set that a pan belongs to notes the step: rows of a decode or verify step, tokens of a prefill step (R126). -/
def noteDemand (pan kind rows tokens : Nat) (s : State) : State :=
  s.onBalances fun l => l.map fun b => if b.pans.contains pan then
    { b with window := b.window ++ [(cd0Count s, if kind = 1 ∨ kind = 3 then rows else 0, if kind = 0 then tokens else 0)] } else b

/-! ### The work list (R201, R224, R249, R254) -/

/-- A row entry (Table 7.8). -/
def wrowBytes (r : WRow) : List Byte :=
  leBytes 2 r.index ++ leBytes 2 r.row ++ leBytes 1 (1 + 2 * b2n r.be + 4 * b2n r.firstChunk + 8 * b2n r.lastChunk + 16 * b2n r.generate)
    ++ leBytes 1 r.specDepth ++ leBytes 1 r.exitPolicy.toNat ++ leBytes 1 r.sampleMode.toNat ++ leBytes 4 r.position ++ leBytes 4 r.tokens
    ++ leBytes 4 (r.inputToken.getD 0).toNat ++ leBytes 2 r.adapterSlot.toNat ++ leBytes 2 r.adapterScale.toNat ++ leBytes 2 r.steerSlot.toNat
    ++ leBytes 1 r.topK ++ leBytes 1 0 ++ leBytes 4 r.temperature.toNat ++ leBytes 4 r.pTop.toNat ++ leBytes 4 0 ++ leBytes 8 r.seed.toNat
    ++ leBytes 8 r.inputAddr ++ leBytes 8 0

/-- The entry of padding row k: SEQ_INDEX 0xFFFF, not valid. -/
def padBytes (k : Nat) : List Byte := leBytes 2 0xFFFF ++ leBytes 2 k ++ leBytes 60 0

/-- The header (Table 7.7). -/
def headBytes (st : Step) : List Byte :=
  leBytes 8 st.epoch ++ leBytes 1 st.pan ++ leBytes 1 st.kind ++ leBytes 1 st.ver.toNat ++ leBytes 1 0 ++ leBytes 2 (st.rows.length + st.padding)
    ++ leBytes 2 st.rows.length ++ leBytes 2 st.lcRows ++ leBytes 2 0 ++ leBytes 4 st.tokens ++ leBytes 8 st.predNs ++ leBytes 4 st.kvDescs ++ leBytes 28 0

/-- The adapter section (Table 8.6): head, groups, and the scale array. -/
def adapterBytes (st : Step) : List Byte :=
  leBytes 2 st.groups.length ++ leBytes 2 ((st.groups.map (·.rows)).foldl (· + ·) 0) ++ leBytes 12 0
    ++ (st.groups.map fun g => leBytes 2 g.slot ++ leBytes 2 g.firstRow ++ leBytes 2 g.rows ++ leBytes 1 g.gen ++ leBytes 1 g.format
      ++ leBytes 8 (g.dataAddr + 2 ^ 48 * g.rank)).flatten
    ++ (st.rows.map fun r => leBytes 2 (if r.adapterSlot = 0xFFFF then 0 else r.adapterScale.toNat)).flatten ++ leBytes (2 * st.padding) 0

/-- The speculation section of a draft or verify list (Table 9.5). -/
def specBytes (st : Step) : List Byte :=
  if st.kind < 2 then []
  else (st.rows.map fun r =>
      if st.kind = 2 then
        leBytes 4 r.absorb.length ++ ((List.range 9).map fun k => leBytes 4 (r.absorb.getD k 0).toNat).flatten ++ leBytes 24 0
      else ((List.range 8).map fun k => leBytes 4 ((r.drafts[k]?).elim 0xFFFFFFFF fun d => d.1.toNat)).flatten
        ++ ((List.range 8).map fun k => leBytes 4 ((r.drafts[k]?).elim 0 fun d => d.2.toNat)).flatten).flatten
    ++ leBytes (64 * st.padding) 0

/-- The exit section of a decode list in which a row may exit (R254). -/
def exitBytes (st : Step) : List Byte :=
  if st.kind = 1 ∧ st.rows.any (fun r => bit r.exitPolicy.toNat 4) then ((List.range 16).map fun k => leBytes 4 (st.exits.getD k 0x7F800000).toNat).flatten else []

/-- The bytes of a step's work list. -/
def workListBytes (st : Step) : List Byte :=
  headBytes st ++ (st.rows.map wrowBytes).flatten ++ ((List.range st.padding).map fun k => padBytes (st.rows.length + k)).flatten ++ adapterBytes st ++ specBytes st
    ++ exitBytes st

/-- Packets of at most 4,096 bytes that carry a work list, the last one marked (R17). -/
def listPackets (epoch : Nat) : Nat → List Byte → List PacketBody
  | 0, _ => []
  | fuel + 1, b => if b.length ≤ 4096 then [.workList epoch true b] else .workList epoch false (b.take 4096) :: listPackets epoch fuel (b.drop 4096)

/-- The work list goes over CTRL to every die of its pan (R200, R201). -/
def sendWorkList (p : Pan) (st : Step) (s : State) : State :=
  let b := workListBytes st
  p.logical.foldl (fun s l => (listPackets st.epoch (b.length / 4096 + 1) b).foldl (fun s k => sendCtrl l p.ctx k s) s) s

/-- A built step enters the pan: its rows carry its epoch, and the pan's registers and counters show it (R200, Table 7.8). -/
def enterStep (pan : Nat) (p : Pan) (g : PanCfg) (b : Build) : State :=
  let s := b.st
  let st := buildStep pan p g b
  let lc := st.lcRows
  let s2 := noteDemand pan g.kind b.rows.length st.tokens
    (b.rows.foldl (fun u r => modEntry r.index (fun e => { e with stepEpoch := st.epoch, waitSince := s.tick, modelVer := st.ver }) u) s)
  let s3 := (s2.onSeq fun q => { q with epoch := st.epoch, steps := q.steps ++ [st] })
  let s4 := sendWorkList p st (modPan pan (fun x => { x with step := some st.epoch, builtSince0 := true }) s3)
  let s5 := setReg (SEQ_PAN_ROWS pan) (BitVec.ofNat 32 (lc + 65536 * (b.rows.length - lc)))
    (setReg (SEQ_PAN_PRED pan) (BitVec.ofNat 32 (ceilDiv st.predNs 1000)) (setReg (SEQ_PAN_TOKENS pan) (BitVec.ofNat 32 st.tokens) s4))
  let s6 := groupCounts pan st s5
  if 0 < lc ∧ 16000 * (getCtx s p.ctx).lcGoalUs < buildTime p g b then bump SEQ_LC_OVER s6 else s6

/-- STEP_BUILD (R200, R201): the work list of pan n under the next step epoch, which a row with a full release buffer loses (R211); nothing when no
row is ready. -/
def execStepBuild (pan : Fin 16) (s : State) : Res :=
  .next (match getPan s pan with
    | none => s
    | some p =>
      match p.active with
      | none => s
      | some g =>
        if !mayBuild s p then s
        else
          let b := buildRows pan p g s
          if b.rows.isEmpty then b.st else bumpBy SEQ_REL_SKIP (releaseBound s pan p g) (enterStep pan p g b))

/-- The state with f applied to the step of an epoch. -/
def modStep (epoch : Nat) (f : Step → Step) (s : State) : State :=
  s.onSeq fun q => { q with steps := q.steps.map fun st => if st.epoch = epoch then f st else st }

/-- The uncommitted step of an epoch. -/
def findStep (s : State) (epoch : Nat) : Option Step := s.seq.steps.find? fun st => decide (st.epoch = epoch)

/-! ### Outcomes (R190, R250–R252) -/

/-- A token joins a row's turn. -/
structure TurnWork where
  e : SeqEntry
  out : List TokEntry
  ended : Bool
  tail : Nat
  /-- The sampler found no candidate (R190). -/
  nocand : Bool

/-- A row's turn before its tokens. -/
def TurnWork.start (e : SeqEntry) : TurnWork := { e := e, out := [], ended := false, tail := 0, nocand := false }

/-- One kept token in position order (R190, R251): released, with END where a stop condition holds; tokens after it are dropped. Without a candidate
the END entry carries no token, and its reason is the context limit where that is reached too (notes/assumptions/74).
`adv` is the tokens by which it advances POSITION. -/
def takeToken (epoch adv : Nat) (w : TurnWork) (t : Word) : TurnWork :=
  if w.ended then { w with tail := w.tail + 1 }
  else if t = 0xFFFFFFFF then
    let e := { w.e with position := w.e.position + adv }
    let k : TokEntry := { handle := e.handle, token := t, epoch := BitVec.ofNat 64 epoch, endReason := some (if 2097152 ≤ e.position then 2 else 3), first := false }
    { w with e := e, out := w.out ++ [k], ended := true, nocand := true }
  else
    let e := { w.e with position := w.e.position + adv, turnNew := w.e.turnNew + 1, lastToken := some t }
    let reason : Option (BitVec 3) :=
      if e.stops.contains t then some 0
      else if e.maxNew ≤ e.turnNew then some 1
      else if 2097152 ≤ e.position then some 2 else none
    let k : TokEntry := { handle := e.handle, token := t, epoch := BitVec.ofNat 64 epoch, endReason := reason, first := decide (e.turnNew = 1) }
    { w with e := e, out := w.out ++ [k], ended := reason.isSome }

/-- A committed row's outcome on its entry: tokens released, whether the turn ended, and tokens discarded after a stop (R190). A row that samples and
has no token found no candidate. -/
def rowCommit (st : Step) (r : WRow) (e : SeqEntry) : TurnWork :=
  let toks := if (outcomeOf st r).tokens.isEmpty then [0xFFFFFFFF] else (outcomeOf st r).tokens
  if st.kind = 0 then
    let e1 := { e with position := e.position + r.tokens }
    if r.lastChunk ∨ 2097152 ≤ e1.position then
      if e.generate then takeToken st.epoch 0 (TurnWork.start { e1 with turnNew := 0 }) (toks.headD 0)
      else { TurnWork.start e1 with ended := true }
    else TurnWork.start e1
  else if st.kind = 2 then TurnWork.start e
  else toks.foldl (takeToken st.epoch 1) (TurnWork.start (if st.kind = 3 then { e with kept := (outcomeOf st r).tokens } else e))

/-- DEPTH_ADAPT (Table 9.6): what a committed verify outcome does to the depth, with the counter it bumps. -/
def depthAdapt (accepted : Nat) (e : SeqEntry) : SeqEntry × Nat :=
  if 1 ≤ accepted then ({ e with specZero := 0 }, 0)
  else if 2 ≤ e.specDepth then
    if e.specZero + 1 = 4 then ({ e with specDepth := e.specDepth / 2, specZero := 0 }, 1) else ({ e with specZero := e.specZero + 1 }, 0)
  else if e.specZero + 1 = 16 then ({ e with specOn := false, specZero := 0 }, 2) else ({ e with specZero := e.specZero + 1 }, 0)

/-- The entry after a turn that ended (Table 7.3): IDLE, its input pages returned. -/
def turnOver (tick : Nat) (e : SeqEntry) : SeqEntry :=
  { e with state := .idle, turnEndedAt := some tick, inputPending := 0, input := [], inputPages := [], inputAt := 0, drafts := [], kept := [] }

/-- Counters of one committed row: withheld tokens, no candidate, discarded tails, and speculation (R190, R209, R250–R252). -/
def rowCounts (st : Step) (r : WRow) (w : TurnWork) (adapt : Nat) (s : State) : State :=
  let o := outcomeOf st r
  let s1 := if r.withheld then bumpBy SEQ_BITTERN_CANCEL o.tokens.length s else if w.nocand then bump SEQ_BITTERN_NOCAND s else s
  if st.kind = 3 then
    let s2 := bump SEQ_SPEC_VERIFY (bumpBy SEQ_SPEC_PROPOSED r.drafts.length
      (bumpBy SEQ_SPEC_ACCEPTED o.accepted (bumpBy SEQ_BITTERN_SPEC_DROP (r.drafts.length - o.accepted) s1)))
    let s3 := if r.withheld then s2 else bumpBy SEQ_BITTERN_SPEC_TAIL w.tail s2
    if adapt = 1 then bump SEQ_SPEC_HALVED s3 else if adapt = 2 then bump SEQ_SPEC_DISABLED s3 else s3
  else s1

/-- One row of a committing step (Table 13.3, order 7): the entry advances, its tokens are released in order, its used input pages return, and a turn
that ended rests. -/
def commitRow (st : Step) (s : State) (r : WRow) : State :=
  match getEntry s r.index with
  | none => s
  | some e =>
    if e.handle ≠ r.handle then s
    else
      let u := if st.kind = 0 then e.useInput r.tokens else ([], e)
      let w := rowCommit st r u.2
      let ad := if st.kind = 3 ∧ !r.withheld ∧ r.specGen = e.specGen then depthAdapt (outcomeOf st r).accepted w.e else (w.e, 0)
      let s1 := rowCounts st r w ad.2 s
      if r.withheld then modEntry r.index (fun x => { x with commitEpoch := st.epoch, interrupt := false }) s1
      else
        let e1 := { ad.1 with commitEpoch := st.epoch, last64 := (w.out.reverse ++ e.last64).take 64, t2Copy := 0 }
        let e2 := if e.state = .ending then e1
          else if w.ended then turnOver s.tick e1
          else if st.kind = 0 ∧ r.lastChunk then { e1 with state := .decode } else e1
        let s2 := giveKv e.ctx (e.inputPages.filter fun a => !e2.inputPages.contains a) s1
        let s3 := modEntry r.index (fun _ => e2) s2
        let s4 := w.out.foldl (fun s k => releaseToken r.index k s) s3
        if 0 < e.t2Copy then
          match findArchive s4 e.ctx e.handle with | some a => freeArchive a s4 | none => s4
        else s4

/-! ### End, commit, abandonment (R337–R339) -/

/-- Step a depends on an earlier step that carries one of its rows (R337). -/
def dependsOn (a b : Step) : Bool := decide (b.epoch < a.epoch) && a.rows.any fun r => b.rows.any fun q => decide (q.index = r.index)

/-- Every step that an ended step depends on has settled. -/
def depsSettled (s : State) (st : Step) : Bool := !(s.seq.steps.any fun b => dependsOn st b)

/-- The row's outcome at CD0 (R337): proposals of a draft row are held, a verify row's are used up, and a turn's end is noted. -/
def arrive (st : Step) (s : State) (r : WRow) : State :=
  match getEntry s r.index with
  | none => s
  | some e =>
    if e.handle ≠ r.handle ∨ r.withheld then s
    else if st.kind = 2 then modEntry r.index (fun x => { x with drafts := (outcomeOf st r).proposals.take r.tokens }) s
    else if st.kind = 3 then modEntry r.index (fun x => { x with drafts := [] }) s else s

/-- STEP_END (R337, R338): the step's writes have completed and its tokens are at CD0; the rows' K and V are journalled. -/
def execStepEnd (epoch : Dword) (outcomes : List RowOutcome) (s : State) : Res :=
  .next (match findStep s epoch.toNat with
    | none => s
    | some st0 =>
      if !st0.delivered || st0.ended || panStreamsBusy s st0.pan then s
      else
        let st := { st0 with outcome := outcomes }
        let rows := st.rows.map fun r => match getEntry s r.index with
          | some e => { r with endsTurn := (rowCommit st r { e with position := r.position }).ended }
          | none => r
        let n := st.rows.length
        let deltas := (List.range n).map (· + s.cmt.nextJseq)
        let s1 := modStep st.epoch (fun _ => { st with rows := rows, ended := true, endedAt := s.tick, deltas := deltas }) s
        let s2 := st.rows.foldl (fun s r => journal 1 st.epoch st.ctx r.handle none s) s1
        let s3 := st.rows.foldl (arrive st) s2
        releasePins st.pan (modPan st.pan (fun p => { p with
          step := if p.step = some st.epoch then none else p.step, boundaries := p.boundaries + 1 }) s3))

/-- COMMIT_RECORD_SEND (R338, order 5): the step's deltas are durable and the steps it depends on have committed. -/
def execCommitRecordSend (epoch : Dword) (s : State) : Res :=
  .next (match findStep s epoch.toNat with
    | none => s
    | some st =>
      if st.ended && st.commitSeq.isNone && st.deltas.all (recDurable s) && depsSettled s st then
        modStep st.epoch (fun x => { x with commitSeq := some s.cmt.nextJseq }) (journal 2 st.epoch st.ctx 0 none s)
      else s)

/-- The step may commit: its COMMIT record is durable (R338), which is CD1's acknowledgement on a package that is not protected (R333, R394). -/
def mayCommit (s : State) (st : Step) : Bool :=
  st.ended && depsSettled s st && !s.flt.outOfService
    && (match st.commitSeq with | some j => recDurable s j | none => false)

/-- STEP_COMMIT (R338, order 7): rows advance, tokens are released in row order, and the row slots are freed. -/
def execStepCommit (epoch : Dword) (s : State) : Res :=
  .next (match findStep s epoch.toNat with
    | none => s
    | some st =>
      if !mayCommit s st then s
      else
        let s1 := s.onSeq fun q => { q with
          steps := q.steps.filter fun x => !decide (x.epoch = st.epoch)
          commitEpoch := max q.commitEpoch st.epoch }
        let s2 := st.rows.foldl (commitRow st) s1
        let s3 := bump CMT_COMMITS (setReg CMT_COMMIT_NS (BitVec.ofNat 32 (min ((s.tick - st.endedAt) * 10) 0xFFFFFFFF)) s2)
        reapEnding (stepHist st s3))

/-- One step is abandoned (R339): its tokens are withheld, its rows become ready again, held proposals of a verify row stay. -/
def abandonOne (st : Step) (s : State) : State :=
  let s1 := s.onSeq fun q => { q with steps := q.steps.filter fun x => !decide (x.epoch = st.epoch) }
  let s2 := st.rows.foldl (fun s r => modEntry r.index (fun e =>
    if e.handle ≠ r.handle then e
    else { e with interrupt := false,
                  drafts := if st.kind = 2 then [] else if st.kind = 3 ∧ !r.withheld then r.drafts else e.drafts }) s) s1
  let s3 := modPan st.pan (fun p => { p with step := if p.step = some st.epoch then none else p.step }) s2
  abandonedHist st (bump CMT_ABANDONED (journal 3 st.epoch st.ctx 0 none s3))

/-- Steps are abandoned with every step that depends on one of them, in epoch order (R339). -/
def abandonAll (hit : Step → Bool) (s : State) : State :=
  let gone := s.seq.steps.foldl (fun g st => if hit st || g.any fun b => dependsOn st b then g ++ [st] else g) ([] : List Step)
  reapEnding (gone.foldl (fun s st => abandonOne st s) s)

/-- SPEC_POLICY (R252): speculation of one sequence, or of every live sequence of the context. -/
def execSpecPolicy (c : CmdRef) (s : State) : Res :=
  .next (startCmd 0x0408 c s fun m s =>
    let h : Dword := BitVec.ofNat 64 (m.p 0)
    let depth := m.f 1 16 4
    let on := bit (m.p 1) 8 && decide (0 < depth)
    let apply (i : Nat) (s : State) : State :=
      let s1 := modEntry i (fun e => { e with specOn := on, specDepth := depth, specZero := 0, specGen := e.specGen + 1 }) s
      if on then s1 else dropDrafts i s1
    if 8 < depth then endFail m (stBadParam 7) s
    else if bit (m.p 1) 0 then
      endOk m 0 0 ((liveEntries s).foldl (fun s p => if p.2.ctx = m.ctx then apply p.1 s else s) s)
    else
      match findEntry s m.ctx h with
      | some (i, _) => endOk m 0 0 (apply i s)
      | none => endFail m (if (findArchive s m.ctx h).isSome then stBadParam 0x10 else unknownHandle s m.ctx h) s)

end Sys2Proof.Machine
end

