-- ==== Sys2Proof/Machine/Elementary.lean ====
section
/-! DEFINITION. The real functions of R88–R91, R94 and R96, evaluated with integers far beyond the bounds that the rules give: a result is exact
to 2^-100 of itself or to 2^-200. What a tile returns is a free FP32 value inside the rule's bound around it (TileFns.lean; notes/assumptions/160). -/

namespace Sys2Proof.Machine

/-! ### Fixed point: 256 fractional bits -/

/-- 1. -/
def fxOne : Nat := 2 ^ 256
/-- ⌊ln 2 × 2^256⌋. -/
def fxLn2 : Nat := 0xB17217F7D1CF79ABC9E3B39803F2F6AF40F343267298B62D8A0D175B8BAAFA2B
/-- ⌊√(2 ÷ π) × 2^256⌋. -/
def fxRoot2Pi : Nat := 0xCC42299EA1B284687E59E2805D5C717FA7053E60A24E0DB1808E369004C73A5D
/-- ⌊2π × 2^448⌋. -/
def twoPi448 : Nat := 0x6487ED5110B4611A62633145C06E0E68948127044533E63A0105DF531D89CD9128A5043CC71A026EF7CA8CD9E69D218D98158536F92F8A1BA

/-- The product of two magnitudes. -/
def fxMul (a b : Nat) : Nat := a * b / fxOne
/-- The quotient of two magnitudes. -/
def fxDiv (a b : Nat) : Nat := a * fxOne / b

/-- A finite value in fixed point, exact for FP32 values. -/
def fxOf : Fv → Int
  | .num neg m e => signed neg (if -256 ≤ e then m * 2 ^ (e + 256).toNat else m / 2 ^ (-256 - e).toNat)
  | _ => 0

/-- A signed fixed-point number as a value. -/
def fvOfFx (x : Int) : Fv := ofDy x (-256)

/-- Σ of the terms t, t·r/n, t·r²/(n(n+1)), …: the exponential series. -/
def expTerms (r : Nat) : Nat → Nat → Nat → Nat
  | 0, _, _ => 0
  | k + 1, n, t => t + expTerms r k (n + 1) (fxMul t r / n)

/-- e^d for a fixed-point d, as m × 2^e: d is k·ln 2 + r with 0 ≤ r < ln 2. -/
def fxExp (d : Int) : Nat × Int :=
  let k := d / (fxLn2 : Int)
  let r := (d - k * (fxLn2 : Int)).toNat
  (expTerms r 64 1 fxOne, k - 256)

/-- e^d in fixed point for d ≤ 0; 0 below −300. -/
def fxExpNeg (d : Int) : Nat :=
  if d < -300 * (fxOne : Int) then 0
  else
    let r := fxExp d
    r.1 / 2 ^ (-256 - r.2).toNat

/-- Σ of t/n, t·q/(n+2), …: the series of the inverse hyperbolic tangent. -/
def atanhTerms (q : Nat) : Nat → Nat → Nat → Nat
  | 0, _, _ => 0
  | k + 1, n, t => t / n + atanhTerms q k (n + 2) (fxMul t q)

/-- ln(m × 2^e) of a positive magnitude, in fixed point: the magnitude is x × 2^k with x between √½ and √2, and ln x = 2·atanh((x − 1)/(x + 1)). -/
def fxLn (m : Nat) (e : Int) : Int :=
  let b := Nat.log2 m
  let up := decide (2 ^ (2 * b + 1) < m * m)
  let k : Int := b + b2n up
  let x := m * fxOne / 2 ^ (b + b2n up)
  let y := if fxOne ≤ x then x - fxOne else fxOne - x
  let q := fxDiv y (x + fxOne)
  (e + k) * (fxLn2 : Int) + signed (decide (x < fxOne)) (2 * atanhTerms (fxMul q q) 60 1 q)

/-- The logistic function 1 ÷ (1 + e^−d), in fixed point. -/
def fxSigmoid (d : Int) : Nat :=
  let x := fxExpNeg (if 0 ≤ d then -d else d)
  if 0 ≤ d then fxDiv fxOne (fxOne + x) else fxDiv x (fxOne + x)

/-- Σ of the terms t, t·q/(2n+1), …: the series of Φ(x) with q = x². -/
def erfTerms (q : Nat) : Nat → Nat → Nat → Nat
  | 0, _, _ => 0
  | k + 1, n, t => t + erfTerms q k (n + 2) (fxMul t q / n)

/-- ½(1 + erf(x ÷ √2)) for |x| ≤ 12 in fixed point: erf(x ÷ √2) = √(2/π) · x · e^(−x²/2) · Σ x^2n ÷ (2n+1)!!. -/
def fxPhi (x : Int) : Nat :=
  let a := x.natAbs
  let q := fxMul a a
  let h := fxMul (fxMul (fxMul fxRoot2Pi a) (fxExpNeg (-((q / 2 : Nat) : Int)))) (erfTerms q 500 3 fxOne)
  if 0 ≤ x then (fxOne + h) / 2 else (fxOne - h) / 2

/-- Σ of alternating terms t, −t·q/(n(n+1)), …: sine and cosine series. -/
def sinTerms (q : Nat) : Nat → Nat → Nat → Int
  | 0, _, _ => 0
  | k + 1, n, t => t - sinTerms q k (n + 2) (fxMul t q / (n * (n + 1)))

/-- The rest of m × 2^e modulo 2π, in fixed point. -/
def fxAngle (neg : Bool) (m : Nat) (e : Int) : Nat :=
  let x : Int := signed neg (if -448 ≤ e then m * 2 ^ (e + 448).toNat else m / 2 ^ (-448 - e).toNat)
  (x % (twoPi448 : Int)).toNat / 2 ^ 192

/-- The sine of an angle from 0 to 2π. -/
def fxSin (r : Nat) : Int := sinTerms (fxMul r r) 100 2 r
/-- The cosine of an angle from 0 to 2π. -/
def fxCos (r : Nat) : Int := sinTerms (fxMul r r) 100 1 fxOne

/-- A quotient of magnitudes a × 2^e ÷ b to 200 bits. -/
def dyDiv (neg : Bool) (a : Nat) (e : Int) (b : Nat) : Fv :=
  let k := 200 + Nat.log2 b
  .num neg (a * 2 ^ k / b) (e - k)

/-- The square root of a quotient a ÷ b of naturals, to 200 bits. -/
def sqrtQuot (neg : Bool) (a b : Nat) : Fv :=
  let k := 400 + Nat.log2 b
  .num neg (isqrt (a * 2 ^ (2 * k) / b)) (-k)

/-! ### Elementwise functions (R88) -/

/-- The value of an elementwise function by its code (Table 4.12, 0x10–0x1C) at a finite input where Table 3.6 gives no special value; SQRT and the
functions of unlimited arguments are met by their callers. -/
def elemExact (f : Nat) (x : Fv) : Fv :=
  let d := fxOf x
  let beyond (n : Int) : Bool := decide (n * (fxOne : Int) < d) || decide (d < -n * (fxOne : Int))
  let neg := x.neg?
  match f with
  | 0x10 => if d < -110 * (fxOne : Int) then .num false 0 0 else .num false (fxExp d).1 (fxExp d).2
  | 0x11 =>
    if d < -140 * (fxOne : Int) then .num false 0 0
    else let y := d * (fxLn2 : Int) / (fxOne : Int); .num false (fxExp y).1 (fxExp y).2
  | 0x12 => match x with | .num _ m e => fvOfFx (fxLn m e) | v => v
  | 0x13 => match x with | .num _ m e => dyDiv neg 1 (-e) m | v => v
  | 0x15 => match x with | .num _ m e => (if e % 2 = 0 then (sqrtQuot false 1 m).scale (-(e / 2)) else (sqrtQuot false 1 (2 * m)).scale (-((e - 1) / 2))) | v => v
  | 0x16 => .num false (fxSigmoid d) (-256)
  | 0x17 => if beyond 200 then .num neg 1 0 else fvOfFx (2 * (fxSigmoid (2 * d) : Int) - (fxOne : Int))
  | 0x18 => if beyond 300 && neg then .num true 0 0 else x.mul (.num false (fxSigmoid d) (-256))
  | 0x19 =>
    if beyond 40 then (if neg then .num true 0 0 else x)
    else
      let c := d + d * d / (fxOne : Int) * d / (fxOne : Int) * 44715 / 1000000
      x.mul (.num false (fxSigmoid (2 * (c * 7978845608 / 10000000000))) (-256))
  | 0x1A => if beyond 12 then (if neg then .num true 0 0 else x) else x.mul (.num false (fxPhi d) (-256))
  | 0x1B => match x with | .num n m e => fvOfFx (fxSin (fxAngle n m e)) | v => v
  | _ => match x with | .num n m e => fvOfFx (fxCos (fxAngle n m e)) | v => v

/-- Bound of an elementwise function: its ulps, and 2^A absolute where the row of Table 3.6 has one; SIN and COS have no ulps. -/
def elemBound (f : Nat) : Nat × Option Int :=
  match f with
  | 0x10 => (2, none) | 0x11 => (1, none) | 0x12 => (2, none) | 0x13 => (1, none) | 0x15 => (2, none)
  | 0x16 | 0x17 => (3, some (-30)) | 0x18 | 0x19 | 0x1A => (4, some (-30))
  | _ => (0, some (-23))

/-! ### Bounds (R87) -/

/-- The greatest FP32 magnitude code at or below m × 2^e. -/
def floorCode (m : Nat) (e : Int) : Nat :=
  if m = 0 then 0
  else
    let q := fp32.quantum m e
    let n := if q ≤ e then m * 2 ^ (e - q).toNat else m / 2 ^ (q - e).toNat
    min 0x7F7FFFFF (fp32.pack false n q)

/-- The least finite FP32 magnitude code at or above m × 2^e. -/
def ceilCode (m : Nat) (e : Int) : Nat :=
  let c := floorCode m e
  match fp32.decode c with
  | .num _ n d => if dyLe m e n d then c else min 0x7F7FFFFF (c + 1)
  | _ => c

/-- A finite FP32 value by its rank: 0 for zero, the code of its magnitude with its sign. -/
def ofRank (r : Int) : Fv := match fp32.decode r.natAbs with | .num _ m e => .num (decide (r < 0)) m e | v => v

/-- The rank of the least finite FP32 value at or above a finite value, and of the greatest at or below it. -/
def rankUp (v : Fv) : Int := match v with | .num neg m e => (if neg then -(floorCode m e : Int) else (ceilCode m e : Int)) | _ => 0
/-- The rank of the greatest finite FP32 value at or below a finite value. -/
def rankDown (v : Fv) : Int := match v with | .num neg m e => (if neg then -(ceilCode m e : Int) else (floorCode m e : Int)) | _ => 0

/-- Ranks of the finite FP32 values from v − h to v + h; the value nearest to v alone where there is none. -/
def spanRanks (v h : Fv) : Int × Int :=
  match v with
  | .num neg m e =>
    let lo := rankUp (v.add (h.mul (.num true 1 0)))
    let hi := rankDown (v.add h)
    let near := signed neg (min 0x7F7FFFFF (fp32.encode (.num false m e)))
    if lo ≤ hi then (lo, hi) else (near, near)
  | _ => (0, 0)

/-- The half-width of a bound around v: n ulp of v or 2^A, whichever is more, and 2^-40 ulp beyond. -/
def boundWidth (n : Nat) (abs : Option Int) (v : Fv) : Fv :=
  match v with
  | .num _ m e =>
    let u : Int := if m = 0 then -400 else Nat.log2 m + e - 23
    let h : Fv := .num false (n * 2 ^ 40 + 1) (u - 40)
    match abs with
    | some a => if h.lt (.num false 1 a) then .num false 1 a else h
    | none => h
  | _ => .num false 0 0

/-- The FP32 value that a free number picks among those from v − h to v + h; a zero keeps the sign of v. -/
def pickSpan (v h : Fv) (free : Nat) : Fv :=
  let r := spanRanks v h
  match ofRank (r.1 + ((free % ((r.2 - r.1).toNat + 1) : Nat) : Int)) with
  | .num _ 0 e => .num v.neg? 0 e
  | x => x

/-- The FP32 value that a free number picks among those within a bound of v. -/
def pickWithin (n : Nat) (abs : Option Int) (v : Fv) (free : Nat) : Fv := pickSpan v (boundWidth n abs v) free

/-- A result of Table 3.6 of magnitude below 2^-126 is a zero of its sign (R87). -/
def flushOut (v : Fv) : Fv :=
  match v with
  | .num neg m e => if dyLe 1 (-126) m e then v else .num neg 0 0
  | v => v

/-! ### Rows (R89, R90, R96) -/

/-- The greatest of a list of values, −∞ for none. -/
def maxOf (l : List Fv) : Fv := l.foldl (fun a b => if a.lt b then b else a) (.inf true)

/-- Exponents (x_i − m) ÷ τ of a row with a finite maximum, in fixed point; none for −∞. τ is a positive number. -/
def softExps (l : List Fv) (tau : Fv) : List (Option Int) :=
  let m := fxOf (maxOf l)
  let t := fxOf tau
  l.map fun x => match x with
    | .num _ _ _ => some (if t = (fxOne : Int) then fxOf x - m else (fxOf x - m) * (fxOne : Int) / t)
    | _ => none

/-- Σ e^d over exponents. -/
def softSum (l : List (Option Int)) : Nat := (l.map fun d => match d with | some d => fxExpNeg d | none => 0).foldl (· + ·) 0

/-- e^d ÷ s. -/
def softShare (s : Nat) : Option Int → Fv
  | none => .num false 0 0
  | some d =>
    if d < -300 * (fxOne : Int) then .num false 0 0
    else dyDiv false (fxExp d).1 ((fxExp d).2 + 256) s

/-- A finite value times 2^k as an integer: exact for FP32 values from k = 149 on. -/
def intAt (k : Nat) : Fv → Int
  | .num neg m e => signed neg (if -(k : Int) ≤ e then m * 2 ^ (e + k).toNat else m / 2 ^ (-(k : Int) - e).toNat)
  | _ => 0

/-- x ÷ √(q ÷ n + ε) for x a value, with q and ε times 2^600; none where the root is of nothing positive (R90). -/
def overRoot (x : Fv) (q : Int) (n : Nat) (eps : Int) : Option Fv :=
  let d := q + n * eps
  if d ≤ 0 then none
  else match x with
    | .num neg m e => some ((sqrtQuot neg (n * 2 ^ 600 * (m * m)) d.toNat).scale e)
    | v => some v

/-- RMSNORM of a row with gains and ε (R90), exact. -/
def rmsExact (xs gs : List Fv) (eps : Fv) : List (Option Fv) :=
  let q := (xs.map fun x => intAt 300 x * intAt 300 x).foldl (· + ·) 0
  (xs.zip gs).map fun p => overRoot (p.1.mul p.2) q xs.length (intAt 600 eps)

/-- LAYERNORM of a row with gains, biases and ε (R90), exact: n·x − Σx stands for the distance from the mean. -/
def layerExact (xs : List Fv) (gbs : List (Fv × Fv)) (eps : Fv) : List (Option Fv) :=
  let n := xs.length
  let sum := (xs.map (intAt 300)).foldl (· + ·) 0
  let ds := xs.map fun x => n * intAt 300 x - sum
  let q := (ds.map fun d => d * d).foldl (· + ·) 0
  (ds.zip gbs).map fun p => (overRoot ((ofDy p.1 (-300)).mul p.2.1) q n (n * n * intAt 600 eps)).map fun y => y.add p.2.2

end Sys2Proof.Machine
end

