-- ==== Sys2Proof/Machine/TileFns.lean ====
section
/-! DEFINITION. What the functions of Table 4.12 compute in the data fires of an M, A, S or T tile (chapter 3, R225). The row of a row function is
the run of flits that its operation fires on until the loop counter of its ARGS level moves or the program leaves the operation (notes/assumptions/21); a
value that the manual bounds is a free value inside its bound (notes/assumptions/160). -/

namespace Sys2Proof.Machine

/-- What a data fire did inside its tile: the flits of its result in order (the first is pushed with the fire, the rest follow), its
arithmetic events, and whether an input flit counts as a reserved kind (R70). -/
structure FnRes where
  tile : Tile
  flits : List Flit
  ev : ArithEv
  kindErr : Bool
deriving DecidableEq, Repr

/-- A fire that pushes these flits and raises nothing more. -/
def FnRes.mk' (t : Tile) (fs : List Flit) (ev : ArithEv) : FnRes := { tile := t, flits := fs, ev := ev, kindErr := false }

/-- A free FP32 value. -/
def drawWord (ev : ArithEv) : Word × ArithEv := (Config.freeWord ev.free, { ev with free := ev.free + 1 })

/-- A free FP32 value within n ulp, or 2^A absolute, of an evaluated one; infinities and NaN stand as they are. -/
def drawWithin (n : Nat) (abs : Option Int) (v : Fv) (ev : ArithEv) : Fv × ArithEv :=
  match v with
  | .num _ _ _ => (pickWithin n abs v (Config.freeNat ev.free), { ev with free := ev.free + 1 })
  | v => (v, ev)

/-- The same for a list. -/
def drawAll (n : Nat) (abs : Option Int) : List Fv → ArithEv → List Fv × ArithEv
  | [], ev => ([], ev)
  | v :: vs, ev =>
    let r := drawWithin n abs v ev
    let t := drawAll n abs vs r.2
    (r.1 :: t.1, t.2)

/-- A list cut into pieces of n. -/
def chunks {α : Type} (n : Nat) : Nat → List α → List (List α)
  | 0, _ => []
  | fuel + 1, l => if l.isEmpty then [] else l.take n :: chunks n fuel (l.drop n)

/-- Result codes as flits of their format. -/
def outFlits (fmt : Nat) (codes : List Nat) : List Flit :=
  (chunks (512 / fmtWidth fmt) codes.length codes).map (packFlit (fmtWidth fmt))

/-- Values through output conversion, as flits (R79). -/
def emitVals (ncw : Word) (vs : List Fv) (ev : ArithEv) : List Flit × ArithEv :=
  let r := convList ncw vs ev
  (outFlits (ncwFmtOut ncw) r.1, r.2)

/-! ### M tiles (R72–R77) -/

/-- The accumulator set that an operation selects (R72). -/
def accIndex (t : Tile) (o : Op) : Nat := t.counters.getD (o.arg 0 % 4) 0 % 512

/-- Bytes of the operand store from an offset, modulo 96 KiB (Table 4.12). -/
def operandBytes (t : Tile) (off n : Nat) : List Byte := (List.range n).map fun k => memGet t.operands ((off + k) % 98304)

/-- Element (k, j) of a slice: elements lie row by row in k, packed as in a flit (notes/assumptions/22). -/
def sliceElem (fmt : Nat) (sl : List Byte) (k j : Nat) : Fv :=
  let w := fmtWidth fmt
  let b := (k * 32 + j) * w
  elemVal fmt (fieldAt sl (b / 8) 3 / 2 ^ (b % 8) % 2 ^ w)

/-- The scale exponent of K-group g in column j of a slice. -/
def sliceScale (fmt : Nat) (sl : List Byte) (g j : Nat) : Option Int := if isMx fmt then e8m0 (sl.getD (2048 + 32 * g + j) 0).toNat else some 0

/-- A value is finite. -/
def Fv.finite (v : Fv) : Bool := !v.isNan && !v.isInf

/-- One K-group enters one accumulator; the flag marks an overflow from finite inputs (R74, R75). -/
def accStep (fb : Nat) (sl : List Byte) (as : List Fv) (sa : Option Int) (g j : Nat) (acc : Word) : Word × Bool :=
  let ws := (List.range 32).map fun k => sliceElem fb sl (32 * g + k) j
  let sb := sliceScale fb sl g j
  let r := accAdd acc (blockProduct sa sb as ws)
  let fin := as.all Fv.finite && ws.all Fv.finite && sa.isSome && sb.isSome && (fpOf acc).finite
  (r, fin && (fpOf r).isInf)

/-- K-groups of a flit enter the 32 accumulators in increasing k (R74). -/
def accGroups (fb : Nat) (sl : List Byte) (vs : List Fv) : List (Option Int) → Nat → List Word → Nat → List Word × Nat
  | [], _, acc, n => (acc, n)
  | sa :: ss, g, acc, n =>
    let as := (vs.drop (32 * g)).take 32
    let r := acc.zipIdx.map fun p => accStep fb sl as sa g p.2 p.1
    accGroups fb sl vs ss (g + 1) (r.map (·.1)) (n + (r.filter (·.2)).length)

/-- The emitted values of a set: each column times its scale from the operand store at PARAM (R76). -/
def emitCols (t : Tile) (o : Op) (a : AccSet) : List Fv :=
  let w := t.ncw o
  a.vals.zipIdx.map fun p =>
    if ncwColScale w then fpOf (fMul p.1 (BitVec.ofNat 32 (leNat (operandBytes t ((t.param o).toNat + 4 * p.2) 4)))) else fpOf p.1

/-- MM_PRODUCT (R72–R77), a flush included. `head` is the activation flit. A BUBBLE adds nothing and counts its K-groups, swaps the weight sets as any fire does,
and without flushing gives a BUBBLE (R49). A BUBBLE in an MX stream takes no scales: the scales left are those of the
element flits still to come, and a BUBBLE never stands for a scale flit (notes/assumptions/162). -/
def mmProduct (t0 : Tile) (o : Op) (key : Nat) (head : Flit) (ev : ArithEv) : FnRes :=
  let w := t0.ncw o
  let t := if ncwSwap w && t0.filled then { t0 with activeSet := 1 - t0.activeSet, filled := false } else t0
  let fa := ncwFmtA w
  let rate := pairRate fa (ncwFmtB w)
  let bubble := decide (head.kind = 4)
  if !bubble && isMx fa && (tget [] t.scales key).isEmpty then
    FnRes.mk' { t with scales := tput [] t.scales key ((flitBytes head).map (·.toNat)) } [] ev
  else
    let i := accIndex t o
    let a := tget AccSet.zero t.accs i
    let ss := if isMx fa then (tget [] t.scales key).take rate |>.map e8m0 else List.replicate rate (some 0)
    let vs := (List.range (rateElems rate)).map fun k => elemVal fa (elemCode fa head.payload k)
    let r := if bubble then (a.vals, 0) else accGroups (ncwFmtB w) (t.weights.getD t.activeSet []) vs ss 0 a.vals 0
    let a1 : AccSet := { vals := r.1, groups := a.groups + rate, onlyBubbles := a.onlyBubbles && bubble }
    let ev1 := { ev with accOvf := ev.accOvf + r.2 }
    let t1 := if bubble then t else { t with scales := tmod [] t.scales key (·.drop rate) }
    if ncwFlush w = 0 ∨ a1.groups < ncwFlush w then
      FnRes.mk' { t1 with accs := tput AccSet.zero t1.accs i a1 } (if bubble ∧ ncwFlush w = 0 then [bubbleFlit] else []) ev1
    else
      let t2 := { t1 with accs := tput AccSet.zero t1.accs i AccSet.zero }
      if a1.onlyBubbles then FnRes.mk' t2 (if ncwFmtOut w = 0 then [bubbleFlit, bubbleFlit] else [bubbleFlit]) ev1
      else
        let e := emitVals w (emitCols t o a1) ev1
        FnRes.mk' t2 e.1 e.2

/-- MM_EMIT (R77): an FP32 row takes two fires. -/
def mmEmit (t : Tile) (o : Op) (ev : ArithEv) : FnRes :=
  let w := t.ncw o
  let i := accIndex t o
  let cols := emitCols t o (tget AccSet.zero t.accs i)
  if ncwFmtOut w = 0 ∧ !t.emitHalf then
    let e := emitVals w (cols.take 16) ev
    FnRes.mk' { t with emitHalf := true } e.1 e.2
  else
    let e := emitVals w (if ncwFmtOut w = 0 then cols.drop 16 else cols) ev
    FnRes.mk' { t with emitHalf := false, accs := tput AccSet.zero t.accs i AccSet.zero } e.1 e.2

/-- Functions of an M tile (Table 4.12). -/
def mFn (t : Tile) (o : Op) (keys : List Nat) (heads : List Flit) (ev : ArithEv) : FnRes :=
  let head := heads.headD bubbleFlit
  if o.func ≠ 1 ∧ heads.any (fun h => decide (h.kind = 4)) then FnRes.mk' t [bubbleFlit] ev
  else match o.func.toNat with
  | 1 => mmProduct t o (keys.headD 0) head ev
  | 2 => FnRes.mk' { t with fill := some (16, o.arg4), filled := false } [] ev
  | 3 =>
    let at' := o.arg4 + 64 * t.counters.getD (o.arg 0 % 4) 0
    FnRes.mk' { t with operands := (flitBytes head).zipIdx.foldl (fun m b => tput 0 m ((at' + b.2) % 98304) b.1) t.operands } [] ev
  | _ => mmEmit t o ev

/-! ### S tiles (R86–R96) -/

/-- Subnormal inputs of the functions of Table 3.6 are zeros of their sign (R87). -/
def flushIn (w : Word) : Fv :=
  match fpOf w with
  | .num neg m e => if w.toNat / 2 ^ 23 % 256 = 0 then .num neg 0 0 else .num neg m e
  | v => v

/-- The special values of Table 3.6: what a function gives for an input that the table names, none for another. -/
def elemSpecial (f : Nat) (x : Fv) : Option Fv :=
  match f, x with
  | _, .nan => some .nan
  | 0x10, .inf neg | 0x11, .inf neg => some (if neg then .num false 0 0 else .inf false)
  | 0x10, .num false m e => if dyLe 887228 0 (m * 10000) e && !dyLe (m * 10000) e 887228 0 then some (.inf false) else none
  | 0x11, .num false m e => if dyLe 128 0 m e then some (.inf false) else none
  | 0x12, .inf neg => some (if neg then .nan else .inf false)
  | 0x12, .num neg m _ => if m = 0 then some (.inf true) else if neg then some .nan else none
  | 0x13, .inf neg => some (.num neg 0 0)
  | 0x13, .num neg m _ => if m = 0 then some (.inf neg) else none
  | 0x15, .inf neg => some (if neg then .nan else .num false 0 0)
  | 0x15, .num neg m _ => if m = 0 then some (.inf neg) else if neg then some .nan else none
  | 0x16, .inf neg => some (if neg then .num false 0 0 else .num false 1 0)
  | 0x17, .inf neg => some (.num neg 1 0)
  | 0x18, .inf neg | 0x19, .inf neg | 0x1A, .inf neg => some (if neg then .num true 0 0 else .inf false)
  | 0x1B, .inf _ | 0x1C, .inf _ => some .nan
  | _, _ => none

/-- Elementwise functions EXP to COS (R87, R88): special values as in Table 3.6; SQRT correctly rounded; otherwise a free value inside the function's
bound, and for SIN and COS beyond 2^22, where the table bounds nothing, a free value. Small results become zero. -/
def elemFn (f : Nat) (w : Word) (ev : ArithEv) : Fv × ArithEv :=
  let x := flushIn w
  match elemSpecial f x with
  | some v => (v, ev)
  | none =>
    let big := match x with | .num _ m e => !dyLe m e 1 22 | _ => false
    let r : Fv × ArithEv :=
      if f = 0x14 then (fpOf (fSqrt (toFp x)), ev)
      else if (decide (f = 0x1B) || decide (f = 0x1C)) && big then (fpOf (drawWord ev).1, (drawWord ev).2)
      else drawWithin (elemBound f).1 (elemBound f).2 (elemExact f x) ev
    (flushOut r.1, r.2)

/-- A function over a list of FP32 words. -/
def mapFn (f : Word → ArithEv → Fv × ArithEv) : List Word → ArithEv → List Fv × ArithEv
  | [], ev => ([], ev)
  | w :: ws, ev =>
    let r := f w ev
    let t := mapFn f ws r.2
    (r.1 :: t.1, t.2)

/-- A row holds a NaN or +∞. -/
def rowSpoilt (ws : List Word) : Bool := ws.any fun w => (fpOf w).isNan || decide (fpOf w = .inf false)

/-- A row is −∞ throughout. -/
def rowNone (ws : List Word) : Bool := ws.all fun w => decide (fpOf w = .inf true)

/-- SOFTMAX of x ÷ τ over a row (R89, R94): each value within 8 ulp. -/
def softmaxAt (tau : Fv) (ws : List Word) (ev : ArithEv) : List Fv × ArithEv :=
  if rowSpoilt ws then (ws.map fun _ => .nan, ev)
  else if rowNone ws then (ws.map fun _ => .num false 0 0, { ev with clamp := ev.clamp + 1 })
  else
    let ds := softExps (ws.map fpOf) tau
    drawAll 8 none (ds.map (softShare (softSum ds))) ev

/-- SOFTMAX (R89). -/
def softmaxRow (ws : List Word) (ev : ArithEv) : List Fv × ArithEv := softmaxAt (.num false 1 0) ws ev

/-- CONFIDENCE of a row of logits (R96): 1 ÷ Σ e^(x_j − m) within 8 ulp. -/
def confidence (ws : List Word) (ev : ArithEv) : Fv × ArithEv :=
  if rowSpoilt ws then (.nan, ev)
  else if rowNone ws then (.num false 0 0, { ev with clamp := ev.clamp + 1 })
  else drawWithin 8 none (softShare (softSum (softExps (ws.map fpOf) (.num false 1 0))) (some 0)) ev

/-- The FP32 word k of a table in the tile's constant store at an operation's PARAM (R100); the store has 19,840 bytes. -/
def Tile.const (t : Tile) (o : Op) (k : Nat) : Word :=
  BitVec.ofNat 32 (leNat ((List.range 4).map fun b => memGet t.active.consts (((t.param o).toNat + 4 * k + b) % 19840)))

/-- Evaluated results of a normalisation, each within 4 ulp or 2^-30; where the expression has no value the result is free. -/
def drawNorm : List (Option Fv) → ArithEv → List Fv × ArithEv
  | [], ev => ([], ev)
  | v :: vs, ev =>
    let r : Fv × ArithEv := match v with
      | some y => drawWithin 4 (some (-30)) y ev
      | none => (fpOf (drawWord ev).1, (drawWord ev).2)
    let t := drawNorm vs r.2
    (r.1 :: t.1, t.2)

/-- RMSNORM (0x21) and LAYERNORM (0x22) of a row (R90). In the constant store, PARAM names ε, then the gains in element order, then the biases
(notes/assumptions/163). A parameter that is no finite number has no stated result. -/
def normRow (t : Tile) (o : Op) (ws : List Word) (ev : ArithEv) : List Fv × ArithEv :=
  let n := ws.length
  let eps := fpOf (t.const o 0)
  let gs := (List.range n).map fun k => fpOf (t.const o (1 + k))
  let bs := (List.range n).map fun k => fpOf (t.const o (1 + n + k))
  if ws.any fun w => !(fpOf w).finite then (ws.map fun _ => .nan, ev)
  else if !eps.finite || !gs.all Fv.finite || (decide (o.func = 0x22) && !bs.all Fv.finite) then drawNorm (ws.map fun _ => none) ev
  else if o.func = 0x21 then drawNorm (rmsExact (ws.map fpOf) gs eps) ev
  else drawNorm (layerExact (ws.map fpOf) (gs.zip bs) eps) ev

/-- One pair rotated by p × f (R91): each output within 2^-22 × (|x| + |y|) of the exact rotation. NaN gives NaN, and an infinite operand a free value. -/
def rotatePair (p : Nat) (f x y : Fv) (ev : ArithEv) : List Fv × ArithEv :=
  match f, x, y with
  | .num nf mf ef, .num nx mx ex, .num ny my ey =>
    let r := fxAngle nf (mf * p) ef
    let c := fvOfFx (fxCos r)
    let s := fvOfFx (fxSin r)
    let a := ((Fv.num nx mx ex).mul c).add (((Fv.num ny my ey).mul s).mul (.num true 1 0))
    let b := ((Fv.num nx mx ex).mul s).add ((Fv.num ny my ey).mul c)
    match (Fv.num false mx ex).add (.num false my ey) with
    | .num _ m e =>
      let w := pickSpan a (.num false m (e - 22)) (Config.freeNat ev.free)
      let z := pickSpan b (.num false m (e - 22)) (Config.freeNat (ev.free + 1))
      ([w, z], { ev with free := ev.free + 2 })
    | _ => ([.nan, .nan], ev)
  | .nan, _, _ | _, .nan, _ | _, _, .nan => ([.nan, .nan], ev)
  | _, _, _ => ([fpOf (Config.freeWord ev.free), fpOf (Config.freeWord (ev.free + 1))], { ev with free := ev.free + 2 })

/-- ROTARY over a flit whose first element is element k of its head vector (R91): the frequency of pair i is word i of the constant store at PARAM. -/
def rotaryFlit (t : Tile) (o : Op) (p : Nat) : Nat → List Word → ArithEv → List Fv × ArithEv
  | k, x :: y :: ws, ev =>
    let r := rotatePair p (fpOf (t.const o (k / 2))) (fpOf x) (fpOf y) ev
    let n := rotaryFlit t o p (k + 2) ws r.2
    (r.1 ++ n.1, n.2)
  | _, ws, ev => (ws.map fpOf, ev)

/-- Candidate a ranks before b (R92): the greater value, NaN below −∞, ties to the lower index. -/
def ranksBefore (a b : Word × Nat) : Bool :=
  let x := fpOf a.1
  let y := fpOf b.1
  if x.isNan then y.isNan && decide (a.2 ≤ b.2)
  else if y.isNan then true
  else if y.lt x then true else if x.lt y then false else decide (a.2 ≤ b.2)

/-- TOPK (R92): k values and their indices in one flit, unused entries −∞ and 0xFFFF_FFFF; a NaN among the values written is counted (R85). -/
def topk (k : Nat) (cs : List (Word × Nat)) (ev : ArithEv) : Flit × ArithEv :=
  let best := (sortBy ranksBefore cs).take k
  let vals := (best.map fun c => c.1.toNat) ++ List.replicate (8 - best.length) 0xFF800000
  let idx := (best.map (·.2)) ++ List.replicate (8 - best.length) 0xFFFFFFFF
  (packFlit 32 (vals ++ idx), { ev with nan := ev.nan + (best.filter fun c => (fpOf c.1).isNan).length })

/-! ### Sampling (R93, R94) -/

/-- The loop level that counts an operation's rows: ARGS byte 0 [1:0] (notes/assumptions/164). -/
def Op.level (o : Op) : Nat := o.arg 0 % 4

/-- The work-list row that a fire works on: its ROW is the counter of the operation's level. -/
def rowOf (t : Tile) (o : Op) (ev : ArithEv) : Option RowParams := ev.rows.find? fun r => decide (r.row = t.counters.getD o.level 0)

/-- The offset of the fire's token within its row (R250): the counter of the level that ARGS byte 0 [3:2] names. -/
def offsetOf (t : Tile) (o : Op) : Nat := t.counters.getD (o.arg 0 / 4 % 4) 0

/-- Word i mod 4 of a draw of a row's generator (R93): the key is the row's seed exclusive-ored with the run salt. -/
def drawUniform (r : RowParams) (salt draw i : Nat) : Fv :=
  uniformOf ((philox (r.seed.toNat ^^^ salt) (drawCounter r.epoch draw r.row)).getD (i % 4) 0)

/-- x ÷ τ as the tile forms it: by RECIP and MUL (notes/assumptions/165). -/
def overTau (tau : Word) (x : Word) (ev : ArithEv) : Word × ArithEv :=
  let r := elemFn 0x13 tau ev
  (fMul x (toFp r.1), r.2)

/-- The value that GUMBEL ranks for candidate i (R94): x ÷ τ − ln(−ln u), with LOG of Table 3.6 and ADD. -/
def gumbel (r : RowParams) (salt base : Nat) (c : Word × Nat) (ev : ArithEv) : Word × ArithEv :=
  let u := drawUniform r salt (base + c.2 / 4) c.2
  let a := elemFn 0x12 (toFp (if u.isZero then .num false 1 (-25) else u)) ev
  let b := elemFn 0x12 (toFp (a.1.mul (.num true 1 0))) a.2
  let q := overTau r.tau c.1 b.2
  (fAdd q.1 (toFp (b.1.mul (.num true 1 0))), q.2)

/-- The shortest prefix, in descending order, whose probabilities sum to at least p_top: how many candidates, and their sum. -/
def keepPrefix (pTop : Fv) : List Word → Nat → Word → Nat × Word
  | [], n, acc => (n, acc)
  | p :: ps, n, acc =>
    let a := fAdd acc p
    if !(fpOf a).lt pTop then (n + 1, a) else keepPrefix pTop ps (n + 1) a

/-- The first kept candidate whose cumulative probability exceeds x; the last where none does. -/
def pickKept (x : Fv) : List (Word × Nat) → Word → Nat → Nat
  | [], _, last => last
  | c :: cs, acc, _ =>
    let a := fAdd acc c.1
    if x.lt (fpOf a) then c.2 else pickKept x cs a c.2

/-- TOPK_P (R94) over the candidates among the top k. -/
def topP (r : RowParams) (salt base : Nat) (cs : List (Word × Nat)) (ev : ArithEv) : Nat × ArithEv :=
  let top := ((sortBy ranksBefore cs).take (max 1 (min 8 r.topK))).filter fun c => !(fpOf c.1).isNan && !decide (fpOf c.1 = .inf true)
  let ps := softmaxAt (fpOf r.tau) (top.map (·.1)) ev
  let kept := keepPrefix (fpOf r.pTop) (ps.1.map toFp) 0 0
  let u := drawUniform r salt (0x80000000 + base) 0
  (pickKept (fpOf (fMul (toFp u) kept.2)) (((ps.1.map toFp).zip (top.map (·.2))).take kept.1) 0 0xFFFFFFFF, ps.2)

/-- SAMPLE (R94) over a row of logits, for the work-list row it belongs to; at offset o of a verify row every draw index is o × 0x0100_0000 higher
(R250). Without a work-list row the choice among the candidates is free. -/
def sampleRow (r : Option RowParams) (off : Nat) (ws : List Word) (ev : ArithEv) : Nat × ArithEv :=
  let cs := ws.zipIdx.filter fun p => !(fpOf p.1).isNan && !decide (fpOf p.1 = .inf true)
  let best := (sortBy ranksBefore cs).map (·.2)
  match ws.zipIdx.find? fun p => decide (fpOf p.1 = .inf false), cs with
  | some p, _ => (p.2, ev)
  | none, [] => (0xFFFFFFFF, ev)
  | none, _ =>
    match r with
    | none => (best.getD (Config.freeNat ev.free % best.length) 0, { ev with free := ev.free + 1 })
    | some r =>
      let base := off * 0x01000000
      if r.mode = 0 ∨ (fpOf r.tau).isZero then (best.headD 0, ev)
      else if r.mode = 1 then
        let g := cs.foldl (fun (q : List (Word × Nat) × ArithEv) c => let v := gumbel r ev.salt base c q.2; (q.1 ++ [(v.1, c.2)], v.2)) ([], ev)
        (((sortBy ranksBefore g.1).map (·.2)).headD 0, g.2)
      else topP r ev.salt base ws.zipIdx ev

/-! ### Acceptance and steering (R95, R96, R230) -/

/-- a ≤ b for values that are numbers. -/
def Fv.le (a b : Fv) : Bool := !a.isNan && !b.isNan && !b.lt a

/-- ACCEPT (R96): q = 0 and p > 0, or u × q ≤ p with the product rounded once. -/
def accept (p q u : Word) : Bool :=
  ((fpOf q).isZero && (Fv.num false 0 0).lt (fpOf p)) || (fpOf (fMul u q)).le (fpOf p)

/-- Values of truth flags for output conversion. -/
def flagVal (b : Bool) : Fv := .num false (b2n b) 0

/-- α and the vector of a row's steering set at steering point k (R228, R230); none where the row has no set, k is not below POINTS or the point names
no vector. -/
def steerAt (r : RowParams) (k : Nat) : Option (Word × Nat) :=
  let v := fieldAt r.steer (8 * k + 4) 1
  if r.steer.isEmpty ∨ r.points ≤ k ∨ v = 0xFF then none
  else
    let w := if r.steerFmt = 0 then 4 else 2
    some (BitVec.ofNat 32 (fieldAt r.steer (8 * k) 4), 64 * ceilDiv (8 * r.points) 64 + v * (64 * ceilDiv (w * r.hidden) 64))

/-- Element i of a steering vector, exactly in FP32. -/
def steerElem (r : RowParams) (at' i : Nat) : Word :=
  if r.steerFmt = 0 then BitVec.ofNat 32 (fieldAt r.steer (at' + 4 * i) 4) else toFp (bf16.decode (fieldAt r.steer (at' + 2 * i) 2))

/-- STEER_ADD over a flit whose first element is element k of its row (R95, R230); the steering point is ARGS byte 1 (notes/assumptions/164). -/
def steerFlit (r : Option RowParams) (point k : Nat) (ws : List Word) : List Fv :=
  match r.bind fun r => (steerAt r point).map fun a => (r, a) with
  | some (r, a) => ws.zipIdx.map fun w => fpOf (fFma a.1 (steerElem r a.2 (k + w.2)) w.1)
  | none => ws.map fpOf

/-! ### MX output (R71, R79, R86) -/

/-- An MX group: the scale flit, then the element flits of its blocks (R71), 64 elements in a flit or, with `four`, 128 of MXFP4. -/
def mxGroup (ncw : Word) (four : Bool) (blocks : List (List Fv)) (ev : ArithEv) : List Flit × ArithEv :=
  let r := blocks.foldl (fun (r : List Nat × List Nat × ArithEv) b =>
    let x := mxBlock ncw b r.2.2
    (r.1 ++ [x.1], r.2.1 ++ x.2.1, x.2.2)) ([], [], ev)
  (packFlit 8 r.1 :: (chunks (if ncwFmtOut ncw = 8 ∧ four then 128 else 64) r.2.1.length r.2.1).map (packFlit (fmtWidth (ncwFmtOut ncw))), r.2.2)

/-- The output stage of an S tile (R79): values of an MX format wait for a stream group of 64 blocks, or for its short group when the stream ends; other
formats go out at once. MX_QUANT writes MXFP4 for the four-MAC rate unless PARAM bit 0 asks for the two-MAC form (notes/assumptions/166). -/
def sOut (t : Tile) (o : Op) (last : Bool) (vs : List Fv) (ev : ArithEv) : FnRes :=
  let w := t.ncw o
  if !isMx (ncwFmtOut w) then let e := emitVals w vs ev; FnRes.mk' t e.1 e.2
  else
    let buf := t.mxBuf ++ vs.map toFp
    let n := if last then ceilDiv buf.length 2048 else buf.length / 2048
    let r := (chunks 2048 n buf).foldl (fun (r : List Flit × ArithEv) g =>
      let e := mxGroup w (!bit (t.param o).toNat 0) (chunks 32 64 (g.map fpOf)) r.2
      (r.1 ++ e.1, e.2)) ([], ev)
    FnRes.mk' { t with mxBuf := buf.drop (2048 * n) } r.1 r.2

/-! ### Inputs (R68, R71) -/

/-- The format in which an S tile reads input i: FMT_A for the first, FMT_B for the others; FMA's third input, for which the word has no field, is read
in FMT_B (notes/assumptions/167). ROTARY's positions are INT32. -/
def inputFmt (w : Word) (f i : Nat) : Nat := if i = 0 then ncwFmtA w else if f = 0x23 then 11 else ncwFmtB w

/-- Elements that a BUBBLE stands for: a full flit's. -/
def bubbleElems (fmt : Nat) : Nat := 512 / fmtWidth fmt

/-- An input of an MX format is at its scale flit, which its position marks (R71). -/
def wantsScale (t : Tile) (fmt key : Nat) (f : Flit) : Bool := isMx fmt && decide (f.kind ≠ 4) && (tget [] t.scales key).isEmpty

/-- The values of an input's flit, with the scales of its blocks (R68). -/
def scaledVals (t : Tile) (fmt key : Nat) (f : Flit) : List Fv :=
  let ss := tget [] t.scales key
  (flitVals fmt f).zipIdx.map fun p =>
    if isMx fmt then match e8m0 (ss.getD (p.2 / 32) 0) with | some k => p.1.scale k | none => .nan else p.1

/-- The scale flits among the inputs are taken in, and the element flits use their scales up. -/
def takeScales (t : Tile) (fmts : List (Nat × Nat × Flit)) (scale : Bool) : Tile :=
  fmts.foldl (fun t x =>
    if !isMx x.1 || decide (x.2.2.kind = 4) then t
    else if scale then (if (tget [] t.scales x.2.1).isEmpty then { t with scales := tput [] t.scales x.2.1 ((flitBytes x.2.2).map (·.toNat)) } else t)
    else { t with scales := tmod [] t.scales x.2.1 (·.drop (ceilDiv (flitCount x.1 x.2.2) 32)) }) t

/-- The inputs of a fire: format, queue and head; a queue that is named twice counts once for its scales. -/
def fireInputs (fmt : Nat → Nat) (keys : List Nat) (heads : List Flit) : List (Nat × Nat × Flit) :=
  (heads.zip keys).zipIdx.map fun x => (fmt x.2, x.1.2, x.1.1)
/-- Each queue of a fire once. -/
def onceEach (l : List (Nat × Nat × Flit)) : List (Nat × Nat × Flit) :=
  (l.zipIdx.filter fun x => decide (l.findIdx (fun y => decide (y.2.1 = x.1.2.1)) = x.2)).map (·.1)

/-! ### Rows (R89–R96) -/

/-- Functions that work on a whole row: SOFTMAX, RMSNORM, LAYERNORM, TOPK, SAMPLE, CONFIDENCE and EXIT_TEST. -/
def isRowFn (f : Nat) : Bool :=
  decide (f = 0x20) || decide (f = 0x21) || decide (f = 0x22) || decide (f = 0x24) || decide (f = 0x25) || decide (f = 0x31) || decide (f = 0x41)

/-- The words of a row in its flits; a BUBBLE's elements are −∞ (R89). -/
def rowWords (w : Word) (buf : List (Flit × List Word)) : List Word :=
  (buf.map fun x => if x.1.kind = 4 then List.replicate (bubbleElems (ncwFmtA w)) 0xFF800000 else x.2).flatten

/-- Candidates of TOPK (R92): plain values by position, or with PARAM bit 8 the pairs of an earlier TOPK's flits; at most 256. -/
def topkCands (pairs : Bool) (w : Word) (buf : List (Flit × List Word)) : List (Word × Nat) :=
  (if pairs then (buf.map fun x => if x.1.kind = 4 then [] else
      (List.range 8).map fun i => (toFp (elemVal 0 (elemCode 0 x.1.payload i)), elemCode 11 x.1.payload (8 + i))).flatten
   else (rowWords w buf).zipIdx).take 256

/-- Results of a row's flits laid out again flit by flit; a BUBBLE's place holds `bubble` where it is given, and a BUBBLE otherwise. -/
def layRow (t : Tile) (o : Op) : List (Flit × List Word) → List Fv → FnRes → FnRes
  | [], _, r => r
  | x :: xs, vs, r =>
    if x.1.kind = 4 then layRow t o xs vs { r with flits := r.flits ++ [bubbleFlit] }
    else
      let e := sOut r.tile o false (vs.take x.2.length) r.ev
      layRow t o xs (vs.drop x.2.length) { e with flits := r.flits ++ e.flits }

/-- A row function over the flits of its row (R89, R90, R92, R94, R96). A row of BUBBLE flits alone gives one BUBBLE, and in SOFTMAX a BUBBLE's elements
give 0 (notes/assumptions/21). -/
def rowFn (t0 : Tile) (o : Op) (buf : List (Flit × List Word)) (ev : ArithEv) : FnRes :=
  let t := { t0 with sBuf := [] }
  let w := t.ncw o
  let f := o.func.toNat
  let ws := rowWords w buf
  let dense := (buf.filter fun x => decide (x.1.kind ≠ 4))
  if f ≠ 0x20 ∧ dense.isEmpty then FnRes.mk' t [bubbleFlit] ev
  else if f = 0x20 then
    if dense.isEmpty then sOut t o false (ws.map fun _ => .num false 0 0) ev
    else let r := softmaxRow ws ev; sOut t o false r.1 r.2
  else if f = 0x21 ∨ f = 0x22 then
    let r := normRow t o (dense.map (·.2)).flatten ev
    layRow t o buf r.1 (FnRes.mk' t [] r.2)
  else if f = 0x24 then
    let p := (t.param o).toNat
    let r := topk (min 8 (p % 16)) (topkCands (bit p 8) w buf) ev
    FnRes.mk' t [r.1] r.2
  else if f = 0x25 then
    let r := sampleRow (rowOf t o ev) (offsetOf t o) ws ev
    FnRes.mk' t [packFlit 32 [r.1]] r.2
  else
    let r := confidence ws ev
    sOut t o false [r.1] r.2

/-- What a token that ends a stream, and with `ends` a row, still owes at an S tile: the results of the row that its buffer holds, and the short group of an
MX stream (R71). -/
def sTail (t : Tile) (o : Op) (ends : Bool) (ev : ArithEv) : Option FnRes :=
  let row := ends && isRowFn o.func.toNat && decide (o.func ≠ 0x41) && !t.sBuf.isEmpty
  if !row && t.mxBuf.isEmpty then none
  else
    let r := if row then rowFn t o t.sBuf ev else FnRes.mk' t [] ev
    let e := sOut r.tile o true [] r.ev
    some { e with flits := r.flits ++ e.flits }

/-- Functions of an S tile (Table 4.12) but for MOE_COMBINE and EXIT_TEST. `ends l`: with this fire the counter of level l, or of one above, moves, or the
program leaves the operation, which `last` says. When an input of an MX format is at its scale flit, the fire takes in the scale flits, and what the
other inputs gave in it is dropped (notes/assumptions/162). -/
def sFn (t0 : Tile) (o : Op) (keys : List Nat) (heads : List Flit) (ends : Nat → Bool) (last : Bool) (ev : ArithEv) : FnRes :=
  let w := t0.ncw o
  let f := o.func.toNat
  let ins := fireInputs (inputFmt w f) keys heads
  let scale := ins.any fun x => wantsScale t0 x.1 x.2.1 x.2.2
  let t := takeScales t0 (onceEach ins) scale
  let rowEnds := ends o.level
  let move (n : Nat) : Tile := { t with sPos := if rowEnds then 0 else t.sPos + n }
  if scale then FnRes.mk' t [] ev
  else if heads.any (fun h => decide (h.kind = 4)) && !isRowFn f then
    let e := sOut (move (bubbleElems (ncwFmtA w))) o last [] ev
    { e with flits := e.flits ++ [bubbleFlit] }
  else
    let words (i : Nat) : List Word := match ins[i]? with | some x => (scaledVals t0 x.1 x.2.1 x.2.2).map toFp | none => []
    let x := words 0
    let out (vs : List Fv) (ev : ArithEv) : FnRes := sOut (move x.length) o last vs ev
    if isRowFn f then
      let buf := t.sBuf ++ [(heads.headD bubbleFlit, x)]
      if rowEnds then
        let r := rowFn t o buf ev
        let e := sOut r.tile o last [] r.ev
        { e with flits := r.flits ++ e.flits }
      else FnRes.mk' { t with sBuf := buf } [] ev
    else match f with
    | 1 => out ((List.zipWith fAdd x (words 1)).map fpOf) ev
    | 2 => out ((List.zipWith fMul x (words 1)).map fpOf) ev
    | 3 => out ((List.zipWith (fun (p : Word × Word) c => fFma p.1 p.2 c) (x.zip (words 1)) (words 2)).map fpOf) ev
    | 4 => out ((List.zipWith fMin x (words 1)).map fpOf) ev
    | 5 => out ((List.zipWith fMax x (words 1)).map fpOf) ev
    | 6 =>
      let n := max t.sAcc.length x.length
      FnRes.mk' { t with sAcc := (List.range n).map fun k => if k < x.length then fAdd (t.sAcc.getD k 0) (x.getD k 0) else t.sAcc.getD k 0 } [] ev
    | 7 =>
      let r := sOut { t with sAcc := t.sAcc.map fun _ => 0 } o last (t.sAcc.map fpOf) ev
      if r.flits.isEmpty ∧ t.sAcc.isEmpty then { r with flits := [bubbleFlit] } else r
    | 0x23 =>
      let p := if heads.length = 2 then elemCode 11 (heads.getD 1 bubbleFlit).payload 0 else t.counters.getD o.level 0
      let r := rotaryFlit t o p t.sPos x ev
      out r.1 r.2
    | 0x26 => out (x.map fpOf) ev
    | 0x30 => out (steerFlit (rowOf t o ev) (o.arg 1) t.sPos x) ev
    | 0x32 =>
      let off := offsetOf t o
      let q := if 2 ≤ heads.length then words 1 else match rowOf t o ev with | some r => [r.qs.getD off 0] | none => []
      let u : Word × ArithEv := match heads.length, rowOf t o ev with
        | 3, _ => ((words 2).headD 0, ev)
        | _, some r => (toFp (drawUniform r ev.salt (0x40000000 + off) 0), ev)
        | _, none => (toFp (uniformOf (Config.freeWord ev.free).toNat), { ev with free := ev.free + 1 })
      out (x.zipIdx.map fun p => flagVal (accept p.1 (q.getD p.2 0) (if heads.length = 3 then (words 2).getD p.2 0 else u.1))) u.2
    | _ =>
      let r := mapFn (elemFn f) x ev
      out r.1 r.2

/-! ### A and T tiles (R32, R225) -/

/-- The products of paired elements enter an FP32 accumulator by K-groups of 32, each summed exactly and added with one rounding (R74). -/
def groupSums : Nat → List Fv → List Fv → Word → Word
  | 0, _, _, acc => acc
  | n + 1, xs, ws, acc =>
    if xs.isEmpty || ws.isEmpty then acc
    else groupSums n (xs.drop 32) (ws.drop 32) (accAdd acc (blockProduct (some 0) (some 0) (xs.take 32) (ws.take 32)))

/-- The end of a row of an A tile: u is kept for ADP_UP_ADD, or y = FMA(σ, B·u, b) goes out with the base flit and the σ of the row's last fire (R225). The
buffer holds, for each fire of ADP_UP_ADD, the base flit with the slice's elements and then the flit of σ. A row with a BUBBLE is a BUBBLE. -/
def aEnd (t : Tile) (o : Op) (ev : ArithEv) : FnRes :=
  let w := t.ncw o
  if o.func = 1 then FnRes.mk' { t with sAcc := [], adpU := t.adpU ++ [t.sAcc] } [] ev
  else
    let slices := (t.sBuf.zipIdx.filter fun x => decide (x.2 % 2 = 0)).map (·.1)
    let done : Tile := { t with sBuf := [], adpU := t.adpU.drop 1 }
    let sigma := elemVal 1 (elemCode 1 ((t.sBuf.getLastD (bubbleFlit, [])).1).payload 0)
    let us := (t.adpU.headD []).map fpOf
    let base := (flitVals 0 (slices.getLastD (bubbleFlit, [])).1).map toFp
    if t.sBuf.any (fun x => decide (x.1.kind = 4)) || us.isEmpty then FnRes.mk' done [bubbleFlit] ev
    else
      let y := base.zipIdx.map fun b =>
        if sigma.isZero then fpOf b.1
        else fpOf (fFma (toFp sigma) (groupSums us.length us (slices.map fun x => fpOf (x.2.getD b.2 0)) 0) b.1)
      let e := emitVals w y ev
      FnRes.mk' done e.1 e.2

/-- Functions of an A tile (R225, Table 8.7). A fire of ADP_DOWN adds the products of its activation flit and of its slice flit into the element of u that
the counter of the operation's level selects; a fire of ADP_UP_ADD brings, in its slice flit, the elements of the next column of B. When the levels above
move, the row ends: u is kept for ADP_UP_ADD, which forms c = B·u by K-groups and y = FMA(σ, c, b) with the base flit and the BF16 scale of its last fire
(notes/assumptions/23). σ = ±0 passes b on unchanged. Activations are read in FMT_A, slices in FMT_B. -/
def aFn (t0 : Tile) (o : Op) (keys : List Nat) (heads : List Flit) (ends : Nat → Bool) (ev : ArithEv) : FnRes :=
  let w := t0.ncw o
  let down := decide (o.func = 1)
  let ins := fireInputs (fun i => if i = 1 then ncwFmtB w else if down then ncwFmtA w else if i = 0 then 0 else 1) keys heads
  let scale := ins.any fun x => wantsScale t0 x.1 x.2.1 x.2.2
  let t := takeScales t0 (onceEach ins) scale
  let vals (i : Nat) : List Fv := match ins[i]? with | some x => scaledVals t0 x.1 x.2.1 x.2.2 | none => []
  let rowEnds := ends (o.level + 1)
  if scale then FnRes.mk' t [] ev
  else
    let bubble := heads.any fun h => decide (h.kind = 4)
    let j := t.counters.getD o.level 0
    let acc := t.sAcc ++ List.replicate (j + 1 - t.sAcc.length) 0
    let t1 : Tile := if down then (if bubble then t else { t with sAcc := acc.set j (groupSums 4 (vals 0) (vals 1) (acc.getD j 0)) })
      else { t with sBuf := t.sBuf ++ [(heads.headD bubbleFlit, (vals 1).map toFp), (heads.getD 2 bubbleFlit, [])] }
    if rowEnds then aEnd t1 o ev else FnRes.mk' t1 [] ev

/-- What a token that ends a row still owes at an A tile. -/
def aTail (t : Tile) (o : Op) (ends : Bool) (ev : ArithEv) : Option FnRes :=
  if ends ∧ ((o.func = 1 ∧ !t.sAcc.isEmpty) ∨ (o.func = 2 ∧ !t.sBuf.isEmpty)) then some (aEnd t o ev) else none

/-- The address of a stream address generator (R32): base + Σ stride × count, modulo its region, in the tile's SRAM. -/
def agAddr (t : Tile) (g : Nat) : Nat :=
  let a := t.active.ags.getD g []
  let sum := a.getD 0 0 + ((List.range 4).map fun l => a.getD (1 + l) 0 * t.counters.getD l 0).foldl (· + ·) 0
  let region := a.getD 5 0
  (if region = 0 then sum else sum % region) % 1310720

/-- Functions of a T tile: T_STORE and T_LOAD. -/
def tFn (t : Tile) (o : Op) (heads : List Flit) (ev : ArithEv) : FnRes :=
  if heads.any fun h => decide (h.kind = 4) then FnRes.mk' t [bubbleFlit] ev
  else
  let g := o.arg 0 % 4
  let a := agAddr t g
  let t1 := { t with agsPos := t.agsPos.set g a }
  if o.func.toNat = 1 then
    FnRes.mk' { t1 with sram := (flitBytes (heads.headD bubbleFlit)).zipIdx.foldl (fun m b => tput 0 m ((a + b.2) % 1310720) b.1) t.sram } [] ev
  else FnRes.mk' t1 [dataFlit (leNat ((List.range 64).map fun k => memGet t.sram ((a + k) % 1310720))) 64] ev

/-- The operand format in which a fire reads the flit of input i, by tile kind: an M tile's product, an S tile's inputs, the activation of an A tile and the
logits of a G tile; the other functions read no element format. -/
def headFmt (t : Tile) (o : Op) (kind i : Nat) : Option Nat :=
  let w := t.ncw o
  match kind with
  | 0 => if o.func = 1 then some (ncwFmtA w) else none
  | 1 => if i = 0 ∧ o.func = 1 then some (ncwFmtA w) else none
  | 2 => if o.func = 0x40 ∧ i + 1 = o.inputs.length then none else if o.func = 0x40 then some (ncwFmtA w) else some (inputFmt w o.func.toNat i)
  | 4 => if o.func = 0x40 then some (ncwFmtA w) else none
  | _ => none

/-- Some head is a flit of 6-bit or 4-bit elements that is neither full nor whole blocks (R70); a scale flit is a flit of scales. -/
def badFlit (t : Tile) (o : Op) (kind : Nat) : Bool :=
  o.inputs.zipIdx.any fun k => match headFmt t o kind k.2, t.queue k.1 with
    | some c, f :: _ => decide (f.kind = 0) && !wantsScale t c k.1 f && !flitWhole c f
    | _, _ => false

/-- The arithmetic events of a fire enter the die's counters (R85). -/
def takeEvents (p col row : Nat) (ev : ArithEv) (s : State) : State :=
  let s1 := bumpBy (ARR_ARITH_SAT p) ev.sat (bumpBy (ARR_ARITH_NAN p) ev.nan (bumpBy (ARR_ARITH_NANCLAMP p) ev.clamp
    (bumpBy (ARR_ARITH_ACCOVF p) ev.accOvf { s with free := ev.free })))
  modTile p col row (fun t => { t with srCount := ev.count }) s1

end Sys2Proof.Machine
end

