-- ==== Sys2Proof/Machine/GTile.lean ====
section
/-! DEFINITION. The functions of G tiles, and MOE_COMBINE and EXIT_TEST of S tiles (chapters 9 and 10). What their flits carry where
the manual gives no layout is said in notes/assumptions/43. -/

namespace Sys2Proof.Machine

/-! ### The step that runs on a die -/

/-- The step whose STEP token the die took last. -/
def dieStep (s : State) (p : Nat) : Option Step :=
  let e := getReg64 s (ARR_STEP_EPOCH_LO p) (ARR_STEP_EPOCH_HI p)
  s.seq.steps.find? fun st => decide (st.epoch = e)

/-- Row and offset of the k-th token of a step, in ROW order and then in position order (R241). -/
def tokenPlace : List WRow → Nat → Nat × Nat
  | [], k => (0xFFFF, k)
  | r :: rs, k => if k < r.tokens then (r.row, k) else tokenPlace rs (k - r.tokens)

/-! ### Expert placement (R238–R244) -/

/-- Fields of Table 9.1: E, TOP_K, RENORM, GATE_MODE, LAYER. -/
def moeExperts (o : Op) : Nat := o.arg 0 + 1
/-- TOP_K. -/
def moeTopK (o : Op) : Nat := o.arg 1 % 16

/-- C of R240 for n valid tokens. -/
def moeCapacity (o : Op) (n : Nat) : Nat :=
  min (fieldAt o.args 6 2) (max (fieldAt o.args 4 2) (ceilDiv (fieldAt o.args 2 2 * n * moeTopK o) (16 * moeExperts o)))

/-- One token's choices from its logits (R239): ranked by TOPK, with the weights of GATE_MODE; an invalid choice has no expert. -/
def moeChoices (o : Op) (logits : List Word) (ev : ArithEv) : List (Option Nat × Word) × ArithEv :=
  let best := (sortBy ranksBefore logits.zipIdx).take (moeTopK o)
  let w := if bit (o.arg 1) 5 then
      let a := softmaxRow logits ev
      (best.map fun c => a.1.getD c.2 .nan, a.2)
    else softmaxRow (best.map (·.1)) ev
  ((best.zip w.1).map fun c => (if c.1.2 < moeExperts o ∧ !c.2.isNan then some c.1.2 else none, toFp c.2), w.2)

/-- A placement under way: choices held per expert, and (token, rank, expert, weight) placed, newest first; choices dropped. -/
structure Placing where
  held : Tab Nat
  placed : List (Nat × Nat × Nat × Word)
  dropped : Nat
deriving DecidableEq, Repr

/-- One choice is placed while its expert holds fewer than C tokens (R241). -/
def placeOne (c : Nat) (r : Placing) (tok rank : Nat) (x : Option Nat × Word) : Placing :=
  match x.1 with
  | none => r
  | some e =>
    if tget 0 r.held e < c then { r with held := tmod 0 r.held e (· + 1), placed := (tok, rank, e, x.2) :: r.placed }
    else { r with dropped := r.dropped + 1 }

/-- All choices in rank order and, within a rank, in token order (R241). -/
def placeAll (c k : Nat) (ts : List MoeToken) : Placing :=
  (List.range k).foldl (fun r rank => ts.zipIdx.foldl (fun r t =>
    match t.1.choices[rank]? with | some x => placeOne c r t.2 rank x | none => r) r) { held := [], placed := [], dropped := 0 }

/-- Placed choices of token i, by rank. -/
def Placing.ofToken (r : Placing) (i : Nat) : List (Nat × Nat × Word) :=
  ((r.placed.filter fun p => decide (p.1 = i)).map (·.2)).reverse

/-- The weights that the placed choices of a token use (R242), by rank; 0 for a choice that was not placed. -/
def tokenWeights (o : Op) (cs : List (Nat × Nat × Word)) : List Word :=
  let sum := (cs.map (·.2.2)).foldl fAdd 0
  (List.range (moeTopK o)).map fun k => match cs.find? fun c => decide (c.1 = k) with
    | some c => if bit (o.arg 1) 4 then divFp (fpOf c.2.2) (fpOf sum) else c.2.2
    | none => 0

/-- The tag flit of a choice (R245). -/
def tagFlit (row off rank : Nat) : Flit := dataFlit (row + 2 ^ 32 * off + 2 ^ 64 * rank) 64

/-- A work item of Table 9.2 for `rows` tokens of an expert from a slot on; its column blocks are free values, since the manual does not
say where MOE_PLACE finds them. -/
def workItem (o : Op) (e first rows cols : Nat) : List Byte :=
  leBytes 1 e ++ leBytes 1 1 ++ leBytes 2 (fieldAt o.args 8 2) ++ leBytes 2 first ++ leBytes 1 rows ++ leBytes 1 0
    ++ leBytes 2 0 ++ leBytes 2 cols ++ leBytes 4 0

/-- The work list: by expert, then by blocks of up to 64 tokens (R244). -/
def workItems (o : Op) (cols : Nat) (held : Tab Nat) : List (List Byte) :=
  (held.map fun h => (List.range (ceilDiv h.2 64)).map fun b => workItem o h.1 (64 * b) (min 64 (h.2 - 64 * b)) cols).flatten

/-- Flits follow on a list of outputs, in order. -/
def follow (p col row : Nat) (outs : List Nat) (fs : List Flit) (s : State) : State :=
  modTile p col row (fun t => { t with second := t.second ++ (fs.map fun g => outs.map fun x => { out := x, flit := g }).flatten }) s

/-- NaN words among results that leave the tile without output conversion are counted (R85). -/
def countNans (p : Nat) (ws : List Word) (s : State) : State := bumpBy (ARR_ARITH_NAN p) (ws.filter fun w => (fpOf w).isNan).length s

/-- Work items sorted by expert, then by row block (R244). -/
def sortItems (l : List (List Byte)) : List (List Byte) :=
  sortBy (fun a b => decide (65536 * fieldAt a 0 1 + fieldAt a 4 2 ≤ 65536 * fieldAt b 0 1 + fieldAt b 4 2)) l

/-- A layer's items join those that the die holds: its other items of the layer stay sorted with them, behind those of other layers (R244). -/
def joinItems (layer : Nat) (items l : List (List Byte)) : List (List Byte) :=
  (l.filter fun x => !decide (fieldAt x 2 2 = layer)) ++ sortItems ((l.filter fun x => decide (fieldAt x 2 2 = layer)) ++ items)

/-- The end of MOE_PLACE's tokens: placement, tags, weights, the work list and the counters. -/
def moeEnd (p col row : Nat) (o : Op) (s : State) : State :=
  let t := getTile s p col row
  let n := match dieStep s p with | some st => st.tokens - st.padding | none => t.choices.length
  let r := placeAll (moeCapacity o n) (moeTopK o) t.choices
  let dr := draw Config.freeNat s
  let items := workItems o (dr.1 % 65536) r.held
  let empty := (t.choices.zipIdx.filter fun c => !c.1.choices.isEmpty && (r.ofToken c.2).isEmpty).length
  let s1 := t.choices.zipIdx.foldl (fun s c =>
    let cs := r.ofToken c.2
    follow p col row (o.outputs.drop 1) [packFlit 32 ((tokenWeights o cs).map (·.toNat))]
      (follow p col row (o.outputs.take 1) (cs.map fun x => tagFlit c.1.row c.1.offset x.1) (countNans p (tokenWeights o cs) s))) dr.2
  let s2 := bumpBy (ARR_MOE_PLACED p) r.placed.length (bumpBy (ARR_MOE_BITTERN_DROP p) r.dropped (bumpBy (ARR_MOE_BITTERN_EMPTY p) empty s1))
  let s3 := modTile p col row (fun t => { t with choices := [], sBuf := [] }) s2
  if 4096 < ((getDie s p).moeItems ++ items).length then tileFault 0x0106 p col row 0 0 s3
  else modDie p (fun d => { d with moeItems := joinItems (fieldAt o.args 8 2) items d.moeItems }) s3

/-- A tile's arithmetic starts a fire: its generator, the die's seed, and the rows and salt of the step (R82, R93). -/
def tileEv (s : State) (p col row : Nat) (rows : List RowParams) : ArithEv :=
  { ArithEv.none s.free with
    count := (getTile s p col row).srCount, seed := (getDie s p).srSeed.toNat, addr := 512 * p + tileKey col row, rows := rows
    salt := getReg64 s ARR_RUN_SALT_LO ARR_RUN_SALT_HI }

/-- A flit of logits reaches MOE_PLACE: with the last of a token's E logits its choices are noted; a BUBBLE row and a row that has exited
make none. -/
def moePlace (p col row : Nat) (o : Op) (h : Flit) (s : State) : State :=
  let t0 := getTile s p col row
  let fmt := ncwFmtA (t0.ncw o)
  let ins := fireInputs (fun _ => fmt) o.inputs [h]
  let scale := ins.any fun x => wantsScale t0 x.1 x.2.1 x.2.2
  let t := takeScales t0 ins scale
  let buf := t.sBuf ++ [(h, if h.kind = 4 then [] else (scaledVals t0 fmt (o.inputs.headD 0) h).map toFp)]
  let got := (buf.map fun f => if f.1.kind = 4 then bubbleElems fmt else f.2.length).foldl (· + ·) 0
  if scale then modTile p col row (fun _ => t) s
  else if got < moeExperts o then modTile p col row (fun _ => { t with sBuf := buf, gOp := t.pc }) s
  else
    let st := dieStep s p
    let place := match st with | some x => tokenPlace x.rows t.choices.length | none => (t.choices.length, 0)
    let gone : Bool := match st with | some x => x.exited.contains place.1 | none => false
    let note (cs : List (Option Nat × Word)) : State :=
      modTile p col row (fun _ => { t with sBuf := [], gOp := t.pc, choices := t.choices ++ [{ row := place.1, offset := place.2, choices := cs }] }) s
    if gone || buf.any (fun f => decide (f.1.kind = 4)) then note []
    else
      let r := moeChoices o ((buf.map (·.2)).flatten.take (moeExperts o)) (tileEv s p col row [])
      let bad := (r.1.filter fun c => c.1.isNone).length
      bumpBy (ARR_MOE_BITTERN_INVALID p) bad (takeEvents p col row r.2 (note r.1))

/-- MOE_CLAIM (R244): the next unclaimed item, or END, whose code is a free value. -/
def moeClaim (p : Nat) (s : State) : List Flit × State :=
  match (getDie s p).moeItems with
  | x :: xs => ([flitOfBytes x], bump (ARR_MOE_ITEMS p) (modDie p (fun d => { d with moeItems := xs }) s))
  | [] => let r := draw Config.freeNat s; ([dataFlit (r.1 % 2 ^ 128) 16], r.2)

/-- MOE_COMBINE (R242): Σ w_j × y_j in rank order over answers y_j, the inputs but the last, with the FP32 weights of the last input. -/
def moeCombine (p col row : Nat) (o : Op) (heads : List Flit) (last : Bool) (s : State) : List Flit × State :=
  let t0 := getTile s p col row
  let fmt := ncwFmtA (t0.ncw o)
  let ins := fireInputs (fun _ => fmt) (o.inputs.take (heads.length - 1)) heads.dropLast
  let scale := ins.any fun x => wantsScale t0 x.1 x.2.1 x.2.2
  let t := takeScales t0 (onceEach ins) scale
  if scale then ([], modTile p col row (fun _ => t) s)
  else if heads.any fun h => decide (h.kind = 4) then
    let r := sOut t o last [] (tileEv s p col row [])
    (r.flits ++ [bubbleFlit], takeEvents p col row r.ev (modTile p col row (fun _ => r.tile) s))
  else
    let ws := (flitVals 0 (heads.getLastD bubbleFlit)).map toFp
    let ys := ins.map fun x => (scaledVals t0 fmt x.2.1 x.2.2).map toFp
    let n := (ys.map List.length).foldl max 0
    let vals := (List.range n).map fun k => ((ys.zip ws).foldl (fun acc yw => fFma yw.2 (yw.1.getD k 0) acc) (0 : Word))
    let r := sOut t o last (vals.map fpOf) (tileEv s p col row [])
    (r.flits, takeEvents p col row r.ev (modTile p col row (fun _ => r.tile) s))

/-- The row of an EXIT_TEST has ended with confidence c (R254, R255): the row that the operation's level counts is tested against the threshold its policy
selects; a row exits once, and only in a decode step. -/
def exitRow (p : Nat) (row : Nat) (c : Fv) (s : State) : State :=
  match dieStep s p with
  | none => s
  | some st =>
    match st.rows.find? fun r => decide (r.row = row) with
    | none => s
    | some r =>
      if st.kind ≠ 1 ∨ !bit r.exitPolicy.toNat 4 ∨ st.exited.contains r.row then s
      else
        let th := fpOf (st.exits.getD (r.exitPolicy.toNat % 16) posInf)
        let s1 := bump (ARR_EXIT_TESTS p) s
        if !c.isNan && !th.isNan && th.lt c then
          bump (ARR_EXIT_TAKEN p) (s1.onSeq fun q => { q with
            steps := q.steps.map fun k => if k.epoch = st.epoch then { k with exited := k.exited ++ [r.row] } else k })
        else s1

/-- The end of a row of an EXIT_TEST: its confidence goes out as one FP32 value (notes/assumptions/43), and the row is tested; a row of BUBBLE flits alone
gives a BUBBLE and never exits. -/
def exitEnd (p col row : Nat) (o : Op) (buf : List (Flit × List Word)) (s : State) : List Flit × State :=
  let t := getTile s p col row
  let s1 := modTile p col row (fun t => { t with sBuf := [] }) s
  if buf.all fun x => decide (x.1.kind = 4) then ([bubbleFlit], s1)
  else
    let c := confidence (rowWords (t.ncw o) buf) (tileEv s p col row [])
    let s2 := takeEvents p col row c.2 s1
    ([packFlit 32 [(toFp c.1).toNat]], exitRow p (t.counters.getD o.level 0) c.1 (countNans p [toFp c.1] s2))

/-- A flit of logits reaches EXIT_TEST. -/
def exitTest (p col row : Nat) (o : Op) (heads : List Flit) (rowEnds : Bool) (s : State) : List Flit × State :=
  let t0 := getTile s p col row
  let w := t0.ncw o
  let h := heads.headD bubbleFlit
  let ins := fireInputs (fun _ => ncwFmtA w) o.inputs [h]
  let scale := ins.any fun x => wantsScale t0 x.1 x.2.1 x.2.2
  let t := takeScales t0 ins scale
  let buf := t.sBuf ++ [(h, if h.kind = 4 then [] else (scaledVals t0 (ncwFmtA w) (o.inputs.headD 0) h).map toFp)]
  if scale then ([], modTile p col row (fun _ => t) s)
  else if !rowEnds then ([], modTile p col row (fun _ => { t with sBuf := buf }) s)
  else exitEnd p col row o buf (modTile p col row (fun _ => { t with sBuf := buf }) s)

/-! ### Embedding bags (R261–R265, R274) -/

/-- The directory entry that an operation names. -/
def gEntry (o : Op) : Nat := fieldAt o.args 0 2 % 1024

/-- The pairs of a DATA flit (R261). -/
def flitPairs (f : Flit) : List (Word × Word) :=
  (List.range (flitValid f / 8)).map fun k =>
    (BitVec.ofNat 32 (f.payload.toNat / 2 ^ (64 * k)), BitVec.ofNat 32 (f.payload.toNat / 2 ^ (64 * k + 32)))

/-- The record of table e that the step of die p reads (R271). -/
def embRec (s : State) (p e : Nat) : EmbRec :=
  match tget 0 (getDie s p).embVer e with
  | 0 => (getEmb s e).cur
  | k + 1 => (getEmb s e).ver k

/-- Kept pairs (R262). -/
def keptPairs (s : State) (p e : Nat) (ps : List (Word × Word)) : List (Word × Word) :=
  ps.filter fun q => (rowDrop s (getEmb s e) (embRec s p e) q.1.toNat).isNone

/-- Distinct kept indices of bags, by first use. -/
def distinctRows (s : State) (p e : Nat) (bs : List Bag) : List Nat :=
  dedup ((keptPairs s p e (bs.map (·.pairs)).flatten).map fun q => q.1.toNat)

/-- The pairs of a flit need a presence bit whose page is away (R143, R262): the tile waits. -/
def bitmapAway (s : State) (p : Nat) (o : Op) (h : Flit) : Bool :=
  let x := getEmb s (gEntry o)
  let r := embRec s p (gEntry o)
  (decide (o.func = 0x50) || decide (o.func = 0x51)) && r.sparse && decide (h.kind = 0)
    && (flitPairs h).any fun q => decide (q.1.toNat < r.rows) && decide (rowHome x q.1.toNat = chipId s)
      && rangeAway (handleObj s x.ctx r.bitmap) (rowLocal x q.1.toNat / 8) 1

/-- Bags whose FP32 accumulators fit in ACC_UNITS (R261, R264). -/
def accBags (s : State) (o : Op) : Nat := fieldAt o.args 2 2 * 65536 / (4 * max 1 (embDim s (gEntry o)))

/-- A bag fits an open round (R264). -/
def bagFits (s : State) (p : Nat) (o : Op) (round : List Bag) (b : Bag) : Bool :=
  let bs := round ++ [b]
  decide ((distinctRows s p (gEntry o) bs).length ≤ 4096) && decide ((bs.map (·.pairs)).flatten.length ≤ 8192)
    && (decide (o.func ≠ 0x50) || decide (bs.length ≤ accBags s o))

/-- The pairs that a flit brings are counted, and the dropped ones by cause (R262). -/
def countPairs (p e : Nat) (ps : List (Word × Word)) (s : State) : State :=
  let x := getEmb s e
  let r := embRec s p e
  ps.foldl (fun s q => match rowDrop s x r q.1.toNat with
    | some 0 => bump (EMB_BITTERN_INVALID p) s
    | some 1 => bump (EMB_BITTERN_FOREIGN p) s
    | some _ => bump (EMB_BITTERN_MISSING p) s
    | none => s) (bumpBy (EMB_PAIRS p) ps.length s)

/-- A flit of pairs, or of a gradient row, enters the bag being read. -/
def bagFlit (p col row : Nat) (o : Op) (heads : List Flit) (s : State) : State :=
  let h := heads.headD bubbleFlit
  let g := (heads.getD 1 bubbleFlit)
  let ps := if h.kind = 4 then [] else flitPairs h
  let s1 := modTile p col row (fun t => { t with gOp := t.pc, bag := { t.bag with
    pairs := t.bag.pairs ++ ps
    sawPairs := t.bag.sawPairs || decide (h.kind ≠ 4)
    sawBubble := t.bag.sawBubble || decide (h.kind = 4)
    grad := t.bag.grad ++ (if g.kind = 4 then [] else (flitVals 0 g).map toFp) } }) (countPairs p (gEntry o) ps s)
  if 4096 < (getTile s1 p col row).bag.pairs.length then tileFault 0x0106 p col row (o.inputs.headD 0) 0 s1 else s1

/-- Weight of an index in a bag: its pairs' weights added in arrival order (R263). -/
def bagWeight (ps : List (Word × Word)) (i : Nat) : Word :=
  match (ps.filter fun q => decide (q.1.toNat = i)).map (·.2) with
  | [] => 0
  | w :: ws => ws.foldl fAdd w

/-- The pooled row of a bag (R263), and whether it is pooled to +0 for want of a kept pair; a bag of BUBBLE flits alone is a BUBBLE. -/
def poolBag (s : State) (p col row : Nat) (o : Op) (w : Word) (fetched : Tab (List Byte)) (b : Bag) : List Flit × State :=
  let e := gEntry o
  let r := embRec s p e
  if b.sawBubble && !b.sawPairs then ([bubbleFlit], s)
  else
    let ps := keptPairs s p e b.pairs
    let acc := (dedup (ps.map fun q => q.1.toNat)).foldl (fun acc i =>
      let wi := bagWeight ps i
      let vs := rowValues r (tget [] fetched i)
      acc.zipIdx.map fun a => fFma wi (vs.getD a.2 0) a.1) (List.replicate r.dim (0 : Word))
    let c := emitVals w (acc.map fpOf) (tileEv s p col row [])
    let s1 := takeEvents p col row c.2 s
    (c.1, if ps.isEmpty then bump (EMB_EMPTY_BAGS p) s1 else s1)

/-- The gradient of row i over the bags of a round (R274). -/
def rowGrad (s : State) (p e dim : Nat) (bs : List Bag) (i : Nat) : List Word :=
  bs.foldl (fun acc b =>
    let ps := keptPairs s p e b.pairs
    if ps.any fun q => decide (q.1.toNat = i) then
      let wi := bagWeight ps i
      acc.zipIdx.map fun a => fFma wi (b.grad.getD a.2 0) a.1
    else acc) (List.replicate dim (0 : Word))

/-- The gradient records of a round (R274): a header flit with the index, then the row's gradient; its NaN elements are counted (R85). -/
def gradRecords (p : Nat) (o : Op) (bs : List Bag) (s : State) : List Flit × State :=
  let e := gEntry o
  (distinctRows s p e bs).foldl (fun (r : List Flit × State) i =>
    let acc := rowGrad s p e (embRec s p e).dim bs i
    (r.1 ++ dataFlit i 64 :: (chunks 16 acc.length (acc.map (·.toNat))).map (packFlit 32), countNans p acc r.2)) ([], s)

/-- The operation whose round is open. -/
def Tile.gOpOf (t : Tile) : Op := t.active.ops.getD t.gOp Op.empty

/-- The rows that a closed round still needs are asked of the die's merger (R265): a copy serves at once, an outstanding fetch is joined,
and at most 256 are outstanding. The request goes by a stream port to the die that serves the row (R31), by the port that the row's number picks
(notes/assumptions/41). -/
def askRow (p col row : Nat) (s : State) (i : Nat) : State :=
  let t := getTile s p col row
  let e := gEntry t.gOpOf
  let x := getEmb s e
  let d := getDie s p
  let took (f : Tile → Tile) (s : State) : State := modTile p col row (fun t => f { t with toFetch := t.toFetch.filter fun k => !decide (k = i) }) s
  match (if x.state = 1 then hotCopy d e (embRec s p e).version i else none) with
  | some h =>
    let b := match (dieOfPan s p).bind (getPan s) with | some n => n.boundaries | none => 0
    bump (EMB_HOT_HITS p) (readHot p h b (took (fun t => { t with fetched := tput [] t.fetched i h.bytes }) s))
  | none =>
    match d.fetches.find? fun f => decide (f.entry = e) && decide (f.row = i) with
    | some _ => bump (EMB_COALESCED p) (modDie p (fun d => { d with fetches := d.fetches.map fun f =>
        if f.entry = e ∧ f.row = i then { f with waiting := f.waiting ++ [tileKey col row] } else f }) (took id s))
    | none =>
      if 256 ≤ d.fetches.length then s
      else
        let o := handleObj s x.ctx (embRec s p e).base
        sendReq p (i % 8) (servingDie o (rowOffset (embRec s p e) (rowLocal x i))).1 x.ctx (.rowReq e i) (bump (EMB_FETCH p) (modDie p (fun d => { d with
          fetches := d.fetches ++ [{ entry := e, row := i, waiting := [tileKey col row], asked := false, sent := false, arrived := none }] }) (took id s)))

/-- Uses of rows in the die's step (R268). -/
def useRow (e i n : Nat) (l : List (Nat × Nat × Nat)) : List (Nat × Nat × Nat) :=
  if l.any fun u => decide (u.1 = e) && decide (u.2.1 = i) then l.map fun u => if u.1 = e ∧ u.2.1 = i then (e, i, u.2.2 + n) else u
  else l ++ [(e, i, n)]

/-- The open round closes (R264): its row uses are counted, and its rows asked for. -/
def closeRound (p col row : Nat) (s : State) : State :=
  let t := getTile s p col row
  let o := t.gOpOf
  let e := gEntry o
  let rows := distinctRows s p e t.round
  let kept := keptPairs s p e (t.round.map (·.pairs)).flatten
  let s1 := modTile p col row (fun t => { t with roundClosed := true, toFetch := if o.func = 0x50 then rows else [], fetched := [] }) s
  if o.func ≠ 0x50 then s1
  else
    let s2 := modDie p (fun d => { d with
      gathered := if d.gathered.contains e then d.gathered else d.gathered ++ [e]
      rowUse := rows.foldl (fun l i => useRow e i (kept.filter fun q => decide (q.1.toNat = i)).length l) d.rowUse }) s1
    rows.foldl (askRow p col row) (bumpBy (EMB_COALESCED p) (kept.length - rows.length) s2)

/-- A closed round whose rows have all come emits its rows or records in bag order and ends (R264); a bag that waited opens the next
round. -/
def finishRound (p col row : Nat) (s : State) : State :=
  let t := getTile s p col row
  let o := t.gOpOf
  if !t.roundClosed ∨ !t.toFetch.isEmpty ∨ (getDie s p).fetches.any (fun f => f.waiting.contains (tileKey col row)) then s
  else
    let r := if o.func = 0x50 then
        t.round.foldl (fun (r : List Flit × State) b => let x := poolBag r.2 p col row o (t.ncw o) t.fetched b; (r.1 ++ x.1, x.2)) ([], s)
      else gradRecords p o t.round s
    let s1 := bump (EMB_ROUNDS p) (follow p col row o.outputs r.1 r.2)
    modTile p col row (fun t => { t with
      roundClosed := false, fetched := []
      round := if t.bag.ended then [t.bag] else []
      bag := if t.bag.ended then Bag.fresh else t.bag }) s1

/-- The bag ends (R261): it joins the round, or the round closes and the bag waits for the next one. -/
def endBag (p col row : Nat) (o : Op) (s : State) : State :=
  let t := getTile s p col row
  if bagFits s p o t.round t.bag then
    modTile p col row (fun t => { t with gOp := t.active.ops.findIdx fun k => decide (k = o), round := t.round ++ [t.bag], bag := Bag.fresh }) s
  else finishRound p col row (closeRound p col row (modTile p col row (fun t => { t with bag := { t.bag with ended := true } }) s))

/-- A tile's program has left an operation of this kind: what it collected is completed (notes/assumptions/44). -/
def gLeave (p col row : Nat) (s : State) : State :=
  let t := getTile s p col row
  let o := t.gOpOf
  let left := t.done || decide (t.pc ≠ t.gOp)
  if !left ∨ kindAt col row ≠ 4 then s
  else if o.func = 0x40 ∧ !t.choices.isEmpty then moeEnd p col row o s
  else if (o.func = 0x50 ∨ o.func = 0x51) ∧ !t.round.isEmpty ∧ !t.roundClosed then finishRound p col row (closeRound p col row s)
  else s

/-- A token fire of a G tile: EOL(0) ends a bag, and leaving an operation completes it. `o` is the operation before the token. -/
def gToken (p col row : Nat) (o : Op) (f : Flit) (s : State) : State :=
  if kindAt col row ≠ 4 then s
  else
    let s1 := if f.kind = 1 ∧ f.arg.toNat % 4 = 0 ∧ (o.func = 0x50 ∨ o.func = 0x51) then endBag p col row o s else s
    gLeave p col row s1

/-- What a G tile's function, or MOE_COMBINE or EXIT_TEST, gives for the heads it names. -/
def gFire (p col row : Nat) (o : Op) (heads : List Flit) (ends : Nat → Bool) (last : Bool) (s : State) : List Flit × State :=
  if kindAt col row = 2 then
    (if o.func = 0x40 then moeCombine p col row o heads last s else exitTest p col row o heads (ends o.level) s)
  else if o.func = 0x40 then ([], moePlace p col row o (heads.headD bubbleFlit) s)
  else if o.func = 0x41 then (if heads.any fun h => decide (h.kind = 4) then ([bubbleFlit], s) else moeClaim p s)
  else ([], bagFlit p col row o heads s)

end Sys2Proof.Machine
end

