-- ==== Sys2Proof/Machine/Tiles.lean ====
section
/-! DEFINITION. A tile's cycle: links, elastic queues, control tokens and the firing rule (chapter 2, R111–R117). -/

namespace Sys2Proof.Machine

/-! ### Circuits of compatibility mode (R56–R60) -/

/-- A control token that slot 7 carries (R57). -/
def slot7Token (f : Flit) : Bool := decide (f.kind = 2) || decide (f.kind = 3) || decide (f.kind = 5)

/-- The circuit (VQ) that owns slot 0–6 of a link out of a tile: the plan is the YD200 configuration's and no image carries it; in the model each
circuit owns one slot of 3–6, and the plan gives slots 0–2 (R56; notes/assumptions/157). -/
def slotOwner (p col row port slot : Nat) : Nat :=
  if 3 ≤ slot then (slot - 3) % 4 else Config.slotPlan (8 * (5 * (320 * p + tileKey col row) + port) + slot) % 4

/-- The slot in which a flit that arrived in a slot leaves the next pass-through register: the following one; slot 7 stays with control tokens
(R56, R57; notes/assumptions/157). -/
def nextSlot (slot : Nat) : Nat := if slot = 8 then 8 else if slot = 7 then 7 else if slot = 6 then 0 else slot + 1

/-- The input keys that a circuit passes from an input key on, each with whether the circuit ends there. -/
def circuitKeys (s : State) : Nat → Nat → Nat → Nat → Nat → List ((Nat × Nat × Nat × Nat) × Bool)
  | 0, _, _, _, _ => []
  | fuel + 1, p, col, row, key =>
    let r := (getTile s p col row).route key
    let onward := match linkEnd s p col row r.outPort.toNat with
      | some (q, c, w, ip) => circuitKeys s fuel q c w (4 * ip + r.outVq.toNat)
      | none => []
    match r.type.toNat with
    | 0 => [((p, col, row, key), true)]
    | 1 => ((p, col, row, key), false) :: onward
    | 2 => ((p, col, row, key), true) :: onward
    | _ => []

/-- Flits of a circuit on the link into an input key and in its pass-through stage. -/
def circuitFlits (s : State) (k : Nat × Nat × Nat × Nat) : Nat :=
  let t := getTile s k.1 k.2.1 k.2.2.1
  t.flying (k.2.2.2 / 4) (k.2.2.2 % 4) + (tget [] t.stages k.2.2.2).length

/-- An output has a circuit credit (R56, R60): the queue of 8 flits, elastic queue or segment at each end of its circuit has an entry free for it
behind every flit on the way and every credit not yet returned. -/
def circuitCredit (s : State) (p col row out : Nat) : Bool :=
  match linkEnd s p col row (out / 4) with
  | none => false
  | some (q, c, w, ip) =>
    let l := circuitKeys s 400 q c w (4 * ip + out % 4)
    let way := ((l.map fun k => circuitFlits s k.1).foldl (· + ·) 0)
    l.all fun k => !k.2 || (
      let d := getDie s k.1.1
      let t := d.tile k.1.2.1 k.1.2.2.1
      let room := match t.eqAt k.1.2.2.2 with
        | some (i, e) => 64 * e.size - t.eqLen i
        | none => queueRoom s k.1.1 d k.1.2.1 k.1.2.2.1 k.1.2.2.2
      decide (way + tget 0 t.creditDue k.1.2.2.2 < room))

/-! ### Links (R36–R39, R43) -/

/-- The stage of a tile whose next flit leaves by an output key: its input key. -/
def stageFor (t : Tile) (out : Nat) : Option Nat :=
  (t.stages.find? fun p => match p.2 with | f :: _ => decide (f.out = out) | [] => false).map (·.1)

/-- What an output key has ready, and the slot it must leave in, 9 for any slot that its circuit owns: from its output register, or from a stage (a TAP
only when its local queue has room). -/
def readyFlit (s : State) (p col row out : Nat) : Option (Nat × Flit) :=
  let d := getDie s p
  let t := d.tile col row
  match tget [] t.outRegs out with
  | f :: _ => some (9, f)
  | [] =>
    match stageFor t out with
    | some k =>
      if (t.route k).type = 2 ∧ queueRoom s p d col row k = 0 then none
      else ((tget [] t.stages k).head?).map fun x => (x.slot, x.flit)
    | none => none

/-- Flits that a stream port's crossing holds on the way out of port X, of all its VQs (R28). -/
def portOutLen (d : Die) (port : Nat) : Nat := (tget [] d.portOut port).length

/-- The stream port of a tile with a port X, 0–7 (R35). -/
def streamPortOf (col row : Nat) : Nat := streamTiles.findIdx fun x => decide (x = (col, row))

/-- The VQ has a credit downstream: at the far stage, or in the 64 entries of the crossing into the stream port (R28). -/
def hasCredit (s : State) (p col row port vq : Nat) : Bool :=
  if port = 4 then decide (portOutLen (getDie s p) (streamPortOf col row) < 64)
  else match linkEnd s p col row port with
    | some (q, c, r, ip) => decide (0 < credits s q c r ip vq)
    | none => false

/-- In compatibility mode the present slot of the link out of a port may carry what a VQ has ready: slot 7 a control token, slots 0–6 a flit of the circuit
that owns the slot, or the flit of a stage whose slot it is (R56, R57). In native mode there are no slots. -/
def slotAllows (s : State) (p col row port vq : Nat) (x : Nat × Flit) : Bool :=
  if !compatDie s p then true
  else
    let f := (getTile s p col row).frame
    if slot7Token x.2 then decide (f = 7)
    else if f = 7 then false
    else if x.1 < 7 then decide (f = x.1) else decide (slotOwner p col row port f = vq)

/-- The flit of an output key leaves its register or stage; a TAP's copy enters the local queue. -/
def takeOut (p col row out : Nat) (s : State) : State :=
  let t := getTile s p col row
  match tget [] t.outRegs out with
  | _ :: _ => modTile p col row (fun t => { t with outRegs := tmod [] t.outRegs out List.tail }) s
  | [] =>
    match stageFor t out with
    | some k =>
      let f := (tget [] t.stages k).head?.map (·.flit)
      let owes := decide (creditStage (getDie s p) col row k = 2)
      let s1 := modTile p col row (fun t => oweCredit owes k { t with stages := tmod [] t.stages k List.tail }) s
      match f with
      | some f => if (t.route k).type = 2 then enqueue p col row k f s1 else s1
      | none => s1
    | none => s

/-- One link sends one flit: the VQs are served round-robin (R39), VQ 0 first after reset (notes/assumptions/158). An interface whose edge is bound to a
tunnel gives its flit to the router (R22, R24). -/
def sendLink (p col row : Nat) (s : State) (port : Nat) : State :=
  let t := getTile s p col row
  let last := tget 3 t.lastServed port
  let order := [last + 1, last + 2, last + 3, last + 4].map (· % 4)
  let ready (vq : Nat) : Option Flit := match readyFlit s p col row (4 * port + vq) with
    | some x => if slotAllows s p col row port vq x && hasCredit s p col row port vq then some x.2 else none
    | none => none
  match order.find? fun vq => (ready vq).isSome with
  | none => s
  | some vq =>
    match ready vq with
    | none => s
    | some f =>
      let s1 := modTile p col row (fun t => { t with lastServed := tput 3 t.lastServed port vq }) (takeOut p col row (4 * port + vq) s)
      let slot := if compatDie s p then t.frame else 8
      if port = 4 then modDie p (fun d => { d with portOut := tmod [] d.portOut (streamPortOf col row) (· ++ [(vq, f)]) }) s1
      else match linkEnd s p col row port with
        | some (q, c, r, ip) =>
          if p ≠ q ∧ tunnelled s p q then
            match logicalDie s q with | some l => sendTunnel p l c r ip vq f s1 | none => s1
          else modTile q c r (fun t => { t with inFlight := tmod [] t.inFlight ip (· ++ [OnLink.of slot vq f]) }) s1
        | none => s1

/-- A flit that arrived in a slot follows a route entry into a stage: PASS and TAP name the output (R37). -/
def stageFlit (r : Route) (slot : Nat) (f : Flit) : Staged := { out := 4 * r.outPort.toNat + r.outVq.toNat, slot := nextSlot slot, flit := f }

/-- An elastic queue's head moves on: into the port queue or its segment, or into the pass-through stage (R45). -/
def drainElastic (p col row : Nat) (s : State) (i : Nat) : State :=
  let d := getDie s p
  let t := d.tile col row
  let e := tget EqDesc.unused t.eqDescs i
  let key := 4 * e.entryPort.toNat + e.entryVq.toNat
  match t.eqFlit i 0 with
  | none => s
  | some f =>
    let gone (t : Tile) : Tile := oweCredit (decide (creditStage d col row key = 1)) key (t.eqPop i)
    let r := t.route key
    if r.type = 1 ∨ r.type = 2 then
      if (tget [] t.stages key).length < 2 then
        modTile p col row (fun t => gone { t with stages := tmod [] t.stages key (· ++ [stageFlit r (if compatDie s p then t.frame else 8) f]) }) s
      else s
    else if 0 < queueRoom s p d col row key then enqueue p col row key f (modTile p col row gone s) else s

/-! ### Planes and waves at a tile (R112–R117) -/

/-- Where the save record of a T tile lies: in the pan's save area behind the staging region, one half for each plane, the dies of the pan in row-major order
(R117, R391). -/
def saveAddr (s : State) (n : Nat) (x : Pan) (job : Bool) (p col row : Nat) : Option Nat :=
  (regionBase s).map fun a => a + 0x800000 * (n + 1) + 0x400000 * b2n job
    + 256 * (144 * (panDies s x).findIdx (fun d => decide (d = p)) + tTiles.findIdx fun q => decide (q = (col, row)))

/-- The 256 bytes of a save record: head and tail pointers of the eight elastic queues and the positions of the four address generators
(notes/assumptions/168). -/
def saveBytes (t : Tile) : List Byte :=
  let ring (i : Nat) : Nat := 64 * max 1 (tget EqDesc.unused t.eqDescs i).size
  ((List.range 8).map fun i =>
    let q := tget ElasticQ.empty t.elastic i
    leBytes 2 q.head ++ leBytes 2 ((q.head + q.tags.length) % ring i)).flatten
    ++ (t.agsPos.map (leBytes 8)).flatten ++ List.replicate 192 0

/-- A T tile takes the values of a save record: the positions, and the head of each elastic queue that is empty. -/
def Tile.restore (t : Tile) (b : List Byte) : Tile :=
  { t with
    agsPos := (List.range 4).map fun g => fieldAt b (32 + 8 * g) 8
    elastic := (List.range 8).foldl (fun e i => tmod ElasticQ.empty e i fun q => if q.tags.isEmpty then { q with head := fieldAt b (4 * i) 2 } else q) t.elastic }

/-- A tile takes a class-0 or class-2 wave: planes swap, the tile is done with pc 0 and counters 0, and c := e. In a class-2 wave a T
tile saves its positions and restores those of the plane that becomes active, when that plane has a record. -/
def swapTile (p col row cls e : Nat) (s : State) : State :=
  let t := getTile s p col row
  let t1 := { t with active := t.shadow, shadow := t.active, done := true, pc := 0, counters := [0, 0, 0, 0], epoch := e }
  if cls = 2 ∧ kindAt col row = 3 then
    match dieOfPan s p with
    | none => modTile p col row (fun _ => t1) s
    | some n =>
      match getPan s n with
      | none => modTile p col row (fun _ => t1) s
      | some x =>
        let back := if x.jobActive then x.saveServe else x.saveJob
        match saveAddr s n x x.jobActive p col row, saveAddr s n x (!x.jobActive) p col row with
        | some a, some b =>
          let t2 := if back then t1.restore (memRead s.mem.bytes b 256) else { t1 with agsPos := [0, 0, 0, 0] }
          modTile p col row (fun _ => t2) (s.onMem fun m => { m with bytes := memWrite m.bytes a (saveBytes t) })
        | _, _ => modTile p col row (fun _ => { t1 with agsPos := [0, 0, 0, 0] }) s
  else modTile p col row (fun _ => { t1 with agsPos := if cls = 0 then [0, 0, 0, 0] else t1.agsPos }) s

/-- A tile takes a class-1 wave: CURRENT_MODE takes NEXT_MODE, and c := e (R114). -/
def modeTile (p col row e : Nat) (s : State) : State :=
  let m := getFld s (CFG_MODE p) 0 2
  setFld (CFG_MODE p) 8 2 m (modTile p col row (fun t => { t with mode := BitVec.ofNat 2 m, epoch := e }) s)

/-- How a SLUICE token at a head is classified (Table 4.6). -/
inductive SluiceClass where
  | reserved | next | inconsistent | duplicate | stale
deriving DecidableEq, Repr

/-- The successor of a sluice epoch (R109). -/
def nextEpoch (c : Nat) : Nat := if c < 0xFFFFFFFF then c + 1 else 1

/-- Table 4.6. -/
def classify (s : State) (p : Nat) (t : Tile) (f : Flit) : SluiceClass :=
  let e := f.payload.toNat % 2 ^ 32
  let cls := f.arg.toNat / 256
  if cls = 3 then .reserved
  else if e = nextEpoch t.epoch then (if e = (getReg s (CFG_NEXT_EPOCH p)).toNat then .next else .inconsistent)
  else if e = t.epoch ∧ cls = 1 then .duplicate else .stale

/-! ### Firing (R49–R54) -/

/-- One flit is popped from each queue of a list; naming a queue twice pops it once (R49: the inputs form a set). -/
def popAll (p col row : Nat) (keys : List Nat) (s : State) : State :=
  (dedup keys).foldl (fun s k =>
    let owes := decide (creditStage (getDie s p) col row k = 4)
    modTile p col row (fun t => oweCredit owes k { t with queues := tmod [] t.queues k List.tail }) s) s

/-- A flit goes to the output registers of a list of outputs, one to each. -/
def pushAll (p col row : Nat) (outs : List Nat) (f : Flit) (s : State) : State :=
  modTile p col row (fun t => { t with outRegs := (dedup outs).foldl (fun r o => tmod [] r o (· ++ [f])) t.outRegs }) s

/-- Every output register of a list is empty. -/
def outRoom (t : Tile) (outs : List Nat) : Bool := outs.all fun o => (tget [] t.outRegs o).isEmpty

/-- Every output has room (R49): its register is empty, and in compatibility mode a circuit credit is at hand as well (R60). -/
def roomFor (s : State) (p col row : Nat) (outs : List Nat) : Bool :=
  outRoom (getTile s p col row) outs && (!compatDie s p || outs.all fun o => decide (o / 4 = 4) || circuitCredit s p col row o)

/-- Two heads are the same control token (R49). -/
def sameToken (a b : Flit) : Bool :=
  decide (a.kind = b.kind) && decide (a.arg = b.arg)
    && (if a.kind = 2 then decide (a.payload.toNat % 2 ^ 32 = b.payload.toNat % 2 ^ 32)
        else if a.kind = 5 then decide (a.payload.toNat % 2 ^ 64 = b.payload.toNat % 2 ^ 64) else true)

/-- The data class (R41). -/
def isDataFlit (f : Flit) : Bool := decide (f.kind = 0) || decide (f.kind = 4)

/-- A tile counter counts one cycle, modulo 2^48 (R378). -/
def count48 (n : Nat) : Nat := (n + 1) % 2 ^ 48

/-- The tile fired in this cycle. -/
def noteFire (p col row : Nat) (s : State) : State :=
  modDie p (fun d => { d with quiet := 0, firedFor := some 0 })
    (modTile p col row (fun t => { t with starved := false, blocked := false, perf := { t.perf with fire := count48 t.perf.fire } }) s)

/-- The tile was input-starved in this cycle. -/
def noteStarved (p col row : Nat) (s : State) : State :=
  modTile p col row (fun t => { t with starved := true, blocked := false, perf := { t.perf with starved := count48 t.perf.starved } }) s
/-- The tile was output-blocked in this cycle. -/
def noteBlocked (p col row : Nat) (s : State) : State :=
  modTile p col row (fun t => { t with starved := false, blocked := true, perf := { t.perf with blocked := count48 t.perf.blocked } }) s
/-- The tile was busy in this cycle. -/
def noteBusy (p col row : Nat) (s : State) : State :=
  modTile p col row (fun t => { t with starved := false, blocked := false, perf := { t.perf with busy := count48 t.perf.busy } }) s
/-- The tile was idle in this cycle. -/
def noteIdle (p col row : Nat) (s : State) : State :=
  modTile p col row (fun t => { t with starved := false, blocked := false }) s

/-- The row parameters that the S tiles of a die take from a row of its step (Table 7.8, R228, R249); steering points are skipped for a row that has
exited (R256). -/
def rowParams (s : State) (st : Step) (r : WRow) : RowParams :=
  let x := getModel s st.model
  let g := steerSet s x st.steerLive r.steerSlot.toNat
  let v := x.byVer st.ver.toNat
  { epoch := st.epoch, row := r.row, mode := r.sampleMode.toNat, topK := r.topK, tau := r.temperature, pTop := r.pTop, seed := r.seed,
    qs := r.drafts.map (·.2), steer := if r.steerSlot.toNat < 16 ∧ !st.exited.contains r.row then memRead s.mem.bytes (steerCopy x st.steerLive + g.offset) g.bytes else []
    points := g.points, steerFmt := g.format, hidden := v.hidden }

/-- The parameters of the rows of the step that die p runs. -/
def stepRows (s : State) (p : Nat) : List RowParams :=
  match dieStep s p with
  | some st => st.rows.map (rowParams s st)
  | none => []

/-- What the function of an operation gives for the heads it names: its flits and the state with its effects inside the tile. `ends` and `last` are those
of `fireEnds`. A BUBBLE head gives a BUBBLE, but for a flushing product, rows, and what G tiles collect (R49, R77, R89, R239, R262). -/
def applyFn (p col row : Nat) (o : Op) (heads : List Flit) (ends : Nat → Bool) (last : Bool) (s : State) : List Flit × State :=
  let t := getTile s p col row
  let kind := kindAt col row
  if o.isEmpty then ([], s)
  else if kind = 4 ∨ (kind = 2 ∧ 0x40 ≤ o.func.toNat) then gFire p col row o heads ends last s
  else
    let ev := tileEv s p col row (stepRows s p)
    let r := match kind with
      | 0 => mFn t o o.inputs heads ev
      | 1 => aFn t o o.inputs heads ends ev
      | 2 => sFn t o o.inputs heads ends last ev
      | _ => tFn t o heads ev
    (r.flits, takeEvents p col row r.ev (modTile p col row (fun _ => r.tile) s))

/-- A data fire (R49): inputs popped, results pushed, counters and program advanced. -/
def fireData (p col row : Nat) (o : Op) (heads : List Flit) (s : State) : State :=
  let e := fireEnds (getTile s p col row) o
  let s1 := popAll p col row o.inputs s
  let r := applyFn p col row o heads e.1 e.2 s1
  let s2 := match r.1 with
    | [] => r.2
    | f :: fs => follow p col row o.outputs fs (pushAll p col row o.outputs f r.2)
  let a := afterData (getTile s2 p col row) o
  let s3 := noteFire p col row (modTile p col row (fun _ => a.1) s2)
  if a.2 then tokenError p col row (o.inputs.headD 0) 2 s3 else gLeave p col row s3

/-- What a control token at the heads makes a tile push first: the results of a row that it ends and the short group of an MX stream (R71, R225). The tile
is busy until they have left. -/
def tokenTail (p col row : Nat) (o : Op) (f : Flit) (s : State) : Option State :=
  let t := getTile s p col row
  let kind := kindAt col row
  let ev := tileEv s p col row (stepRows s p)
  let take (r : FnRes) : State := follow p col row o.outputs r.flits (takeEvents p col row r.ev (modTile p col row (fun _ => r.tile) s))
  if t.done || o.isEmpty || !(decide (f.kind = 1) || decide (f.kind = 5)) then none
  else if kind = 2 ∧ o.func = 0x41 ∧ tokenEnds t f o.level ∧ !t.sBuf.isEmpty then
    let r := exitEnd p col row o t.sBuf s
    some (follow p col row o.outputs r.1 r.2)
  else if kind = 2 then (sTail t o (tokenEnds t f o.level) ev).map take
  else if kind = 1 then (aTail t o (tokenEnds t f (o.level + 1)) ev).map take
  else none

/-- What a control token does at a tile (Table 2.5); `key` is the queue that a LOOP error of it names. `e` is a SLUICE token's epoch. -/
def actToken (p col row key : Nat) (f : Flit) (dup : Bool) (s : State) : State :=
  let t := getTile s p col row
  match f.kind.toNat with
  | 1 =>
    let r := endLevel t.active 4 (f.arg.toNat % 4) t.counters
    let s1 := modTile p col row (fun t => ({ t with counters := r.counters, sPos := if tokenEnds t f t.op.level then 0 else t.sPos }).goTo r.target) s
    if r.loopErr then tokenError p col row key 2 s1 else s1
  | 5 =>
    let e := f.payload.toNat % 2 ^ 64
    setFld (CFG_RAKE_STEP p) 0 8 0 (setReg64 (ARR_STEP_EPOCH_LO p) (ARR_STEP_EPOCH_HI p) e
      (modTile p col row (fun t => { t with counters := [0, 0, 0, 0], pc := 0, done := false, sPos := 0 }) s))
  | _ =>
    let e := f.payload.toNat % 2 ^ 32
    if dup then s
    else modDie p (fun d => { d with pendingTiles := d.pendingTiles - 1 })
      (if f.arg.toNat / 256 = 1 then modeTile p col row e s else swapTile p col row (f.arg.toNat / 256) e s)

/-- Outputs of a token fire (Table 2.5). -/
def tokenOuts (t : Tile) (o : Op) (f : Flit) : List Nat :=
  match f.kind.toNat with
  | 1 => if o.fwdEol then o.outputs else []
  | 5 => t.active.outputSet
  | _ => if f.arg.toNat / 256 = 1 ∧ !t.done then o.outputs else t.active.outputSet

/-- The error bit of a token that is not legal in the tile's state (R48, R51): 3 STATE, 2 LOOP. Where both hold, for an EOL in the done state of a level that is
not in TOKEN mode, STATE comes first (notes/assumptions/159). -/
def tokenBad (t : Tile) (f : Flit) : Option Nat :=
  match f.kind.toNat with
  | 1 => if t.done then some 3 else if t.active.mode (f.arg.toNat % 4) ≠ 2 then some 2 else none
  | 2 => if f.arg.toNat / 256 = 3 then some 3 else if f.arg.toNat / 256 ≠ 1 ∧ !t.done then some 3 else none
  | _ => none

/-- A RAKE token at a head goes to the rake logic (R53, R119): its segment is freed, or the token is counted as foreign. -/
def popRake (p col row key : Nat) (f : Flit) (s : State) : State :=
  let d := getDie s p
  let x := f.payload.toNat % 65536
  let s1 := popAll p col row [key] s
  match d.segments.find? fun g => decide (g.id = x % 4096) && decide (g.rakeLow = x / 4096) && decide (g.col = col) && decide (g.row = row) && g.tokenSent with
  | some g => modDie p (fun d => { d with segments := d.segments.filter fun h => !decide (h.id = g.id) }) s1
  | none => bump (CFG_BITTERN_RAKEID p) s1

/-- One input queue's head is cleaned: RAKE tokens and stale SLUICE tokens leave it, and so does what then reaches the head in turn; a reserved or
inconsistent token there raises its fault (R53, R111). -/
def cleanKey (p col row k : Nat) : Nat → State → State
  | 0, s => s
  | n + 1, s =>
    let t := getTile s p col row
    match t.queue k with
    | [] => s
    | f :: _ =>
      if t.faulted then s
      else if f.kind = 3 then cleanKey p col row k n (popRake p col row k f s)
      else if f.kind = 2 then
        match classify s p t f with
        | .stale => cleanKey p col row k n (present (tileEvent s 0x0103 p col row k 0) (bump (CFG_BITTERN_STALE p) (popAll p col row [k] s)))
        | .reserved => tokenError p col row k 3 s
        | .inconsistent => tileFault 0x0102 p col row k 0 s
        | _ => s
      else s

/-- The heads of every input queue are cleaned. -/
def cleanHeads (p col row : Nat) (s : State) : State :=
  (tkeys (getTile s p col row).queues).foldl (fun s k => cleanKey p col row k ((getTile s p col row).queue k).length s) s

/-- The token fire of R49 over the alignment set. An error names the first queue of the set (notes/assumptions/159). -/
def fireToken (p col row : Nat) (aset : List Nat) (o : Op) (f : Flit) (s : State) : State :=
  let t := getTile s p col row
  match tokenBad t f with
  | some b => tokenError p col row (aset.headD 0) b s
  | none =>
    let outs := tokenOuts t o f
    if !roomFor s p col row outs then noteBlocked p col row s
    else
      let dup := decide (f.kind = 2) && decide (classify s p t f = .duplicate)
      gToken p col row o f (noteFire p col row (actToken p col row (aset.headD 0) f dup (pushAll p col row outs f (popAll p col row aset s))))

/-- The firing rule of R49 for a tile that is not busy. An error that concerns several queues names the first of the alignment set
(notes/assumptions/159). -/
def evaluate (p col row : Nat) (s : State) : State :=
  let t := getTile s p col row
  let o := t.op
  let aset := if t.done then t.active.inputSet else dedup o.inputs
  if !t.active.hasProgram || t.faulted then noteIdle p col row s
  else if aset.any fun k => (t.queue k).isEmpty then (if t.done then noteIdle p col row s else noteStarved p col row s)
  else
    let heads := aset.map fun k => (t.queue k).headD bubbleFlit
    if heads.all isDataFlit then
      if t.done then noteIdle p col row s
      else if !roomFor s p col row o.outputs then noteBlocked p col row s
      else if badFlit t o (kindAt col row) then tokenError p col row (aset.headD 0) 0 s
      else fireData p col row o (o.inputs.map fun k => (t.queue k).headD bubbleFlit) s
    else
      let h := heads.headD bubbleFlit
      if heads.all fun g => sameToken h g && !isDataFlit g then
        match tokenTail p col row o h s with
        | some s1 => noteBusy p col row s1
        | none => fireToken p col row aset o h s
      else tokenError p col row (aset.headD 0) 4 s

/-- High-water marks and FULL cycles of a tile's queues (R378). -/
def noteQueues (t : Tile) : Tile :=
  let q := t.queues.foldl (fun (r : Tab Nat × Tab Nat) p =>
    (tmod 0 r.1 p.1 (max p.2.length), if p.2.length = 8 then tmod 0 r.2 p.1 count48 else r.2)) (t.hwm, t.full)
  let e := t.elastic.foldl (fun (r : Tab Nat × Tab Nat) p =>
    (tmod 0 r.1 p.1 (max p.2.tags.length), if p.2.tags.length = 64 * (tget EqDesc.unused t.eqDescs p.1).size then tmod 0 r.2 p.1 count48 else r.2)) (t.eqHwm, t.eqFull)
  { t with hwm := q.1, full := q.2, eqHwm := e.1, eqFull := e.2 }

/-- The die's own counters, taken with the cycle of tile 00.00: CYCLES, WAIT, the cycles without a fire and those with an orphan (R118,
R378); while the pan waits on a page-in the watchdog does not count (R151). -/
def dieCycle (p : Nat) (s : State) : State :=
  let wait := match dieOfPan s p with | some n => decide (getFld s TIER_PAGEIN_STATUS (16 + n) 1 = 1) | none => false
  modDie p (fun d => { d with
    cycles := count48 d.cycles
    waitCycles := if wait then count48 d.waitCycles else d.waitCycles
    firedFor := d.firedFor.map (· + 1)
    quiet := if wait then 0 else d.quiet + 1
    orphanFor := if wait then 0 else if d.tiles.any fun q => q.2.done && q.2.active.hasProgram
        && q.2.active.inputSet.any (fun k => match (q.2.queue k) with | f :: _ => isDataFlit f | [] => false)
      then d.orphanFor + 1 else 0 }) s

/-- A tile that owes flits of a result, or waits for a weight fill or for a page of a presence bitmap, evaluates nothing (R72, R77, R143). An M tile's second push is
FP32_FLUSH_SECOND_PUSH; another tile pushes its next flit here when its output has room. -/
def busyCycle (p col row : Nat) (s : State) : Option State :=
  let t := getTile s p col row
  if 0 < t.busy then some (noteBusy p col row (modTile p col row (fun t => { t with busy := t.busy - 1 }) s))
  else
    match t.second with
    | x :: xs =>
      if !roomFor s p col row [x.out] then some (noteBlocked p col row s)
      else if kindAt col row = 0 then some (noteBusy p col row s)
      else some (noteBusy p col row (pushAll p col row [x.out] x.flit (modTile p col row (fun t => { t with second := xs }) s)))
    | [] =>
      if t.roundClosed || (decide (kindAt col row = 4) && !t.done && bitmapAway s p t.op ((t.queue (t.op.inputs.headD 0)).headD bubbleFlit)) then
        some (noteBusy p col row s)
      else if decide (kindAt col row = 0) && !t.done && decide (t.op.func = 1) && ncwSwap (t.ncw t.op) && t.fill.isSome
      then some (noteBusy p col row s) else none

/-- TILE_CYCLE (R49): one ARRAY_CLK cycle of a tile whose island and clock run: its links send, its elastic queues move on, and it
fires, waits or faults. -/
def execTileCycle (t : TileRef) (s : State) : Res :=
  let p := t.die.val
  let col := t.col.val
  let row := t.row.val
  let d := getDie s p
  .next (if !d.islandOn || !d.clockOn then s
    else
      let s1 := [0, 1, 2, 3, 4].foldl (sendLink p col row) s
      let s2 := (tkeys (getTile s1 p col row).elastic).foldl (drainElastic p col row) s1
      let s3 := modTile p col row (fun t => noteQueues { t with frame := (t.frame + 1) % 8, fill := t.fill.map fun f => (f.1 - 1, f.2) }) s2
      let s4 := cleanHeads p col row s3
      let s5 := match busyCycle p col row s4 with | some r => r | none => evaluate p col row s4
      if col = 0 ∧ row = 0 then dieCycle p s5 else s5)

/-- The flit on a link is one that a release rule lets arrive now: at a die edge in compatibility mode, the slot buffer gives a circuit's flit out in a slot
that the circuit owns on this die's frame, and a control token in slot 7 (R57, R59). -/
def slotReleases (s : State) (p col row port : Nat) (x : OnLink) : Bool :=
  if x.slot = 8 ∨ !isInterface col row port then true
  else
    let f := (getTile s p col row).frame
    if x.slot = 7 then decide (f = 7) else decide (f ≠ 7) && decide (slotOwner p col row port f = x.vq)

/-- The first flit on a link that its VQ's order lets arrive and that has room: nothing of its VQ lies before it (R14, R44); the crossing into port X is one
queue, so there nothing at all lies before it (R29). A flit that is delivered nowhere needs no room. -/
def nextArrival (s : State) (p col row port : Nat) : List OnLink → List Nat → Option OnLink
  | [], _ => none
  | x :: l, seen =>
    let key := 4 * port + x.vq
    let r := (getTile s p col row).route key
    let refused := x.flit?.isNone || decide (r.type = 3)
    if seen.contains x.vq || (decide (port = 4) && !seen.isEmpty) then nextArrival s p col row port l (x.vq :: seen)
    else if slotReleases s p col row port x && (refused || decide (0 < roomAt s p (getDie s p) col row key)) then some x
    else nextArrival s p col row port l (x.vq :: seen)

/-- The first flit of a VQ leaves a link. -/
def dropArrival (vq : Nat) : List OnLink → List OnLink
  | [] => []
  | x :: l => if x.vq = vq then l else x :: dropArrival vq l

/-- FLIT_ARRIVAL (R37, R42, R101): the flit enters an elastic queue, a port queue or its segment, or a pass-through stage by its route
entry; a reserved kind, a parity error or an UNUSED entry is delivered nowhere and raises ARR_TOKEN. In compatibility mode an IDLE flit only
leaves the link (R58). -/
def execFlitArrival (t : TileRef) (port : Port) (parityErr : Bool) (s : State) : Res :=
  let p := t.die.val
  let col := t.col.val
  let row := t.row.val
  let n := match port with | .n => 0 | .e => 1 | .s => 2 | .w => 3 | .x => 4
  let x := getTile s p col row
  .next (match nextArrival s p col row n (tget [] x.inFlight n) [] with
    | none => s
    | some y =>
      let key := 4 * n + y.vq
      let owes := isInterface col row n && !y.isIdle
      let s1 := modTile p col row (fun t => oweCredit owes key { t with inFlight := tmod [] t.inFlight n (dropArrival y.vq) }) s
      let r := x.route key
      if parityErr then tokenError p col row key 1 s1
      else if y.isIdle then s1
      else match y.flit? with
        | none => tokenError p col row key 0 s1
        | some f =>
          if r.type = 3 then tokenError p col row key 0 s1
          else match x.eqAt key with
            | some (i, _) => modTile p col row (fun t => t.eqPush i f) s1
            | none =>
              if r.type = 1 ∨ r.type = 2 then
                modTile p col row (fun t => { t with stages := tmod [] t.stages key (· ++ [stageFlit r y.slot f]) }) s1
              else enqueue p col row key f s1)

/-- CREDIT_RETURN (R43): one credit that is due reaches the sender. -/
def execCreditReturn (t : TileRef) (port : Port) (vq : Fin 4) (s : State) : Res :=
  let n := match port with | .n => 0 | .e => 1 | .s => 2 | .w => 3 | .x => 4
  .next (modTile t.die.val t.col.val t.row.val (fun t => { t with creditDue := tmod 0 t.creditDue (4 * n + vq.val) (· - 1) }) s)

/-- WEIGHT_FILL_DONE (R72): after 16 cycles the idle register set holds the slice at the fill's offset, with its scales; the bytes are those that the operand
store holds at the fill's end (notes/assumptions/162). -/
def execWeightFillDone (t : TileRef) (s : State) : Res :=
  .next (match (getTile s t.die.val t.col.val t.row.val).fill with
    | some (0, off) => modTile t.die.val t.col.val t.row.val (fun t => { t with
        weights := t.weights.set (1 - t.activeSet) (operandBytes t off 2176), fill := none, filled := true }) s
    | _ => s)

/-- FP32_FLUSH_SECOND_PUSH (R77): columns 16–31 of an FP32 flush go to the same output once it has room, without a fire. -/
def execFp32FlushSecondPush (t : TileRef) (s : State) : Res :=
  let x := getTile s t.die.val t.col.val t.row.val
  .next (match x.second with
    | y :: ys =>
      if kindAt t.col.val t.row.val = 0 ∧ outRoom x [y.out] then
        pushAll t.die.val t.col.val t.row.val [y.out] y.flit (modTile t.die.val t.col.val t.row.val (fun t => { t with second := ys }) s)
      else s
    | [] => s)

/-- The four arithmetic counters of a die return to 0 (R85, R97). -/
def clearArith (p : Nat) (s : State) : State :=
  setReg (ARR_ARITH_SAT p) 0 (setReg (ARR_ARITH_NAN p) 0 (setReg (ARR_ARITH_NANCLAMP p) 0 (setReg (ARR_ARITH_ACCOVF p) 0 s)))

/-- ARR_ARITH_CLR (R97): writing CLEAR clears the die's four arithmetic counters. -/
def execArrArithClr (die : Fin 74) (value : Word) (s : State) : Res := .next (if bit value.toNat 0 then clearArith die s else s)

end Sys2Proof.Machine
end

