-- ==== Sys2Proof/Machine/Waves.lean ====
section
/-! DEFINITION. Pans, planes and waves: loading, the configuration switch, mode and pre-emption waves, and the abort of a pan
(R104–R117, R121, R124). -/

namespace Sys2Proof.Machine

/-! ### Pans (R104–R106, R296) -/

/-- The refusal of a command that names pan n (R296): it does not exist, or it is another context's. -/
def panRefusal (s : State) (c : CtxId) (n : Nat) : Option Status :=
  match getPan s n with
  | none => some (stBadParam 7)
  | some p => if p.ctx = c then none else some (stNotPermitted 0)

/-- Tile-1 blocks of tier-1 spill regions return, and their charge (R124). -/
def freeSpill (c : CtxId) (bases : List Nat) (mib : Nat) (s : State) : State :=
  modCtx c (fun x => { x with t1Used := x.t1Used - 16 * mib * bases.length }) (bases.foldl (fun s a => freeBlocks a s) s)

/-- The spill registers of a pan's dies name the regions of some planes: none, with size 0 (R124). -/
def showSpill (ds : List Nat) (mib : Nat) (bases : List Nat) (s : State) : State :=
  ds.zipIdx.foldl (fun s d => setReg (CFG_SPILL_T1_SIZE d.1) (BitVec.ofNat 32 mib)
    (setReg64 (CFG_SPILL_T1_BASE_LO d.1) (CFG_SPILL_T1_BASE_HI d.1) (bases.getD d.2 0 * 65536) s)) s

/-- The spill registers of pan n name the regions of its active planes. -/
def showActiveSpill (n : Nat) (s : State) : State :=
  match getPan s n with
  | some p => (match p.active with | some g => showSpill (panDies s p) g.spillMib g.spill s | none => showSpill (panDies s p) 0 [] s)
  | none => s

/-- One tier-1 region of `mib` MiB for each of n dies; none when the slices have no room (R120, R124). -/
def takeSpill (mib n : Nat) (s : State) : Option (List Nat × State) :=
  takeEach (fun s => (findPlace s 1 0xFF (16 * mib)).map fun p => (p.2, takeBlocks p.2 (16 * mib) s)) n s

/-- A tile whose planes and tier 0 are cleared; its counters run on (R106, R378). -/
def clearTile (t : Tile) : Tile :=
  { Tile.fresh with perf := t.perf, hwm := t.hwm, full := t.full, eqHwm := t.eqHwm, eqFull := t.eqFull }

/-- A die's planes, tier 0 and hot copies are cleared (R105, R106, R163, R270). -/
def clearDie (p : Nat) (s : State) : State :=
  modDie p (fun d => { d with
    tiles := d.tiles.foldl (fun t q => tput Tile.fresh t q.1 (clearTile q.2)) [], segments := [], shadowValid := false, dieDone := false,
    pendingTiles := 0, accepting := none, portOut := [], hot := [], fetches := [], rowUse := [], gathered := [], exchange := [], moeItems := [], adpCache := [] }) s

/-- EDGE_EN of logical die l of a pan: edges between two dies of the pan (R105). -/
def panEdges (p : Pan) (l : Nat) : Nat :=
  ((List.range 4).map fun k => match meshNeighbour l k with | some m => if p.logical.contains m then 2 ^ k else 0 | none => 0).foldl (· + ·) 0

/-- A pan without images. -/
def Pan.fresh (c : CtxId) (x0 y0 w h : Nat) (compat : Bool) : Pan :=
  { ctx := c, x0 := x0, y0 := y0, w := w, h := h, compat := compat, epoch := 0, active := none, shadow := none, jobActive := false, load := none,
    wave := none, wantMode := none, wantSwap := false, release := none, releasing := false, builtSince0 := false, step := none, run := none,
    saveServe := false, saveJob := false, boundaries := 0 }

/-- PAN_CREATE's refusal (R104). -/
def createRefusal (s : State) (x0 y0 w h : Nat) : Option Status :=
  if w = 0 ∨ 8 < w ∨ h = 0 ∨ 9 < h ∨ 8 < y0 then some (stBadParam 7)
  else
    let r := Pan.fresh 0 x0 y0 w h false
    let overlaps := s.pans.any fun q => match q.2 with | some p => p.logical.any fun l => r.logical.contains l | none => false
    if 8 < x0 + w ∨ 9 < y0 + h ∨ overlaps ∨ r.logical.any (unavailable s) ∨ 16 ≤ s.pans.length then some (stConfigRejected 0) else none

/-- Pan n comes into being (R105): its dies join it with edges among themselves, empty planes, sluice epoch 0 and a fresh seed. -/
def createPan (n : Nat) (p : Pan) (s : State) : State :=
  let seed := Config.freeDword s.free
  let s1 := p.logical.foldl (fun s l =>
    let d := physDie s l
    setReg64 (ARR_SR_SEED_LO d) (ARR_SR_SEED_HI d) seed.toNat
      (setReg (ARR_DIE_CTL d) (BitVec.ofNat 32 (b2n p.compat + 2 * panEdges p l + 65536 * n + 2 ^ 20))
        (modDie d (fun x => { x with srSeed := seed }) (clearDie d s)))) { s with free := s.free + 1 }
  s1.onPans fun t => tput none t n (some p)

/-- PAN_CREATE (R104, R105, R382, R407): the lowest free number, its histograms cleared; none while the entropy source has failed. -/
def execPanCreate (c : CmdRef) (s : State) : Res :=
  .next (startCmd 0x0303 c s fun m s =>
    let x0 := m.f 0 0 3
    let y0 := m.f 0 8 4
    let w := m.f 0 16 4
    let h := m.f 0 20 4
    match createRefusal s x0 y0 w h, firstFree (tkeys s.pans) 16 0 with
    | some st, _ => endFail m st s
    | none, none => endFail m (stConfigRejected 0) s
    | none, some n =>
      if getFld s FW_STATUS 5 1 = 1 then endFail m (stNotPermitted 0x65) s
      else endOk m n 0 (createPan n (Pan.fresh m.ctx x0 y0 w h (bit (m.p 0) 24)) (modHist n (fun _ => PanHist.fresh) s)))

/-- PAN_RELEASE (R106): the pan goes at its next step-boundary drain. -/
def execPanRelease (c : CmdRef) (s : State) : Res :=
  .next (startCmd 0x0304 c s fun m s =>
    match panRefusal s m.ctx (m.f 0 0 4) with
    | some st => endFail m st s
    | none => modPan (m.f 0 0 4) (fun p => { p with release := some m.ref, releasing := true }) s)

/-! ### Model switches as pans see them (R232) -/

/-- A model switch whose pans have all switched ends: READY, counted, and its command answers ST_OK. -/
def settleSwitch (e : Nat) (s : State) : State :=
  match (getModel s e).switch with
  | some w =>
    if w.flipped && w.pans.isEmpty then
      let s1 := bump ADP_SWITCHES (modModel e (fun x => { x with state := 1, switch := none }) s)
      match findCmd s1 w.cmd with | some m => endOk m 0 0 s1 | none => s1
    else s
  | none => s

/-- Pan n no longer waits in any model switch. -/
def leaveSwitch (n : Nat) (s : State) : State :=
  (tkeys s.mdl.models).foldl (fun s e => settleSwitch e (modModel e (fun x => { x with
    switch := x.switch.map fun w => { w with pans := w.pans.filter fun k => !decide (k = n) } }) s)) s

/-- A model switch fails before its flip: its loads go, STATE returns to READY, and its command ends with the status (R232). -/
def failSwitch (e : Nat) (st : Status) (s : State) : State :=
  match (getModel s e).switch with
  | some w =>
    let s1 := (tkeys s.pans).foldl (fun s n => match getPan s n with
      | some p => match p.load with
        | some l => if l.switchEntry = some e then
            freeSpill p.ctx l.spill l.spillMib (showActiveSpill n (modPan n (fun p => { p with load := none, shadow := none }) s)) else s
        | none => s
      | none => s) s
    let s2 := modModel e (fun x => { x with state := 1, switch := none }) s1
    match findCmd s2 w.cmd with | some m => endFail m st s2 | none => s2
  | none => s

/-! ### Loading (R107, R124) -/

/-- Spill size in MiB of CFG_LOAD's field (R124). -/
def spillField (x : Nat) : Option Nat := if x = 0 then some 16 else if x ≤ 256 then some x else if x = 0x1FF then some 0 else none

/-- A load to pan n starts writing the shadow planes: refused while an earlier one writes, or beyond the quota (R107, R124). -/
def startLoad (n : Nat) (cmd : Option CmdRef) (entry : Option Nat) (image : List Byte) (size mib : Nat) (sw balance : Bool) (s : State) :
    Status ⊕ State :=
  match getPan s n with
  | none => .inl (stBadParam 7)
  | some p =>
    let x := getCtx s p.ctx
    if p.load.isSome then .inl (stConfigRejected 0xF)
    else
      let s0 := match p.shadow with
        | some g => freeSpill p.ctx g.spill g.spillMib s
        | none => s
      let cost := 16 * mib * (p.w * p.h)
      if x.quota.t1Units < t1Use s0 p.ctx + cost then .inl stQuota
      else
        match (if mib = 0 then some ([], s0) else takeSpill mib (p.w * p.h) s0) with
        | none => .inl (stNoSpace 0)
        | some (bases, s1) =>
          let s2 := modCtx p.ctx (fun x => { x with t1Used := x.t1Used + 16 * mib * bases.length }) s1
          let s3 := (panDies s2 p).foldl (fun s d => modDie d (fun x => { x with shadowValid := false }) s) (showSpill (panDies s2 p) mib bases s2)
          .inr (modPan n (fun p => { p with
            shadow := none
            load := some { cmd := cmd, switchEntry := entry, image := image, size := size, spillMib := mib, spill := bases, thenSwitch := sw, balance := balance, written := false } }) s3)

/-- The image that CFG_LOAD names: an IMAGE object in tier 1, or the model entry's (R98, Table 11.10). -/
def loadImage (s : State) (m : Cmd) : Status ⊕ (List Byte × Nat) :=
  let h0 := m.f 1 0 32
  let e := m.f 1 32 10
  let x := getModel s e
  if h0 = 0 ∧ x.state ≠ 0 ∧ x.ctx ≠ m.ctx then .inl (stNotPermitted 0)
  else if h0 = 0 ∧ (x.state = 0 ∨ x.state = 3 ∨ x.cur.images.getD (m.f 1 48 2) 0 = 0) then .inl stModelUnavailable
  else
    let h := if h0 = 0 then x.cur.images.getD (m.f 1 48 2) 0 else h0
    match objFor s m h with
    | none => .inl (stBadParam 0)
    | some o =>
      let b := storageOf s o
      if o.type ≠ 2 ∨ b.tier ≠ 1 then .inl (stBadParam 9)
      else if b.lost then .inl (stFaultContained 0x50)
      else .inr (objBytes s b 0 b.size, b.size)

/-- CFG_LOAD (R107): held while a wave of the pan runs; then the shadow planes are written and CFG_SHADOW_WRITTEN checks them. -/
def execCfgLoad (c : CmdRef) (s : State) : Res :=
  .next (startHeld 0x0302 c s
    (fun m => match getPan s (m.f 0 0 4) with | some p => p.wave.isSome | none => false)
    fun m s =>
      let n := m.f 0 0 4
      match panRefusal s m.ctx n, spillField (m.f 0 8 9), loadImage s m with
      | some st, _, _ => endFail m st s
      | none, none, _ => endFail m (stBadParam 7) s
      | none, some _, .inl st => endFail m st s
      | none, some mib, .inr (b, size) =>
        match startLoad n (some m.ref) none b size mib (bit (m.p 0) 4) false s with
        | .inl st => endFail m st s
        | .inr s1 => s1)

/-- The shadow plane of every tile takes the image's planes; a tile without a record takes an empty plane (R99). -/
def writeShadow (p : Pan) (g : Img) (b : List Byte) (s : State) : State :=
  ((p.logical.zipIdx).foldl (fun s l =>
    let dx := l.2 % p.w
    let dy := l.2 / p.w
    let sect := (dieSects b g.hdr).findIdx fun d => decide (d.dx = dx) && decide (d.dy = dy)
    modDie (physDie s l.1) (fun d => { (d.mapTiles fun col row t => { t with
        shadow := match g.at (dx, dy, col, row) with
          | some x => x.plane
          | none => if kindAt col row = 3 then { Plane.empty with units := partUnits b g.hdr sect (tTiles.findIdx fun q => decide (q = (col, row))) }
            else Plane.empty }) with shadowValid := true }) s) s)

/-- What the pan's plane holds after a load. -/
def cfgOf (g : Img) (s : State) (l : Load) : PanCfg :=
  { model := g.hdr.model, kind := g.hdr.kind, modeSafe := bit g.hdr.flags 1, ver := currentVer s g.hdr.model, cost := g.cost,
    spillMib := l.spillMib, spill := l.spill }

/-- CFG_SHADOW_WRITTEN (R103, R107): the planes are checked in the order of Table 4.4; a rejected load leaves the shadow planes invalid,
and one without SWITCH ends here with the pan's epoch. -/
def execCfgShadowWritten (pan : Fin 16) (s : State) : Res :=
  .next (match getPan s pan with
    | none => s
    | some p =>
      match p.load with
      | none => s
      | some l =>
        if l.written then s
        else
          let finish (st : Option Status) (s : State) : State :=
            match l.cmd.bind (findCmd s) with
            | some m => (match st with | some x => endFail m x s | none => endOk m p.epoch 0 s)
            | none => s
          match imgCheck s p.ctx p l.image l.size with
          | some d =>
            let s1 := freeSpill p.ctx l.spill l.spillMib (showActiveSpill pan (modPan pan (fun p => { p with load := none, shadow := none }) s))
            match l.switchEntry with
            | some e => failSwitch e (stConfigRejected d) s1
            | none => finish (some (stConfigRejected d)) s1
          | none =>
            let g := parseImg l.image
            let s1 := writeShadow p g l.image s
            let s2 := modPan pan (fun p => { p with
              shadow := some (cfgOf g s l)
              saveServe := !p.jobActive && p.saveServe
              saveJob := p.jobActive && p.saveJob
              load := if l.thenSwitch then some { l with written := true } else none }) s1
            if l.thenSwitch then s2 else finish none s2)

/-! ### Waves (R109–R117) -/

/-- A SLUICE token. -/
def sluiceFlit (cls e : Nat) : Flit := { kind := 2, arg := BitVec.ofNat 10 (256 * cls), payload := BitVec.ofNat 512 e }

/-- Bystanders of a die take a wave at once. -/
def passBystanders (cls e p : Nat) (s : State) : State :=
  (List.range 320).foldl (fun s k =>
    if (getTile s p (k % 16) (k / 16)).active.hasProgram then s
    else if cls = 1 then modeTile p (k % 16) (k / 16) e s else swapTile p (k % 16) (k / 16) cls e s) s

/-- CD0 sends tokens over CTRL to the stream ports of every die of a pan (Table 4.7, R116). -/
def sendTokens (p : Pan) (fs : List Flit) (s : State) : State := p.logical.foldl (fun s l => sendCtrl l p.ctx (.notice fs) s) s

/-- A wave of a class takes pan n: every die's CFG_NEXT_EPOCH, in a mode wave NEXT_MODE of CFG_MODE, which is that of the pan's first die, the pending counts,
and the bystanders (R114, Table 4.7). -/
def openWave (n cls : Nat) (cmd : Option CmdRef) (s : State) : State :=
  match getPan s n with
  | none => s
  | some p =>
    let e := nextEpoch p.epoch
    let ds := panDies s p
    let m := getFld s (CFG_MODE (ds.headD 0)) 0 2
    let s1 := ds.foldl (fun s d => setReg (CFG_NEXT_EPOCH d) (BitVec.ofNat 32 e) (modDie d (fun x => { x with
      dieDone := false, pendingTiles := (x.tiles.filter fun q => q.2.active.hasProgram).length }) (if cls = 1 then setFld (CFG_MODE d) 0 2 m s else s))) s
    modPan n (fun p => { p with wave := some { cls := cls, epoch := e, cmd := cmd } }) (ds.foldl (fun s d => passBystanders cls e d s) s1)

/-- A wave of a class starts on pan n, and its tokens go out. -/
def startWave (n cls : Nat) (cmd : Option CmdRef) (s : State) : State :=
  match getPan s n with
  | none => s
  | some p => openWave n cls cmd (sendTokens p [sluiceFlit cls (nextEpoch p.epoch)] s)

/-- The command that a wave ends: the load's, with the pan epoch (Table 11.10). -/
def endWaveCmd (w : Wave) (s : State) : State :=
  match w.cmd.bind (findCmd s) with
  | some m => if m.opcode = 0x0302 then endOk m w.epoch 0 s else s
  | none => s

/-- SHARE of CFG_BAL follows the planes of a balance set's pans (R125, R129). -/
def showShare (n : Nat) (s : State) : State :=
  match s.balances.find? fun b => b.pans.contains n with
  | some b => setFld CFG_BAL 16 5 (prefillPans s b.pans) s
  | none => s

/-- Route commit (Table 4.7, steps 6 and 7): every tile's routes and elastic descriptors take the new plane's values, the pan epoch is
recorded, and the planes change sides. -/
def routeCommit (n : Nat) (p : Pan) (w : Wave) (s : State) : State :=
  let s1 := (panDies s p).foldl (fun s d => modDie d (fun x => { (x.mapTiles fun _ _ t =>
    { t with routes := t.active.routes, eqDescs := t.active.eqDescs }) with
      shadowValid := decide (w.cls = 2) && x.shadowValid, dieDone := false }) s) s
  if w.cls = 0 then
    let s2 := match p.active with | some g => freeSpill p.ctx g.spill g.spillMib s1 | none => s1
    let s3 := modPan n (fun p => { p with
      epoch := w.epoch, wave := none, active := p.shadow, shadow := none, jobActive := false, load := none, builtSince0 := false
      saveServe := false, saveJob := false }) s2
    let s4 := match p.load with | some l => if l.balance then bump CFG_BAL_CHANGES s3 else s3 | none => s3
    leaveSwitch n (endWaveCmd w (showShare n (showActiveSpill n s4)))
  else showActiveSpill n (modPan n (fun p => { p with
    epoch := w.epoch, wave := none, active := p.shadow, shadow := p.active, jobActive := !p.jobActive
    saveServe := !p.jobActive || p.saveServe, saveJob := p.jobActive || p.saveJob }) s1)

/-- A wave that every die has completed ends: with a route commit in classes 0 and 2. -/
def finishWave (n : Nat) (p : Pan) (w : Wave) (s : State) : State :=
  if w.cls = 1 then modPan n (fun p => { p with epoch := w.epoch, wave := none, wantMode := none }) s else routeCommit n p w s

/-- The switch that a written load waits for may start (R107, R110, R112, R232). -/
def switchDue (s : State) (n : Nat) (p : Pan) (l : Load) : Bool :=
  l.written && l.thenSwitch && p.wave.isNone && p.run.isNone && drained s n p
    && (match l.switchEntry with
        | some e => (match (getModel s e).switch with | some w => w.flipped | none => false)
        | none => true)

/-- CONFIG_SWITCH_WAVE (R112): at a step-boundary drain with valid shadow planes, the class-0 wave starts. -/
def execConfigSwitchWave (pan : Fin 16) (s : State) : Res :=
  .next (match getPan s pan with
    | none => s
    | some p => match p.load with
      | some l => if switchDue s pan p l then startWave pan 0 l.cmd s else s
      | none => s)

/-- WAVE_DIE_DONE (R113): a die with no tile pending and no flit in a queue reports; a mode wave ends with its last report. -/
def execWaveDieDone (die : Fin 74) (s : State) : Res :=
  .next (match dieOfPan s die with
    | none => s
    | some n =>
      match getPan s n with
      | none => s
      | some p =>
        match p.wave with
        | none => s
        | some w =>
          let d := getDie s die
          if 0 < d.pendingTiles ∨ !d.quietNow ∨ !networkQuiet s die ∨ d.dieDone ∨ p.wantMode.isSome then s
          else
            let s1 := modDie die (fun d => { d with dieDone := true }) s
            if w.cls = 1 ∧ (panDies s p).all fun q => (getDie s1 q).dieDone then finishWave n p w s1 else s1)

/-- ROUTE_COMMIT (R112): once every die has reported, the routes of the new plane take force and the pan epoch is recorded. -/
def execRouteCommit (pan : Fin 16) (s : State) : Res :=
  .next (match getPan s pan with
    | none => s
    | some p =>
      match p.wave with
      | some w => if w.cls ≠ 1 ∧ (panDies s p).all fun d => (getDie s d).dieDone then finishWave pan p w s else s
      | none => s)

/-- MODE_WAVE (R114, R116): with MODE_SAFE the token is held for the pan's next STEP; otherwise it goes at a step-boundary drain. The mode
is NEXT_MODE of the dies. -/
def execModeWave (pan : Fin 16) (s : State) : Res :=
  .next (match getPan s pan with
    | none => s
    | some p =>
      if p.wave.isSome then s
      else
        let safe := match p.active with | some g => g.modeSafe | none => false
        let m := getFld s (CFG_MODE ((panDies s p).headD 0)) 0 2
        if safe then modPan pan (fun p => { p with wantMode := some m }) s
        else if drained s pan p && p.run.isNone then startWave pan 1 none s else s)

/-- PREEMPT_SWAP (R203): a serving step is due, the job plane is active and its command has ended: a class-2 wave to the serving plane. -/
def execPreemptSwap (pan : Fin 16) (s : State) : Res :=
  .next (match getPan s pan with
    | none => s
    | some p =>
      match p.serving with
      | some g =>
        let due := !(readyRows s pan p g false).isEmpty || !(readyRows s pan p g true).isEmpty
        if p.jobActive && due && p.wave.isNone && p.run.isNone && p.load.isNone && drained s pan p then
          bump SEQ_PREEMPT (startWave pan 2 none s) else s
      | none => s)

/-- A RUN with PLANE 1, or an EMB_LOOKUP, waits for the job plane of pan n. -/
def jobWaits (s : State) (n : Nat) : Bool :=
  s.cmds.any fun m => !m.rejected && startable s m && ((decide (m.opcode = 0x0601) && decide (m.f 0 0 4 = n) && bit (m.p 0) 8)
    || (decide (m.opcode = 0x0507) && decide (m.f 0 16 4 = n)))

/-- PREEMPT_RETURN (R203): a job command waits and the serving plane is active: a class-2 wave to the job plane. -/
def execPreemptReturn (pan : Fin 16) (s : State) : Res :=
  .next (match getPan s pan with
    | none => s
    | some p =>
      if !p.jobActive && p.shadow.isSome && jobWaits s pan && p.wave.isNone && p.run.isNone && p.load.isNone && drained s pan p then
        bump SEQ_PREEMPT (startWave pan 2 none s) else s)

/-! ### Release (R106) -/

/-- The pan goes: planes and tier 0 cleared, its dies leave it, its spill regions return, its load and switch end with it. -/
def releasePan (n : Nat) (p : Pan) (s0 : State) : State :=
  let s := cutSamples n s0
  let s1 := (panDies s p).foldl (fun s d => setReg (ARR_DIE_CTL d) 0 (clearDie d s)) (dropPackets (panDies s p) s)
  let give (o : Option PanCfg) (s : State) : State := match o with | some g => freeSpill p.ctx g.spill g.spillMib s | none => s
  let s2 := match p.load with
    | some l => if l.written then s1 else freeSpill p.ctx l.spill l.spillMib s1
    | none => s1
  let s3 := (give p.active (give p.shadow s2)).onPans fun t => tput none t n none
  let s4 := leaveSwitch n s3
  match p.release.bind (findCmd s4) with | some m => endOk m 0 0 s4 | none => s4

/-- STEP_BOUNDARY_DRAIN (R106, R110): a pan that is to be released goes. -/
def execStepBoundaryDrain (pan : Fin 16) (s : State) : Res :=
  .next (match getPan s pan with
    | none => s
    | some p => if p.releasing && p.wave.isNone && p.run.isNone && drained s pan p then releasePan pan p s else s)

/-! ### The abort (R121) -/

/-- A tile whose queues, stages and links are emptied and which is done under its active plane; c advances by 1. -/
def abortTile (t : Tile) : Tile :=
  { t with queues := [], elastic := [], outRegs := [], stages := [], inFlight := [], creditDue := [], second := [], scales := [], busy := 0,
           emitHalf := false, accs := [], sAcc := [], sBuf := [], sPos := 0, mxBuf := [], adpU := [], bag := Bag.fresh, round := [], roundClosed := false, toFetch := [], fetched := [], choices := [],
           done := true, pc := 0, counters := [0, 0, 0, 0], faulted := false, epoch := nextEpoch t.epoch }

/-- Every queue, stage and spill segment of a die is discarded, the spill flits counted (R121, step 1); pins of the step are released
(R277). -/
def abortDie (p : Nat) (s : State) : State :=
  let d := getDie s p
  bumpBy (CFG_BITTERN_SPILL p) d.spilled (modDie p (fun d => { d with
    tiles := (d.mapTiles fun _ _ => abortTile).tiles, segments := [], portOut := [], accepting := none, exchange := [],
    moeItems := [], fetches := [], rowUse := [], gathered := [], hot := d.hot.filter (·.replicated), quiet := 0, orphanFor := 0, dieDone := false,
    pendingTiles := 0 }) s)

/-- Tiles of a die that have not taken a wave take it as bystanders do. -/
def completeWave (w : Wave) (p : Nat) (s : State) : State :=
  (List.range 320).foldl (fun s k =>
    if (getTile s p (k % 16) (k / 16)).epoch = w.epoch then s
    else if w.cls = 1 then modeTile p (k % 16) (k / 16) w.epoch s else swapTile p (k % 16) (k / 16) w.cls w.epoch s) s

/-- PAN's bit of PANS_WAITING (R150). -/
def setWaiting (n : Nat) (on : Bool) (s : State) : State := if n < 16 then setFld TIER_PAGEIN_STATUS (16 + n) 1 (b2n on) s else s

/-- The pan's streams end: halted ones are discarded and not resumed (Table 5.7). -/
def endPanStreams (n : Nat) (s : State) : State :=
  setWaiting n false (s.onMem fun m => { m with streams := m.streams.filter fun q => match q.2 with
    | some t => !(decide (t.use = .run) && decide (t.pan = n)) | none => true })

/-- A pan aborts (R121, R152, R339): queues and spill discarded, a wave in progress completed, tiles done, the epoch advanced, the running
command ended with the status, and the uncommitted steps abandoned. -/
def abortPanWith (st : Status) (n : Nat) (s : State) : State :=
  match getPan s n with
  | none => s
  | some p =>
    let ds := panDies s p
    let s1 := match p.wave with
      | some w => finishWave n p w (ds.foldl (fun s d => completeWave w d s) s)
      | none => s
    let s2 := ds.foldl (fun s d => abortDie d s) (dropPackets ds s1)
    let s3 := modPan n (fun p => { p with epoch := nextEpoch p.epoch, run := none, step := none }) (endPanStreams n s2)
    let s4 := match p.run.bind (findCmd s3) with
      | some m => if m.isEnded then s3 else endWith m st false 0 0 s3
      | none => s3
    abandonAll (fun t => decide (t.pan = n)) s4

/-- A pan aborts after a contained fault (R121). -/
def abortPan (n : Nat) (s : State) : State := abortPanWith (stFaultContained 0) n s

/-! ### Balance (R126) -/

/-- The set's evaluation with the pans needed for prefill and decode, p and d: the streak, and whether one pan switches and which way. -/
def balanceStep (b : BalanceSet) (share p d now : Nat) : BalanceSet × Option Bool :=
  let target := max b.minP (min b.maxP (min p (b.pans.length - d)))
  let b1 := { b with lastEval := now }
  if target = share then ({ b1 with streak := 0 }, none)
  else
    let up := decide (share < target)
    if up ≠ b.dirUp then ({ b1 with dirUp := up, streak := 1 }, none)
    else if b.streak + 1 < 2 then ({ b1 with streak := b.streak + 1 }, none)
    else ({ b1 with streak := 0 }, some up)

/-- The pan that a share change switches: the lowest-numbered one of the kind that gives way, free of loads and waves. -/
def balancePan (s : State) (b : BalanceSet) (up : Bool) : Option (Nat × Pan × PanCfg) :=
  b.pans.findSome? fun n => match getPan s n with
    | some p => match p.active with
      | some g => if g.kind = (if up then 1 else 0) ∧ p.load.isNone ∧ p.wave.isNone ∧ !p.releasing then some (n, p, g) else none
      | none => none
    | none => none

/-- Pans of a set whose serving plane has a kind. -/
def kindPans (s : State) (l : List Nat) (kind : Nat) : List (Nat × Pan × PanCfg) :=
  l.filterMap fun n => (getPan s n).bind fun p => p.serving.bind fun g => if g.kind = kind then some (n, p, g) else none

/-- A decode pan of the set stands between two steps; a set without a decode pan is always at a boundary (R126). -/
def balanceBoundary (s : State) (b : BalanceSet) : Bool :=
  (kindPans s b.pans 1).isEmpty || (kindPans s b.pans 1).any fun p => p.2.1.step.isNone && p.2.1.wave.isNone

/-- The demand of the window [now − 50 ms, now) (R126): rows of decode steps and tokens of prefill steps. -/
def demand (b : BalanceSet) (now : Nat) : Nat × Nat :=
  (b.window.filter fun w => decide (now ≤ w.1 + msTicks 50) && decide (w.1 < now)).foldl (fun r w => (r.1 + w.2.1, r.2 + w.2.2)) (0, 0)

/-- BALANCE_EVAL (R126): at a step boundary of a decode pan of the set, at least 50 ms after the last evaluation. The pans that the window's demand needs are
given by the cost table through no stated formula (notes/assumptions/169). Skipped while the model switches (R234). -/
def execBalanceEval (ctx : CtxId) (s : State) : Res :=
  .next (match s.balances.find? fun b => decide (b.ctx = ctx) with
    | none => s
    | some b =>
      let model := (b.pans.findSome? fun n => (getPan s n).bind fun p => p.active.map (·.model)).getD 0
      let now := cd0Count s
      if now < b.lastEval + msTicks 50 ∨ !balanceBoundary s b ∨ (getModel s model).state = 2 then s
      else
        let w := demand b now
        let cost (kind : Nat) : List Nat := ((kindPans s b.pans kind).head?.map fun p =>
          [p.2.2.cost.baseNs, p.2.2.cost.tokNs, p.2.2.cost.ctxNs, p.2.2.cost.maxRows, p.2.2.cost.maxTokens]).getD []
        let r := balanceStep b (prefillPans s b.pans) (Config.pansNeeded (cost 0) w.2) (Config.pansNeeded (cost 1) w.1) now
        let s1 := s.onBalances fun l => l.map fun x => if x.ctx = ctx then { r.1 with window := r.1.window.filter fun q => decide (now ≤ q.1 + msTicks 50) } else x
        match r.2 with
        | none => s1
        | some up =>
          match balancePan s1 b up with
          | none => s1
          | some (n, _, g) =>
            let h := (getModel s1 g.model).cur.images.getD (if up then 0 else 1) 0
            let o := storageOf s1 (getObj s1 ctx (hIndex h))
            match (if h = 0 then .inl stModelUnavailable else startLoad n none none (objBytes s1 o 0 o.size) o.size g.spillMib true true s1) with
            | .inl _ => s1
            | .inr s2 => s2)

end Sys2Proof.Machine
end

