-- ==== Sys2Proof/Machine/Links.lean ====
section
/-! DEFINITION. Links: their state machine, training, discovery records, cable modules, and loss (R307–R319). -/

namespace Sys2Proof.Machine

/-! ### The state machine (R307, Table 12.3) -/

/-- A module is present in a cable end; board links have none (R310). -/
def moduleThere (s : State) (j : Nat) : Bool := decide (j < 12) || decide (getFld s (LNK_CMIS (j / 6) (j % 6)) 0 1 = 1)

/-- EN of LNK_CTL. -/
def linkEn (s : State) (j : Nat) : Bool := decide (getFld s (LNK_CTL (j / 6) (j % 6)) 0 1 = 1)

/-- A link looks for a partner: REASON 2 without a module, 1 until a signal comes. -/
def toDetect (j : Nat) (s : State) : State :=
  setReg (lnkStatus j) (BitVec.ofNat 32 (1 + 16 * (if moduleThere s j then 1 else 2))) s

/-- An OFF link that is enabled enters DETECT, once start-up step 7 has begun; the links of a link die that failed self-test stay OFF (R433). -/
def linkOn (j : Nat) (s : State) : State :=
  if linkState s j = 0 ∧ linkEn s j ∧ s.lnk.started ∧ !s.pwr.failedDies.contains (0x68 + j / 6) then settleAll (toDetect j s) else s

/-- A link that LNK_CTL disables is OFF with REASON 11 (Table 12.6); its frames move. -/
def linkOff (j : Nat) (s : State) : State :=
  settleAll (moveFrames j (modLink j (fun l => { l with partner := none, recSentAt := none, rxSeq := 0, txSeq := 0, askedReplay := false })
    (setReg (lnkStatus j) (BitVec.ofNat 32 (16 * 11)) s)))

/-- LINK_ENABLE (R307): EN set in LNK_CTL moves an OFF link to DETECT. -/
def execLinkEnable (link : Fin 48) (s : State) : Res :=
  .next (linkOn link (setFld (LNK_CTL (link / 6) (link % 6)) 0 1 1 s))

/-- LINK_SIGNAL_DETECT (R307): a received signal takes a link from DETECT to TRAIN; a cable end needs its module. -/
def execLinkSignalDetect (link : Fin 48) (s : State) : Res :=
  .next (if linkState s link = 1 ∧ moduleThere s link then setReg (lnkStatus link) 2 s else s)

/-! ### Training (R308, R309) -/

/-- The combinations in the order of R308: code of LANES, and rate code. -/
def trainOrder : List (Nat × Nat) := [(3, 0), (3, 1), (2, 0), (3, 2), (2, 1), (1, 0), (2, 2), (1, 1), (1, 2)]

/-- The lanes that a trial keeps: all four; lanes 0–1, else 2–3; the lowest that passes. None when it fails. -/
def trialLanes (lanes : Nat) (t : LinkTrial) : Option Nat :=
  let g := t.goodLanes.toNat
  if lanes = 3 then (if g = 15 then some 15 else none)
  else if lanes = 2 then (if g % 4 = 3 then some 3 else if g / 4 = 3 then some 12 else none)
  else ((List.range 4).find? fun k => bit g k).map fun k => 2 ^ k

/-- The combinations that both ends permit: MAX_LANES and MAX_RATE of each. -/
def commonCombos (s : State) (j : Nat) (o : LinkOffer) : List (Nat × Nat) :=
  let ctl := LNK_CTL (j / 6) (j % 6)
  let lanes := 3 - min 2 (max (getFld s ctl 3 2) o.maxLanes.toNat)
  let rate := max (getFld s ctl 1 2) o.maxRate.toNat
  trainOrder.filter fun c => decide (c.1 ≤ lanes) && decide (rate ≤ c.2)

/-- The first combination whose trial passes: lanes code, rate code and lane mask. A cable module without a matching application fails the
trial (R310). -/
def firstPass (cable : Bool) : List (Nat × Nat) → List LinkTrial → Option (Nat × Nat × Nat)
  | c :: cs, t :: ts =>
    match (if cable && !t.moduleApp then none else trialLanes c.1 t) with
    | some m => some (c.1, c.2, m)
    | none => firstPass cable cs ts
  | _, _ => none

/-- LINK_TRAINING (R308, R309): the first common combination that passes is kept and records are exchanged; a partner without the FEC is
refused with REASON 4, and a link whose every combination fails goes DOWN with REASON 3. -/
def execLinkTraining (link : Fin 48) (offer : LinkOffer) (s : State) : Res :=
  .next (if linkState s link ≠ 2 then s
    else if !offer.fec544 then settleAll (goDown link 4 s)
    else match firstPass (decide (12 ≤ link.val)) (commonCombos s link offer) offer.trials with
      | some c => showFabric (modLink link (fun l => { l with partner := none, recSentAt := none, rxSeq := 0, txSeq := 0, askedReplay := false })
          (setReg (lnkStatus link) (BitVec.ofNat 32 (3 + 256 * c.1 + 1024 * c.2.1 + 4096 * c.2.2)) s))
      | none => settleAll (goDown link 3 s))

/-! ### Discovery records (R315–R318, R345) -/

/-- CHIP, UNASSIGNED, SPARE and IDGEN of the record on link j: a spare's leaf links carry standby records (R345). -/
def recordId (s : State) (j : Nat) : Nat × Bool × Bool × Nat :=
  let u := unassigned s
  let sp := decide (getFld s LNK_FAB_ID 11 1 = 1)
  let tray := getFld s LNK_FAB_POS 4 5
  let rack := getFld s LNK_FAB_POS 0 4
  if u && sp && decide (16 ≤ tray) && decide (12 ≤ j) && decide (j < 44) && decide (getFld s LNK_FAB_POS 11 1 = 1) then
    (rack * 64 + (8 * (tray - 16) + (j - 12) / 4) * 4 + ownSlot s, true, true, 0)
  else (chipId s, u, sp, ownIdgen s)

/-- The 64 bytes of this package's record on link j (Table 12.5). -/
def ownRecord (s : State) (j : Nat) : List Byte :=
  let i := recordId s j
  let body : List Byte := leBytes 4 0x44564C45 ++ leBytes 1 2 ++ leBytes 1 1 ++ leBytes 1 0 ++ leBytes 1 j ++ leBytes 2 (i.1 + 0x4000 * b2n i.2.1 + 0x8000 * b2n i.2.2.1) ++ leBytes 2 i.2.2.2
    ++ leBytes 2 (getFld s LNK_FAB_POS 0 11 + 0x8000 * getFld s LNK_FAB_POS 11 1) ++ leBytes 2 0
    ++ leBytes 8 (match s.lnk.plan with | some p => p.generation | none => 0) ++ leBytes 4 (ownJob s) ++ leBytes 32 0
  body ++ leBytes 4 (crc32c body)

/-- This package's record goes out on link j. -/
def sendRecord (j : Nat) (s : State) : State :=
  sendOn j (ownFrame s 0 0 0 0 true 0 0 (ownRecord s j)) (modLink j (fun l => { l with recSentAt := some s.tick }) s)

/-- DISCOVERY_RECORD_SEND (R315): in NEGOTIATE, and every second after it. -/
def execDiscoveryRecordSend (link : Fin 48) (s : State) : Res :=
  let due : Bool := match (getLink s link).recSentAt with | none => true | some t => decide (t + msTicks 1000 ≤ s.tick)
  .next (if 3 ≤ linkState s link ∧ linkState s link ≤ 5 ∧ due then sendRecord link s else s)

/-- The package gives its chip ID up (R318): no fabric traffic, its pans end as by a contained fault, UNASSIGNED and SPARE, and a corrected
fault. -/
def yieldChip (s : State) : State :=
  let s1 := (tkeys s.pans).foldl (fun s n => abortPan n s) s
  let s2 := s1.onLnk fun l => { l with
    yielded := true
    assumed := none
    held := []
    links := l.links.map fun p => (p.1, { p.2 with
      unacked := p.2.unacked.filter fun x => decide (x.frame.kind = 0)
      waiting := p.2.waiting.filter fun x => decide (x.kind = 0) }) }
  settleAll (present (faultOf 0x0403 0x70 0 0) s2)

/-- A chip ID at a generation is seen; a package that sees its own at a newer one yields (R318). -/
def seeChip (c g : Nat) (s : State) : State :=
  let s1 := seeGen c g s
  if !unassigned s && decide (c = chipId s) && olderGen (ownIdgen s) g then yieldChip s1 else s1

/-- A partner's record shows in the link's registers (Table 12.13). -/
def showPartner (j : Nat) (r : DiscoveryRec) (s : State) : State :=
  let lvl := min 2 r.level.toNat
  let mc := b2n (r.mcast && decide (r.level = 2) && decide (r.kind = 1))
  let s1 := setFld (lnkStatus j) 18 1 mc (setFld (lnkStatus j) 16 2 lvl s)
  let s2 := setReg (LNK_PARTNER (j / 6) (j % 6)) (BitVec.ofNat 32 (r.chip.toNat + 1024 * (r.kind.toNat % 8) + 8192 * (r.port.toNat % 64))) s1
  setReg (LNK_PARTNER_POS (j / 6) (j % 6))
    (BitVec.ofNat 32 (r.rack.toNat + 16 * r.tray.toNat + 512 * r.slot.toNat + 2048 * b2n r.posValid + 4096 * (r.plane.toNat % 8))) s2

/-- DISCOVERY_RECORD_RECEIVE (R309, R315–R319): a whole record in NEGOTIATE, HOLD or ACTIVE settles the link under Table 12.6; a partner of
another feature level is refused with REASON 5. -/
def execDiscoveryRecordReceive (link : Fin 48) (rec : DiscoveryRec) (s : State) : Res :=
  let st := linkState s link
  .next (if st < 3 ∨ 5 < st ∨ rec.magic ≠ 0x44564C45 ∨ !rec.crcOk then s
    else if rec.level ≠ 1 ∧ rec.level ≠ 2 then settleAll (goDown link 5 s)
    else
      let s1 := showPartner link rec (modLink link (fun l => { l with partner := some rec }) s)
      let s2 := if st = 3 then setLink link 4 0 s1 else s1
      settleAll (if rec.unassigned then s2 else seeChip rec.chip.toNat rec.idgen.toNat s2))

/-! ### Loss, retry and modules (R310, R313, R314) -/

/-- Every unacknowledged frame of a link is sent again, in LSEQ order (R313). -/
def replayAll (j : Nat) (s : State) : State :=
  let n := (getLink s j).unacked.length
  let s1 := modLink j (fun l => { l with unacked := l.unacked.map fun x => { x with sentAt := s.tick, replays := x.replays + 1 } }) s
  lifeAdd (0x4010 + 128 * j) 8 n (bumpBy (LNK_REPLAY (j / 6) (j % 6)) n s1)

/-- ACK_TIMEOUT (R313): no acknowledgement for 1 ms, or a frame replayed 8 times, puts the link in RETRAIN; within 100 ms it is ACTIVE again
and replays from the oldest frame, or goes DOWN with REASON 10. -/
def execAckTimeout (link : Fin 48) (retrainOk : Bool) (s : State) : Res :=
  let due := (getLink s link).unacked.any fun x => decide (x.sentAt + msTicks 1 ≤ s.tick) || decide (8 ≤ x.replays)
  .next (if linkState s link ≠ 5 ∨ !due then s
    else
      let s1 := lifeAdd (0x4000 + 128 * link) 8 1 (bump (LNK_RETRAIN (link / 6) (link % 6)) s)
      if retrainOk then
        replayAll link (modLink link (fun l => { l with unacked := l.unacked.map fun x => { x with replays := 0 } }) s1)
      else settleAll (goDown link 10 s1))

/-- LINK_DOWN (R314): the unacknowledged frames of a link that is DOWN move to other links in LSEQ order. -/
def execLinkDown (link : Fin 48) (s : State) : Res := .next (if linkState s link = 7 then settleAll (moveFrames link s) else s)

/-- LINK_DOWN_RETRY (R307): a DOWN link looks for its partner again every 10 s. -/
def execLinkDownRetry (link : Fin 48) (s : State) : Res :=
  .next (if linkState s link = 7 ∧ (getLink s link).downAt + msTicks 10000 ≤ s.tick ∧ linkEn s link then settleAll (toDetect link s) else s)

/-- MODULE_INSERT (R310): a module in a cable end starts DETECT at once. -/
def execModuleInsert (link : Fin 48) (s : State) : Res :=
  .next (if link < 12 then s
    else
      let s1 := setFld (LNK_CMIS (link / 6) (link % 6)) 0 1 1 s
      if linkState s link = 7 ∨ linkState s link = 1 then settleAll (toDetect link s1) else s1)

/-- MODULE_REMOVE (R310): removal takes a link DOWN; a link that had none found stays in DETECT with REASON 2. -/
def execModuleRemove (link : Fin 48) (s : State) : Res :=
  .next (if link < 12 then s
    else
      let s1 := setReg (LNK_CMIS (link / 6) (link % 6)) 0 s
      let st := linkState s link
      if st = 1 then settleAll (toDetect link s1)
      else if 2 ≤ st ∧ st ≤ 6 then settleAll (goDown link 2 s1) else s1)

/-- CMIS_POLL (R310): every 100 ms; a module fault or a loss of lock on a lane in use takes the link DOWN with REASON 9, and a temperature
warning raises a corrected fault. -/
def execCmisPoll (link : Fin 48) (poll : CmisPoll) (s : State) : Res :=
  let due : Bool := match (getLink s link).polledAt with | none => true | some t => decide (t + msTicks 100 ≤ s.tick)
  .next (if link < 12 ∨ !due then s
    else
      let s1 := modLink link (fun l => { l with polledAt := some s.tick }) s
      if poll.busErr then setFld (LNK_SB_STATUS (link / 6)) 0 1 1 s1
      else
        let s2 := setReg (LNK_CMIS (link / 6) (link % 6))
          (BitVec.ofNat 32 (b2n poll.present + 2 * poll.state.toNat + 16 * b2n poll.alarm + 256 * poll.tempC.toNat)) s1
        let s3 := if poll.tempWarn then present (faultOf 0x0402 (0x68 + link / 6) (link % 6) 0) s2 else s2
        let used := getFld s (lnkStatus link) 12 4
        let lost := (List.range 4).any fun k => bit used k && bit poll.lossOfLock.toNat k
        if (poll.fault ∨ lost) ∧ 2 ≤ linkState s link ∧ linkState s link ≤ 6 then settleAll (goDown link 9 s3) else s3)

/-- NO_ROUTE_TIMEOUT (R323): frames held for 1 s without a path are discarded and counted, and their destination is listed as
unreachable. -/
def execNoRouteTimeout (dest : BitVec 10) (s : State) : Res :=
  let late (p : ElpFrame × Nat) : Bool := decide (p.1.destChip = dest) && decide (p.2 + msTicks 1000 ≤ s.tick)
  let n := (s.lnk.held.filter late).length
  .next (if n = 0 then s
    else showUnreach (bumpBy LNK_BITTERN_NOROUTE n (s.onLnk fun l => { l with
      held := l.held.filter fun p => !late p
      unreach := if l.unreach.contains dest.toNat then l.unreach else l.unreach ++ [dest.toNat] })))

end Sys2Proof.Machine
end

