-- ==== Sys2Proof/Machine/Collect.lean ====
section
/-! DEFINITION. The fault collector: sources, classes and reactions, interrupts, contained aborts, fatal events, block resets and spare swaps
(R22, R25, R353, R356–R363, R376). -/

namespace Sys2Proof.Machine

/-! ### Sources (Tables 14.1 and 14.2) -/

/-- A row of Table 14.2: ID, class (1 corrected, 2 contained, 3 fatal), default reaction, and whether the reaction is fixed. -/
structure SourceRow where
  id : Nat
  cls : Nat
  dflt : Nat
  fixed : Bool
deriving DecidableEq, Repr

/-- The fault sources. -/
def sourceRows : List SourceRow :=
  [⟨0x0101, 2, 1, false⟩, ⟨0x0102, 2, 1, false⟩, ⟨0x0103, 1, 0, false⟩, ⟨0x0104, 2, 1, false⟩, ⟨0x0105, 2, 1, false⟩, ⟨0x0106, 2, 1, false⟩,
   ⟨0x0107, 1, 0, false⟩, ⟨0x0108, 2, 1, false⟩, ⟨0x0109, 2, 3, false⟩, ⟨0x010A, 3, 5, false⟩, ⟨0x0201, 2, 1, false⟩, ⟨0x0202, 2, 1, false⟩] ++
  [⟨0x0203, 2, 1, false⟩, ⟨0x0204, 2, 1, false⟩, ⟨0x0205, 2, 1, false⟩, ⟨0x0206, 1, 0, false⟩, ⟨0x0207, 2, 1, false⟩, ⟨0x0208, 3, 5, false⟩,
   ⟨0x0301, 1, 1, false⟩, ⟨0x0302, 1, 0, false⟩, ⟨0x0303, 2, 1, false⟩, ⟨0x0304, 1, 1, false⟩, ⟨0x0305, 3, 5, false⟩, ⟨0x0311, 1, 0, false⟩] ++
  [⟨0x0312, 2, 1, false⟩, ⟨0x0313, 3, 5, false⟩, ⟨0x0401, 1, 1, false⟩, ⟨0x0402, 1, 1, false⟩, ⟨0x0403, 1, 1, false⟩, ⟨0x0501, 1, 1, false⟩,
   ⟨0x0601, 2, 2, false⟩, ⟨0x0602, 3, 5, true⟩, ⟨0x0603, 3, 5, false⟩, ⟨0x0701, 1, 0, false⟩, ⟨0x0702, 1, 0, false⟩, ⟨0x0703, 3, 5, false⟩,
   ⟨0x0704, 3, 5, true⟩, ⟨0x0801, 1, 1, false⟩]

/-- The row of a source. -/
def sourceRow (id : Nat) : Option SourceRow := sourceRows.find? fun r => decide (r.id = id)

/-- The reactions that a source permits, bit c for code c (R358): corrected LOG and INTR; contained INTR and NMI, and BLOCK_RESET on an array die;
fatal CHIP_RESET and ALIVE_STOP, and BLOCK_RESET on a port or far die; a fixed source its own. -/
def SourceRow.allowed (r : SourceRow) : Nat :=
  if r.fixed then 2 ^ r.dflt
  else if r.cls = 1 then 3
  else if r.cls = 2 then (if r.id < 0x0200 then 14 else 6)
  else if r.id = 0x0305 ∨ r.id = 0x0313 then 56 else 48

/-- The value of a source that raised nothing and was never configured. -/
def SrcState.fresh : SrcState := { reaction := none, count := 0, force := false, repeats := 0, forcedAt := none, window := 0, windowCount := 0 }

/-- Source i. -/
def getSrc (s : State) (i : Nat) : SrcState := tget SrcState.fresh s.flt.srcs i

/-- The state with f applied to source i. -/
def modSrc (i : Nat) (f : SrcState → SrcState) (s : State) : State := s.onFlt fun x => { x with srcs := tmod SrcState.fresh x.srcs i f }

/-- The reaction in force of a source. -/
def reactionOf (s : State) (r : SourceRow) : Nat := (getSrc s r.id).reaction.getD r.dflt

/-! ### Control cores (R353, R364, R389) -/

/-- The role that works on a command's opcode (Table 16.1). -/
def opcodeRole (op : Nat) : Nat :=
  if 0x0300 ≤ op ∧ op < 0x0600 ∨ op = 0x0601 then 1
  else if 0x0200 ≤ op ∧ op < 0x0300 then 2
  else if op = 0x0603 ∨ op = 0x0804 ∨ op = 0x0805 then 3
  else if 0x0700 ≤ op ∧ op < 0x0800 ∨ 0x0900 ≤ op then 4 else 0

/-- The last record that a crash leaves: the last durable one (R353). -/
def durableJseq (s : State) : Nat := if paired s then s.cmt.durable else s.cmt.ctlAcked

/-- A command that a crash of a role's core runs again: it ends with ST_REPLAYED in place of ST_OK. One that runs keeps the work that hardware has
under way; one that has ended without a durable record forms its record again (notes/assumptions/58). -/
def replayCmd (role limit : Nat) (s : State) (m : Cmd) : State :=
  match m.phase with
  | .running => if role = 0 ∨ opcodeRole m.opcode.toNat = role then modCmd m.seqno (fun x => { x with replayed := true }) s else s
  | .waiting => s
  | .ended e =>
    match m.waitJseq with
    | some j =>
      if j ≤ limit then s
      else
        let e' := if e.status = 0 then { e with status := 0x0500 } else e
        let s1 := if e.status = 0 then bump CMT_REPLAYED s else s
        modCmd m.seqno (fun x => { x with phase := .ended e', waitJseq := some s1.cmt.nextJseq, replayed := true })
          (journal 4 0 m.ctx (BitVec.ofNat 64 (m.p 0)) (some m.ref) s1)
    | none => s

/-- A control core of a role crashes (R353): every step that has not committed is abandoned, the JSEQ series goes back to the last durable record,
and the role's commands run again. -/
def crashWork (role : Nat) (s : State) : State :=
  let limit := durableJseq s
  let s1 := s.onCmt fun c => { c with
    outstanding := c.outstanding.filter fun r => decide (r.jseq ≤ limit)
    ctl := c.ctl.filter fun r => decide (r.jseq ≤ limit)
    nextJseq := min c.nextJseq (limit + 1) }
  let s2 := abandonAll (fun _ => true) s1
  s2.cmds.foldl (fun s m => replayCmd role limit s m) s2

/-- An orderly shutdown begins (R435): step building and slot fetch stop, and the TTL clock is checkpointed (R159). -/
def beginShutdown (s : State) : State := setFld PWR_STATUS 4 1 1 ((ttlWrite s).onPwr fun p => { p with shutdown := .settling })

/-- A shutdown that a live update held begins (Table 17.6). -/
def resumeShutdown (s : State) : State := if s.pwr.shutdown = .held then beginShutdown s else s

/-- A live update that cannot go on (R404, R414): the old image continues, and FW_ACTIVATE answers ST_NOT_PERMITTED, DETAIL 0x0064. -/
def dropUpdate (s : State) : State :=
  match s.fw.update with
  | none => s
  | some u =>
    let s1 := setFld FW_STATUS 3 1 0 ((s.onFw fun f => { f with update := none }).onHost fun h => { h with updating := false })
    match findCmd s1 u.cmd with
    | some m => resumeShutdown (endFail m (stNotPermitted 0x64) s1)
    | none => resumeShutdown s1

/-- Core n has crashed: it is marked, its work follows R353, and an update in its pause is abandoned. The watchdog counts from the last refresh. -/
def crashCore (n : Nat) (s : State) : State :=
  let last := tget 0 s.flt.coreKick n - 1
  let s1 := setFld FLT_CORE_WD n 1 1 (s.onFw fun f => { f with down := f.down ++ [(n, last)] })
  crashWork (roleOf s n) (dropUpdate s1)

/-- The core that takes the NMIs of a block's core n: the core itself, or the former spare when it is retired. -/
def ownerCore (s : State) (n : Nat) : Nat := if roleOf s n = 15 then 7 else n

/-- The core that takes the NMI of a crashed core (R364, R393): the fault-and-telemetry core, the spare, or CD1's core 6 as 14. -/
def nmiCore (s : State) (crashed : Nat) : Nat :=
  let up (r : Nat) : Option Nat := (List.range 8).find? fun n => decide (roleOf s n = r) && decide (n ≠ crashed) && !coreDown s n
  match up 4 with
  | some n => n
  | none => (up 5).getD 14

/-- The core whose block a source lies in (Table 16.1). -/
def sourceCore (s : State) (id unit : Nat) : Nat :=
  if id = 0x0601 then nmiCore s unit
  else ownerCore s (if id < 0x0200 then 1 else if id < 0x0400 then 2 else if id < 0x0500 then 4 else if id < 0x0600 then 5 else 6)

/-! ### Spare swaps (R22, R25, Table 1.4) -/

/-- The register of AD72 or AD73 in the spare map. -/
def spareReg (p : Nat) : Nat := if p = 72 then ARR_SPARE0 else ARR_SPARE1

/-- A spare is free: neither in use nor failed. -/
def spareFree (s : State) (p : Nat) : Bool := decide (getFld s (spareReg p) 30 2 = 0)

/-- Logical die l is marked unavailable, or available again (R25). -/
def setUnavail (l : Nat) (on : Bool) (s : State) : State :=
  setFld (if l < 32 then ARR_UNAVAIL0 else if l < 64 then ARR_UNAVAIL1 else ARR_UNAVAIL2) (l % 32) 1 (b2n on) s

/-- ARR_TUNNELS (R62): both ends of the eight interfaces of every mesh edge that is bound to tunnels: with an end on a spare, or failed (R22, R24). -/
def showTunnels (s : State) : State :=
  let edges := ((List.range 72).map fun l => ([1, 2] : List Nat).filterMap fun k =>
    (meshNeighbour l k).bind fun m => if tunnelled s (physDie s l) (physDie s m) then some m else none).flatten
  setReg ARR_TUNNELS (BitVec.ofNat 32 (16 * edges.length)) s

/-- The registers of physical array die p return to their reset values. -/
def resetDieRegs (p : Nat) (s : State) : State :=
  ([0x2000000, 0x3000000, 0x5000000, 0x6000000, 0x7000000] : List Nat).foldl (fun s b => resetRegs (b + 0x10000 * p) (b + 0x10000 * (p + 1)) s) s

/-- The array island of die p is clamped, or powered with every tile reset and its local counter at 0 (R30). Counter windows open on the die stay with it (R384). -/
def islandPower (p : Nat) (on : Bool) (s : State) : State :=
  let d := getDie s p
  let s1 := modDie p (fun _ => { Die.fresh with islandOn := on, clockOn := on, failed := d.failed, windows := d.windows, mhz := 500 })
    (setReg (ARR_CLK p) 500 (resetDieRegs p s))
  if on then restartCount p s1 else s1

/-- The mesh edge at a port of array die d has failed between two working dies: its interfaces are bound to tunnels (R24). -/
def failEdge (d port : Nat) (s : State) : State :=
  match (logicalDie s d).bind (meshNeighbour · port) with
  | some l =>
    let q := physDie s l
    let e := (min d q, max d q)
    if (getDie s d).failed ∨ (getDie s q).failed ∨ unavailable s l ∨ s.arr.edges.contains e then s
    else showTunnels (s.onArr fun a => { a with edges := a.edges ++ [e] })
  | none => s

/-- What is needed to create pan n again. -/
def swapPan (n : Nat) (p : Pan) : SwapPan :=
  { pan := n, ctx := p.ctx, x0 := p.x0, y0 := p.y0, w := p.w, h := p.h, compat := p.compat,
    image := p.serving.map fun g => (g.model, g.kind, g.spillMib) }

/-- A pan is created again after a swap, and its image is loaded (Table 1.4). -/
def recreatePan (s : State) (w : SwapPan) : State :=
  if (getPan s w.pan).isSome then s
  else
    let s1 := createPan w.pan (Pan.fresh w.ctx w.x0 w.y0 w.w w.h w.compat) s
    match w.image with
    | none => s1
    | some (model, kind, mib) =>
      let h := ((getModel s1 model).cur.images).getD kind 0
      let o := storageOf s1 (getObj s1 w.ctx (hIndex h))
      if h = 0 then s1
      else match startLoad w.pan none none (objBytes s1 o 0 o.size) o.size mib true false s1 with
        | .inr s2 => s2
        | .inl _ => s1

/-- The spare for logical die l (R22): AD72 first for rows Y0–Y4, AD73 first for Y5–Y8. -/
def chooseSpare (s : State) (l : Nat) : Option Nat :=
  (if l / 8 ≤ 4 then [72, 73] else [73, 72]).find? fun p => spareFree s p

/-- A spare's island is powered for its self-test; without a spare the logical die stays unavailable (R25). -/
def trySpare (w : Swap) (s : State) : State :=
  match chooseSpare s w.logical with
  | some p => (islandPower p true s).onPwr fun x => { x with swap := some { w with spare := p } }
  | none => s.onPwr fun x => { x with swap := none }

/-- A failed array die leaves service: its island is clamped, its logical die is unavailable, the pans on it are released, and a spare is tried;
a second failure waits for the swap in progress (R22, Table 14.8). -/
def swapDie (d : Nat) (s : State) : State :=
  if s.pwr.swap.isSome then s.onPwr fun x => { x with swapQueue := x.swapQueue ++ [d] }
  else
    let s0 := readAllBacc s
    match logicalDie s0 d with
    | none => modDie d (fun x => { x with failed := true }) (islandPower d false s0)
    | some l =>
      let hit := s0.pans.filterMap fun q => q.2.bind fun p => if p.logical.contains l then some (q.1, p) else none
      let s1 := hit.foldl (fun s q => match getPan s q.1 with | some p => releasePan q.1 p s | none => s) s0
      let s2 := modDie d (fun x => { x with failed := true }) (islandPower d false s1)
      let s3 := if 72 ≤ d then setFld (spareReg d) 30 2 1 s2 else s2
      trySpare { failed := d, logical := l, spare := 0, pans := hit.map fun q => swapPan q.1 q.2 } (showTunnels (setUnavail l true s3))

/-- Failed dies that wait take their turns, until a swap is in progress again. -/
def takeTurns : Nat → State → State
  | 0, s => s
  | n + 1, s =>
    match s.pwr.swapQueue with
    | [] => s
    | d :: ds =>
      let s1 := swapDie d (s.onPwr fun x => { x with swapQueue := ds })
      if s1.pwr.swap.isSome then s1 else takeTurns n s1

/-- The next failed die that waits takes its turn; one that starts no swap gives way to the one behind it. -/
def nextSwap (s : State) : State := takeTurns s.pwr.swapQueue.length s

/-- Counter windows of a replaced die go on at the spare: they report its counts from the swap, with SWAPPED set (R384). -/
def moveWindows (old new : Nat) (s : State) : State :=
  let ws := (getDie s old).windows
  let d := getDie s new
  let now := dieCount s new
  modDie new (fun x => { x with windows := ws.map fun w => { w with
    start := now, stop := now + (w.stop - dieCount s old)
    cycles0 := d.cycles, rake0 := d.rakeCycles, wait0 := d.waitCycles, rakes0 := (getReg s (CFG_RAKE_COUNT new)).toNat
    perf0 := [], full0 := [], eqFull0 := [], swapped := true } }) (modDie old (fun x => { x with windows := [] }) s)

/-- SPARE_SELF_TEST_DONE (R22): a spare that passes takes the logical die, its tunnels are bound, and the pans are created again; one that fails is
marked, and the other spare is tried. -/
def execSpareSelfTestDone (spare : Fin 2) (pass : Bool) (s : State) : Res :=
  let p := 72 + spare.val
  .next (match s.pwr.swap with
    | none => s
    | some w =>
      if w.spare ≠ p then s
      else if pass then
        let s1 := setReg (spareReg p) (BitVec.ofNat 32 (w.logical + 2 ^ 31)) (s.onPwr fun x => { x with swap := none })
        let s2 := showTunnels (setUnavail w.logical false s1)
        nextSwap (w.pans.foldl recreatePan (moveWindows w.failed p s2))
      else
        let s1 := islandPower p false (setFld (spareReg p) 30 1 1 s)
        let s2 := trySpare w s1
        if s2.pwr.swap.isSome then s2 else nextSwap s2)

/-! ### Resets (R362) -/

/-- What a package loses of tier 2 when it leaves service: its frames, the page tables and context keys that reached them, its paused sequences, and the
TTL clock, which starts again from 0 (R159, R178). -/
def loseTier2 (s : State) : State :=
  let s1 := s.seq.archives.foldl (fun s a => bump CMT_SESSION_LOST (modCtx a.ctx (fun x => { x with
    lostHandles := (a.handle :: x.lostHandles).take 4096 }) s)) s
  let s2 := (tkeys s1.ctxs).foldl (fun s c => modCtx (BitVec.ofNat 12 c) (fun x => { x with
    dataKey := none, tweakKey := none, archUsed := 0
    objs := x.objs.map fun q => (q.1, { q.2 with
      pages := [], lost := q.2.lost || (decide (q.2.tier = 2) && !q.2.aliased && !q.2.pages.isEmpty), move := q.2.move.map fun v => { v with pages := [] } }) }) s) s1
  let s3 := s2.onMem fun m => { m with frames := [], tlb := [] }
  setReg TIER_TTL_CKPT 0 (s3.onSeq fun q => { q with archives := [], ttlClock := 0, ttlCkpt := 0, ttlTick := 0 })

/-- A port die or far die is reset: its registers and counters return to their reset values, but for the number of its retired blocks or frames, and its
local counter starts at 0 (R30, R166, R183, R362). -/
def resetTierDie (d : Nat) (s : State) : State :=
  if d < 0x60 then
    let p := d - 0x50
    setFld (NEAR_RETIRED p) 0 11 (getFld s (NEAR_RETIRED p) 0 11) (restartCount d
      (resetRegs (0x4200000 + 0x10000 * p) (0x4210000 + 0x10000 * p) (resetRegs (0x4000000 + 0x10000 * p) (0x4010000 + 0x10000 * p) s)))
  else
    let f := d - 0x60
    (List.range 3).foldl (fun u j => setFld (FAR_PORT_RETIRED f j) 0 11 (getFld s (FAR_PORT_RETIRED f j) 0 11) u) (restartCount d
      (resetRegs (0x4300000 + 0x10000 * f) (0x4310000 + 0x10000 * f) (resetRegs (0x4100000 + 0x10000 * f) (0x4110000 + 0x10000 * f) s)))

/-- BLOCK_RESET of the block where an event sits, which the lifetime record counts: an array die is replaced, a link returns to DETECT, a port or far die is
reset and retrains before the package restarts at start-up step 7. -/
def blockReset (e : FaultEvent) (s : State) : State :=
  let d := e.die.toNat
  let s := if d < 0x72 then lifeAdd (0x1020 + 64 * d) 4 1 s else s
  if d < 74 then swapDie d s
  else if 0x68 ≤ d ∧ d < 0x70 ∧ e.unit.toNat < 6 then
    let j := 6 * (d - 0x68) + e.unit.toNat
    linkOn j (setReg (lnkStatus j) 0 (linkOff j s))
  else if 0x50 ≤ d ∧ d < 0x64 then
    (loseTier2 (resetTierDie d ((readAllBacc s).onFlt fun f => { f with blockResets := f.blockResets ++ [d] }))).onPwr fun x => { x with stage := .training }
  else s

/-! ### Fatal events (R359) -/

/-- Links keep discovery frames only. -/
def dropTraffic (s : State) : State :=
  s.onLnk fun l => { l with
    held := []
    links := l.links.map fun p => (p.1, { p.2 with
      unacked := p.2.unacked.filter fun x => decide (x.frame.kind = 0)
      waiting := p.2.waiting.filter fun x => decide (x.kind = 0) }) }

/-- A spare swap in progress is abandoned: the spare under test is off again (R2, R376). -/
def dropSwap (s : State) : State :=
  let s1 := match s.pwr.swap with | some w => if w.spare = 72 ∨ w.spare = 73 then islandPower w.spare false s else s | none => s
  s1.onPwr fun p => { p with swap := none, swapQueue := [] }

/-- The package leaves service: no step is built, nothing commits, no traffic but discovery leaves, READY is clear, and the host port is silent; a
lifetime write, an update and a block reset are abandoned (R359, R376, R436). -/
def leaveService (s : State) : State :=
  let s1 := (setFld FLT_STATUS 0 1 1 (dropLifeWrite s)).onFlt fun f => { f with outOfService := true, blockResets := [] }
  let s2 := (s1.onHost fun h => { h with ready := false, intakeHeld := true, updating := false }).onFw fun f => { f with activatedB := none }
  let s3 := dropSwap (dropTraffic (dropUpdate (s2.onPwr fun p => if p.shutdown = .held then { p with shutdown := .none } else p)))
  abandonAll (fun _ => true) s3

/-- ALIVE_OUT stops, holding its level (R370). -/
def stopAlive (source : Nat) (miss : Bool) (s : State) : State :=
  if getFld s FLT_ALIVE_STATUS 2 1 = 1 then s
  else setReg FLT_ALIVE_STATUS (BitVec.ofNat 32 (getFld s FLT_ALIVE_STATUS 0 1 + 4 + 8 * b2n miss + 65536 * source)) s

/-! ### The collector (R357, R360) -/

/-- The pan whose work a contained event aborts: the one it names; for a forced event, or a BLOCK_RESET (R362), the pan of the named die, or of a stream that the
named port or far die serves (R368). -/
def pansHit (e : FaultEvent) (forced : Bool) (s : State) : List Nat :=
  match e.pan with
  | some n => [n.val]
  | none =>
    let d := e.die.toNat
    if !forced then []
    else if d < 74 then (dieOfPan s d).toList
    else dedup (s.mem.streams.filterMap fun q => match q.2 with
      | some t => match objAt s t.ctx t.handle.toNat with
        | some o =>
          let b := storageOf s o
          let at1 := decide (b.tier = 1) && decide (0x50 + b.portDie = d)
          let at2 := decide (b.tier = 2) && (b.pages.any fun p => decide (p.2.state = 1) && decide (0x60 + (p.2.frame - 0x80000) / 0x60000 = d))
          if t.use = .run ∧ (at1 ∨ at2) then some t.pan else none
        | none => none
      | none => none)

/-- The history entry of an event (Table 14.3). -/
def entryFor (e : FaultEvent) (r : SourceRow) (reaction : Nat) (forced : Bool) (s : State) : HistEntry :=
  let epoch := match e.pan.bind fun n => (getPan s n).bind (·.step) with | some k => k | none => s.seq.epoch
  { count := cd0Count s, epoch := epoch, source := r.id, cls := r.cls, forced := forced, logged := fwRuns s && decide (2 ≤ r.cls), prior := false,
    reaction := reaction, die := e.die.toNat, col := e.col.toNat, row := e.row.toNat, unit := e.unit.toNat, ctx := e.ctx,
    pan := e.pan.map (·.val), detail := e.detail.toNat, repeats := 0 }

/-- At most 1,000 interrupts of a source in a second of CD0's count (R360): whether this one may go, and the count with it. -/
def mayInterrupt (id : Nat) (s : State) : Bool × State :=
  let x := getSrc s id
  let w := cd0Count s / 100000000
  let n := if x.window = w then x.windowCount else 0
  (decide (n < 1000), modSrc id (fun x => { x with window := w, windowCount := n + 1 }) s)

/-- The signals of an event (R357, R360): the interrupt or NMI of its reaction, and the PF's vector. -/
def signal (e : FaultEvent) (r : SourceRow) (reaction : Nat) (s : State) : State :=
  let host := if 2 ≤ r.cls then decide (getFld s FLT_HOST_CTL 16 1 = 1) else decide (reaction = 1) && decide (getFld s FLT_HOST_CTL 17 1 = 1)
  let send (x : Nat) (s : State) : State := s.onFlt fun f => { f with signals := (reaction, x, r.id) :: f.signals }
  let s1 := if reaction = 2 then send (sourceCore s r.id e.unit.toNat) s else s
  if reaction = 1 ∨ host then
    let q := mayInterrupt r.id s1
    if q.1 then
      let s2 := if reaction = 1 then send (ownerCore q.2 6) q.2 else q.2
      if host then raiseIrq 0 (getFld s2 FLT_HOST_CTL 0 11) s2 else s2
    else q.2
  else s1

/-- The lifetime counters of tier-0 words that a real event adds to (Table 14.7). -/
def countSram (e : FaultEvent) (id : Nat) (s : State) : State :=
  if id = 0x0107 ∨ id = 0x0206 then lifeAdd (0x1000 + 64 * e.die.toNat) 8 1 s
  else if id = 0x0108 ∨ id = 0x0207 ∨ id = 0x0208 then lifeAdd (0x1008 + 64 * e.die.toNat) 8 1 s else s

/-- What a contained event does to the work (R356): the pan aborts, a crashed core's work follows R353; BLOCK_RESET then resets its block. -/
def contain (e : FaultEvent) (r : SourceRow) (reaction : Nat) (forced : Bool) (s : State) : State :=
  let s1 := (pansHit e (forced || decide (reaction = 3)) s).foldl (fun s n => abortPan n s) s
  let s2 := if forced ∧ r.id = 0x0601 ∧ e.unit.toNat < 8 ∧ !coreDown s1 e.unit.toNat then crashCore e.unit.toNat s1 else s1
  if reaction = 3 then blockReset e s2 else s2

/-- What a fatal event does (R359, R363, R370): the standby registers take it, the package leaves service, and its reaction follows. -/
def strike (e : FaultEvent) (r : SourceRow) (reaction : Nat) (s : State) : State :=
  let s1 := leaveService (setReg FLT_STBY_LAST (BitVec.ofNat 32 r.id) (bump FLT_STBY_FATAL s))
  if reaction = 5 then stopAlive r.id false s1 else if reaction = 4 then chipReset s1 else if reaction = 3 then blockReset e s1 else s1

/-- The collector receives an event: it is counted, recorded and logged, signalled, and its class and reaction take effect (R357). An event of no source of
Table 14.2 does not exist. -/
def collect (e : FaultEvent) (forced : Bool) (s : State) : State :=
  match sourceRow e.source.toNat with
  | none => s
  | some r =>
    let reaction := reactionOf s r
    let h := entryFor e r reaction forced s
    let s1 := modSrc r.id (fun x => { x with count := min (x.count + 1) 0xFFFFFFFF }) s
    let s2 := record h (if h.logged then logEntry { h with logged := false } s1 else s1)
    let s3 := signal e r reaction (if forced then s2 else countSram e r.id s2)
    if r.cls = 2 then contain e r reaction forced s3 else if r.cls = 3 then strike e r reaction s3 else s3

/-- An event that a source has raised is no longer due. -/
def takeEvent (e : FaultEvent) (s : State) : State := s.onFlt fun f => { f with presented := f.presented.erase e }

/-- FAULT_EVENT (R24, R357): the collector receives an event, one that a rule of the package raised or one of a cause outside it. Source 0, which is none of
Table 14.2, reports a mesh edge that failed between two working dies: of DIE, at the port that UNIT names (notes/assumptions/151). -/
def execFaultEvent (event : FaultEvent) (s : State) : Res :=
  .next (if event.source = 0 ∧ event.die.toNat < 74 ∧ event.unit.toNat < 4 then failEdge event.die.toNat event.unit.toNat s
    else collect event false (takeEvent event s))

end Sys2Proof.Machine
end

