-- ==== Sys2Proof/Machine/Collective.lean ====
section
/-! DEFINITION. Collectives (R324–R327, Table 12.9). A message between members is one or more collective frames, each with a 16-byte header
before its data: group, phase, ordinal, chunk, sender's rank and the message's length; the payload's form is not in the source
(notes/assumptions/54). -/

namespace Sys2Proof.Machine

/-! ### Boards, owners and chunks (R324, R325) -/

/-- The board sets of a group, each as ranks in slot order, ordered by the lowest rank on each (R324). -/
def boardSets (s : State) (members : List Nat) : List (List Nat) :=
  let place (c : Nat) : Nat × Nat × Nat := (chipPos s c).getD (0, 0, 0)
  let key (c : Nat) : Nat := (place c).1 * 32 + (place c).2.1
  let ranked := members.zipIdx
  (dedup (members.map key)).map fun k =>
    (sortBy (fun a b => decide ((place a.1).2.2 ≤ (place b.1).2.2)) (ranked.filter fun m => decide (key m.1 = k))).map (·.2)

/-- The board of a rank, by its place in the order of boards. -/
def boardOf (bs : List (List Nat)) (r : Nat) : Nat := (bs.findIdx? fun b => b.contains r).getD 0

/-- The board owner of chunk r on a board (R325). -/
def chunkOwner (b : List Nat) (r : Nat) : Nat := if b.contains r then r else b.getD (r % b.length) 0

/-- Byte range of chunk r of k over a length: the units ⌊rU ÷ k⌋ to ⌊(r + 1)U ÷ k⌋ − 1 (R325). -/
def chunkRange (len k r : Nat) : Nat × Nat :=
  let u := len / 64
  let a := r * u / k
  (a * 64, ((r + 1) * u / k - a) * 64)

/-- A board's members in ring order from the one after rank o to o itself: the reduction ends at o. -/
def ringTo (b : List Nat) (o : Nat) : List Nat :=
  let i := b.findIdx fun x => decide (x = o)
  b.drop (i + 1) ++ b.take (i + 1)

/-- The neighbours of a rank in a list. -/
def beforeIn : List Nat → Nat → Option Nat
  | a :: b :: l, r => if b = r then some a else beforeIn (b :: l) r
  | _, _ => none
/-- The next rank of a list. -/
def afterIn (l : List Nat) (r : Nat) : Option Nat := beforeIn l.reverse r

/-- Boards of the tree rooted at board t, counted from it: the parent and the children of board i (R324). -/
def treeParent (n t i : Nat) : Nat := (((i + n - t) % n - 1) / 2 + t) % n
/-- Children of a board in the tree rooted at board t. -/
def treeKids (n t i : Nat) : List Nat :=
  let k := (i + n - t) % n
  ([2 * k + 1, 2 * k + 2].filter fun x => decide (x < n)).map fun x => (x + t) % n

/-! ### Reductions (R326) -/

/-- Two values combined and rounded once to the format. -/
def combine (fmt op a b : Nat) : Nat :=
  let x := elemVal fmt a
  let y := elemVal fmt b
  let v := if x.isNan || y.isNan then Fv.nan
    else if op = 0 then x.add y else if op = 1 then (if x.lt y then y else x) else (if y.lt x then y else x)
  (convOut (BitVec.ofNat 32 (fmt * 256)) v (ArithEv.none 0)).1

/-- Two byte strings of elements combined. -/
def combineBytes (fmt op : Nat) : Nat → List Byte → List Byte → List Byte
  | 0, _, _ => []
  | fuel + 1, a, b =>
    let w := fmtWidth fmt / 8
    if a.isEmpty then []
    else leBytes w (combine fmt op (leNat (a.take w)) (leNat (b.take w))) ++ combineBytes fmt op fuel (a.drop w) (b.drop w)

/-- The reduction of two byte strings in a collective's format. -/
def Coll.reduce (g : Coll) (a b : List Byte) : List Byte := combineBytes g.format g.op a.length a b

/-! ### Messages -/

/-- A message to the member of a rank. -/
def sendMsg (g : Coll) (phase chunk dst : Nat) (data : List Byte) (s : State) : State :=
  let hd := leBytes 2 g.group ++ leBytes 1 phase ++ leBytes 1 0 ++ leBytes 4 g.ordinal ++ leBytes 2 chunk ++ leBytes 2 g.rank ++ leBytes 4 data.length
  let f := newFlow s
  let parts := if data.isEmpty then [[]] else pieces 4080 data.length data
  parts.foldl (fun s p => sendFrame (ownFrame s (g.members.getD dst 0) 2 4 g.cmd.ctx false f.1 0 (hd ++ p)) s) f.2

/-- A message that has come whole. -/
def gotMsg (s : State) (g : Coll) (phase chunk src : Nat) : Option (List Byte) :=
  (s.lnk.msgs.find? fun m => decide (m.ctx = g.cmd.ctx) && decide (m.group = g.group) && decide (m.ordinal = g.ordinal) && decide (m.phase = phase)
    && decide (m.chunk = chunk) && decide (m.src = src) && decide (m.total ≤ m.bytes.length)).map (·.bytes)

/-- A value that a member keeps for a later part of its own: its board's partial sum (8) or the whole chunk (9). -/
def keepMsg (g : Coll) (phase chunk : Nat) (data : List Byte) (s : State) : State :=
  let m : CollMsg :=
    { ctx := g.cmd.ctx, group := g.group, ordinal := g.ordinal, phase := phase, chunk := chunk, src := g.rank, total := data.length, bytes := data }
  s.onLnk fun l => { l with msgs := l.msgs ++ [m] }

/-- The bytes of a collective frame join their message. -/
def takeMsg (f : ElpFrame) (s : State) : State :=
  let b := f.payload
  let m : CollMsg :=
    { ctx := f.ctx, group := fieldAt b 0 2, ordinal := fieldAt b 4 4, phase := fieldAt b 2 1, chunk := fieldAt b 8 2, src := fieldAt b 10 2,
      total := fieldAt b 12 4, bytes := b.drop 16 }
  let same (x : CollMsg) : Bool := decide ({ x with bytes := [], total := 0 } = { m with bytes := [], total := 0 })
  s.onLnk fun l => { l with
    msgs := if l.msgs.any same then l.msgs.map fun x => if same x then { x with bytes := x.bytes ++ m.bytes } else x else l.msgs ++ [m] }

/-! ### The parts of Table 12.9 -/

/-- Bytes of the source object. -/
def Coll.srcBytes (g : Coll) (off n : Nat) (s : State) : List Byte := objBytes s (handleObj s g.cmd.ctx g.src) off n
/-- Bytes written to the destination object; false when a frame was missing. -/
def Coll.put (g : Coll) (off : Nat) (b : List Byte) (s : State) : Bool × State := writeObj g.cmd.ctx (hIndex g.dst) off b s

/-- This member's board, its number, and the number of boards. -/
def Coll.here (g : Coll) : List Nat × Nat × Nat := (g.boards.getD (boardOf g.boards g.rank) [], boardOf g.boards g.rank, g.boards.length)

/-- The ring reduction of chunk r on this member's board: the partial sum from the member before, with this member's chunk. -/
def ringPart (g : Coll) (r : Nat) (s : State) : Option (Bool × State) :=
  let h := g.here
  let ring := ringTo h.1 (chunkOwner h.1 r)
  let c := chunkRange g.length g.members.length r
  let mine := g.srcBytes c.1 c.2 s
  let sum := match beforeIn ring g.rank with | none => some mine | some q => (gotMsg s g 0 r q).map fun b => g.reduce b mine
  sum.map fun v => (true, match afterIn ring g.rank with | some q => sendMsg g 0 r q v s | none => keepMsg g 8 r v s)

/-- All of a list of messages. -/
def gotAll (s : State) (g : Coll) (phase chunk : Nat) : List Nat → Option (List (List Byte))
  | [] => some []
  | q :: qs => match gotMsg s g phase chunk q, gotAll s g phase chunk qs with | some b, some l => some (b :: l) | _, _ => none

/-- The tree reduction of chunk r at its board owner: the sums of the child boards join this board's; at the root rank r has the chunk. -/
def treePart (g : Coll) (r : Nat) (s : State) : Option (Bool × State) :=
  let h := g.here
  let t := boardOf g.boards r
  let owner (i : Nat) : Nat := chunkOwner (g.boards.getD i []) r
  match gotMsg s g 8 r g.rank, gotAll s g 1 r ((treeKids h.2.2 t h.2.1).map owner) with
  | some v, some l =>
    let sum := l.foldl (fun a b => g.reduce a b) v
    some (if h.2.1 = t then
        let w := g.put (chunkRange g.length g.members.length r).1 sum s
        (w.1, keepMsg g 9 r sum w.2)
      else (true, sendMsg g 1 r (owner (treeParent h.2.2 t h.2.1)) sum s))
  | _, _ => none

/-- The gather of chunk r: from rank r down the tree to the board owners, then round each board. -/
def gatherPart (g : Coll) (r : Nat) (s : State) : Option (Bool × State) :=
  let h := g.here
  let t := boardOf g.boards r
  let owner (i : Nat) : Nat := chunkOwner (g.boards.getD i []) r
  let o := owner h.2.1
  let c := chunkRange g.length g.members.length r
  let ring := o :: (ringTo h.1 o).dropLast
  let v := if g.rank = r then (if g.kind = 2 then some (g.srcBytes c.1 c.2 s) else gotMsg s g 9 r r)
    else if g.rank = o then gotMsg s g 2 r (owner (treeParent h.2.2 t h.2.1))
    else (beforeIn ring g.rank).bind (gotMsg s g 3 r)
  v.map fun b =>
    let w := if g.rank = r ∧ g.kind = 0 then (true, s) else g.put c.1 b s
    let s1 := if g.rank = o then (treeKids h.2.2 t h.2.1).foldl (fun s i => sendMsg g 2 r (owner i) b s) w.2 else w.2
    (w.1, match afterIn ring g.rank with | some q => sendMsg g 3 r q b s1 | none => s1)

/-- The sends of an all-to-all, round by round, each block followed by its end marker, and the own block copied. -/
def blocksOut (g : Coll) (s : State) : Bool × State :=
  let k := g.members.length
  let n := g.length / k
  let w := g.put (g.rank * n) (g.srcBytes (g.rank * n) n s) s
  (w.1, ((List.range (k - 1)).map (· + 1)).foldl (fun s i =>
    let q := (g.rank + i) % k
    sendMsg g 6 g.rank q [] (sendMsg g 4 g.rank q (g.srcBytes (q * n) n s) s)) w.2)

/-- The block of rank r with its end marker. -/
def blockIn (g : Coll) (r : Nat) (s : State) : Option (Bool × State) :=
  match gotMsg s g 4 r r, gotMsg s g 6 r r with
  | some b, some _ => some (g.put (r * (g.length / g.members.length)) b s)
  | _, _ => none

/-- Where a member of rank r relays a broadcast from rank `root` to: the lowest rank of each child board, and the rest of its own board; a member
that is not the first of its board relays nothing. -/
def castKids (boards : List (List Nat)) (k root r : Nat) : List Nat :=
  let t := boardOf boards root
  let i := boardOf boards r
  let rep (i : Nat) : Nat := if i = t then root else (boards.getD i []).foldl min k
  if r = rep i then (treeKids boards.length t i).map rep ++ (boards.getD i []).filter fun q => !decide (q = r) else []

/-- The broadcast: from the root down the tree to the lowest rank of each board, and from each of those to the rest of its board. -/
def castPart (g : Coll) (s : State) : Option (Bool × State) :=
  let h := g.here
  let t := boardOf g.boards g.root
  let rep (i : Nat) : Nat := if i = t then g.root else ((g.boards.getD i []).foldl min g.members.length)
  let v := if g.rank = g.root then some (g.srcBytes 0 g.length s)
    else if g.rank = rep h.2.1 then gotMsg s g 5 0 (rep (treeParent h.2.2 t h.2.1)) else gotMsg s g 5 0 (rep h.2.1)
  v.map fun b =>
    let w := g.put 0 b s
    (w.1, (castKids g.boards g.members.length g.root g.rank).foldl (fun s q => sendMsg g 5 0 q b s) w.2)

/-- The parts that this member carries out. -/
def Coll.parts (g : Coll) : List (Nat × Nat) :=
  let k := g.members.length
  let all (p : Nat) : List (Nat × Nat) := (List.range k).map fun r => (p, r)
  let tree := (all 1).filter fun x => decide (chunkOwner g.here.1 x.2 = g.rank)
  match g.kind with
  | 0 => all 0 ++ tree ++ all 2
  | 1 => all 0 ++ tree
  | 2 => all 2
  | 3 => (7, 0) :: (all 4).filter fun x => !decide (x.2 = g.rank)
  | _ => [(5, 0)]

/-- One part, when its inputs have come. -/
def doPart (g : Coll) (x : Nat × Nat) (s : State) : Option (Bool × State) :=
  match x.1 with
  | 0 => ringPart g x.2 s
  | 1 => treePart g x.2 s
  | 2 => gatherPart g x.2 s
  | 4 => blockIn g x.2 s
  | 5 => castPart g s
  | _ => some (blocksOut g s)

/-- Every part whose inputs have come, in order: the parts done, whether all writes found frames, and the state. -/
def runParts (g : Coll) : List (Nat × Nat) → List (Nat × Nat) × Bool × State → List (Nat × Nat) × Bool × State
  | [], a => a
  | x :: xs, a =>
    if a.1.contains x then runParts g xs a
    else match doPart g x a.2.2 with
      | some r => runParts g xs (a.1 ++ [x], a.2.1 && r.1, r.2)
      | none => runParts g xs a

/-- A collective is over: its record and its messages go. -/
def dropColl (g : Coll) (s : State) : State :=
  s.onLnk fun l => { l with
    colls := l.colls.filter fun x => !decide (x.cmd = g.cmd)
    msgs := l.msgs.filter fun m => !(decide (m.ctx = g.cmd.ctx) && decide (m.group = g.group) && decide (m.ordinal = g.ordinal)) }

/-- A collective goes on as far as its messages allow, and ends once every part is done. -/
def advanceColl (g : Coll) (s : State) : State :=
  let r := runParts g g.parts (g.done, true, s)
  match findCmd r.2.2 g.cmd with
  | none => dropColl g r.2.2
  | some m =>
    if !r.2.1 then endWith m (stNoSpace 0) false 0 0 (dropColl g r.2.2)
    else if g.parts.all fun x => r.1.contains x then endOk m 0 0 (dropColl g r.2.2)
    else r.2.2.onLnk fun l => { l with colls := l.colls.map fun x => if x.cmd = g.cmd then { x with done := r.1 } else x }

/-- A collective frame arrives (R325): its message grows, and the collective that it belongs to goes on. -/
def collFrame (f : ElpFrame) (s : State) : State :=
  let s1 := takeMsg f s
  match s1.lnk.colls.find? fun g => decide (g.cmd.ctx = f.ctx) && decide (g.group = fieldAt f.payload 0 2) && decide (g.ordinal = fieldAt f.payload 4 4) with
  | some g => advanceColl { g with since := s.tick }
      (s1.onLnk fun l => { l with colls := l.colls.map fun x => if x.cmd = g.cmd then { x with since := s.tick } else x })
  | none => s1

/-- COLL's group and root checks (R324) and its format (R326). -/
def collRefusal (s : State) (m : Cmd) (members : List Nat) : Option Status :=
  let kind := m.f 0 0 4
  let fmt := m.f 0 8 4
  if !members.contains (chipId s) ∨ unassigned s ∨ (kind = 4 ∧ !members.contains (m.f 3 0 10)) then some (stBadParam 0x47)
  else if 4 < kind ∨ (kind ≤ 1 ∧ (2 < m.f 0 12 2 ∨ !([0, 1, 2, 3, 11] : List Nat).contains fmt)) then some (stBadParam 7)
  else if m.p 2 % (if kind = 3 then 64 * members.length else 64) ≠ 0 then some (stBadParam 7)
  else none

/-- COLL (R324–R326): the checks, then the parts of Table 12.9; the group's membership is fixed at the start. -/
def execColl (c : CmdRef) (s : State) : Res :=
  .next (startHeld 0x0603 c s
    (fun m => rangeAway (handleObj s m.ctx (m.f 1 0 32)) 0 (m.p 2) || rangeAway (handleObj s m.ctx (m.f 1 32 32)) 0 (m.p 2))
    fun m s =>
      let members := ((s.lnk.plan.bind fun p => p.groups.find? fun g => decide (g.group = m.f 0 16 16)).map (·.members)).getD []
      match collRefusal s m members, objFor s m (m.f 1 0 32), objFor s m (m.f 1 32 32) with
      | some st, _, _ => endFail m st s
      | none, some a, some b =>
        let o := storageOf s a
        if o.size < m.p 2 ∨ (storageOf s b).size < m.p 2 then endFail m (stBadParam 7) s
        else if b.isReadOnly then endFail m (stNotPermitted 0) s
        else if o.lost then endFail m (stFaultContained 0x50) s
        else
          let key := m.ctx.toNat * 65536 + m.f 0 16 16
          let rank (x : Nat) : Nat := members.findIdx fun y => decide (y = x)
          let g : Coll :=
            { cmd := m.ref, kind := m.f 0 0 4, format := m.f 0 8 4, op := m.f 0 12 2, group := m.f 0 16 16, ordinal := tget 0 s.lnk.ordinals key,
              members := members, boards := boardSets s members, rank := rank (chipId s), root := rank (m.f 3 0 10), length := m.p 2,
              src := m.f 1 0 32, dst := m.f 1 32 32, done := [], since := s.tick }
          advanceColl g (s.onLnk fun l => { l with colls := l.colls ++ [g], ordinals := tput 0 l.ordinals key (g.ordinal + 1) })
      | _, _, _ => endFail m (stBadParam 0) s)

/-- COLL_TIMEOUT (R327): a collective that has not reached a member for COLL_TIMEOUT_MS ends with ST_FAULT_CONTAINED. -/
def execCollTimeout (c : CmdRef) (s : State) : Res :=
  .next (whileRunning 0x0603 c s fun m s =>
    match s.lnk.colls.find? fun g => decide (g.cmd = c) with
    | some g => if g.since + msTicks (getFld s LNK_COLL_CTL 0 16) ≤ s.tick then endWith m (stFaultContained 0) false 0 0 (dropColl g s) else s
    | none => s)

end Sys2Proof.Machine
end

