-- ==== Sys2Proof/Machine/Streams.lean ====
section
/-! DEFINITION. Streams: RUN, the blocks of reads, writes and copies, port X, and paging inside streams (R145–R153). -/

namespace Sys2Proof.Machine

/-! ### Streams and their order (R148) -/

/-- Descriptors of one list that use a stream port and VQ of a die and have not ended: keys with their streams. -/
def lineAt (s : State) (pan die port vq : Nat) : List (Nat × Stream) :=
  s.mem.streams.filterMap fun q => match q.2 with
    | some t => if t.use = .run ∧ t.pan = pan ∧ t.port = port ∧ t.vq = vq ∧ t.dies.contains die ∧ !t.isOver then some (q.1, t) else none
    | none => none

/-- The descriptor that is next in list order on a stream port and VQ of a die (R148). -/
def frontAt (s : State) (pan die port vq : Nat) : Option (Nat × Stream) :=
  (lineAt s pan die port vq).foldl (fun r q => match r with | some b => if q.2.order < b.2.order then some q else some b | none => some q) none

/-- Stream n is at the front of every port and VQ that it uses. -/
def atFront (s : State) (n : Nat) (t : Stream) : Bool :=
  decide (t.use ≠ .run) || t.dies.all fun d => match frontAt s t.pan d t.port t.vq with | some (k, _) => decide (k = n) | none => false

/-! ### Descriptors (Table 5.5) -/

/-- The checks of R148 on one descriptor of RUN, in its order; `job` is true when RUN names the plane that is not active. -/
def descRefusal (s : State) (m : Cmd) (p : Pan) (other : Bool) (b : List Byte) : Option Status :=
  let kind := fieldAt b 0 1
  let flags := fieldAt b 1 1
  let port := fieldAt b 2 1 % 8
  let vq := fieldAt b 2 1 / 8 % 4
  let h := fieldAt b 8 4
  let off := fieldAt b 0x10 8
  let len := fieldAt b 0x18 8
  let x := if kind = 2 then fieldAt b 4 1 else fieldAt b 3 1 % 8
  let y := if kind = 2 then fieldAt b 5 1 else fieldAt b 3 1 / 8
  let w := if kind = 2 then fieldAt b 6 1 else 1
  let ht := if kind = 2 then fieldAt b 7 1 else 1
  if kind = 3 ∨ 3 < kind ∨ bit flags 2 then some (stBadParam 7)
  else match objFor s m h with
    | none => some (stBadParam 0)
    | some o =>
      let st := storageOf s o
      if off % 65536 ≠ 0 ∨ o.size < off + len ∨ (len % 65536 ≠ 0 ∧ off + len ≠ o.size) then some (stBadParam 0)
      else if kind = 1 ∧ o.isReadOnly then some (stNotPermitted 0)
      else if w = 0 ∨ ht = 0 ∨ x < p.x0 ∨ p.x0 + p.w < x + w ∨ y < p.y0 ∨ p.y0 + p.h < y + ht then some (stBadParam 7)
      else
        let dies := ((List.range ht).map fun dy => (List.range w).map fun dx => physDie s (8 * (y + dy) + x + dx)).flatten
        let tile := streamTiles.getD port (7, 0)
        let unused := dies.any fun d =>
          let t := getTile s d tile.1 tile.2
          decide ((tget Route.term (if other then t.shadow.routes else t.routes) (16 + vq)).type = 3)
        if unused then some (stBadParam 7)
        else if kind ≠ 1 ∧ st.lost then some (stFaultContained 0x50) else none

/-- The stream of a descriptor, waiting at its place in the list. -/
def descStream (s : State) (ctx : CtxId) (pan : Nat) (cmd : Option CmdRef) (list epoch order : Nat) (b : List Byte) : Stream :=
  let kind := fieldAt b 0 1
  let dies := if kind = 2 then
      ((List.range (fieldAt b 7 1)).map fun dy => (List.range (fieldAt b 6 1)).map fun dx =>
        physDie s (8 * (fieldAt b 5 1 + dy) + fieldAt b 4 1 + dx)).flatten
    else [physDie s (fieldAt b 3 1)]
  { use := .run, cmd := cmd, list := BitVec.ofNat 32 list, closing := false, order := order, pan := pan, ctx := ctx, kind := kind,
    rt := bit (fieldAt b 1 1) 0, port := fieldAt b 2 1 % 8, vq := fieldAt b 2 1 / 8 % 4, dies := dies, handle := BitVec.ofNat 32 (fieldAt b 8 4),
    offset := fieldAt b 0x10 8, length := fieldAt b 0x18 8, dstHandle := 0, dstOffset := 0, deadlineUs := fieldAt b 0x20 4, firstRequest := none,
    done := 0, issued := 0, block := [], openEpoch := some epoch, late := false, phase := .waiting,
    kv := none, asked := 0, read := 0, landed := [], arrived := [] }

/-- A stream joins the running streams. -/
def addStream (t : Stream) (s : State) : State :=
  s.onMem fun m => { m with streams := tput none m.streams m.nextStream (some t), nextStream := m.nextStream + 1 }

/-- Bytes of a STREAM_LIST's descriptor i. -/
def listDesc (s : State) (c : CtxId) (h i : Nat) : List Byte :=
  match objAt s c h with | some o => objBytes s (storageOf s o) (64 * i) 64 | none => []

/-! ### RUN (R148, R203, Table 11.13) -/

/-- The plane that RUN names is not the active one: PLANE 0 names whichever plane is active, PLANE 1 the job plane (Table 11.13). -/
def runOther (m : Cmd) (p : Pan) : Bool := bit (m.p 0) 8 && !p.jobActive

/-- RUN's refusal. -/
def runRefusal (s : State) (m : Cmd) : Option Status :=
  match panRefusal s m.ctx (m.f 0 0 4), getPan s (m.f 0 0 4) with
  | some st, _ => some st
  | none, none => some (stBadParam 7)
  | none, some p =>
    let n := m.f 1 32 13
    let other := runOther m p
    if n = 0 ∨ 4096 < n then some (stBadParam 7)
    else if (if other then p.shadow else p.active).isNone then some (stConfigRejected 0x10)
    else if !bit (m.p 0) 8 ∧ p.builtSince0 then some (stNotPermitted 0)
    else match objFor s m (m.f 1 0 32) with
      | none => some (stBadParam 0)
      | some o =>
        if o.type ≠ 8 ∨ o.size < 64 * n then some (stBadParam 0)
        else if (storageOf s o).lost then some (stFaultContained 0x50)
        else (List.range n).findSome? fun i => descRefusal s m p other (listDesc s m.ctx (m.f 1 0 32) i)

/-- A descriptor writes an object that is moving (R138). -/
def writesMoving (s : State) (c : CtxId) (b : List Byte) : Bool :=
  decide (fieldAt b 0 1 = 1) && (match objAt s c (fieldAt b 8 4) with | some o => decide ((storageOf s o).state = 2) | none => false)

/-- RUN waits: a wave, a step or another command has the pan, a switch is due, the plane that it names is not active, or a WRITE of its list names an
object that is moving (R138). -/
def runHeld (s : State) (m : Cmd) : Bool :=
  (runRefusal s m).isNone && (match getPan s (m.f 0 0 4) with
    | some p => p.wave.isSome || p.run.isSome || p.step.isSome || runOther m p
        || (List.range (m.f 1 32 13)).any fun i => writesMoving s m.ctx (listDesc s m.ctx (m.f 1 0 32) i)
    | none => false)

/-- CD0 sends a step epoch's STEP token over CTRL to the stream ports of every die of pan n, and a held mode token right behind it (R116, R201). -/
def sendStep (n epoch : Nat) (s : State) : State :=
  match getPan s n with
  | none => s
  | some p =>
    let f : Flit := { kind := 5, arg := 0, payload := BitVec.ofNat 512 epoch }
    if p.wantMode.isSome ∧ p.wave.isNone then
      openWave n 1 none (modPan n (fun p => { p with wantMode := none }) (sendTokens p [f, sluiceFlit 1 (nextEpoch p.epoch)] s))
    else sendTokens p [f] s

/-- A slice of a RUN on pan n reads the embedding versions that are CURRENT now (R271). -/
def runVersions (n : Nat) (s : State) : State :=
  match getPan s n with
  | some p => (panDies s p).foldl (fun s d => modDie d (fun x => { x with rowUse := [], gathered := [], embVer := embNow s }) s) s
  | none => s

/-- RUN (R148): the list is checked; then a STEP token of a fresh step epoch opens the streams, which run in list order on each port and
VQ. -/
def execRun (c : CmdRef) (s : State) : Res :=
  .next (startHeld 0x0601 c s (runHeld s) fun m s =>
    match runRefusal s m with
    | some st => endFail m st s
    | none =>
      let n := m.f 0 0 4
      let e := s.seq.epoch + 1
      let s1 := sendStep n e (runVersions n (s.onSeq fun q => { q with epoch := e }))
      let s2 := (List.range (m.f 1 32 13)).foldl (fun s i =>
        addStream (descStream s m.ctx n (some m.ref) (m.f 1 0 32) e i (listDesc s m.ctx (m.f 1 0 32) i)) s) s1
      modPan n (fun p => { p with run := some m.ref }) s2)

/-- Blocks that a die's ADAPTER partition holds: its tiles' ADAPTER units of 64 KiB (R123, R227). -/
def adapterRoom (d : Die) : Nat := (d.tiles.map fun q => q.2.active.units.getD 3 0).foldl (· + ·) 0

/-- One slice block is read through a die's adapter cache of n blocks, most recently used first: hits, misses, evictions and the cache (R227). -/
def cacheRead (n : Nat) (r : Nat × Nat × Nat × List (Nat × Nat × Nat × Nat)) (k : Nat × Nat × Nat × Nat) :
    Nat × Nat × Nat × List (Nat × Nat × Nat × Nat) :=
  let l := r.2.2.2
  if l.contains k then (r.1 + 1, r.2.1, r.2.2.1, k :: l.erase k)
  else (r.1, r.2.1 + 1, r.2.2.1 + ((l.length + 1) - min n (l.length + 1)), (k :: l).take n)

/-- The slice blocks that the adapter streams of a step read on each die of its pan: for each point, each group's slice in turn (R224). -/
def adapterBlocks (s : State) (st : Step) (dies : Nat) : List (Nat × Nat × Nat × Nat) :=
  let v := (getModel s st.model).byVer st.ver.toNat
  ((List.range v.points).map fun k => (st.groups.map fun g =>
    (List.range (Config.sliceBlocks v.shape g.rank dies)).map fun b => (g.slot, g.gen, k, b)).flatten).flatten

/-- The adapter streams of a step on die p: the cache takes what is missing, and its A tiles change groups a free number of times, 0 without a group
(R226, R227; notes/assumptions/63). -/
def readAdapters (st : Step) (dies p : Nat) (s : State) : State :=
  let d := getDie s p
  let r := (adapterBlocks s st dies).foldl (cacheRead (adapterRoom d)) (0, 0, 0, d.adpCache)
  let s1 := modDie p (fun d => { d with adpCache := r.2.2.2 }) s
  let s2 := bumpBy (ADP_CACHE_HIT p) r.1 (bumpBy (ADP_CACHE_MISS p) r.2.1 (bumpBy (ADP_CACHE_EVICT p) r.2.2.1 s1))
  if st.groups.isEmpty then s2
  else bumpBy (ADP_GROUP_CHANGES p) (Config.freeNat s2.free) { s2 with free := s2.free + 1 }

/-- The stream of a KV descriptor of the step builder (R146, R201): on KV_PORT of one die of the pan, at its place behind the weight list
(notes/assumptions/171). -/
def kvStream (s : State) (n epoch : Nat) (p : Pan) (ct : CostTable) (row k : Nat) (d : Nat × KvRange × Nat) : Stream :=
  { use := .run, cmd := none, list := 0, closing := false, order := 4096 + 4 * row + k, pan := n, ctx := p.ctx, kind := d.1, kv := some d.2.1,
    rt := false, port := ct.kvPort % 8, vq := ct.kvPort / 8 % 4,
    dies := [physDie s (p.logical.getD (Config.kvDie n row % max 1 p.logical.length) 0)], handle := 0, offset := 0, length := d.2.2, dstHandle := 0,
    dstOffset := 0, deadlineUs := 0, firstRequest := none, done := 0, issued := 0, asked := 0, read := 0, landed := [], arrived := [], block := [],
    openEpoch := some epoch, late := false, phase := .waiting }

/-- The KV streams of a step's valid rows (R201). -/
def addKvStreams (n : Nat) (p : Pan) (ct : CostTable) (st : Step) (s : State) : State :=
  st.rows.foldl (fun s r => ((kvDescs st.kind ct r).zipIdx).foldl (fun s d =>
    if d.1.2.2 = 0 then s else addStream (kvStream s n st.epoch p ct r.row d.2 d.1) s) s) s

/-- The weight streams of a step's model version (R217, R233). -/
def addWeightStreams (n : Nat) (st : Step) (s : State) : State :=
  let h := ((getModel s st.model).byVer st.ver.toNat).weights.getD st.kind 0
  let k := match objAt s st.ctx h with | some o => o.size / 64 | none => 0
  (List.range (min k 4096)).foldl (fun s i => addStream (descStream s st.ctx n none h st.epoch i (listDesc s st.ctx h i)) s) s

/-- Every die of a pan has the whole work list of an epoch. -/
def listArrived (s : State) (p : Pan) (epoch : Nat) : Bool := (panDies s p).all fun d => decide ((getDie s d).listed = epoch)

/-- WORK_LIST_DELIVERY (R201, R246): the list has reached the pan's dies, which accept the step's epoch; its STEP tokens go out, and the weight streams
of its version and the KV streams of its rows start. -/
def execWorkListDelivery (pan : Fin 16) (s : State) : Res :=
  .next (match getPan s pan with
    | none => s
    | some p =>
      match p.step.bind (findStep s) with
      | none => s
      | some st =>
        if st.delivered ∨ !listArrived s p st.epoch then s
        else
          let s1 := (panDies s p).foldl (fun s d => readAdapters st p.logical.length d (acceptEpoch d st.epoch st.embVer s)) (modStep st.epoch (fun x => { x with delivered := true }) s)
          let s2 := addWeightStreams pan st (sendStep pan st.epoch s1)
          match p.serving with
          | some g => addKvStreams pan p g.cost st s2
          | none => s2)

/-! ### The end of a stream and of a RUN (R145, R153) -/

/-- SAVED_POS and STATUS of a descriptor are written back (Table 5.5). -/
def saveDesc (t : Stream) (status detail : Nat) (s : State) : State :=
  match objAt s t.ctx t.list.toNat with
  | some o => s.onMem fun m => { m with
      bytes := pokeObj (storageOf s o) (64 * t.order + 0x28) (leBytes 8 t.done ++ leBytes 8 (status + 65536 * detail)) m.bytes }
  | none => s

/-- The streams of a command. -/
def cmdStreams (s : State) (c : CmdRef) : List Stream :=
  s.mem.streams.filterMap fun q => match q.2 with | some t => if t.cmd = some c then some t else none | none => none

/-- A RUN whose streams have all ended completes: with the count of late descriptors when there are any (R153, R293). Its streams, and with them the
semaphores of their chains, are returned before its entry is due (R204). -/
def settleRun (pan : Nat) (c : CmdRef) (s : State) : State :=
  let l := cmdStreams s c
  if l.all (·.isOver) then
    let late := (l.filter (·.late)).length
    let s1 := modPan pan (fun p => { p with run := none }) (s.onMem fun e => { e with
      streams := e.streams.filter fun q => match q.2 with | some t => !decide (t.cmd = some c) | none => true })
    match findCmd s1 c with
    | some m => if 0 < late then endWith m (0x0401, min late 0xFFFF) false l.length 0 s1 else endOk m l.length 0 s1
    | none => s1
  else s

/-- A stream has delivered or written its last flit: late or in time, its descriptor's fields written, and its command settled. -/
def endStream (n : Nat) (s : State) : State :=
  match getStream s n with
  | none => s
  | some t =>
    let late := t.rt && decide (0 < t.deadlineUs)
      && (match t.firstRequest with | some f => decide (usTicks t.deadlineUs < dieCount s (t.dies.headD 0) - f) | none => false)
    let st := if late then 0x0401 else 0
    let s1 := modStream n (fun t => { t with late := late, phase := .ended st 0 }) s
    let s2 := saveDesc t st 0 (if late then bump TIER_RT_MISS s1 else s1)
    match t.cmd with
    | none => reapOld (s2.onMem fun m => { m with streams := tput none m.streams n none })
    | some c =>
      if t.use = .run then reapOld (settleRun t.pan c s2)
      else
        let s3 := s2.onMem fun m => { m with streams := tput none m.streams n none }
        match findCmd s3 c with | some m => endOk m 0 0 s3 | none => s3

/-- A copy ends with a failure: what it wrote stands (R145). -/
def failCopy (n : Nat) (t : Stream) (st : Status) (s : State) : State :=
  let s1 := s.onMem fun m => { m with streams := tput none m.streams n none }
  match t.cmd.bind (findCmd s1) with | some m => endWith m st false 0 0 s1 | none => s1

/-- A stream meets a status that ends its command: the pan aborts (R152), or the copy fails. -/
def failStream (n : Nat) (t : Stream) (st : Status) (s : State) : State :=
  if t.use = .run then abortPanWith st t.pan s else failCopy n t st s

/-! ### Blocks (R141, R145, R147, R149) -/

/-- The storage of a stream's object. -/
def streamObj (s : State) (t : Stream) : Option Obj := (objAt s t.ctx t.handle.toNat).map (storageOf s)

/-- What a stream reads or writes exists: its object, or the entry of its KV descriptor. -/
def Stream.live (s : State) (t : Stream) : Bool :=
  match t.kv with | some r => (getEntry s r.index).isSome | none => (streamObj s t).isSome

/-- Bytes that a stream's storage holds from the start of its range on. -/
def Stream.holds (s : State) (t : Stream) : Nat :=
  match t.kv with | some _ => t.length | none => match streamObj s t with | some o => o.size - t.offset | none => 0

/-- Device address of byte k of a stream's range; none where no page holds it. -/
def Stream.addrAt (s : State) (t : Stream) (k : Nat) : Option Nat :=
  match t.kv with
  | some r => kvAddr s r t.length k
  | none => match streamObj s t with | some o => objAddr o (t.offset + k) | none => none

/-- The die that serves a device address: its code and its overrun counter; PD0 where there is none. -/
def codeAt (s : State) (a : Option Nat) : Nat × Nat :=
  match a.map (windowOf s) with
  | some (.tier1 p) => (0x50 + p, TIER_BITTERN_OVERRUN p)
  | some (.tier2 c) => (0x60 + c / 3, TIER_F_BITTERN_OVERRUN (c / 3))
  | _ => (0x50, TIER_BITTERN_OVERRUN 0)

/-- The die that serves byte k of a stream's range, and its overrun counter: the first mover of a READ, the last of a WRITE (R31, R145). -/
def Stream.server (s : State) (t : Stream) (k : Nat) : Nat × Nat :=
  match t.kv with
  | some _ => codeAt s (t.addrAt s k)
  | none => match streamObj s t with | some o => servingDie o (t.offset + k) | none => (0x50, TIER_BITTERN_OVERRUN 0)

/-- The die that takes byte k of a copy's destination. -/
def Stream.target (s : State) (t : Stream) (k : Nat) : Nat :=
  match (objAt s t.ctx t.dstHandle.toNat).map (storageOf s) with | some o => (servingDie o (t.dstOffset + k)).1 | none => 0x50

/-- Flits of block k of a stream's range (R141); all 1,024 of a KV descriptor's (notes/assumptions/170). -/
def Stream.slots (s : State) (t : Stream) (k : Nat) : Nat :=
  let full := match t.kv with
    | some _ => 1024
    | none => match streamObj s t with | some o => if o.flitsPerBlock = 0 then 1024 else o.flitsPerBlock | none => 1024
  min full (ceilDiv (t.length - 65536 * k) 64)

/-- Blocks of the stream's range. -/
def Stream.blocks (t : Stream) : Nat := ceilDiv t.length 65536

/-- Blocks fully delivered or written. -/
def Stream.doneBlocks (t : Stream) : Nat := ceilDiv t.done 65536

/-- Bytes of block k that the range covers. -/
def Stream.blockLen (t : Stream) (k : Nat) : Nat := min 65536 (t.length - 65536 * k)

/-- n bytes of a stream's range from byte k; a page without a frame reads as zeros (R143). -/
def Stream.bytesAt (s : State) (t : Stream) (k n : Nat) : List Byte :=
  (List.range n).map fun j => match t.addrAt s (k + j) with | some a => memGet s.mem.bytes a | none => 0

/-- Bytes are written into a stream's range from byte k. -/
def Stream.poke (s : State) (t : Stream) (k : Nat) (bs : List Byte) (m : Mem) : Mem :=
  (bs.zipIdx).foldl (fun m b => match t.addrAt s (k + b.2) with | some a => tput 0 m a b.1 | none => m) m

/-- The page whose state halts a stream before its next block: the storage's context and INDEX, the page, its state, and whether the destination of a
copy misses it. A WRITE halts on ZERO; the destination of a copy takes a frame instead (R143, R149). -/
def missOf (s : State) (t : Stream) : Option (CtxId × Nat × Nat × Nat × Bool) :=
  let look (h : Word) (off : Nat) (zero dst : Bool) : Option (CtxId × Nat × Nat × Nat × Bool) :=
    let k := storageKey s t.ctx (hIndex h.toNat)
    let o := getObj s k.1 k.2
    let e := tget PageEntry.zero o.pages (off / 0x200000)
    if o.tier = 2 ∧ (2 ≤ e.state.toNat ∨ (zero ∧ e.state = 0)) then some (k.1, k.2, off / 0x200000, e.state.toNat, dst) else none
  if t.kv.isSome then none
  else match look t.handle (t.offset + 65536 * t.issued) (decide (t.use = .run) && decide (t.kind = 1)) false with
  | some r => some r
  | none => if t.use = .run then none else look t.dstHandle (t.dstOffset + 65536 * t.issued) false true

/-- A page of a KV descriptor's range has its only copy in the buddy's mirror: the block waits until it has come (R346). -/
def kvAway (s : State) (t : Stream) : Bool :=
  match t.kv with
  | none => false
  | some r => match getEntry s r.index with
    | some e => (kvPieces r t.length).any fun q => (tget KvPage.absent e.kvMap q.1).remote
    | none => false

/-- A WRITE's next block has its flits: all its slots, or what came before it closed. -/
def writeReady (s : State) (t : Stream) : Bool :=
  decide (64 * t.slots s t.issued ≤ t.block.length) || (t.closing && decide (0 < t.block.length))

/-- Far die whose registers show a fault: of the frame's port, or FD0 for a page without a frame. -/
def faultDie (o : Obj) (page : Nat) : Nat :=
  let e := tget PageEntry.zero o.pages page
  if e.state = 3 then (e.frame - portFrame 0) / 131072 / 3 else 0

/-- The registers of the first outstanding fault of a far die (Table 5.13): context, state, whether the stream writes the page, pan, handle and page. -/
def noteFault (t : Stream) (c : CtxId) (i page st : Nat) (dst : Bool) (s : State) : State :=
  let f := faultDie (getObj s c i) page
  if getFld s (TIER_FAR_FAULT_INFO f) 31 1 = 1 then s
  else
    setReg (TIER_FAR_FAULT_PAGE f) (BitVec.ofNat 32 page) (setReg (TIER_FAR_FAULT_HANDLE f) (if dst then t.dstHandle else t.handle)
      (setReg (TIER_FAR_FAULT_INFO f)
        (BitVec.ofNat 32 (t.ctx.toNat + 4096 * st + 32768 * b2n (dst || decide (t.kind = 1)) + 65536 * (t.pan % 16) + 2 ^ 31)) s))

/-- A far die's translation of a page (R150): a miss reads the page table, and is counted. -/
def translate (c : CtxId) (i page : Nat) (s : State) : State :=
  let o := getObj s c i
  let e := tget PageEntry.zero o.pages page
  if o.tier ≠ 2 ∨ e.state ≠ 1 ∨ s.mem.tlb.contains (c.toNat, i, page) then s
  else bump (TIER_FAR_TLB_MISS ((e.frame - portFrame 0) / 131072 / 3)) (s.onMem fun m => { m with tlb := (c.toNat, i, page) :: m.tlb })

/-- Packets of at most 64 flits that carry a stream's flits (R17). -/
def flitPackets (n : Option Nat) (port vq : Nat) : Nat → List Flit → List PacketBody
  | 0, _ => []
  | fuel + 1, l => if l.length ≤ 64 then [.portFlits n port vq l] else .portFlits n port vq (l.take 64) :: flitPackets n port vq fuel (l.drop 64)

/-- Packets of at most 4,096 bytes that carry data to a mover (R17). -/
def dataPackets (n : Nat) : Nat → List Byte → List PacketBody
  | 0, _ => []
  | fuel + 1, b => if b.length ≤ 4096 then [.moverData n b] else .moverData n (b.take 4096) :: dataPackets n fuel (b.drop 4096)

/-- A block may be issued: a READ's, an MCAST's or a copy's while fewer than two blocks stand in its stages and, for a pan, behind the STEP token that opens
it; a WRITE's when its flits are there and the block before it is written (R145, R147). -/
def blockReady (s : State) (t : Stream) : Bool :=
  if t.use = .run ∧ t.kind = 1 then writeReady s t && decide (t.issued = t.doneBlocks)
  else decide (t.issued < t.doneBlocks + 2)
    && (decide (t.use ≠ .run) || t.dies.all fun d => decide (t.openEpoch.getD 0 ≤ (getDie s d).stepSent))

/-- The next block of a stream is issued: a READ's request goes on REQ from its stream port to the first mover, a WRITE's flits go on DATA to the mover that
writes them, and CD0 asks the first mover of a copy over CTRL (R17, R31, R145). -/
def issueBlock (n : Nat) (t : Stream) (s : State) : State :=
  let d := t.dies.headD 0
  let first := t.firstRequest.orElse fun _ => some (dieCount s d)
  let u := { t with phase := .running, issued := t.issued + 1, firstRequest := first }
  if t.use ≠ .run then sendMover (t.server s (65536 * t.issued)).1 t.ctx (.readReq n) (modStream n (fun _ => u) s)
  else if t.kind = 1 then
    let w := t.block.take (min (t.blockLen t.issued) (64 * t.slots s t.issued))
    let s1 := modStream n (fun _ => { u with block := t.block.drop (64 * t.slots s t.issued), asked := w.length, arrived := [] }) s
    (dataPackets n 17 w).foldl (fun s k => sendData d t.port (t.server s (65536 * t.issued)).1 t.ctx k s) s1
  else sendReq d t.port (t.server s (65536 * t.issued)).1 t.ctx (.readReq n) (modStream n (fun _ => u) s)

/-- STREAM_BLOCK_ISSUE (R149): the next block of a stream at the front of its line, with one of two staged blocks free and its flits at hand, has its page
checked; it is issued, or the stream halts with SAVED_POS. -/
def execStreamBlockIssue (stream : Nat) (s : State) : Res :=
  .next (match getStream s stream with
    | none => s
    | some t =>
      let run := decide (t.phase = .running) || decide (t.phase = .waiting)
      if !run || !t.live s || !atFront s stream t || !blockReady s t || kvAway s t || decide (t.blocks ≤ t.issued) then s
      else
        match missOf s t with
        | some (c, i, page, st, dst) =>
          noteFault t c i page st dst (saveDesc t 0 0 (modStream stream (fun t => { t with
            phase := .halted, firstRequest := t.firstRequest.orElse fun _ => some (dieCount s (t.dies.headD 0)) }) s))
        | none =>
          if t.kv.isSome then issueBlock stream t s
          else
            let k := storageKey s t.ctx (hIndex t.handle.toNat)
            translate k.1 k.2 ((t.offset + 65536 * t.issued) / 0x200000) (issueBlock stream t s))

/-- The DATA flits of block k of a stream (R41, R141): 64 bytes each, ARG one less than the bytes that its storage holds there. -/
def blockFlits (s : State) (t : Stream) (k : Nat) : List Flit :=
  (List.range (t.slots s k)).map fun j =>
    let a := 65536 * k + 64 * j
    let n := min 64 (t.holds s - a)
    { kind := 0, arg := BitVec.ofNat 10 (n - 1), payload := BitVec.ofNat 512 (leNat (t.bytesAt s a n)) }

/-- Packets of the first k blocks of a READ. -/
def Stream.packets (s : State) (t : Stream) (k : Nat) : Nat := ((List.range k).map fun j => ceilDiv (t.slots s j) 64).foldl (· + ·) 0

/-- The first mover of a stream has staged block k and sends it on: to the stream port of the READ's die or of every die of the MCAST's rectangle, or to the
last mover of a copy, which may be the same die (R18, R31, R145). -/
def sendBlock (n : Nat) (t : Stream) (k : Nat) (s : State) : State :=
  let code := (t.server s (65536 * k)).1
  let s1 := modStream n (fun t => { t with read := t.read + 1 }) s
  if t.use ≠ .run then
    let b := t.bytesAt s (65536 * k) (t.blockLen k)
    let goal := t.target s (65536 * k)
    if goal = code then modStream n (fun t => { t with arrived := t.arrived ++ b }) s1
    else (dataPackets n 17 b).foldl (fun s q => sendBetween code goal t.ctx q s) s1
  else
    let l := flitPackets (some n) t.port t.vq 17 (blockFlits s t k)
    let a := (logicalDie s (t.dies.headD 0)).getD 0
    let z := (logicalDie s (t.dies.getLastD 0)).getD 0
    if t.kind = 2 then l.foldl (fun s q => sendToRect code (a % 8) (a / 8) (z % 8 + 1 - a % 8) (z / 8 + 1 - a / 8) t.ctx q s) s1
    else l.foldl (fun s q => sendToDie code (t.dies.headD 0) t.ctx q s) s1

/-- The stream is over when its last block is delivered or written, and a WRITE that has closed when its flits are written. -/
def finishStream (n : Nat) (s : State) : State :=
  match getStream s n with
  | some u => if u.length ≤ u.done ∨ (u.closing ∧ u.block.isEmpty ∧ u.issued ≤ u.doneBlocks) then endStream n s else s
  | none => s

/-- The last mover of a stream has all of block k: the packets of a READ at every die, the bytes of a WRITE or of a copy. -/
def blockArrived (s : State) (t : Stream) (k : Nat) : Bool :=
  if t.use ≠ .run then decide (t.blockLen k ≤ t.arrived.length)
  else if t.kind = 1 then decide (t.asked ≤ t.arrived.length)
  else t.dies.all fun d => decide (t.packets s (k + 1) ≤ tget 0 t.landed d)

/-- The last mover of a stream has written block k (R145): delivered to port X, written to its storage, or copied. -/
def writeBlock (n : Nat) (t : Stream) (k : Nat) (s : State) : State :=
  let len := t.blockLen k
  if t.use ≠ .run then
    let r := writeObj t.ctx (hIndex t.dstHandle.toNat) (t.dstOffset + 65536 * k) (t.arrived.take len) s
    if r.1 then finishStream n (modStream n (fun t => { t with done := t.done + len, arrived := t.arrived.drop len }) r.2) else failCopy n t (stNoSpace 0) r.2
  else if t.kind = 1 then
    let key := storageKey s t.ctx (hIndex t.handle.toNat)
    let s1 := s.onMem fun m => { m with bytes := t.poke s (65536 * k) t.arrived m.bytes }
    let s2 := if (t.server s (65536 * k)).1 < 0x60 then s1 else modCtx key.1 (fun x => { x with wroteT2 := true }) s1
    let short := t.closing && t.block.isEmpty && decide (t.asked < min len (64 * t.slots s k))
    finishStream n (modStream n (fun t => { t with arrived := [], asked := 0, done := t.done + if short then t.asked else len }) s2)
  else finishStream n (modStream n (fun t => { t with done := t.done + len }) s)

/-- STREAM_BLOCK_DONE (R145, R147): a stage of a stream's chain finishes a block: the last one when it has all of its next block, else the first one, for
which a request waits. -/
def execStreamBlockDone (stream : Nat) (s : State) : Res :=
  .next (match getStream s stream with
    | none => s
    | some t =>
      if t.phase ≠ .running ∧ t.phase ≠ .halted ∨ !t.live s then s
      else if t.doneBlocks < t.issued ∧ blockArrived s t t.doneBlocks then writeBlock stream t t.doneBlocks s
      else if (t.use ≠ .run ∨ t.kind ≠ 1) ∧ t.read < t.asked then sendBlock stream t t.read s
      else s)

/-! ### Port X (R147) -/

/-- A contained event of a pan that names a die. -/
def panEvent (s : State) (source dieCode n : Nat) : FaultEvent :=
  { faultOf source dieCode 0xFF 0 with pan := if h : n < 16 then some ⟨n, h⟩ else none, ctx := (getPan s n).map (·.ctx) }

/-- Flit capacity of a WRITE that is not yet taken: the slots of its blocks not yet issued, less the flits held. -/
def writeRoom (s : State) (t : Stream) : Nat :=
  ((List.range (t.blocks - t.issued)).map fun k => t.slots s (t.issued + k)).foldl (· + ·) 0 - t.block.length / 64

/-- The head of a stream port's crossing is taken. -/
def popX (die port : Nat) (s : State) : State := modDie die (fun d => { d with portOut := tmod [] d.portOut port List.tail }) s

/-- A STEP token at port X (R147): absorbed; one of another epoch ends the active WRITE once its flits are written. -/
def stepAtX (n epoch : Nat) (t : Stream) (s : State) : State :=
  if t.kind = 1 ∧ t.openEpoch ≠ some epoch ∧ !t.closing then
    if t.block.isEmpty ∧ t.issued ≤ t.doneBlocks then endStream n s else modStream n (fun t => { t with closing := true }) s
  else s

/-- A data-class flit at port X (R147): the active WRITE takes it; it waits for a later WRITE of the list; or it is refused, by the die that serves a WRITE
whose LENGTH is full, or by the stream port. -/
def dataAtX (die port vq n : Nat) (f : Flit) (s : State) : State :=
  let line := lineAt s n die port vq
  match frontAt s n die port vq with
  | none => present (panEvent s 0x0203 die n) (bump (ARR_BITTERN_PORTX die) (popX die port s))
  | some (k, t) =>
    if t.kind = 1 ∧ !t.closing then
      if !t.live s then s
      else if 0 < writeRoom s t then
        if 64 * 2048 ≤ t.block.length then s
        else modStream k (fun t => { t with
          phase := if t.phase = .waiting then .running else t.phase
          block := t.block ++ leBytes 64 (if f.kind = 4 then 0 else f.payload.toNat) }) (popX die port s)
      else if line.any fun q => decide (q.1 ≠ k) && decide (q.2.kind = 1) then s
      else
        let d := t.server s (t.length - 1)
        present (panEvent s 0x0203 d.1 n) (bump d.2 (popX die port s))
    else if line.any fun q => decide (q.2.kind = 1) && !q.2.closing then s
    else present (panEvent s 0x0203 die n) (bump (ARR_BITTERN_PORTX die) (popX die port s))

/-- PORTX_FLIT (R29, R147): the flit at the head of a stream port's crossing, when it came on this VQ: tokens are absorbed, and a data-class flit goes
to the active WRITE. -/
def execPortxFlit (die : Fin 74) (port : Fin 8) (vq : Fin 4) (s : State) : Res :=
  .next (match tget [] (getDie s die).portOut port, dieOfPan s die with
    | (v, f) :: _, some n =>
      if v ≠ vq.val then s
      else match f.kind.toNat with
        | 1 => popX die port s
        | 2 => popX die port s
        | 3 => bump (CFG_BITTERN_RAKEID die) (popX die port s)
        | 5 => match frontAt s n die port vq with
          | some (k, t) => stepAtX k (f.payload.toNat % 2 ^ 64) t (popX die port s)
          | none => popX die port s
        | _ => dataAtX die port vq n f s
    | _, _ => s)

/-! ### Paging (R150–R152) -/

/-- Page-ins under way, shown in OUTSTANDING. -/
def showPageIns (s : State) : State := setFld TIER_PAGEIN_STATUS 0 7 s.mem.pageIns.length s

/-- PAGE_IN_REQUEST (R150, step 2): a halted stream's page request reaches CD0: its pan's bit is set, and it joins the page-in of its
page or starts one while fewer than 64 run. -/
def execPageInRequest (stream : Nat) (s : State) : Res :=
  .next (match getStream s stream with
    | none => s
    | some t =>
      match missOf s t with
      | none => s
      | some (c, i, page, st, _) =>
        if t.phase ≠ .halted ∨ s.mem.pageIns.any (fun q => match q.2 with | some g => g.streams.contains stream | none => false) then s
        else
          let s1 := setWaiting t.pan true s
          match s.mem.pageIns.find? fun q => match q.2 with
              | some g => decide (g.ctx = c) && decide (g.index = i) && decide (g.page = page) | none => false with
          | some (k, _) => s1.onMem fun m => { m with
              pageIns := tmod none m.pageIns k (Option.map fun g => { g with streams := g.streams ++ [stream] }) }
          | none =>
            if 64 ≤ s.mem.pageIns.length then s1
            else
              let g : PageIn := { ctx := c, index := i, page := page, streams := [stream], started := s.tick, found := st }
              showPageIns (s1.onMem fun m => { m with pageIns := tput none m.pageIns m.nextPageIn (some g), nextPageIn := m.nextPageIn + 1 }))

/-- The streams of a page-in resume at SAVED_POS (R150, step 5). -/
def resumeStreams (l : List Nat) (s : State) : State :=
  l.foldl (fun s n => modStream n (fun t => { t with phase := if t.phase = .halted then .running else t.phase }) s) s

/-- The pan's bit clears when no halted stream of it remains, and its watchdogs restart (R151). -/
def settleWaiting (n : Nat) (s : State) : State :=
  if s.mem.streams.any fun q => match q.2 with | some t => decide (t.pan = n) && decide (t.phase = .halted) | none => false then s
  else
    let s1 := setWaiting n false s
    match getPan s n with
    | some p => (panDies s p).foldl (fun s d => modDie d (fun x => { x with quiet := 0, orphanFor := 0 }) s) s1
    | none => s1

/-- The fault registers of the far dies that show a page-in's page: VALID clears, and the next fault of a halted stream that is still outstanding is
shown (Table 5.13). -/
def dropFault (g : PageIn) (s : State) : State :=
  (List.range 4).foldl (fun s f =>
    if getFld s (TIER_FAR_FAULT_INFO f) 31 1 = 1 ∧ (getReg s (TIER_FAR_FAULT_PAGE f)).toNat = g.page
        ∧ storageKey s (BitVec.ofNat 12 (getFld s (TIER_FAR_FAULT_INFO f) 0 12)) (hIndex (getReg s (TIER_FAR_FAULT_HANDLE f)).toNat) = (g.ctx, g.index)
    then
      let s1 := setFld (TIER_FAR_FAULT_INFO f) 31 1 0 s
      let next := s1.mem.streams.findSome? fun q => match q.2 with
        | some t => if t.phase = .halted then
            (missOf s1 t).bind fun m => if (m.1, m.2.1, m.2.2.1) ≠ (g.ctx, g.index, g.page) ∧ faultDie (getObj s1 m.1 m.2.1) m.2.2.1 = f then some (t, m) else none
          else none
        | none => none
      match next with
      | some (t, m) => noteFault t m.1 m.2.1 m.2.2.1 m.2.2.2.1 m.2.2.2.2 s1
      | none => s1
    else s) s

/-- A page-in is over: its streams resume, pans and registers are settled, and it is counted. -/
def closePageIn (k : Nat) (g : PageIn) (s : State) : State :=
  let pans := dedup (g.streams.filterMap fun n => (getStream s n).map (·.pan))
  let s1 := showPageIns (resumeStreams g.streams (s.onMem fun m => { m with
    pageIns := tput none m.pageIns k none, tlb := m.tlb.filter fun e => !decide (e = (g.ctx.toNat, g.index, g.page)) }))
  bump TIER_PAGEIN_COUNT (pans.foldl (fun s n => settleWaiting n s) (dropFault g s1))

/-- A page-in cannot complete (R152): the commands of its streams end with the status. -/
def failPageIn (k : Nat) (g : PageIn) (st : Status) (s : State) : State :=
  dropFault g (g.streams.foldl (fun s n => match getStream s n with | some t => failStream n t st s | none => s)
    (showPageIns (s.onMem fun m => { m with pageIns := tput none m.pageIns k none })))

/-- PAGE_IN_DONE (R150, steps 3 to 5): a ZERO page takes a frame of zeros; a REMOTE or MOVING page must have landed. -/
def execPageInDone (pagein : Nat) (s : State) : Res :=
  .next (match tget none s.mem.pageIns pagein with
    | none => s
    | some g =>
      let o := getObj s g.ctx g.index
      let e := tget PageEntry.zero o.pages g.page
      if o.tier ≠ 2 ∨ e.state = 1 then closePageIn pagein g s
      else if 2 ≤ e.state.toNat then s
      else if (getCtx s g.ctx).quota.t2Pages < t2Use s g.ctx then failPageIn pagein g stQuota s
      else
        match findFrame s with
        | none => failPageIn pagein g (stNoSpace 0) s
        | some f =>
          closePageIn pagein g (modObj g.ctx g.index (fun x => { x with
            pages := tput PageEntry.zero x.pages g.page { state := 1, frame := f, remoteChip := 0 } }) (takeFrame f s)))

/-- PAGE_IN_TIMEOUT (R152): TIMEOUT_MS after it started, the page-in raises TIER_PAGEIN for each pan that waits for it, and a copy that
waits ends; the page-in itself goes on (Table 5.7). -/
def execPageInTimeout (pagein : Nat) (s : State) : Res :=
  .next (match tget none s.mem.pageIns pagein with
    | none => s
    | some g =>
      if s.tick ≤ g.started + msTicks (getFld s TIER_PAGEIN_CTL 0 16) ∨ g.streams.isEmpty then s
      else
        let s1 := s.onMem fun m => { m with pageIns := tmod none m.pageIns pagein (Option.map fun g => { g with streams := [] }) }
        g.streams.foldl (fun s n => match getStream s n with
          | some t => if t.use = .run then present (panEvent s 0x0204 0x70 t.pan) s else failCopy n t (stFaultContained 0) s
          | none => s) s1)

end Sys2Proof.Machine
end

