-- ==== Sys2Proof/Machine/Embed.lean ====
section
/-! DEFINITION. Embedding tables: the commands of Table 11.12, row fetches, hot rows, gradients, and exchange packets
(R246, R258–R278). -/

namespace Sys2Proof.Machine

/-! ### Exchange packets (R243, R246) -/

/-- The key of an exchange's sender: chip and die. -/
def exchangeSource (h : ExchangeHdr) : Nat := 65536 * h.sourceChip.toNat + h.sourceDie.toNat

/-- What a die has received of a layer from a sender, with f applied; an unlisted one has nothing yet. -/
def modExchange (h : ExchangeHdr) (phase : Nat) (f : ExchangeRx → ExchangeRx) (l : List ExchangeRx) : List ExchangeRx :=
  let mine (x : ExchangeRx) : Bool := decide (x.layer = h.layer.toNat) && decide (x.source = exchangeSource h) && decide (x.phase = phase)
  if l.any mine then l.map fun x => if mine x then f x else x
  else l ++ [f { layer := h.layer.toNat, source := exchangeSource h, phase := phase, rows := 0, ended := false }]

/-- Rows received of a layer from a sender in the phase that an end marker closes: dispatch first, then answer. -/
def openPhase (h : ExchangeHdr) (l : List ExchangeRx) : Nat :=
  if l.any fun x => decide (x.layer = h.layer.toNat) && decide (x.source = exchangeSource h) && decide (x.phase = 0) && x.ended then 1 else 0

/-- EXCHANGE_PACKET (R246): a packet of the accepting epoch is taken, its flits to port X, its rows counted; an end marker's COUNT must
match them. Any other packet is discarded and counted. -/
def execExchangePacket (die : Fin 74) (port : Fin 8) (vq : Fin 4) (hdr : ExchangeHdr) (flits : List Flit) (s : State) : Res :=
  let d := getDie s die
  .next (if d.accepting ≠ some hdr.stepEpoch.toNat then bump (ARR_MOE_BITTERN_STALE die) s
    else if hdr.phase = 2 then
      let ph := openPhase hdr d.exchange
      let s1 := modDie die (fun x => { x with exchange := modExchange hdr ph (fun r => { r with ended := true }) x.exchange }) s
      let got := ((getDie s1 die).exchange.find? fun r => decide (r.layer = hdr.layer.toNat) && decide (r.source = exchangeSource hdr)
        && decide (r.phase = ph)).map (·.rows)
      if got = some hdr.count.toNat then s1
      else
        let x := streamTiles.getD port (7, 0)
        present (tileEvent s1 0x0106 die x.1 x.2 (16 + vq.val) 0) s1
    else
      deliverX die port vq flits (modDie die (fun x => { x with
        exchange := modExchange hdr hdr.phase.toNat (fun r => { r with rows := r.rows + hdr.tokens.toNat }) x.exchange }) s))

/-! ### Row fetches and hot rows (R265–R270) -/

/-- The row's page in BASE, or that of its presence bit, is away (R143, R149). -/
def rowAway (s : State) (x : EmbEntry) (r : EmbRec) (i : Nat) : Bool :=
  rangeAway (handleObj s x.ctx r.base) (rowOffset r (rowLocal x i)) (r.stride * 64)
    || (r.sparse && rangeAway (handleObj s x.ctx r.bitmap) (rowLocal x i / 8) 1)

/-- A record's rows cannot be written: an object of it is moving (R138). -/
def recMoving (s : State) (x : EmbEntry) (r : EmbRec) : Bool :=
  (handleObj s x.ctx r.base).move.isSome || (r.sparse && (handleObj s x.ctx r.bitmap).move.isSome)

/-- Boundaries that the pan of a die has passed. -/
def dieBoundaries (s : State) (p : Nat) : Nat := match (dieOfPan s p).bind (getPan s) with | some n => n.boundaries | none => 0

/-- G tiles of a die with a closed round go on: they ask for what they still need, and finish when all has come. -/
def pumpDie (p : Nat) (s : State) : State :=
  (tkeys (getDie s p).tiles).foldl (fun s k =>
    let t := getTile s p (k % 16) (k / 16)
    if t.roundClosed then
      gLeave p (k % 16) (k / 16) (finishRound p (k % 16) (k / 16) (t.toFetch.foldl (askRow p (k % 16) (k / 16)) s))
    else s) s

/-- Packets of at most 4,096 bytes that carry a row (R17). -/
def rowPackets (e row : Nat) : Nat → List Byte → List PacketBody
  | 0, _ => []
  | fuel + 1, b => if b.length ≤ 4096 then [.rowData e row b] else .rowData e row (b.take 4096) :: rowPackets e row fuel (b.drop 4096)

/-- The serving die reads a row that a die asked for, in one access, and sends it on DATA (R31, R265). -/
def sendRow (p e row : Nat) (x : EmbEntry) (s : State) : State :=
  let v := embRec s p e
  let b := rowBytes s x v row
  let code := (servingDie (handleObj s x.ctx v.base) (rowOffset v (rowLocal x row))).1
  (rowPackets e row (b.length / 4096 + 1) b).foldl (fun s k => sendToDie code p x.ctx k s)
    (modDie p (fun d => { d with fetches := d.fetches.map fun g => if g.entry = e ∧ g.row = row then { g with sent := true } else g }) s)

/-- ROW_FETCH_DONE (R31, R265, R268): a row's request at its serving die is answered; or the row, once all its bytes are at the die, reaches every tile that
waits, and a row counted more than 64 times in the step is pinned. -/
def execRowFetchDone (die : Fin 74) (entry : BitVec 10) (row : Nat) (s : State) : Res :=
  let e := entry.toNat
  let x := getEmb s e
  let v := embRec s die e
  .next (match (getDie s die).fetches.find? fun f => decide (f.entry = e) && decide (f.row = row) with
    | none => s
    | some f =>
      if f.asked && !f.sent then (if rowAway s x v row then s else sendRow die e row x s)
      else if (f.arrived.getD []).length < v.stride * 64 ∨ !f.sent then s
      else
        let b := f.arrived.getD []
        let s1 := modDie die (fun d => { d with fetches := d.fetches.filter fun g => !(decide (g.entry = e) && decide (g.row = row)) }) s
        let s2 := f.waiting.foldl (fun s k => modTile die (k % 16) (k / 16) (fun t => { t with fetched := tput [] t.fetched row b }) s) s1
        let uses : Option Nat := ((getDie s die).rowUse.find? fun u => decide (u.1 = e) && decide (u.2.1 = row)).map (·.2.2)
        let s3 := if x.state = 1 ∧ 64 < uses.getD 0 then
            addHot die { entry := e, version := BitVec.ofNat 8 v.version, row := row, replicated := false,
                         lastRead := dieBoundaries s die, bytes := b } s2
          else s2
        pumpDie die s3)

/-- The sum of a row's reports. -/
def reportSum (row : Nat) (l : List HotReport) : Nat := ((l.filter fun r => decide (r.row = row)).map (·.count)).foldl (· + ·) 0

/-- A report is one that its die may send: a count above 8 of its last step (R269). -/
def reportTrue (s : State) (e : Nat) (r : HotReport) : Bool :=
  decide (r.entry = e) && decide (8 < r.count) && (getDie s (physDie s r.die)).rowUse.contains (e, r.row, r.count)

/-- The pan that a die's report belongs to. -/
def reportPan (s : State) (r : HotReport) : Option Nat := dieOfPan s (physDie s r.die)

/-- HOT_ROW_REPLICATE (R269): the reports of one pan's dies at the end of a step; rows whose reports sum above 64 are read once and copied into every
participating die that lacks them. Nothing happens while a page of a row to copy is away. -/
def execHotRowReplicate (entry : BitVec 10) (reports : List HotReport) (s : State) : Res :=
  let e := entry.toNat
  let x := getEmb s e
  let pan := reports.head?.bind (reportPan s)
  let hot := (dedup (reports.map (·.row))).filter fun i => decide (64 < reportSum i reports)
  .next (if !reports.all (fun r => reportTrue s e r && decide (reportPan s r = pan) && dieAtBoundary s (physDie s r.die)) ∨ x.state ≠ 1
      ∨ (reports.any fun r => decide (256 < (reports.filter fun q => decide (q.die = r.die)).length)) ∨ hot.any (rowAway s x x.cur) then s
    else
      let dies := (s.arr.dies.filter fun d => d.2.gathered.contains e && decide (dieOfPan s d.1 = pan)).map (·.1)
      let s1 := hot.foldl (fun s i =>
        let b := rowBytes s x x.cur i
        let copy (s : State) (p : Nat) : HotCopy :=
          { entry := e, version := BitVec.ofNat 8 x.cur.version, row := i, replicated := true, lastRead := dieBoundaries s p, bytes := b }
        dies.foldl (fun s p => addHot p (copy s p) s) s) (bumpBy EMB_HOT_ROWS hot.length s)
      dies.foldl (fun s p => modDie p (fun d => { d with
        rowUse := d.rowUse.filter fun u => !decide (u.1 = e), gathered := d.gathered.filter fun k => !decide (k = e) }) s) s1)

/-- HOT_COPY_EVICT (R270, R271): at a step boundary, a replicated copy unread for 16 steps goes, and so does a copy of a version that is
no longer CURRENT. -/
def execHotCopyEvict (die : Fin 74) (entry : BitVec 10) (row : Nat) (s : State) : Res :=
  let e := entry.toNat
  .next (if !dieAtBoundary s die then s
    else dropHot die (fun h => decide (h.entry = e) && decide (h.row = row)
      && (decide (h.lastRead + 16 ≤ dieBoundaries s die) || decide (h.version.toNat ≠ (getEmb s e).cur.version))) s)

/-! ### Tables (R258–R273, Table 10.3) -/

/-- Bytes of a row before padding (R259). -/
def rowLength (format dim : Nat) : Nat := dim * (fmtWidth format / 8) + (if format = 10 then 4 else 0)

/-- Local rows of a table on a home package: one past the greatest local index (R260). -/
def localRows (rows shift : Nat) (homes : List Nat) (chip : Nat) : Nat :=
  let n := max 1 homes.length
  (homes.zipIdx.map fun h =>
    let ranges := ceilDiv rows (2 ^ shift)
    if h.1 ≠ chip ∨ ranges ≤ h.2 then 0
    else
      let r := h.2 + (ranges - 1 - h.2) / n * n
      r / n * 2 ^ shift + min (2 ^ shift) (rows - r * 2 ^ shift)).foldl max 0

/-- EMB_TABLE_CREATE's record, at version v. -/
def createRec (m : Cmd) (v state : Nat) : EmbRec :=
  let f := m.f 0 16 8
  let dim := m.f 0 32 16
  let stride := ceilDiv (rowLength f dim) 64
  { version := v, vstate := state, format := f, sparse := bit (m.p 0) 24, dim := dim, stride := stride, base := m.f 2 0 32,
    bitmap := if bit (m.p 0) 24 then m.f 2 32 32 else 0, rows := m.p 1, scale := BitVec.ofNat 32 (m.f 3 32 32),
    rowsPerBlock := 65536 / max 1 (stride * 64) }

/-- HOMES of the command (Table 11.12). -/
def createHomes (m : Cmd) : List Nat := (List.range (m.f 3 0 8)).map fun k => m.f (4 + k / 4) (16 * (k % 4)) 16 % 1024

/-- The refusals of Table 10.3 for EMB_TABLE_CREATE. -/
def createTableRefusal (s : State) (m : Cmd) : Option Status :=
  let r := createRec m 1 2
  let homes := createHomes m
  let shift := m.f 3 8 8
  if !([0, 1, 2, 3, 10].contains r.format) ∨ r.dim < 16 ∨ 4096 < r.dim ∨ r.dim % 16 ≠ 0 ∨ r.rows = 0 ∨ 2 ^ 32 < r.rows ∨ m.f 3 0 8 = 0
      ∨ 16 < m.f 3 0 8 ∨ shift < 10 ∨ 32 < shift ∨ !homes.contains (chipId s) then some (stBadParam 0x31)
  else match objFor s m r.base, (if r.sparse then (objFor s m r.bitmap).isSome else true) with
    | none, _ => some (stBadParam 0)
    | some _, false => some (stBadParam 0)
    | some o, true =>
      let n := localRows r.rows shift homes (chipId s)
      let need := if n = 0 then 0 else rowOffset r (n - 1) + r.stride * 64
      if o.type ≠ 5 ∨ (storageOf s o).size < need ∨ (r.sparse ∧ (handleObj s m.ctx r.bitmap).size < ceilDiv n 8) then some (stBadParam 0x30)
      else none

/-- The version after v, from 1 to 255. -/
def nextVersion (v : Nat) : Nat := v % 255 + 1

/-- EMB_TABLE_CREATE (R271): a FREE entry takes record 0 as CURRENT; a READY one its EMPTY record as LOADED. -/
def execEmbTableCreate (c : CmdRef) (s : State) : Res :=
  .next (startCmd 0x0504 c s fun m s =>
    let named := m.f 0 0 10
    match (if named = 0x3FF then firstFree ((s.mdl.embs.filter fun p => decide (p.2.state ≠ 0)).map (·.1)) 1024 0 else some named),
        createTableRefusal s m with
    | none, _ => endFail m (stNoSpace 0) s
    | _, some st => endFail m st s
    | some e, none =>
      let x := getEmb s e
      if x.state = 0 then
        endOk m e 0 (modEmb e (fun _ => { EmbEntry.free with
          ctx := m.ctx, state := 1, shardShift := m.f 3 8 8, homes := createHomes m, r0 := createRec m 1 2 }) s)
      else if x.ctx ≠ m.ctx then endFail m (stNotPermitted 0) s
      else if x.state = 2 then endFail m (stBadParam 7) s
      else
        let k := if (x.ver 0).vstate = 0 then some 0 else if (x.ver 1).vstate = 0 then some 1 else none
        match k with
        | none => endFail m (stNoSpace 0) s
        | some k =>
          let r := createRec m (nextVersion x.cur.version) 1
          if r.dim ≠ x.cur.dim ∨ r.rows ≠ x.cur.rows ∨ createHomes m ≠ x.homes ∨ m.f 3 8 8 ≠ x.shardShift then endFail m (stBadParam 0x32) s
          else endOk m (e + 65536 * k) 0 (modEmb e (fun x => x.onVer k fun _ => r) s))

/-- The refusal of a command that names entry e: FREE, or another context's. -/
def tableRefusal (s : State) (c : CtxId) (e : Nat) : Option Status :=
  let x := getEmb s e
  if x.state ≠ 0 ∧ x.ctx ≠ c then some (stNotPermitted 0) else none

/-- EMB_VERSION_SWITCH (R271): a LOADED or PREVIOUS record becomes CURRENT between two builds, the other one PREVIOUS; dies without a built step drop
their copies of the old version. -/
def execEmbVersionSwitch (c : CmdRef) (s : State) : Res :=
  .next (startHeld 0x0505 c s (fun m => bit (m.p 0) 17) fun m s =>
    let e := m.f 0 0 10
    let k := m.f 0 16 1
    let x := getEmb s e
    match tableRefusal s m.ctx e with
    | some st => endFail m st s
    | none =>
      if x.state ≠ 1 ∨ (x.ver k).vstate = 0 ∨ (x.ver k).vstate = 2 then endFail m (stBadParam 0x33) s
      else
        let s1 := modEmb e (fun x => { (x.onVer x.current fun r => { r with vstate := 3 }).onVer k (fun r => { r with vstate := 2 }) with current := k }) s
        endOk m 0 0 (bump EMB_SWITCHES ((tkeys s1.arr.dies).foldl dropStale s1)))

/-- Dies at a step boundary drop a table's copies and pins (R273). -/
def dropTable (e : Nat) (s : State) : State :=
  (tkeys s.arr.dies).foldl (fun s p => if dieAtBoundary s p then dropHot p (fun h => decide (h.entry = e)) s else s) s

/-- EMB_MAINT_CHANGE (R273): with MAINT the table enters MAINT once every die has dropped its copies; without it, it returns to READY. -/
def execEmbMaintChange (c : CmdRef) (s : State) : Res :=
  let go (m : Cmd) (s : State) : State :=
    let e := m.f 0 0 10
    let s1 := dropTable e s
    if s1.arr.dies.any fun d => d.2.hot.any fun h => decide (h.entry = e) then modEmb e (fun x => { x with maintBy := some m.ref }) s1
    else endOk m 0 0 (modEmb e (fun x => { x with state := 2, maintBy := none }) s1)
  let start (m : Cmd) (s : State) : State :=
    let e := m.f 0 0 10
    match tableRefusal s m.ctx e with
    | some st => endFail m st s
    | none =>
      if (getEmb s e).state = 0 then endFail m (stBadParam 0x33) s
      else if bit (m.p 0) 18 then go m s
      else endOk m 0 0 (modEmb e (fun x => { x with state := 1 }) s)
  .next (match findCmd s c with
    | some m => if m.phase = .running then whileRunning 0x0505 c s (fun m s => if bit (m.p 0) 17 then go m s else s)
        else startHeld 0x0505 c s (fun m => !bit (m.p 0) 17) start
    | none => s)

/-- The refusal of EMB_ROW_UPDATE and EMB_APPLY_GRAD for a target record (Table 10.3). -/
def targetRefusal (s : State) (m : Cmd) : Option Status :=
  let x := getEmb s (m.f 0 0 10)
  let r := x.ver (m.f 0 16 1)
  match tableRefusal s m.ctx (m.f 0 0 10) with
  | some st => some st
  | none => if x.state = 0 ∨ r.vstate = 0 ∨ r.vstate = 3 ∨ (r.vstate = 2 ∧ x.state = 1) then some (stNotPermitted 0x34) else none

/-- The records object that a command names, with `count` records of n bytes. -/
def recordsOf (s : State) (m : Cmd) (h count n : Nat) : Status ⊕ Obj :=
  match objFor s m h with
  | none => .inl (stBadParam 0)
  | some o =>
    let b := storageOf s o
    if b.size < count * n then .inl (stBadParam 7) else if b.lost then .inl (stFaultContained 0x50) else .inr b

/-- Update records applied in order: rows written, records dropped, and whether a frame was missing. -/
def applyUpdates (s0 : State) (x : EmbEntry) (r : EmbRec) (o : Obj) : Nat → Nat → Nat × Nat → State → (Nat × Nat × Bool) × State
  | 0, _, n, s => ((n.1, n.2, true), s)
  | fuel + 1, k, n, s =>
    let sz := 64 + r.stride * 64
    let hd := objBytes s0 o (k * sz) 8
    let i := fieldAt hd 0 4
    if r.rows ≤ i ∨ rowHome x i ≠ chipId s then applyUpdates s0 x r o fuel (k + 1) (n.1, n.2 + 1) (bump EMB_BITTERN_GRADDROP s)
    else if bit (fieldAt hd 4 4) 0 then applyUpdates s0 x r o fuel (k + 1) n (deleteRow x r i s)
    else
      let w := writeRow x r i (objBytes s0 o (k * sz + 64) (r.stride * 64)) s
      if w.1 then applyUpdates s0 x r o fuel (k + 1) (n.1 + 1, n.2) (bump EMB_ROW_WRITES w.2) else ((n.1, n.2, false), w.2)

/-- EMB_ROW_UPDATE (R272): rows are written or deleted in record order; held while a page that it needs is away or the table's object moves (R138). -/
def execEmbRowUpdate (c : CmdRef) (s : State) : Res :=
  let sz (s : State) (m : Cmd) : Nat := 64 + ((getEmb s (m.f 0 0 10)).ver (m.f 0 16 1)).stride * 64
  .next (startHeld 0x0506 c s
    (fun m => (targetRefusal s m).isNone && (match recordsOf s m (m.f 1 0 32) (m.f 2 0 32) (sz s m) with
      | .inr o => rangeAway o 0 (m.f 2 0 32 * sz s m) || recMoving s (getEmb s (m.f 0 0 10)) ((getEmb s (m.f 0 0 10)).ver (m.f 0 16 1))
          || (List.range (m.f 2 0 32)).any fun k => rowAway s (getEmb s (m.f 0 0 10)) ((getEmb s (m.f 0 0 10)).ver (m.f 0 16 1))
              (fieldAt (objBytes s o (k * sz s m) 4) 0 4)
      | .inl _ => false))
    fun m s =>
      match targetRefusal s m, recordsOf s m (m.f 1 0 32) (m.f 2 0 32) (sz s m) with
      | some st, _ => endFail m st s
      | none, .inl st => endFail m st s
      | none, .inr o =>
        let x := getEmb s (m.f 0 0 10)
        let r := applyUpdates s x (x.ver (m.f 0 16 1)) o (m.f 2 0 32) 0 (0, 0) s
        if r.1.2.2 then endOk m r.1.1 r.1.2.1 r.2 else endWith m (stNoSpace 0) false r.1.1 r.1.2.1 r.2)

/-! ### EMB_LOOKUP (R267) -/

/-- The pairs of bag b of a bag list of n bags: from its offset to the next bag's, the last to the end of the object. -/
def lookupBag (s : State) (o : Obj) (n b : Nat) : List (Word × Word) :=
  let off (k : Nat) : Nat := if k < n then fieldAt (objBytes s o (4 + 4 * k) 4) 0 4 else o.size
  let a := off b
  let z := max a (off (b + 1))
  (List.range ((z - a) / 8)).map fun k =>
    let w := objBytes s o (a + 8 * k) 8
    (BitVec.ofNat 32 (fieldAt w 0 4), BitVec.ofNat 32 (fieldAt w 4 4))

/-- A row that a lookup needs: from the die's copy where it has one, else fetched, and pinned once the slice has used it more than 64 times (R268,
R269). -/
def lookupFetch (p e i n : Nat) (s : State) : List Byte × State :=
  let v := embRec s p e
  let s1 := modDie p (fun d => { d with rowUse := useRow e i n d.rowUse }) s
  match (if (getEmb s e).state = 1 then hotCopy (getDie s p) e v.version i else none) with
  | some h => (h.bytes, bump (EMB_HOT_HITS p) (readHot p h (dieBoundaries s p) s1))
  | none =>
    let b := rowBytes s (getEmb s e) v i
    let s2 := bump (EMB_FETCH p) s1
    let uses : Option Nat := ((getDie s1 p).rowUse.find? fun u => decide (u.1 = e) && decide (u.2.1 = i)).map (·.2.2)
    (b, if (getEmb s e).state = 1 ∧ 64 < uses.getD 0 then
      addHot p { entry := e, version := BitVec.ofNat 8 v.version, row := i, replicated := false, lastRead := dieBoundaries s p, bytes := b } s2 else s2)

/-- The pooled row of a host bag in FP32, padded to 64 bytes, with the pairs counted on a die. The built-in image's rounds are not in the source: each
bag is taken as a round of its own (notes/assumptions/109). -/
def lookupRow (p e : Nat) (ps : List (Word × Word)) (s : State) : List Byte × State :=
  let kept := keptPairs s p e ps
  let rows := dedup (kept.map fun q => q.1.toNat)
  let got := rows.foldl (fun (r : List Word × State) i =>
    let mine := kept.filter fun q => decide (q.1.toNat = i)
    let wi := bagWeight kept i
    let f := lookupFetch p e i mine.length r.2
    let vs := rowValues (embRec s p e) f.1
    (r.1.zipIdx.map fun a => fFma wi (vs.getD a.2 0) a.1, f.2)) (List.replicate (embRec s p e).dim (0 : Word), countPairs p e ps s)
  let acc := got.1
  let s1 := bump (EMB_ROUNDS p) (bumpBy (EMB_COALESCED p) (kept.length - rows.length) got.2)
  ((acc.map fun w => leBytes 4 w.toNat).flatten, if kept.isEmpty then bump (EMB_EMPTY_BAGS p) s1 else s1)

/-- All bags in order into the output object; the flag is false when a frame was missing. -/
def lookupBags (s0 : State) (o : Obj) (m : Cmd) (p e n : Nat) : List Nat → State → Bool × State
  | [], s => (true, s)
  | b :: bs, s =>
    let r := lookupRow p e (lookupBag s0 o n b) s
    let w := writeObj m.ctx (hIndex (m.f 1 32 32)) (b * ceilDiv ((getEmb s e).cur.dim * 4) 64 * 64) r.1 r.2
    if w.1 then lookupBags s0 o m p e n bs w.2 else w

/-- A lookup waits: a page of its list, of its output or of a row that it names is away, or its output is moving (R138, R149). -/
def lookupAway (s : State) (m : Cmd) : Bool :=
  let e := m.f 0 0 10
  let x := getEmb s e
  match objFor s m (m.f 1 0 32), objFor s m (m.f 1 32 32) with
  | some l, some out =>
    let o := storageOf s l
    let n := fieldAt (objBytes s o 0 4) 0 4
    rangeAway o 0 o.size || rangeAway (storageOf s out) 0 (storageOf s out).size || (storageOf s out).move.isSome
      || (List.range (min n (o.size / 4))).any fun b => (lookupBag s o n b).any fun q =>
        decide (q.1.toNat < x.cur.rows) && decide (rowHome x q.1.toNat = chipId s) && rowAway s x x.cur q.1.toNat
  | _, _ => false

/-- EMB_LOOKUP (R267): host bags are pooled on the pan's north-west die as a job of its pre-emption plane, between two commands of the pan;
the pan passes one wave into the job plane. A bag above 4,096 pairs raises ARR_EXCHANGE (R261). -/
def execEmbLookup (c : CmdRef) (s : State) : Res :=
  .next (startHeld 0x0507 c s
    (fun m => match panRefusal s m.ctx (m.f 0 16 4), getPan s (m.f 0 16 4) with
      | none, some p => p.wave.isSome || p.run.isSome || p.step.isSome || p.load.isSome || lookupAway s m
      | _, _ => false)
    fun m s =>
      let e := m.f 0 0 10
      match panRefusal s m.ctx (m.f 0 16 4), tableRefusal s m.ctx e, objFor s m (m.f 1 0 32), objFor s m (m.f 1 32 32) with
      | some st, _, _, _ => endFail m st s
      | none, some st, _, _ => endFail m st s
      | none, none, some l, some out =>
        let o := storageOf s l
        let n := fieldAt (objBytes s o 0 4) 0 4
        let p := match getPan s (m.f 0 16 4) with | some q => (panDies s q).headD 0 | none => 0
        if (getEmb s e).state = 0 then endFail m (stBadParam 7) s
        else if out.isReadOnly then endFail m (stNotPermitted 0) s
        else if o.lost then endFail m (stFaultContained 0x50) s
        else if o.size < 4 + 4 * n ∨ out.size < n * (ceilDiv ((getEmb s e).cur.dim * 4) 64 * 64) then endFail m (stBadParam 7) s
        else if (List.range n).any fun b => decide (4096 < (lookupBag s o n b).length) then
          endWith m (stFaultContained 0) false 0 0 (present (panEvent s 0x0106 p (m.f 0 16 4)) s)
        else
          let s0 := modDie p (fun d => { d with rowUse := [], gathered := [e], embVer := embNow s }) s
          let r0 := lookupBags s o m p e n (List.range n) s0
          let r := (r0.1, dropHot p (fun h => !h.replicated) r0.2)
          if r.1 then endOk m n 0 r.2 else endWith m (stNoSpace 0) false 0 0 r.2
      | _, _, _, _ => endFail m (stBadParam 0) s)

/-! ### Gradients (R275, R276) -/

/-- A gradient added to a list of merged rows. -/
def mergeGrad (g : GradRow) : List GradRow → List GradRow
  | [] => [g]
  | h :: t => if h.row = g.row then { h with vals := h.vals.zipIdx.map fun v => fAdd v.1 (g.vals.getD v.2 0) } :: t else h :: mergeGrad g t

/-- Gradient record k of an object (R274). -/
def gradRecord (s : State) (o : Obj) (dim k : Nat) : GradRow :=
  let n := 64 + ceilDiv (dim * 4) 64 * 64
  let b := objBytes s o (k * n) (64 + dim * 4)
  { row := fieldAt b 0 4, vals := (List.range dim).map fun j => BitVec.ofNat 32 (fieldAt b (64 + 4 * j) 4) }

/-- One update of a row (R275, step 5). -/
def gradUpdate (sgd : Bool) (eta : Word) (r : EmbRec) (b : List Byte) (g : GradRow) : List Byte :=
  rowRebuild r b ((rowValues r b).zipIdx.map fun v =>
    if sgd then fFma (eta ^^^ 0x80000000) (g.vals.getD v.2 0) v.1 else fAdd v.1 (g.vals.getD v.2 0))

/-- A frame of the gradient exchange (R275, step 3): the exchange header with GRAD_EPOCH, the table's entry in LAYER and no source die,
then a tag with the row and the first element's offset, then up to 992 elements (notes/assumptions/55). -/
def gradFrame (s : State) (dest flow entry epoch phase count row off : Nat) (vals : List Word) : ElpFrame :=
  let hd := leBytes 8 epoch ++ leBytes 2 entry ++ leBytes 1 phase ++ leBytes 1 0 ++ leBytes 2 0xFFFF ++ leBytes 2 (chipId s) ++ leBytes 4 count
    ++ leBytes 2 (b2n (phase = 0)) ++ leBytes 10 0
  let tag := if phase = 0 then leBytes 4 row ++ leBytes 4 off ++ leBytes 56 0 else []
  ownFrame s dest 1 3 (getEmb s entry).ctx true flow epoch (hd ++ tag ++ (vals.map fun w => leBytes 4 w.toNat).flatten)

/-- A merged row goes to its home in pieces. -/
def sendGradRow (dest flow entry epoch : Nat) (g : GradRow) (s : State) : State :=
  (List.range (ceilDiv g.vals.length 992)).foldl (fun s k =>
    sendFrame (gradFrame s dest flow entry epoch 0 0 g.row (992 * k) ((g.vals.drop (992 * k)).take 992)) s) s

/-- Every other home gets its rows and an end marker. -/
def sendGrads (x : EmbEntry) (entry epoch : Nat) (away : List GradRow) (s : State) : State :=
  ((dedup x.homes).filter fun h => !decide (h = chipId s)).foldl (fun s h =>
    let f := newFlow s
    let mine := away.filter fun g => decide (rowHome x g.row = h)
    sendFrame (gradFrame f.2 h f.1 entry epoch 2 mine.length 0 0 []) (mine.foldl (fun s g => sendGradRow h f.1 entry epoch g s) f.2)) s

/-- What another home sent, with f applied; an unlisted one has sent nothing. -/
def modGradIn (entry epoch chip : Nat) (f : GradIn → GradIn) (l : List GradIn) : List GradIn :=
  let mine (x : GradIn) : Bool := decide (x.entry = entry) && decide (x.epoch = epoch) && decide (x.chip = chip)
  if l.any mine then l.map fun x => if mine x then f x else x
  else l ++ [f { entry := entry, epoch := epoch, chip := chip, rows := [], ended := false }]

/-- A piece joins its row. -/
def addPiece (row off : Nat) (vals : List Word) (l : List GradRow) : List GradRow :=
  if l.any fun g => decide (g.row = row) && decide (g.vals.length = off) && decide (off ≠ 0) then
    l.map fun g => if g.row = row ∧ g.vals.length = off then { g with vals := g.vals ++ vals } else g
  else l ++ [{ row := row, vals := vals }]

/-- A gradient frame arrives: a row's piece or an end marker; contributions to an epoch already applied are discarded and counted
(R276). -/
def gradArrive (b : List Byte) (s : State) : State :=
  let e := fieldAt b 8 2
  let epoch := fieldAt b 0 8
  let chip := fieldAt b 0xE 2 % 1024
  if epoch ≤ (getEmb s e).appliedGepoch then (if fieldAt b 0xA 1 = 0 then bump EMB_BITTERN_REGRAD s else s)
  else s.onMdl fun d => { d with gradIn := modGradIn e epoch chip (fun x =>
    if fieldAt b 0xA 1 = 2 then { x with ended := true }
    else { x with rows := addPiece (fieldAt b 32 4) (fieldAt b 36 4) ((List.range ((b.length - 96) / 4)).map fun k => BitVec.ofNat 32 (fieldAt b (96 + 4 * k) 4)) x.rows }) d.gradIn }

/-- Contributions of a table's gradient epoch. -/
def gradInOf (s : State) (w : GradWork) : List GradIn := s.mdl.gradIn.filter fun x => decide (x.entry = w.entry) && decide (x.epoch = w.epoch)

/-- A gradient row that its home cannot take: not below ROWS, or missing (R262, R275). -/
def gradBad (s : State) (x : EmbEntry) (r : EmbRec) (g : GradRow) : Bool :=
  decide (r.rows ≤ g.row) || (decide (rowHome x g.row = chipId s) && !rowPresent s x r g.row)

/-- The merged rows of every home are applied, one update each, and the command ends (R275, steps 4 to 6). -/
def applyGrads (m : Cmd) (w : GradWork) (s : State) : State :=
  let e := w.entry
  let k := m.f 0 16 1
  let x := getEmb s e
  let r := x.ver k
  let came := (gradInOf s w).flatMap (·.rows)
  let good := came.filter fun g => !gradBad s x r g
  let dropped := came.length - good.length
  let a := (good.foldl (fun l g => mergeGrad g l) w.rows).foldl (fun (a : Nat × State) g =>
    let b := writeRow x r g.row (gradUpdate (bit (m.p 0) 17) (BitVec.ofNat 32 (m.f 2 0 32)) r (rowBytes a.2 x r g.row) g) a.2
    (a.1 + 1, bump EMB_ROW_WRITES b.2)) (0, bumpBy EMB_BITTERN_GRADDROP dropped s)
  endOk m a.1 (w.dropped + dropped) (modEmb e (fun x => { x with appliedGepoch := m.p 3 }) (a.2.onMdl fun d => { d with
    grads := d.grads.filter fun g => !decide (g.cmd = w.cmd)
    gradIn := d.gradIn.filter fun g => !(decide (g.entry = e) && decide (g.epoch ≤ w.epoch)) }))

/-- Every other home's end marker has come. -/
def gradComplete (s : State) (w : GradWork) : Bool :=
  (getEmb s w.entry).homes.all fun h => decide (h = chipId s) || (gradInOf s w).any fun x => decide (x.chip = h) && x.ended

/-- EMB_APPLY_GRAD (R275, R276): the records are merged, those homed elsewhere leave for their homes, and once every home's end marker has
come each row is updated once. An epoch that was applied before changes nothing. -/
def execEmbApplyGrad (c : CmdRef) (s : State) : Res :=
  let dim (s : State) (m : Cmd) : Nat := ((getEmb s (m.f 0 0 10)).ver (m.f 0 16 1)).dim
  let start (m : Cmd) (s : State) : State :=
    let e := m.f 0 0 10
    let n := m.f 1 32 32
    match targetRefusal s m, recordsOf s m (m.f 1 0 32) n (64 + ceilDiv (dim s m * 4) 64 * 64) with
    | some st, _ => endFail m st s
    | none, .inl st => endFail m st s
    | none, .inr o =>
      let x := getEmb s e
      let r := x.ver (m.f 0 16 1)
      if m.p 3 ≤ x.appliedGepoch then endOk m 0 0 (bumpBy EMB_BITTERN_REGRAD n s)
      else
        let recs := (List.range n).map (gradRecord s o (dim s m))
        let good := recs.filter fun g => !gradBad s x r g
        let merged := good.foldl (fun l g => mergeGrad g l) []
        let w : GradWork :=
          { cmd := m.ref, entry := e, epoch := m.p 3, rows := merged.filter fun g => decide (rowHome x g.row = chipId s),
            dropped := recs.length - good.length, since := s.tick }
        let s1 := sendGrads x e (m.p 3) (merged.filter fun g => !decide (rowHome x g.row = chipId s)) (bumpBy EMB_BITTERN_GRADDROP w.dropped s)
        if gradComplete s1 w && !recMoving s x r then applyGrads m w s1 else s1.onMdl fun d => { d with grads := d.grads ++ [w] }
  let more (m : Cmd) (s : State) : State :=
    match s.mdl.grads.find? fun g => decide (g.cmd = m.ref) with
    | some w => if gradComplete s w && !recMoving s (getEmb s w.entry) ((getEmb s w.entry).ver (m.f 0 16 1)) then applyGrads m w s else s
    | none => s
  .next (match findCmd s c with
    | some m => if m.phase = .running then whileRunning 0x0508 c s more
        else startHeld 0x0508 c s (fun m => (targetRefusal s m).isNone
          && (rangeAway (handleObj s m.ctx (m.f 1 0 32)) 0 (m.f 1 32 32 * (64 + ceilDiv (dim s m * 4) 64 * 64)))) start
    | none => s)

/-- GRAD_WAIT_TIMEOUT (R276): a home that lacks an end marker after GRAD_WAIT_MS applies nothing, and drops what came for the epoch. -/
def execGradWaitTimeout (entry : BitVec 10) (s : State) : Res :=
  .next (match s.mdl.grads.find? fun g => decide (g.entry = entry.toNat) with
    | some w =>
      if gradComplete s w ∨ s.tick ≤ w.since + msTicks (getFld s EMB_CTL 0 16) then s
      else
        let s1 := s.onMdl fun d => { d with
          grads := d.grads.filter fun g => !decide (g.cmd = w.cmd)
          gradIn := d.gradIn.filter fun g => !(decide (g.entry = w.entry) && decide (g.epoch = w.epoch)) }
        match findCmd s1 w.cmd with | some m => endWith m (stFaultContained 0) false 0 0 s1 | none => s1
    | none => s)

end Sys2Proof.Machine
end

