-- ==== Sys2Proof/Machine/Objects.lean ====
section
/-! DEFINITION. Objects and quotas: the object commands and CTX_SET_QUOTA (R135–R145, R164, Tables 11.8 and 11.9). -/

namespace Sys2Proof.Machine

/-- A place for an object: (port die, location, page table), or the status that refuses it. A tier-2 object's LOCATION is the tier-1
address of its page table (Table 5.3); a KV_POOL lies at a multiple of its KV pages' 256 KiB (R144). -/
def placeFor (s : State) (type tier die size : Nat) : Option (Nat × Nat × Nat) :=
  let n := t1Charge tier size
  (findAligned s (if type = 6 then 4 else 1) (if tier = 2 then 1 else tier) (if tier = 2 then 0xFF else die) n).map fun p => (p.1, p.2 * 65536, n)

/-- The tier rules of OBJ_CREATE (Table 11.9): SPILL never, KV_POOL only in tier 1, KV_ARCHIVE only in tier 2. -/
def tierRule (type tier : Nat) : Bool :=
  !decide (type = 9) && (!decide (type = 6) || decide (tier = 1)) && (!decide (type = 7) || decide (tier = 2))

/-- OBJ_CREATE's checks in order: fields, tier rules, quota. -/
def createCheck (s : State) (m : Cmd) : Option Status :=
  let type := m.f 0 0 8
  let tier := m.f 0 8 8
  let die := m.f 0 16 8
  let fpb := m.f 0 32 11
  let size := m.p 1
  if 9 < type ∨ 2 < tier ∨ (11 < die ∧ die ≠ 0xFF) ∨ fpb = 0 ∨ 1024 < fpb ∨ size = 0 then some (stBadParam 7)
  else if !tierRule type tier then some (stBadParam 9)
  else if (freeIndex s m.ctx).isNone then some stQuota
  else if overQuota s m.ctx (t1Charge tier size) (t2Charge tier size) (t1Use s m.ctx) then some stQuota
  else none

/-- OBJ_CREATE (R137): an object of the named tier and pool or slice, scrubbed, within the quota. -/
def execObjCreate (c : CmdRef) (s : State) : Res :=
  .next (startCmd 0x0201 c s fun m s =>
    match createCheck s m with
    | some st => endFail m st s
    | none =>
      let tier := m.f 0 8 8
      let size := m.p 1
      match placeFor s (m.f 0 0 8) tier (m.f 0 16 8) size, freeIndex s m.ctx with
      | some (die, loc, n), some i =>
        let s1 := charge m.ctx (t1Charge tier size) (t2Charge tier size) (takeBlocks (loc / 65536) n s)
        let s2 := putObj m.ctx i { Obj.fresh with
          type := BitVec.ofNat 8 (m.f 0 0 8), state := 1, tier := tier, portDie := die, flitsPerBlock := m.f 0 32 11,
          size := size, location := loc } s1
        endOk m (i + 65536 * (getObj s2 m.ctx i).gen.toNat) 0 s2
      | _, _ => endFail m (stNoSpace 0) s)

/-- OBJ_FREE (R139, R140): the object is freeing from now on; OBJ_FREE_RELEASE completes the command. -/
def execObjFree (c : CmdRef) (s : State) : Res :=
  .next (startCmd 0x0202 c s fun m s =>
    let h := m.f 0 0 32
    match objFor s m h with
    | none => endFail m (stBadParam 0) s
    | some _ =>
      match freeRefusal s m.ctx h with
      | some st => endFail m st s
      | none => modObj m.ctx (hIndex h) (fun o => { o with state := 3 }) s)

/-- OBJ_FREE_RELEASE (R140): when no other command names the freeing object, its storage is returned and its OBJ_FREE ends. The owner's
storage stays while aliases remain (R139). -/
def execObjFreeRelease (ctx : CtxId) (index : BitVec 16) (s : State) : Res :=
  let i := index.toNat
  let o := getObj s ctx i
  let freer := s.cmds.find? fun m => decide (m.ctx = ctx) && decide (m.opcode = 0x0202) && decide (m.phase = .running)
    && decide (hIndex (m.f 0 0 32) = i)
  .next (match freer with
    | none => s
    | some m =>
      if o.state ≠ 3 ∨ objNamed s ctx i m.seqno then s
      else
        let s1 :=
          if o.aliased then dropAlias o.ownerCtx (hIndex o.ownerHandle.toNat) (dropObj ctx i s)
          else if 0 < o.shareCount then modObj ctx i (fun x => { x with orphan := true }) s
          else dropObj ctx i s
        endOk m 0 0 s1)

/-- OBJ_PLACE's destination is the object's present placement (R138). -/
def samePlace (o : Obj) (tier die : Nat) : Bool :=
  decide (o.tier = tier) && (decide (tier = 2) || decide (die = 0xFF) || decide (die = o.portDie))

/-- OBJ_PLACE (R138): the destination is charged and taken, and the move starts; a command that meets a running move of the object is
held until it ends. -/
def execObjPlace (c : CmdRef) (s : State) : Res :=
  .next (startHeld 0x0203 c s
    (fun m => match objFor s m (m.f 0 0 32) with
      | some o => decide (o.state = 2) || (decide (o.tier = 2) && rangeAway o 0 o.size)
      | none => false)
    fun m s =>
      let h := m.f 0 0 32
      let tier := m.f 0 32 8
      let die := m.f 0 40 8
      match objFor s m h with
      | none => endFail m (stBadParam 0) s
      | some o =>
        if 2 < tier ∨ (11 < die ∧ die ≠ 0xFF) then endFail m (stBadParam 7) s
        else if o.aliased ∨ placeRefused s m.ctx h tier then endFail m (stNotPermitted 0) s
        else if o.type = 9 ∨ !tierRule o.type.toNat tier then endFail m (stBadParam 9) s
        else if samePlace o tier die then endOk m 0 0 s
        else if overQuota s m.ctx (t1Charge tier o.size) (t2Charge tier o.size) (t1Use s m.ctx) then endFail m stQuota s
        else
          match placeFor s o.type.toNat tier die o.size, takeFrames (if tier = 2 then o.pageCount else 0) s with
          | some (pd, loc, n), some (fs, s1) =>
            let s2 := charge m.ctx (t1Charge tier o.size) (t2Charge tier o.size) (takeBlocks (loc / 65536) n s1)
            let pages : Tab PageEntry := fs.zipIdx.map fun f => (f.2, { state := 1, frame := f.1, remoteChip := 0 })
            modObj m.ctx (hIndex h) (fun o => { o with
              state := 2
              pages := o.pages.map fun p => if p.2.state = 1 then (p.1, { p.2 with state := 3 }) else p
              move := some { tier := tier, portDie := pd, location := loc, pages := pages, cmd := m.ref } }) s2
          | _, _ => endFail m (stNoSpace 0) s)

/-- A KV_POOL of context c has moved from one address to another: the KV maps, the input pages and the pages in use follow (R144, R154). -/
def moveKv (c : CtxId) (old new size : Nat) (s : State) : State :=
  let at' (a : Nat) : Nat := if old ≤ a ∧ a < old + size then new + (a - old) else a
  let page (n : Nat) : Nat := at' (n * 0x40000) / 0x40000
  modCtx c (fun x => { x with kvUsed := x.kvUsed.map page }) (s.seq.entries.foldl (fun s p => modEntry p.1 (fun e => if e.ctx = c then { e with
    kvMap := e.kvMap.map fun k => if k.2.loc = 1 ∧ !k.2.remote then (k.1, { k.2 with addr := at' k.2.addr }) else k
    inputPages := e.inputPages.map page } else e) s) s)

/-- OBJ_MOVE_DONE (R138): the contents stand at the destination, LOCATION changes in one write, and the old space is freed once the
commands that began against it have ended. -/
def execObjMoveDone (ctx : CtxId) (index : BitVec 16) (s : State) : Res :=
  let i := index.toNat
  let o := getObj s ctx i
  .next (match o.move with
    | none => s
    | some v =>
      let back : Tab PageEntry := o.pages.map fun p => if p.2.state = 3 then (p.1, { p.2 with state := 1 }) else p
      let old := { o with pages := back }
      let new := { o with state := if o.state = 2 then 1 else o.state, tier := v.tier, portDie := v.portDie, location := v.location, pages := v.pages, move := none,
                          oldCopy := some { tier := o.tier, location := o.location, pages := back, readers := readersOf s ctx i, streams := streamsOf s ctx i,
                                            steps := slotSteps s ctx i } }
      let data := objBytes s old 0 o.size
      let s1 := s.onMem fun m => { m with bytes := pokeObj new 0 data m.bytes }
      let s2 := refreshSlots ctx i o.location (modObj ctx i (fun _ => new) s1)
      let s3 := if o.type = 6 then moveKv ctx o.location v.location o.size s2 else s2
      reapOld (match findCmd s3 v.cmd with | some m => endOk m 0 0 s3 | none => s3))

/-- A range is outside an object. -/
def outside (o : Obj) (off len : Nat) : Bool := decide (o.size < off + len)

/-- A host access to an object waits: it is moving and the access writes it (R138), or a page of the range is away (R143). -/
def accessHeld (s : State) (m : Cmd) (h off len : Nat) (write : Bool) : Bool :=
  match objFor s m h with
  | some o =>
    let b := storageOf s o
    (write && decide (b.state = 2)) || (!outside b off len && rangeAway b off len)
  | none => false

/-- OBJ_WRITE_HOST (R143): host bytes enter the object, ZERO pages taking frames; where frames run out, what was written stands. -/
def execObjWriteHost (c : CmdRef) (data : List Byte) (s : State) : Res :=
  .next (startHeld 0x0205 c s (fun m => accessHeld s m (m.f 0 0 32) (m.p 1) (m.p 3) true) fun m s =>
    let h := m.f 0 0 32
    match objFor s m h with
    | none => endFail m (stBadParam 0) s
    | some o =>
      if outside o (m.p 1) (m.p 3) then endFail m (stBadParam 7) s
      else if o.isReadOnly then endFail m (stNotPermitted 0) s
      else
        let r := writeObj m.ctx (hIndex h) (m.p 1) (bytesAt data 0 (m.p 3)) s
        if r.1 then endOk m 0 0 r.2 else endWith m (stNoSpace 0) false 0 0 r.2)

/-- OBJ_READ_HOST (R296): a range of an object goes to a host buffer; a LOST object answers DETAIL 0x0050 (R334). -/
def execObjReadHost (c : CmdRef) (s : State) : Res :=
  .next (startHeld 0x0206 c s (fun m => accessHeld s m (m.f 0 0 32) (m.p 1) (m.p 3) false) fun m s =>
    match objFor s m (m.f 0 0 32) with
    | none => endFail m (stBadParam 0) s
    | some o =>
      let b := storageOf s o
      if outside b (m.p 1) (m.p 3) then endFail m (stBadParam 7) s
      else if b.lost then endFail m (stFaultContained 0x50) s
      else endOk m 0 0 (dmaWrite m.ctx (m.p 2) (objBytes s b (m.p 1) (m.p 3)) s))

/-- A command that reads or writes a host buffer (Tables 11.8–11.16). -/
def hostBuffered (m : Cmd) : Bool :=
  match m.opcode.toNat with
  | 0x0103 => decide (m.p 0 ≠ 0)
  | 0x0401 => decide (m.f 9 0 32 ≠ 0)
  | o => [0x0105, 0x0205, 0x0206, 0x0402, 0x0503, 0x0701, 0x0703, 0x0704, 0x0801, 0x0803, 0x0804, 0x0805, 0x0902].contains o

/-- What a host transfer moved before its DMA failed: the bytes that an OBJ_WRITE_HOST wrote, or as many as an OBJ_READ_HOST read; they stand
(R288, Table 11.9). -/
def movedBefore (m : Cmd) (moved : List Byte) (s : State) : Option State :=
  let h := m.f 0 0 32
  let w := decide (m.opcode = 0x0205)
  if moved.isEmpty || (!w && !decide (m.opcode = 0x0206)) || accessHeld s m h (m.p 1) (m.p 3) w then none
  else match objFor s m h with
    | none => none
    | some o =>
      let b := storageOf s o
      if outside b (m.p 1) (m.p 3) then none
      else if w then (if o.isReadOnly then none else some (writeObj m.ctx (hIndex h) (m.p 1) (bytesAt moved 0 (min moved.length (m.p 3))) s).2)
      else if b.lost then none
      else some (dmaWrite m.ctx (m.p 2) (objBytes s b (m.p 1) (min moved.length (m.p 3))) s)

/-- DMA_FAULT (R288): by what the DMA was for, a command fails with DETAIL 0x0006, what it moved standing, or a queue or the token ring stops. -/
def execDmaFault (purpose : DmaPurpose) (s : State) : Res :=
  .next (match purpose with
    | .hostBuffer c moved =>
      match findCmd s c with
      | some m =>
        if m.isEnded || !hostBuffered m then s
        else if m.phase = .running then endWith m (stBadParam 6) false 0 0 s
        else if startable s m then
          match movedBefore m moved (markStarted m s) with
          | some s1 => endWith m (stBadParam 6) false 0 0 s1
          | none => endFail m (stBadParam 6) (markStarted m s)
        else s
      | none => s
    | .slotFetch ctx q => if canFetch s ctx = some q.val then stopQueue ctx q 1 s else s
    | .completionWrite ctx q => if qLive s ctx q then stopQueue ctx q 2 s else s
    | .tokenWrite ctx =>
      if tokEnabled s ctx then modCtx ctx (fun x => { x with tok := { x.tok with stopped := true, err := 4 } }) s else s)

/-- OBJ_COPY (R145): the checks, and the chain of movers starts; STREAM_BLOCK_DONE carries it on. -/
def execObjCopy (c : CmdRef) (s : State) : Res :=
  .next (startHeld 0x0204 c s
    (fun m => accessHeld s m (m.f 0 32 32) (m.p 2) (m.p 3) true || accessHeld s m (m.f 0 0 32) (m.p 1) (m.p 3) false)
    fun m s =>
      match objFor s m (m.f 0 0 32), objFor s m (m.f 0 32 32) with
      | some a, some b =>
        let src := storageOf s a
        if m.p 1 % 64 ≠ 0 ∨ m.p 2 % 64 ≠ 0 ∨ m.p 3 % 64 ≠ 0 ∨ outside src (m.p 1) (m.p 3) ∨ outside b (m.p 2) (m.p 3) then
          endFail m (stBadParam 7) s
        else if b.isReadOnly then endFail m (stNotPermitted 0) s
        else if src.lost then endFail m (stFaultContained 0x50) s
        else if m.p 3 = 0 then endOk m 0 0 s
        else s.onMem fun e => { e with
          streams := tput none e.streams e.nextStream (some
            { use := .copy, cmd := some m.ref, list := 0, closing := false, order := 0, pan := 16, ctx := m.ctx, kind := 0, rt := false, port := 0, vq := 0, dies := [],
              handle := BitVec.ofNat 32 (m.f 0 0 32), offset := m.p 1, length := m.p 3,
              dstHandle := BitVec.ofNat 32 (m.f 0 32 32), dstOffset := m.p 2, deadlineUs := 0, firstRequest := none, done := 0, issued := 0,
              kv := none, asked := 0, read := 0, landed := [], arrived := [], block := [], openEpoch := none, late := false, phase := .running })
          nextStream := e.nextStream + 1 }
      | _, _ => endFail m (stBadParam 0) s)

/-- OBJ_SHARE (R139): a read-only alias enters the target's table. -/
def execObjShare (c : CmdRef) (s : State) : Res :=
  .next (startCmd 0x0207 c s fun m s =>
    let pf := bit (m.p 1) 16
    let owner : CtxId := if pf then BitVec.ofNat 12 (m.f 1 0 12) else m.ctx
    let target : CtxId := BitVec.ofNat 12 (m.f 0 32 12)
    let h := m.f 0 0 32
    if pf ∧ fnOf m.ctx ≠ 0 then endFail m (stNotPermitted 0) s
    else if !pf ∧ fnOf target ≠ fnOf m.ctx then endFail m (stNotPermitted 0) s
    else
      match (if pf then objAt s owner h else objFor s m h) with
      | none => endFail m (stBadParam 0) s
      | some o =>
        if o.state = 3 then endFail m (stBadParam 0) s
        else if o.aliased ∨ (getCtx s target).state ≠ 1 then endFail m (stNotPermitted 0) s
        else
          match freeIndex s target with
          | none => endFail m stQuota s
          | some i =>
            let s1 := modObj owner (hIndex h) (fun x => { x with shareCount := x.shareCount + 1 }) s
            let s2 := putObj target i { Obj.fresh with
              type := o.type, state := 1, tier := o.tier, portDie := o.portDie, aliased := true, readOnly := true,
              flitsPerBlock := o.flitsPerBlock, size := o.size, location := o.location,
              ownerHandle := BitVec.ofNat 32 h, ownerCtx := owner } s1
            endOk m (i + 65536 * (getObj s2 target i).gen.toNat) 0 s2)

/-- CTX_SET_QUOTA (R164): quotas, share weight and KV transcoding of a context; OBJ_MAX below the entries in use is refused. The object table of an open
context takes its new size (R136). -/
def execCtxSetQuota (c : CmdRef) (s : State) : Res :=
  .next (startCmd 0x0104 c s fun m s =>
    let target : CtxId := BitVec.ofNat 12 (m.f 0 0 12)
    let objMax := m.f 3 16 16
    let share := m.f 3 32 8
    if objMax = 0 ∨ share = 0 then endFail m (stBadParam 7) s
    else if objMax < (getCtx s target).objs.length then endFail m stQuota s
    else
      let old := (getCtx s target).quota
      let s1 := modCtx target (fun x => { x with
        quota := { t1Units := m.p 1, t2Pages := m.p 2, seqs := m.f 3 0 15, objMax := objMax, share := share, kvFp8 := bit (m.p 3) 40 } }) s
      if ((getCtx s target).state = 1 ∨ (getCtx s target).state = 3) ∧ objMax ≠ old.objMax then
        let r := placeTable target (freeTable target s1)
        if r.1 then endOk m 0 0 r.2 else endFail m (stNoSpace 0) s
      else endOk m 0 0 s1)

end Sys2Proof.Machine
end

