-- ==== Sys2Proof/Machine/Models.lean ====
section
/-! DEFINITION. The model table, adapter slots, steering areas and exit thresholds (chapter 8, R254). -/

namespace Sys2Proof.Machine

/-! ### MODEL_IMPORT (R215, R216) -/

/-- The version record that a manifest describes. The manifest's layout is not in the source; it is taken to be Table 8.2's
(notes/assumptions/31). -/
def manifestRec (b : List Byte) (images weights : List Nat) (digests : List (List Byte)) : VerRec :=
  { version := fieldAt b 0 1, vstate := 1, maxRank := fieldAt b 2 1, points := fieldAt b 3 1, maxDistinct := fieldAt b 4 2,
    steerPoints := fieldAt b 6 1, kinds := fieldAt b 7 1, shape := fieldAt b 8 8, images := images, weights := weights, digest8 := digests,
    hidden := fieldAt b 0x50 2, manifest := Config.shake256 b, shardSums := b.drop 0x60 }

/-- The manifest is invalid (R215). -/
def manifestBad (v : VerRec) (other : VerRec) : Bool :=
  decide (v.version = 0) || (decide (other.vstate ≠ 0) && decide (other.version = v.version)) || decide (v.hidden < 64) || decide (16384 < v.hidden)
    || decide (128 < v.maxRank) || decide (4096 < v.maxDistinct)
    || (List.range 4).any fun k => decide (bit v.kinds k ≠ decide (v.images.getD k 0 ≠ 0))

/-- The entry and record that MODEL_IMPORT fills (R216): record 0 of a FREE or UNAVAILABLE entry, or the EMPTY record of a READY one. -/
def importPlace (s : State) (c : CtxId) (e : Nat) : Status ⊕ (Nat × Nat) :=
  if e = 0x3FF then
    match (List.range 1024).find? fun k => decide ((getModel s k).state = 0) with
    | some k => .inr (k, 0)
    | none => .inl (stNoSpace 0)
  else
    let x := getModel s e
    if x.state ≠ 0 ∧ x.ctx ≠ c then .inl (stNotPermitted 0)
    else if x.state = 0 ∨ x.state = 3 then .inr (e, 0)
    else if x.state = 2 then .inl (stNotPermitted 0x29)
    else if x.v0.vstate = 0 then .inr (e, 0) else if x.v1.vstate = 0 then .inr (e, 1) else .inl (stNoSpace 0)

/-- Handles in the pairing of MODEL_IMPORT's parameters: two per word. -/
def handlePairs (m : Cmd) (k : Nat) : List Nat := [m.f k 0 32, m.f k 32 32, m.f (k + 1) 0 32, m.f (k + 1) 32 32]

/-- The digest of an image holds (R98, R99): SHAKE256 over the image with DIGEST zero. -/
def digestOk (b : List Byte) (at' : Nat) : Bool :=
  decide (Config.shake256 (bytesAt b 0 at' ++ List.replicate 32 0 ++ b.drop (at' + 32)) = bytesAt b at' 32)

/-- An object handle that a command gives is free, or of another type than the one it must have. -/
def handleBad (s : State) (m : Cmd) (type h : Nat) : Option Status :=
  if h = 0 then none
  else match objFor s m h with
    | none => some (stBadParam 0)
    | some o => if o.type.toNat = type then none else some (stBadParam 9)

/-- An import is entered: record k of entry e, CURRENT in a FREE or UNAVAILABLE entry with a steering area, LOADED in a READY one; its
images are read-only from now on (R98, R216). -/
def enterImport (m : Cmd) (e k : Nat) (v : VerRec) (s : State) : Option State :=
  let x := getModel s e
  let ro (s : State) : State := v.images.foldl (fun s h => if h = 0 then s else modObj m.ctx (hIndex h) (fun o => { o with readOnly := true }) s) s
  if x.state = 1 then some (ro (modModel e (fun x => x.onVer k fun _ => v) s))
  else if x.state = 3 then
    some (ro (modModel e (fun x => { x with state := 1, current := 0, v0 := { v with vstate := 2 }, v1 := if x.v1.vstate = 2 then VerRec.empty else x.v1 }) s))
  else
    (findPlace s 1 0xFF 1).map fun a =>
      ro (modModel e (fun _ => { ModelEntry.free with ctx := m.ctx, state := 1, steerArea := a.2 * 65536, v0 := { v with vstate := 2 } })
        (modCtx m.ctx (fun y => { y with t1Used := y.t1Used + 1 }) (takeBlocks a.2 1 s)))

/-- The head of a shard frame: kind (0 JOIN, 1 data, 2 refetch, 3 the chips of a pass), shard number, offset and the manifest's digest
(the form is not in the source, notes/assumptions/56). -/
def shardHead (kind : Nat) (digest : List Byte) (n off : Nat) : List Byte :=
  leBytes 4 kind ++ leBytes 4 n ++ leBytes 8 off ++ bytesAt digest 0 32

/-- The shards of an import in manifest order: 2 MiB pieces of each object, with the digests that the manifest carries after its record, 32 bytes
each (R328; the manifest's layout is not in the source, notes/assumptions/31). -/
def importShards (s : State) (c : CtxId) (sums : List Byte) (handles : List Nat) : List Shard :=
  let parts := (handles.filter fun h => decide (h ≠ 0)).flatMap fun h =>
    let n := (storageOf s (getObj s c (hIndex h))).size
    (List.range (ceilDiv n 0x200000)).map fun k => (h, k * 0x200000, min 0x200000 (n - k * 0x200000))
  parts.zipIdx.map fun p =>
    { handle := p.1.1, off := p.1.2.1, len := p.1.2.2, digest := bytesAt sums (32 * p.2) 32, got := [], verified := false, bad := false, failed := 0 }

/-- MODEL_IMPORT (R98, R215, R216). With FABRIC the objects are filled from the source chip first (R328): the import waits for its
shards. -/
def execModelImport (c : CmdRef) (s : State) : Res :=
  .next (startCmd 0x0301 c s fun m s =>
    let images := handlePairs m 2
    let weights := handlePairs m 4
    let fabric := bit (m.p 6) 15
    match handleBad s m 0 (m.f 1 0 32), images.findSome? (handleBad s m 2), weights.findSome? (handleBad s m 8), importPlace s m.ctx (m.f 0 0 10) with
    | some st, _, _, _ => endFail m st s
    | none, some st, _, _ => endFail m st s
    | none, none, some st, _ => endFail m st s
    | none, none, none, .inl st => endFail m st s
    | none, none, none, .inr (e, k) =>
      let b := handleBytes s m.ctx (m.f 1 0 32)
      let v := manifestRec b images weights (images.map fun h => if h = 0 then [] else bytesAt (handleBytes s m.ctx h) 0x30 8)
      let x := getModel s e
      if m.f 1 0 32 = 0 ∨ manifestBad v (if x.state = 0 then VerRec.empty else x.ver (1 - k)) then endFail m (stBadParam 0xD) s
      else if !fabric ∧ images.any fun h => decide (h ≠ 0) && !digestOk (handleBytes s m.ctx h) 0x30 then endFail m (stBadParam 0xA) s
      else if x.state = 0 ∧ (getCtx s m.ctx).quota.t1Units < t1Use s m.ctx + 1 then endFail m stQuota s
      else if fabric then
        let w : FabImport :=
          { cmd := m.ref, entry := e, record := k, source := m.f 6 0 10, digest := Config.shake256 b, ver := v,
            shards := importShards s m.ctx v.shardSums (images ++ weights), lastAt := s.tick, pass := [] }
        sendFrame (ownFrame s w.source 1 6 m.ctx false 0 0 (shardHead 0 w.digest 0 0)) (s.onMdl fun t => { t with imports := t.imports ++ [w] })
      else
        match enterImport m e k v s with
        | some s1 => endOk m (e + 65536 * k + 2 ^ 24 * v.version) 0 s1
        | none => endFail m (stNoSpace 0) s)

/-! ### MODEL_SWITCH and its flip (R231–R233) -/

/-- Pans of a context that serve a model, with their plane's kind. -/
def modelPans (s : State) (c : CtxId) (e : Nat) : List (Nat × Pan × PanCfg) :=
  s.pans.filterMap fun q => match q.2 with
    | some p => match p.serving with
      | some g => if p.ctx = c ∧ g.model = e ∧ !p.releasing then some (q.1, p, g) else none
      | none => none
    | none => none

/-- A kind's image changes between two records (R232). -/
def imageChanges (a b : VerRec) (kind : Nat) : Bool := decide (a.digest8.getD kind [] ≠ b.digest8.getD kind [])

/-- TPP, LG or KV_BYTES_PER_TOKEN_GROUP differ in some kind's cost table. -/
def kvDiffers (s : State) (c : CtxId) (a b : VerRec) : Bool :=
  (List.range 4).any fun k =>
    let x := verCost s c a k
    let y := verCost s c b k
    decide (x.tpp ≠ y.tpp) || decide (x.lg ≠ y.lg) || decide (x.kvBytes ≠ y.kvBytes)

/-- MODEL_SWITCH's refusals in the order of Table 8.9. -/
def switchRefusal (s : State) (c : CtxId) (e k : Nat) : Option Status :=
  let x := getModel s e
  let a := x.cur
  let b := x.ver k
  if x.state ≠ 0 ∧ x.ctx ≠ c then some (stNotPermitted 0)
  else if x.state ≠ 1 then some (stNotPermitted 0x29)
  else if b.vstate = 0 ∨ b.vstate = 2 then some (stBadParam 0x2A)
  else if a.shape ≠ b.shape ∨ a.kinds ≠ b.kinds ∨ a.hidden ≠ b.hidden then some (stBadParam 0x2B)
  else if kvDiffers s c a b then some (stBadParam 0x2C)
  else if (modelPans s c e).any fun p => imageChanges a b p.2.2.kind && p.2.1.shadow.isSome then some (stNotPermitted 0x2D)
  else none

/-- The loads of a switch, pan by pan, with each pan's present spill size; the first one refused ends the switch (R232, step 1). -/
def switchLoads (c : CtxId) (e : Nat) (b : VerRec) : List (Nat × Pan × PanCfg) → State → Status ⊕ State
  | [], s => .inr s
  | (n, _, g) :: r, s =>
    let h := b.images.getD g.kind 0
    let o := storageOf s (getObj s c (hIndex h))
    match startLoad n none (some e) (objBytes s o 0 o.size) o.size g.spillMib true false s with
    | .inl st => .inl st
    | .inr s1 => switchLoads c e b r s1

/-- MODEL_SWITCH (R231, R232): accepted, the entry is SWITCHING and the pans whose image changes load it. -/
def execModelSwitch (c : CmdRef) (s : State) : Res :=
  .next (startCmd 0x0305 c s fun m s =>
    let e := m.f 0 0 10
    let k := m.f 0 16 1
    match switchRefusal s m.ctx e k with
    | some st => endFail m st s
    | none =>
      let x := getModel s e
      let ps := (modelPans s m.ctx e).filter fun p => imageChanges x.cur (x.ver k) p.2.2.kind
      let s1 := modModel e (fun x => { x with state := 2, switch := some { cmd := m.ref, target := k, pans := ps.map (·.1), flipped := false } }) s
      match switchLoads m.ctx e (x.ver k) ps s1 with
      | .inl st => endFail m st s
      | .inr s2 => s2)

/-- Every shadow plane of a switch has been written and checked. -/
def switchReady (s : State) (w : SwitchWork) : Bool :=
  w.pans.all fun n => match (getPan s n).bind (·.load) with | some l => l.written | none => true

/-- MODEL_VERSION_FLIP (R232, step 2): between two builds the named record becomes CURRENT and the other PREVIOUS, live entries take the
new version, and a change of the draft image discards held proposals; each draft state page is zero-filled at the row's next draft placement
(Table 9.8). -/
def execModelVersionFlip (entry : BitVec 10) (s : State) : Res :=
  let e := entry.toNat
  let x := getModel s e
  .next (match x.switch with
    | none => s
    | some w =>
      if w.flipped || !switchReady s w then s
      else
        let s1 := modModel e (fun x =>
          let y := (x.onVer w.target fun v => { v with vstate := 2 }).onVer (1 - w.target) fun v => { v with vstate := 3 }
          { y with current := w.target, switch := some { w with flipped := true } }) s
        let mine := (liveEntries s).filter fun q => decide (q.2.ctx = x.ctx) && decide (q.2.model = e)
        let s2 := mine.foldl (fun s q => modEntry q.1 (fun y => { y with modelVer := BitVec.ofNat 8 (x.ver w.target).version }) s) s1
        let s3 := if imageChanges x.cur (x.ver w.target) 2 then
            mine.foldl (fun s q => dropDrafts q.1 s) (modModel e (fun y => { y with draftGen := y.draftGen + 1 }) s2)
          else s2
        settleSwitch e s3)

/-- A step built on a version is uncommitted (Table 8.11). -/
def verInFlight (s : State) (e ver : Nat) : Bool := s.seq.steps.any fun st => decide (st.model = e) && decide (st.ver.toNat = ver)

/-- A pan holds an image of a version record, on either plane or in a load. -/
def verOnPan (s : State) (e : Nat) (v : VerRec) : Bool :=
  s.pans.any fun q => match q.2 with
    | some p =>
      ([p.active, p.shadow].any fun g => match g with | some g => decide (g.model = e) && decide (v.images.getD g.kind 0 ≠ 0) | none => false)
        || match p.load with
          | some l => decide ((imgHdr l.image).model = e) && decide (v.images.getD (imgHdr l.image).kind 0 ≠ 0)
          | none => false
    | none => false

/-- MODEL_EVICT (R216): held while a step built on a PREVIOUS record is uncommitted (Table 8.11). -/
def execModelEvict (c : CmdRef) (s : State) : Res :=
  .next (startHeld 0x0306 c s
    (fun m =>
      let x := getModel s (m.f 0 0 10)
      let v := x.ver (m.f 0 16 1)
      decide (x.ctx = m.ctx) && decide (x.state = 1) && decide (v.vstate = 3) && verInFlight s (m.f 0 0 10) v.version)
    fun m s =>
      let e := m.f 0 0 10
      let k := m.f 0 16 1
      let x := getModel s e
      let v := x.ver k
      if x.state = 0 then endFail m (stBadParam 0x2A) s
      else if x.ctx ≠ m.ctx then endFail m (stNotPermitted 0) s
      else if x.state = 2 then endFail m (stNotPermitted 0x29) s
      else if v.vstate = 0 then endFail m (stBadParam 0x2A) s
      else if v.vstate = 2 then
        if (x.ver (1 - k)).vstate ≠ 0 ∨ verOnPan s e v then endFail m (stNotPermitted 0) s
        else endOk m 0 0 (modModel e (fun x => { x.onVer k (fun _ => VerRec.empty) with state := 3 }) s)
      else endOk m 0 0 (modModel e (fun x => x.onVer k fun _ => VerRec.empty) s))

/-! ### Exit thresholds (R254) -/

/-- EXIT_POLICY (R254): the model entry's thresholds, and a sequence's EXIT_POLICY byte. -/
def execExitPolicy (c : CmdRef) (s : State) : Res :=
  .next (startCmd 0x0409 c s fun m s =>
    let e := m.f 0 0 10
    let x := getModel s e
    let setT := bit (m.p 0) 16
    let setS := bit (m.p 0) 17
    let h : Dword := BitVec.ofNat 64 (m.p 1)
    if setT ∧ x.state ≠ 0 ∧ x.ctx ≠ m.ctx then endFail m (stNotPermitted 0) s
    else if setT ∧ (x.state = 0 ∨ x.state = 3) then endFail m stModelUnavailable s
    else if setS ∧ m.f 2 0 8 / 32 ≠ 0 then endFail m (stBadParam 7) s
    else if setS ∧ (findEntry s m.ctx h).isNone then
      endFail m (if (findArchive s m.ctx h).isSome then stBadParam 0x10 else unknownHandle s m.ctx h) s
    else
      let s1 := if setT then modModel e (fun x => { x with
        exits := (List.range 16).map fun k => BitVec.ofNat 32 (m.f (3 + k / 2) (32 * (k % 2)) 32) }) s else s
      let s2 := if setS then
          match findEntry s m.ctx h with
          | some (i, _) => modEntry i (fun y => { y with exitPolicy := BitVec.ofNat 8 (m.f 2 0 8) }) s1
          | none => s1
        else s1
      endOk m 0 0 s2)

/-! ### Adapter slots (R217–R220) -/

/-- An adapter object's header (Table 8.3) is out of form or reaches outside the object. -/
def adapterBad (b : List Byte) (size : Nat) : Bool :=
  let fmt := fieldAt b 4 1
  let rank := fieldAt b 5 1
  decide (fieldAt b 0 4 ≠ 0x50444159) || !([1, 2, 4, 8].contains fmt) || !([8, 16, 32, 64, 128].contains rank)
    || decide (fieldAt b 6 1 = 0) || decide (8 < fieldAt b 6 1) || decide (fieldAt b 7 1 = 0) || decide (fieldAt b 8 4 % 65536 ≠ 0)
    || decide (fieldAt b 0x18 8 % 65536 ≠ 0) || decide (size < 64) || decide (size < fieldAt b 0x18 8 + fieldAt b 7 1 * fieldAt b 8 4)

/-- ADP_LOAD's outcomes in the order of Table 8.5, up to the slot. -/
def adpRefusal (s : State) (m : Cmd) : Option Status :=
  let x := getModel s (m.f 0 32 10)
  let v := x.cur
  let h := m.f 0 0 32
  let slot := m.f 0 48 16
  if x.state ≠ 0 ∧ x.ctx ≠ m.ctx then some (stNotPermitted 0)
  else if x.state ≠ 1 ∧ x.state ≠ 2 then some stModelUnavailable
  else match objFor s m h with
    | none => some (stBadParam 0)
    | some o =>
      let a := storageOf s o
      let b := objBytes s a 0 64
      if o.type ≠ 3 then some (stBadParam 0x20)
      else if a.tier = 2 then some (stBadParam 0x21)
      else if adapterBad b a.size then some (stBadParam 0x22)
      else if fieldAt b 0x10 8 ≠ v.shape ∨ fieldAt b 7 1 ≠ v.points then some (stBadParam 0x23)
      else if v.maxRank < fieldAt b 5 1 then some (stBadParam 0x24)
      else if !digestOk (objBytes s a 0 a.size) 0x20 then some (stBadParam 0x25)
      else if slot ≠ 0xFFFF ∧ 8191 < slot then some (stBadParam 7)
      else if slot ≠ 0xFFFF ∧ (getSlot s slot).state ≠ 0 ∧ (getSlot s slot).ctx ≠ m.ctx then some (stNotPermitted 0)
      else if slot ≠ 0xFFFF ∧ (getSlot s slot).state = 2 ∧ 0 < slotBinds s slot then some (stNotPermitted 0x26)
      else none

/-- The lowest slot that is FREE. -/
def freeSlot (s : State) : Option Nat := (List.range 8192).find? fun n => decide ((getSlot s n).state = 0)

/-- ADP_LOAD (R219): a verified adapter object fills a slot, whose GEN rises; it is READY from the next build. A named slot that is
UNLOADING waits until it is FREE. -/
def execAdpLoad (c : CmdRef) (s : State) : Res :=
  .next (startHeld 0x0501 c s
    (fun m => bit (m.p 1) 0 || (decide (m.f 0 48 16 < 8192) && decide ((getSlot s (m.f 0 48 16)).state = 3)
      && decide ((getSlot s (m.f 0 48 16)).ctx = m.ctx)))
    fun m s =>
      match adpRefusal s m with
      | some st => endFail m st s
      | none =>
        let h := m.f 0 0 32
        let a := storageOf s (getObj s m.ctx (hIndex h))
        let b := objBytes s a 0 64
        match (if m.f 0 48 16 = 0xFFFF then freeSlot s else some (m.f 0 48 16)) with
        | none => endFail m (stNoSpace 0) s
        | some n =>
          let g := ((getSlot s n).gen + 1) % 256
          let s1 := modSlot n (fun _ =>
            { handle := h, ctx := m.ctx, model := m.f 0 32 10, state := 2, format := fieldAt b 4 1, rank := fieldAt b 5 1, gen := g,
              dataAddr := adapterAddr s m.ctx h (fieldAt b 0x18 8), bytesPerPoint := fieldAt b 8 4, lastEpoch := (getSlot s n).lastEpoch }) s
          endOk m (n + 65536 * g) 0 (bump ADP_LOADS s1))

/-- ADP_UNLOAD (R219): refused while bound; the slot is UNLOADING, and FREE once its last step has settled, which ends the command. -/
def execAdpUnload (c : CmdRef) (s : State) : Res :=
  .next (startHeld 0x0501 c s (fun m => !bit (m.p 1) 0) fun m s =>
    let n := m.f 0 48 16
    if 8191 < n then endFail m (stBadParam 7) s
    else if (getSlot s n).state ≠ 0 ∧ (getSlot s n).ctx ≠ m.ctx then endFail m (stNotPermitted 0) s
    else if (getSlot s n).state ≠ 2 then endFail m (stBadParam 7) s
    else if 0 < slotBinds s n then endFail m (stNotPermitted 0x26) s
    else settleSlots (modSlot n (fun x => { x with state := 3 }) s))

/-- ADP_BIND (R220): a live sequence's slot and scale, from the next build that places it. -/
def execAdpBind (c : CmdRef) (s : State) : Res :=
  .next (startCmd 0x0502 c s fun m s =>
    let h : Dword := BitVec.ofNat 64 (m.p 0)
    match findEntry s m.ctx h with
    | none => endFail m (if (findArchive s m.ctx h).isSome then stBadParam 0x10 else unknownHandle s m.ctx h) s
    | some (i, e) =>
      if !adapterOk s m.ctx e.model (m.f 1 0 16) then endFail m (stBadParam 0x27) s
      else endOk m 0 0 (modEntry i (fun y => { y with
        adapterSlot := BitVec.ofNat 16 (m.f 1 0 16), adapterScale := BitVec.ofNat 16 (m.f 1 16 16) }) s))

/-! ### Steering (R228, R229) -/

/-- The sets that the next copy holds: the other valid sets of the live copy with their bytes, and the named one. -/
def steerBuild (s : State) (x : ModelEntry) (set : Nat) (new : Option (List Byte × SteerSet)) : List (Nat × SteerSet × List Byte) :=
  (List.range 16).filterMap fun k =>
    if k = set then new.map fun n => (k, n.2, n.1)
    else
      let t := steerSet s x x.steerLive k
      if t.valid then some (k, t, memRead s.mem.bytes (steerCopy x x.steerLive + t.offset) t.bytes) else none

/-- The bytes of a copy: directory and body, sets one after another from 256 upward. -/
def steerBytes : List (Nat × SteerSet × List Byte) → Nat → List Byte → List Byte
  | [], _, area => area
  | (k, t, b) :: r, at', area =>
    let n := ceilDiv b.length 64 * 64
    let put (o : Nat) (l : List Byte) (a : List Byte) : List Byte := a.take o ++ l ++ a.drop (o + l.length)
    let dir := leBytes 2 at' ++ leBytes 2 b.length ++ [BitVec.ofNat 8 t.points, BitVec.ofNat 8 t.vectors, BitVec.ofNat 8 t.format, 1] ++ leBytes 8 0
    steerBytes r (at' + n) (put (16 * k) dir (put at' b area))

/-- The set that a host buffer describes: the layer entries, then the vectors. The buffer's own form is not in the source: its first 4
bytes are taken to be POINTS, VECTORS, FORMAT and a reserved byte, padded to 64 bytes (notes/assumptions/32). -/
def hostSet (b : List Byte) : SteerSet :=
  { offset := 0, bytes := b.length - 64, points := fieldAt b 0 1, vectors := fieldAt b 1 1, format := fieldAt b 2 1, valid := true }

/-- A set's length in bytes by its header (R228). -/
def setLength (t : SteerSet) (hidden : Nat) : Nat :=
  ceilDiv (8 * t.points) 64 * 64 + t.vectors * (ceilDiv (hidden * (if t.format = 0 then 4 else 2)) 64 * 64)

/-- A set is out of form (R229). -/
def setBad (t : SteerSet) (b : List Byte) (v : VerRec) : Bool :=
  decide (t.points = 0) || decide (v.steerPoints < t.points) || decide (t.vectors = 0) || decide (1 < t.format)
    || decide (t.bytes ≠ setLength t v.hidden)
    || (List.range t.points).any fun k => decide (fieldAt b (8 * k + 4) 1 ≠ 0xFF) && decide (t.vectors ≤ fieldAt b (8 * k + 4) 1)

/-- A built step reads the copy of an entry's steering area that is not live (R229). -/
def steerInUse (s : State) (e : Nat) : Bool :=
  s.seq.steps.any fun st => decide (st.model = e) && !st.ended && decide (st.steerLive ≠ (getModel s e).steerLive)

/-- STEER_SET (R229): the copy that is not live is built whole and made live between two builds. Each step reads the copy that was live at its build, so
a command waits while one still reads the copy it would overwrite (notes/assumptions/182). -/
def execSteerSet (c : CmdRef) (data : List Byte) (s : State) : Res :=
  .next (startHeld 0x0503 c s (fun m => steerInUse s (m.f 0 0 10)) fun m s =>
    let e := m.f 0 0 10
    let set := m.f 0 16 4
    let clear := bit (m.p 0) 24
    let x := getModel s e
    let d := bytesAt data 0 (m.f 2 0 14)
    let t := hostSet d
    let named := (liveEntries s).any fun q => decide (q.2.ctx = m.ctx) && decide (q.2.model = e) && decide (q.2.steerSlot.toNat = set)
    if x.state ≠ 0 ∧ x.ctx ≠ m.ctx then endFail m (stNotPermitted 0) s
    else if x.state = 0 ∨ x.state = 3 then endFail m stModelUnavailable s
    else if clear ∧ named then endFail m (stNotPermitted 0x26) s
    else if !clear ∧ setBad t (d.drop 64) x.cur then endFail m (stBadParam 0x28) s
    else
      let sets := steerBuild s x set (if clear then none else some (d.drop 64, t))
      let size : Nat := (sets.map fun q => ceilDiv q.2.2.length 64 * 64).foldl (· + ·) 0
      if 16128 < size ∨ (!clear ∧ !mirrorRoom s 0) then endFail m (stNoSpace 0) s
      else
        let live := 1 - x.steerLive
        let s1 := s.onMem fun w => { w with bytes := memWrite w.bytes (steerCopy x live) (steerBytes sets 256 (List.replicate 16384 0)) }
        endOk m 0 0 (bump ADP_STEER_FLIPS (modModel e (fun x => { x with steerLive := live }) s1)))

end Sys2Proof.Machine
end

