-- ==== Sys2Proof/Machine/Shards.lean ====
section
/-! DEFINITION. Weight distribution over the fabric (R328, R329). -/

namespace Sys2Proof.Machine

/-- The version record that was imported with a manifest, and its context. -/
def heldManifest (s : State) (digest : List Byte) : Option (CtxId × VerRec) :=
  s.mdl.models.findSome? fun p =>
    let hit (v : VerRec) : Bool := decide (v.vstate ≠ 0) && decide (v.manifest = digest)
    if p.2.state = 0 then none
    else if hit p.2.v0 then some (p.2.ctx, p.2.v0)
    else if hit p.2.v1 then some (p.2.ctx, p.2.v1) else none

/-- A chip of this package's job by the plan. -/
def sameJob (s : State) (c : Nat) : Bool :=
  match s.lnk.plan.bind fun p => p.ofChip c with | some e => decide (e.job = ownJob s) | none => false

/-- A JOIN joins the pass of its manifest within 5 ms of the first, waits for the next pass after that, or opens one (R328). -/
def joinPass (chip : Nat) (digest : List Byte) (s : State) : State :=
  if !sameJob s chip ∨ (heldManifest s digest).isNone then s
  else match s.lnk.passes.find? fun p => decide (p.digest = digest) with
    | none => s.onLnk fun l => { l with passes := l.passes ++ [{ digest := digest, receivers := [chip], joinedAt := s.tick, next := [] }] }
    | some p =>
      if p.receivers.contains chip ∨ p.next.contains chip then s
      else s.onLnk fun l => { l with passes := l.passes.map fun x =>
        if x.digest ≠ digest then x
        else if s.tick ≤ x.joinedAt + msTicks 5 then { x with receivers := x.receivers ++ [chip] } else { x with next := x.next ++ [chip] } }

/-- SHARD_JOIN (R328): a source takes a receiver's JOIN; one of another job, or of a manifest that it does not hold, is ignored. -/
def execShardJoin (chip : BitVec 10) (digest : List Byte) (s : State) : Res := .next (joinPass chip.toNat digest s)

/-- The frames of one shard: the head, then up to 4,032 bytes. -/
def shardFrames (s : State) (ctx : CtxId) (dest flow : Nat) (digest : List Byte) (n : Nat) (data : List Byte) : List ElpFrame :=
  (pieces 4032 data.length data).zipIdx.map fun p => ownFrame s dest 1 6 ctx false flow 0 (shardHead 1 digest n (4032 * p.2) ++ p.1)

/-- The shards of a held manifest, in order, images before weights. -/
def heldShards (s : State) (digest : List Byte) : List Shard :=
  match heldManifest s digest with
  | some (c, v) => importShards s c v.shardSums (v.images ++ v.weights)
  | none => []

/-- The bytes of a held shard. -/
def shardBytes (s : State) (c : CtxId) (x : Shard) : List Byte := objBytes s (handleObj s c x.handle) x.off x.len

/-- A source sends a shard to one chip. -/
def sendShard (c : CtxId) (dest : Nat) (digest : List Byte) (n : Nat) (data : List Byte) (s : State) : State :=
  let f := newFlow s
  (shardFrames f.2 c dest f.1 digest n data).foldl (fun s f => sendFrame f s) f.2

/-- The chips that this package passes a pass's frames on to: the tree of Table 12.9 with the source as root. -/
def passKids (s : State) (chips : List Nat) : List Nat :=
  let r := chips.findIdx fun c => decide (c = chipId s)
  (castKids (boardSets s chips) chips.length 0 r).map fun k => chips.getD k 0

/-- SHARD_PASS_START (R328): 5 ms after the first JOIN the source reads each shard, checks its digest, and sends it down the tree; one that fails ends
the source's part. Receivers that wait form the next pass. -/
def execShardPassStart (digest : List Byte) (s : State) : Res :=
  .next (match s.lnk.passes.find? fun p => decide (p.digest = digest), heldManifest s digest with
    | some p, some (c, _) =>
      if s.tick < p.joinedAt + msTicks 5 then s
      else
        let chips := chipId s :: p.receivers
        let kids := passKids s chips
        let list := shardHead 3 digest chips.length 0 ++ (chips.map fun k => leBytes 2 k).flatten
        let s1 := kids.foldl (fun s k => sendFrame (ownFrame s k 1 6 c false 0 0 list) s) s
        let r := (heldShards s digest).zipIdx.foldl (fun (a : Bool × State) x =>
          if !a.1 then a
          else
            let data := shardBytes a.2 c x.1
            if Config.shake256 data = x.1.digest then (true, kids.foldl (fun s k => sendShard c k digest x.2 data s) a.2) else (false, a.2)) (true, s1)
        r.2.onLnk fun l => { l with
          passes := (l.passes.filter fun x => !decide (x.digest = digest))
            ++ (if p.next.isEmpty then [] else [{ digest := digest, receivers := p.next, joinedAt := s.tick, next := [] }]) }
    | _, _ => s)

/-! ### Receivers (R328, R329) -/

/-- An import in progress with f applied. -/
def modImport (c : CmdRef) (f : FabImport → FabImport) (s : State) : State :=
  s.onMdl fun d => { d with imports := d.imports.map fun w => if w.cmd = c then f w else w }

/-- Shard n of an import with f applied. -/
def modShard (c : CmdRef) (n : Nat) (f : Shard → Shard) (s : State) : State :=
  modImport c (fun w => { w with shards := w.shards.zipIdx.map fun x => if x.2 = n then f x.1 else x.1 }) s

/-- The import of a command. -/
def findImport (s : State) (c : CmdRef) : Option FabImport := s.mdl.imports.find? fun w => decide (w.cmd = c)

/-- An import leaves its list. -/
def dropImport (c : CmdRef) (s : State) : State := s.onMdl fun d => { d with imports := d.imports.filter fun w => !decide (w.cmd = c) }

/-- An import whose shards are all in place enters its record (R216), after the check of the images' digests. -/
def finishImport (w : FabImport) (s : State) : State :=
  match findCmd s w.cmd with
  | none => dropImport w.cmd s
  | some m =>
    let s1 := dropImport w.cmd s
    let image (h : Nat) : List Byte := handleBytes s m.ctx h
    let v := { w.ver with digest8 := w.ver.images.map fun h => if h = 0 then [] else bytesAt (image h) 0x30 8 }
    if v.images.any fun h => decide (h ≠ 0) && !digestOk (image h) 0x30 then endFail m (stBadParam 0xA) s1
    else match importPlace s1 m.ctx w.entry with
      | .inl st => endFail m st s1
      | .inr (e, k) =>
        match enterImport m e k v s1 with
        | some s2 => endOk m (e + 65536 * k + 2 ^ 24 * v.version) 0 s2
        | none => endFail m (stNoSpace 0) s1

/-- Whole bytes of shard n have come: checked, written and counted off, or corrupt (R328, step 4). The last one ends the import. -/
def landShard (w : FabImport) (n : Nat) (x : Shard) (data : List Byte) (s : State) : State :=
  let s0 := modImport w.cmd (fun v => { v with lastAt := s.tick }) s
  if Config.shake256 data = x.digest then
    let r := writeObj w.cmd.ctx (hIndex x.handle) x.off data s0
    let s1 := modShard w.cmd n (fun y => { y with verified := true, bad := false, got := [] }) r.2
    match findImport s1 w.cmd with
    | some v => if v.shards.all (·.verified) then finishImport v s1 else s1
    | none => s1
  else modShard w.cmd n (fun y => { y with bad := true, got := [] }) s0

/-- Alternate holders of a shard in the order of R329: its own board, the rest of the pass by chip ID, and the source. -/
def holders (s : State) (w : FabImport) : List Nat :=
  let others := (w.pass.drop 1).filter fun c => !decide (c = chipId s)
  let near (c : Nat) : Bool := match chipPos s c, chipPos s (chipId s) with | some a, some b => decide (a.1 = b.1) && decide (a.2.1 = b.2.1) | _, _ => false
  others.filter near ++ sortBy (fun a b => decide (a ≤ b)) (others.filter fun c => !near c) ++ [w.source]

/-- SHARD_TIMEOUT (R329): a shard that is missing or came corrupt is refetched; `data` is what the refetch brings. The third refetch that
fails ends the import: the record stays EMPTY, and an entry without a CURRENT record is UNAVAILABLE. -/
def execShardTimeout (c : CmdRef) (shard : Nat) (data : List Byte) (s : State) : Res :=
  .next (match findImport s c, (findImport s c).bind fun w => w.shards[shard]? with
    | some w, some x =>
      if x.verified ∨ (!x.bad ∧ x.failed = 0 ∧ s.tick < w.lastAt + msTicks (getFld s LNK_SHARD_CTL 0 16)) then s
      else
        let h := holders s w
        let ask := ownFrame s (h.getD (min x.failed (h.length - 1)) w.source) 1 6 c.ctx false 0 0 (shardHead 2 w.digest shard 0)
        let s1 := bump LNK_SHARD_REFETCH (sendFrame ask s)
        if Config.shake256 data = x.digest then landShard w shard x data s1
        else if x.failed < 2 then modShard c shard (fun y => { y with bad := true, got := [], failed := y.failed + 1 }) s1
        else
          let s2 := modModel w.entry (fun e => if e.state = 0 then { ModelEntry.free with ctx := c.ctx, state := 3 } else e)
            (bump LNK_SHARD_CORRUPT (dropImport c s1))
          match findCmd s2 c with | some m => endWith m (0x0301, 0x48) false 0 0 s2 | none => s2
    | _, _ => s)

/-- A shard frame arrives (R328): a JOIN, a piece of a shard, a refetch's request, or the chips of the pass; what comes down the tree goes
on down it. -/
def shardFrame (f : ElpFrame) (s : State) : State :=
  let b := f.payload
  let kind := fieldAt b 0 4
  let n := fieldAt b 4 4
  let digest := bytesAt b 16 32
  let src := f.srcChip.toNat
  if kind = 0 then joinPass src digest s
  else if kind = 2 then
    match heldManifest s digest, (heldShards s digest)[n]? with
    | some (c, _), some x => if sameJob s src then sendShard c src digest n (shardBytes s c x) s else s
    | _, _ => s
  else match s.mdl.imports.find? fun w => decide (w.digest = digest) with
    | none => s
    | some w =>
      let down (chips : List Nat) (s : State) : State :=
        if chips.isEmpty then s else (passKids s chips).foldl (fun s k => sendFrame (ownFrame s k 1 6 f.ctx false f.flow.toNat 0 b) s) s
      if kind = 3 then
        let chips := (List.range n).map fun k => fieldAt b (48 + 2 * k) 2 % 1024
        down chips (modImport w.cmd (fun v => { v with pass := chips }) s)
      else
        let s1 := down w.pass s
        match w.shards[n]? with
        | none => s1
        | some x =>
          if x.verified ∨ fieldAt b 8 8 ≠ x.got.length then s1
          else
            let data := x.got ++ b.drop 48
            if data.length < x.len then modShard w.cmd n (fun y => { y with got := data }) s1 else landShard w n x data s1

end Sys2Proof.Machine
end

