-- ==== Sys2Proof/Machine/Fabric.lean ====
section
/-! DEFINITION. Frames that arrive (R311–R314, R318, R322, R323), the fabric plan (R320, R321) and FABRIC_STATUS (R332). -/

namespace Sys2Proof.Machine

/-! ### Receiving (R313, R318, R322) -/

/-- The receiver asks for replay of a frame and of every one after it (R313). -/
def askReplay (j : Nat) (s : State) : State := modLink j (fun l => { l with askedReplay := true }) s

/-- The partner's acknowledgement: frames up to `ack` go; a request for replay sends the rest again, in LSEQ order (R313). -/
def takeAck (j : Nat) (f : ElpFrame) (s : State) : State :=
  let l := getLink s j
  let rest := match l.unacked.findIdx? fun x => decide (x.frame.lseq = f.ack) with | some i => l.unacked.drop (i + 1) | none => l.unacked
  let s1 := modLink j (fun l => { l with unacked := rest }) s
  pumpLink j (if f.replay then replayAll j s1 else s1)

/-- The job that the receiver's plan puts a chip in (R322). -/
def planJob (s : State) (c : Nat) : Option Nat := (s.lnk.plan.bind fun p => p.ofChip c).map (·.job)

/-- A frame that the package accepts takes effect: exchanges of gradients, collectives and shards at once; streams, remote pages and step
exchanges go to the dies, journals to the mirror and control to the firmware, by rows of their own. -/
def takeFrame312 (f : ElpFrame) (s : State) : State :=
  let s1 := s.onLnk fun l => { l with delivered := f :: l.delivered }
  if f.kind = 3 ∧ fieldAt f.payload 0xC 2 = 0xFFFF then gradArrive f.payload s1
  else if f.kind = 4 then collFrame f s1
  else if f.kind = 6 then shardFrame f s1
  else s1

/-- A frame whole and in order: discarded from an older generation or another job, passed on to another package of the board, or taken.
A package without a chip ID takes discovery frames only (R317). -/
def sortFrame (f : ElpFrame) (s : State) : State :=
  let src := f.srcChip.toNat
  if f.kind = 0 then s.onLnk fun l => { l with delivered := f :: l.delivered }
  else if unassigned s ∨ 7 < f.kind.toNat then s
  else if olderGen f.srcIdgen.toNat (newestGen s src) then bump LNK_BITTERN_OLDGEN s
  else
    let s1 := seeChip src f.srcIdgen.toNat s
    if unassigned s1 then s1
    else if ([1, 2, 3, 4, 6].contains f.kind.toNat) && (match planJob s1 src with | some j => decide (j ≠ ownJob s1) | none => false) then
      bump LNK_BITTERN_XJOB s1
    else if f.destChip.toNat ≠ chipId s1 then sendFrame f s1
    else takeFrame312 f s1

/-- ELP_FRAME_RECEIVE (R311–R313): a frame that fails its CRC, or is not the next, is reported for replay with every frame after it; a copy
of an earlier one is dropped. -/
def execElpFrameReceive (link : Fin 48) (frame : ElpFrame) (fec : FecCount) (s : State) : Res :=
  let l := link.val / 6
  let j := link.val % 6
  let st := linkState s link
  .next (if st < 3 ∨ 5 < st then s
    else
      let s1 := lifeAdd (0x4028 + 128 * link + 8 * fec.bin) 8 1
        (lifeAdd (0x4020 + 128 * link) 8 fec.uncorrectable (lifeAdd (0x4018 + 128 * link) 8 fec.corrected
          (bumpBy (LNK_FEC_UNCORR l j) fec.uncorrectable (bumpBy (LNK_FEC_CORR l j) fec.corrected s))))
      if !frame.crcOk then askReplay link s1
      else
        let want := (getLink s link).rxSeq
        if frame.lseq.toNat ≠ want then
          if (frame.lseq.toNat + 2 ^ 32 - want) % 2 ^ 32 < 2 ^ 31 then askReplay link s1 else takeAck link frame s1
        else
          let s2 := takeAck link frame (modLink link (fun x => { x with rxSeq := (want + 1) % 2 ^ 32, askedReplay := false }) s1)
          if st = 5 ∨ frame.kind = 0 then sortFrame frame s2 else s2)

/-! ### The fabric plan (R320, R321) -/

/-- Package entry k of a plan. -/
def planPkg (b : List Byte) (k : Nat) : PlanPkg :=
  let e := bytesAt b (0x40 + 16 * k) 16
  let pos := fieldAt e 2 2
  { chip := fieldAt e 0 2 % 1024, rack := pos % 16, tray := bits pos 4 5, slot := bits pos 9 2, spare := decide (fieldAt e 4 1 = 1),
    aux := fieldAt e 5 1 % 4, job := fieldAt e 6 2 % 1024, buddy := fieldAt e 8 2 % 1024, idgen := fieldAt e 10 2 }

/-- Group entry k of a plan with its members. -/
def planGroup (b : List Byte) (goff moff k : Nat) : PlanGroup :=
  let e := bytesAt b (goff + 8 * k) 8
  { group := fieldAt e 0 2, members := (List.range (fieldAt e 2 2)).map fun i => fieldAt b (moff + 2 * (fieldAt e 4 4 + i)) 2 % 1024 }

/-- A plan from its bytes (Table 12.7). -/
def parsePlan (b : List Byte) : FabPlan :=
  { generation := fieldAt b 8 8, packages := (List.range (fieldAt b 0x10 2)).map (planPkg b),
    groups := (List.range (fieldAt b 0x12 2)).map (planGroup b (fieldAt b 0x14 4) (fieldAt b 0x18 4)) }

/-- A list without repeats. -/
def distinct (l : List Nat) : Bool := decide (l.eraseDups.length = l.length)

/-- A plan's form is bad (DETAIL 0x0040). -/
def planForm (b : List Byte) : Bool :=
  let n := fieldAt b 0x10 2
  let g := fieldAt b 0x12 2
  let goff := fieldAt b 0x14 4
  let moff := fieldAt b 0x18 4
  let m := fieldAt b 0x1C 4
  decide (fieldAt b 0 4 ≠ 0x4E414C50) || decide (fieldAt b 4 2 ≠ 1) || decide (b.length < 64) || decide (0x40000 < b.length) || decide (n = 0) || decide (1152 < n)
    || decide (1024 < g) || decide (65536 < m) || decide (b.length < 0x40 + 16 * n) || decide (b.length < goff + 8 * g) || decide (b.length < moff + 2 * m)
    || ((List.range g).any fun k =>
      let e := bytesAt b (goff + 8 * k) 8
      decide (1023 < fieldAt e 0 2) || decide (fieldAt e 2 2 = 0) || decide (1024 < fieldAt e 2 2) || decide (m < fieldAt e 4 4 + fieldAt e 2 2))
    || (List.range n).any fun k => decide (fieldAt b (0x42 + 16 * k) 2 < 0x8000) || decide (1 < fieldAt b (0x44 + 16 * k) 1)

/-- The refusals of Table 12.8 in order. -/
def planRefusal (s : State) (b : List Byte) : Option Nat :=
  let p := parsePlan b
  let act := p.packages.filter fun e => !e.spare
  if planForm b then some 0x40
  else if !distinct (p.packages.map fun e => e.rack * 256 + e.tray * 4 + e.slot) ∨ !distinct (act.map (·.chip)) ∨ 1024 < act.length
      ∨ ((List.range (fieldAt b 0x10 2)).any fun k => decide (fieldAt b (0x44 + 16 * k) 1 = 0) && decide (1023 < fieldAt b (0x40 + 16 * k) 2)) then some 0x41
  else if (match s.lnk.plan with | some q => decide (p.generation ≤ q.generation) | none => false) then some 0x42
  else if p.groups.any fun g => g.members.any fun c => match p.ofChip c, p.ofChip (g.members.headD 0) with
      | some e, some h => decide (e.job ≠ h.job)
      | _, _ => true then some 0x43
  else if act.any fun e => match p.ofChip e.buddy with
      | some k => decide (k.chip = e.chip) || (decide (k.rack = e.rack) && decide (k.tray = e.tray))
      | none => true then some 0x44
  else if p.groups.any fun g => !distinct g.members then some 0x45
  else none

/-- A plan is in force: its generation shows, first generations are seen, links settle, and a pairing with another buddy ends. -/
def usePlan (p : FabPlan) (s : State) : State :=
  let old := buddyOf s
  let s1 := setReg64 LNK_PLAN_GEN_LO LNK_PLAN_GEN_HI p.generation (s.onLnk fun l => { l with plan := some p })
  let s2 := (p.packages.filter fun e => !e.spare).foldl (fun s e => seeGen e.chip (max 1 e.idgen) s) s1
  let s3 := settleAll s2
  if old = buddyOf s3 then s3 else endPairing (s3.onCmt fun c => { c with refused := false })

/-- FABRIC_PLAN (R320, R321): Table 12.8 in order; a change of the own chip ID or job while a pan exists is not permitted; an accepted plan is
kept in flash, extends MEASURE[3] with its SHAKE256 digest (R409, notes/assumptions/185), and applies to commands that start later. -/
def execFabricPlan (c : CmdRef) (plan : List Byte) (s : State) : Res :=
  .next (startCmd 0x0804 c s fun m s =>
    let b := bytesAt plan 0 (min (m.p 1) 0x40001)
    match planRefusal s b with
    | some d => endFail m (stBadParam d) s
    | none =>
      let p := parsePlan b
      let now := idByPlan s (findPlace316 s) s.lnk.conflict
      let then' := idByPlan (s.onLnk fun l => { l with plan := some p }) (findPlace316 s) s.lnk.conflict
      if !(tkeys s.pans).isEmpty ∧ (now.1 ≠ then'.1 ∨ now.2.2.1 ≠ then'.2.2.1 ∨ now.2.2.2.1 ≠ then'.2.2.2.1) then endFail m (stNotPermitted 0x46) s
      else
        let s1 := usePlan p ((extend 3 (Config.shake256 b) s).onLnk fun l => { l with flash := some p })
        endWith m (if fabricDegraded s1 then (2, 0) else stOk) false 0 0 s1)

/-! ### FABRIC_STATUS (R332) -/

/-- A pan with tunnelled edges: one of its dies is a spare, or an edge between two of its dies has failed (R22–R24). -/
def panTunnelled (s : State) : Bool :=
  s.pans.any fun p => match p.2 with
    | some q => (panDies s q).any fun d => decide (72 ≤ d) || (panDies s q).any fun e => edgeFailed s d e
    | none => false

/-- The record. -/
def fabricRecord (s : State) : List Byte :=
  let reg (a : Nat) : List Byte := leBytes 4 (getReg s a).toNat
  reg LNK_FAB_ID ++ reg LNK_FAB_POS ++ reg LNK_FAB_STATUS ++ reg LNK_PLAN_GEN_LO ++ reg LNK_PLAN_GEN_HI ++ leBytes 2 s.lnk.unreach.length ++ leBytes 42 0
    ++ ((List.range 48).map fun j => reg (lnkStatus j) ++ reg (LNK_PARTNER (j / 6) (j % 6)) ++ reg (LNK_PARTNER_POS (j / 6) (j % 6))
        ++ reg (LNK_CMIS (j / 6) (j % 6))).flatten
    ++ (s.lnk.unreach.map fun c => leBytes 2 c).flatten

/-- FABRIC_STATUS (R23, R332): the record, and ST_OK_DEGRADED when anything in it is. -/
def execFabricStatus (c : CmdRef) (s : State) : Res :=
  .next (startCmd 0x0805 c s fun m s =>
    let r := fabricRecord s
    let bad := decide (getFld s LNK_FAB_STATUS 0 1 = 1) || !s.lnk.unreach.isEmpty || panTunnelled s
    endWith m (if bad then (2, 0) else stOk) false r.length 0 (dmaWrite m.ctx (m.p 0) r s))

end Sys2Proof.Machine
end

