-- ==== Sys2Proof/Machine/Commit.lean ====
section
/-! DEFINITION. Journals, pairing, loss and takeover (R333–R353, R413). A record of the outgoing journal lies in `CommitState.outstanding`
until its acknowledgement comes. -/

namespace Sys2Proof.Machine

/-! ### The ward's journal (R336) -/

/-- JOURNAL_HEARTBEAT (R336): while no other record is outstanding, a HEARTBEAT every 10 ms, until a shutdown has been answered (R435). -/
def execJournalHeartbeat (s : State) : Res :=
  .next (if paired s ∧ s.pwr.shutdown ≠ .answered ∧ (s.cmt.outstanding.all fun r => decide (r.kind = 0)) ∧ s.cmt.lastSent + msTicks 10 ≤ s.tick then journal 0 0 0 0 none s else s)

/-- A page is still REMOTE at the buddy (R350). -/
def anyRemote (s : State) : Bool :=
  ((liveEntries s).any fun p => p.2.kvMap.any fun q => q.2.remote) || (s.seq.archives.any fun a => !a.remote.isEmpty)
    || s.ctxs.any fun c => c.2.objs.any fun o => o.2.pages.any fun p => decide (p.2.state = 2)

/-- Re-replication ends once nothing is REMOTE and no snapshot is under way (R350). -/
def endRerep (s : State) : State :=
  if getFld s CMT_STATUS 3 1 = 1 ∧ !s.cmt.snapshotDue ∧ !anyRemote s then bump CMT_REREP_COUNT (setFld CMT_STATUS 3 1 0 s) else s

/-- JOURNAL_ACK_RECEIVE (R336): every record up to the acknowledged one is durable; the snapshot's last makes the package protected. -/
def execJournalAckReceive (jseq : Dword) (s : State) : Res :=
  let j := jseq.toNat + s.cmt.jbase
  .next (if !paired s ∨ s.cmt.nextJseq ≤ j ∨ j ≤ s.cmt.durable then s
    else
      let snap := s.cmt.snapshotDue && !(s.cmt.outstanding.any fun r => decide (r.kind = 7) && decide (j < r.jseq))
      let s1 := s.onCmt fun c => { c with
        outstanding := c.outstanding.filter fun r => decide (j < r.jseq)
        durable := j
        snapshotDue := c.snapshotDue && !snap }
      let s2 := setReg64 CMT_JSEQ_LO CMT_JSEQ_HI jseq.toNat s1
      if snap then endRerep (setFld CMT_STATUS 0 1 1 s2) else s2)

/-! ### The buddy's mirror (R335, R336, R413) -/

/-- WARD_VALID of CMT_STATUS. -/
def servesWard (s : State) : Bool := decide (getFld s CMT_STATUS 2 1 = 1)

/-- 2 MiB pages of the mirror in use: the bytes that its records wrote. -/
def mirrorPages (l : List JournalFrame) : Nat := ceilDiv ((l.map fun f => f.body.length).foldl (· + ·) 0) 0x200000

/-- The buddy's side of the pairing ends. -/
def endWard (s : State) : State := setFld CMT_STATUS 2 1 0 (s.onCmt fun c => { c with badTags := 0 })

/-- JOURNAL_RECORD_RECEIVE (R336, R344, R413): a frame of a fenced generation is refused and counted; one whose tag fails is dropped, the third
in a row ending the pairing; a copy is acknowledged again; the next record is written to the mirror and acknowledged. -/
def execJournalRecordReceive (frame : JournalFrame) (s : State) : Res :=
  .next (if s.cmt.fenced.contains frame.srcIdgen then bump CMT_BITTERN_FENCED s
    else if !servesWard s then s
    else if !frame.tagOk then
      if 2 ≤ s.cmt.badTags then endWard s else s.onCmt fun c => { c with badTags := c.badTags + 1 }
    else
      let s1 := s.onCmt fun c => { c with badTags := 0, lastWardFrame := s.tick }
      if frame.sealNo ≤ s.cmt.peerSeal then s1.onCmt fun c => { c with acks := frame.jseq :: c.acks }
      else
        let s2 := s1.onCmt fun c => { c with peerSeal := frame.sealNo }
        if frame.jseq.toNat ≠ s.cmt.mirrorJseq then s2
        else
          let s3 := s2.onCmt fun c => { c with mirror := frame :: c.mirror, mirrorJseq := c.mirrorJseq + 1, acks := frame.jseq :: c.acks }
          setReg CMT_MIRROR_USED (BitVec.ofNat 32 (mirrorPages s3.cmt.mirror)) s3)

/-! ### Loss of the ward (R344, R346, R348) -/

/-- A CLAIM for the ward's chip ID goes out on plane t mod 8, where t is the lost package's tray. -/
def sendClaim (s : State) : State :=
  let chip := getFld s CMT_WARD 0 10
  let g := getFld s CMT_WARD 16 16
  let last (n : Nat) : JournalFrame → Nat := fun f => max n f.stepEpoch.toNat
  let k : Claim :=
    { chip := BitVec.ofNat 10 chip, idgen := BitVec.ofNat 16 g, claimant := BitVec.ofNat 10 (chipId s),
      mirrorEpoch := BitVec.ofNat 64 (s.cmt.mirror.foldl last 0), ttlClock := match s.cmt.mirror with | f :: _ => f.ttlClock | [] => 0,
      lostState := s.cmt.mirror.isEmpty }
  let s1 := s.onCmt fun c => { c with claims := k :: c.claims, claimAt := some s.tick }
  let body := leBytes 2 chip ++ leBytes 2 g ++ leBytes 2 (chipId s) ++ leBytes 2 (b2n k.lostState) ++ leBytes 8 k.mirrorEpoch.toNat ++ leBytes 4 k.ttlClock.toNat
  let f := ownFrame s1 chip 0 0 0 true 0 0 body
  match (chipPos s chip).bind fun p => (activeOf s (planeLinks (p.2.1 % 8))).head? with
  | some j => sendOn j f s1
  | none => s1

/-- The ward that this package serves: the lowest chip ID whose plan entry names it (R333). -/
def wardOf (s : State) : Option Nat :=
  match s.lnk.plan with
  | some p => (sortBy (fun a b => decide (a ≤ b)) ((p.packages.filter fun e => !e.spare && decide (e.buddy = chipId s)).map (·.chip))).head?
  | none => none

/-- The ward of a package that became a buddy through a takeover has no live holder, and no mirror of it is held (R348). -/
def orphanWard (s : State) : Option PlanPkg :=
  match s.lnk.assumed, wardOf s with
  | some _, some w => if s.lnk.unreach.contains w ∧ !servesWard s ∧ s.cmt.mirror.isEmpty then s.lnk.plan.bind fun p => p.ofChip w else none
  | _, _ => none

/-- WARD_LOSS (R344, R348): no journal frame of the ward for LOSS_MS: its generation is fenced, the takeover source raises a corrected fault, and a
CLAIM goes out; a ward that a takeover left without holder and mirror is claimed too. -/
def execWardLoss (s : State) : Res :=
  .next (if servesWard s ∧ s.cmt.claimAt.isNone ∧ s.cmt.lastWardFrame + msTicks (getFld s CMT_CTL 0 16) ≤ s.tick then
      sendClaim (bump CMT_TAKEOVERS (present (faultOf 0x0501 0x70 0 0) (s.onCmt fun c => { c with
        fenced := BitVec.ofNat 16 (getFld s CMT_WARD 16 16) :: c.fenced })))
    else match orphanWard s with
      | some e => if s.cmt.claimAt.isNone ∧ s.cmt.lastWardFrame + msTicks (getFld s CMT_CTL 0 16) ≤ s.tick then
          sendClaim (bump CMT_TAKEOVERS (setReg CMT_WARD (BitVec.ofNat 32 (e.chip + 65536 * max 1 e.idgen)) s)) else s
      | none => s)

/-- CLAIM_RETRY (R348): 1 s after the CLAIM without a package of the next generation, the mirror is in custody; the CLAIM is sent again every
10 s. -/
def execClaimRetry (s : State) : Res :=
  .next (match s.cmt.claimAt with
    | none => s
    | some t =>
      if olderGen (getFld s CMT_WARD 16 16) (newestGen s (getFld s CMT_WARD 0 10)) then s
      else if getFld s CMT_STATUS 4 1 = 0 then (if t + msTicks 1000 ≤ s.tick then setFld CMT_STATUS 4 1 1 s else s)
      else if t + msTicks 10000 ≤ s.tick then sendClaim s else s)

/-! ### Pairing (R333, R350, R413) -/

/-- What each end asks of the other's attestation (R413, step 2). -/
def evidenceOk (s : State) (e : PairEvidence) : Bool :=
  e.endorsementOk && e.signatureOk && !e.debugEnabled && decide (getFld s FW_SVN 8 7 ≤ e.peerSvn) && e.chipsMatch && e.accepts
    && decide (getFld s FW_STATUS 5 1 = 0)

/-- Sequences with a page still REMOTE at a lost buddy end (R350). -/
def loseRemote (s : State) : State :=
  let s1 := ((liveEntries s).filter fun p => p.2.kvMap.any fun q => q.2.remote).foldl (fun s p => loseSeq p.1 s) s
  (s1.seq.archives.filter fun a => !a.remote.isEmpty).foldl (fun s a =>
    let s2 := match findEntry s a.ctx a.handle with
      | some p => loseSeq p.1 s
      | none => bump CMT_SESSION_LOST (modCtx a.ctx (fun x => { x with lostHandles := (a.handle :: x.lostHandles).take 4096 }) s)
    freeArchive a s2) s1

/-- Records of ended steps are journalled anew under a fresh pairing. -/
def rejournal (s : State) : State :=
  s.seq.steps.foldl (fun s st =>
    if st.ended ∧ !(match st.commitSeq with | some j => recDurable s j | none => false) then
      let deltas := (List.range st.rows.length).map (· + s.cmt.nextJseq)
      let s1 := st.rows.foldl (fun s r => journal 1 st.epoch st.ctx r.handle none s) s
      modStep st.epoch (fun x => { x with deltas := deltas, commitSeq := none }) s1
    else s) s

/-- Commands whose COMMAND record no buddy acknowledged send it again. -/
def recommand (s : State) : State :=
  s.cmds.foldl (fun s m =>
    match m.waitJseq with
    | some j => if !recDurable s j then
        modCmd m.seqno (fun x => { x with waitJseq := some s.cmt.nextJseq }) (journal 4 0 m.ctx (BitVec.ofNat 64 (m.p 0)) (some m.ref) s)
      else s
    | none => s) s

/-- The ward's side of an accepted pairing: a buddy that holds this package's mirror reports its last record, and what it lacks is sent again;
under one that holds none, JSEQ starts at 1 and a full snapshot follows. -/
def pairWard (e : PairEvidence) (s : State) : State :=
  let fresh := decide (e.lastJseq = 0)
  let moved := decide (getFld s CMT_BUDDY 16 16 ≠ 0) && (decide (getFld s CMT_BUDDY 16 16 ≠ e.peerIdgen.toNat) || decide (getFld s CMT_BUDDY 0 10 ≠ e.peer.toNat))
  let s0 := if moved then loseRemote s else s
  let s1 := s0.onCmt fun c => { c with
    outstanding := []
    jbase := c.nextJseq - 1 - e.lastJseq.toNat
    durable := if fresh then c.durable else c.jbase + e.lastJseq.toNat
    mirrorGib := e.mirrorGib
    sealNo := 0
    refused := false
    pairingOpen := false
    snapshotDue := fresh }
  let s2 := setReg CMT_BUDDY (BitVec.ofNat 32 (e.peer.toNat + 65536 * e.peerIdgen.toNat)) (setFld CMT_STATUS 0 2 (2 + b2n (!fresh)) s1)
  let s3 := setReg64 CMT_JSEQ_LO CMT_JSEQ_HI e.lastJseq.toNat s2
  let s4 := if moved ∧ fresh then setFld CMT_STATUS 3 1 1 s3 else s3
  recommand (rejournal (if fresh then journal 7 0 0 0 none s4 else s4))

/-- The buddy's side: it serves the ward; a mirror held for the same generation goes on, another starts empty. -/
def pairBuddy (e : PairEvidence) (s : State) : State :=
  let same := decide ((getReg s CMT_WARD).toNat = e.peer.toNat + 65536 * e.peerIdgen.toNat)
  let s1 := s.onCmt fun c => { c with
    mirror := if same then c.mirror else []
    mirrorJseq := if same then c.mirrorJseq else 1
    peerSeal := 0
    badTags := 0
    lastWardFrame := s.tick
    claimAt := none }
  setReg CMT_WARD (BitVec.ofNat 32 (e.peer.toNat + 65536 * e.peerIdgen.toNat)) (setFld CMT_STATUS 4 1 0 (setFld CMT_STATUS 2 1 1 s1))

/-- PAIRING (R333, R413): as ward with the buddy that the plan names, when pairing may start or the buddy's chip ID has a new generation; as buddy
with its one ward. A refusal leaves the package unprotected. -/
def execPairing (evidence : PairEvidence) (s : State) : Res :=
  let e := evidence
  .next (if unassigned s then s
    else if e.asBuddy then (if wardOf s = some e.peer.toNat ∧ evidenceOk s e then pairBuddy e s else s)
    else if buddyOf s ≠ some e.peer.toNat ∨ !(s.cmt.pairingOpen || (paired s && olderGen (getFld s CMT_BUDDY 16 16) e.peerIdgen.toNat)) then s
    else if evidenceOk s e then pairWard e s
    else (endPairing s).onCmt fun c => { c with refused := true })

/-- PAIRING_RETRY (R413): a refused or ended pairing is tried again every 10 s. -/
def execPairingRetry (s : State) : Res :=
  .next (if (buddyOf s).isSome ∧ !paired s ∧ s.host.ready ∧ s.cmt.pairTriedAt + msTicks 10000 ≤ s.tick then
      s.onCmt fun c => { c with pairingOpen := true, pairTriedAt := s.tick }
    else s)

/-! ### Takeover (R345, R346) -/

/-- A spare stands by for a chip ID: the same slot, its rack, trays 8h to 8h + 7 for its tray 16 + h (R345). -/
def standsBy (s : State) (c : Nat) : Bool :=
  s.host.ready && unassigned s && decide (getFld s LNK_FAB_ID 11 1 = 1) && s.lnk.assumed.isNone
    && (match ownPos s, chipPos s c with
      | some o, some p => decide (16 ≤ o.2.1) && decide (p.1 = o.1) && decide (p.2.2 = o.2.2) && decide (p.2.1 / 8 = o.2.1 - 16)
      | _, _ => false)

/-- The package leaves the idle hot-spare state: GDDR7 leaves self-refresh, the array islands go to 0.75 V and their clocks run (R434). -/
def leaveHotSpare (s : State) : State :=
  if getFld s PWR_STATUS 3 1 = 0 then s
  else
    let s1 := setFld PWR_STATUS 3 1 0 (selfRefresh 0 (s.onPwr fun p => { p with selfRefresh := false }))
    let s2 := (List.range 9).foldl (fun s r => setFld (PWR_ROW_VDD r) 0 10 750 s) s1
    (List.range 74).foldl (fun s p => if (getDie s p).islandOn then modDie p (fun d => { d with clockOn := true }) s else s) s2

/-- An object of the mirror gets a place; contents that Table 13.1 does not mark as mirrored are LOST. -/
def placeMirrored (c : CtxId) (s : State) (q : Nat × Obj) : State :=
  let o := q.2
  if o.aliased ∨ o.state = 0 then s
  else
    let n := t1Charge o.tier o.size
    let a := findPlace s (if o.tier = 2 then 1 else o.tier) (if o.tier = 2 then 0xFF else o.portDie) n
    let lost := !([3, 4, 6, 7].contains o.type.toNat) || a.isNone
    let pages : Tab PageEntry := if o.type = 7 then (o.pages.filter fun p => decide (p.2.state = 1)).map fun p =>
      (p.1, { state := 2, frame := 0, remoteChip := BitVec.ofNat 10 (getFld s CMT_BUDDY 0 10) }) else []
    let s1 := match a with | some x => takeBlocks x.2 n s | none => s
    modObj c q.1 (fun o => { o with
      state := 1
      move := none
      oldCopy := none
      lost := lost
      pages := pages
      portDie := match a with | some x => x.1 | none => o.portDie
      location := match a with | some x => x.2 * 65536 | none => 0 }) s1

/-- A context of the mirror: OPEN with every ring disabled; its object table and its objects get places. -/
def restoreCtx (s : State) (q : Nat × Ctx) : State :=
  let c : CtxId := BitVec.ofNat 12 q.1
  let s1 := modCtx c (fun _ => { q.2 with
    state := 1, queues := [], tok := TokenRing.fresh, visible := [], recent := [], kvUsed := [], objTable := (0, 0), flr := false }) s
  q.2.objs.foldl (placeMirrored c) (placeTable c s1).2

/-- The committed tokens of the current turn, in position order: those after the last END entry, or up to it when the turn has ended. -/
def turnTokens (l : List TokEntry) : List TokEntry :=
  match l with
  | [] => []
  | k :: r => (k :: r.takeWhile fun x => x.endReason.isNone).reverse

/-- A live sequence of the mirror: its KV pages are REMOTE, its map's nodes and its input pages are taken and written anew, and its current turn's tokens
wait to be re-released. -/
def restoreEntry (s : State) (q : Nat × SeqEntry) : State :=
  let e := q.2
  let in' := takeKv e.ctx e.inputPages.length s
  let out := turnTokens e.last64
  let e1 := { e with
    kvMap := e.kvMap.map fun p => if p.2.loc = 1 then (p.1, { p.2 with remote := true, addr := 0 }) else p
    kvNodes := []
    inputPages := match in' with | some r => r.1 | none => []
    cmd := none, retireCmd := none, interrupt := false, cancelPending := false, pausePending := false, autoPause := false, pan := none, drafts := []
    kvSkips := 0, waitSince := s.tick, releaseBuf := out, releaseHeld := out.length
    state := if e.state = .pausing then e.prior else e.state }
  let s1 := (match in' with | some r => r.2 | none => s).onSeq fun t => { t with entries := tput none t.entries q.1 (some e1) }
  let s2 := (growNodes q.1 (nodesFor (tkeys e1.kvMap)) s1).getD s1
  if e1.inputPages.isEmpty then s2 else s2.onMem fun m => { m with bytes := pokeInput e1 0 e1.input m.bytes }

/-- An archive whose pages lie in other frames: every address in it follows. -/
def Archive.inFrames (a : Archive) (fs : List Nat) : Archive :=
  let moved (x : Nat) : Nat := match a.frames.findIdx? fun f => decide (f = x / 0x200000) with | some k => fs.getD k 0 * 0x200000 + x % 0x200000 | none => x
  { a with
    frames := fs
    inputAddrs := a.inputAddrs.map moved
    entry := { a.entry with
      kvMap := a.entry.kvMap.map fun p => (p.1, { p.2 with addr := moved p.2.addr })
      kvNodes := a.entry.kvNodes.map fun p => (p.1, moved p.2) } }

/-- An archive of the mirror: frames for its pages, which are REMOTE. -/
def restoreArchive (s : State) (a : Archive) : State :=
  match takeFrames a.t2Pages s with
  | none => modCtx a.ctx (fun x => { x with lostHandles := (a.handle :: x.lostHandles).take 4096 }) s
  | some (fs, s1) => s1.onSeq fun t => { t with archives := t.archives ++ [{ a.inFrames fs with remote := List.range a.t2Pages }] }

/-- A model entry of the mirror, with its steering area; it is UNAVAILABLE when an image of its CURRENT record did not come (R334). -/
def restoreModel (steer : List (Nat × List Byte)) (s : State) (q : Nat × ModelEntry) : State :=
  let x := q.2
  let have' := x.cur.images.all fun h => decide (h = 0) || !(getObj s x.ctx (hIndex h)).lost
  let s1 := match findPlace s 1 0xFF 1 with
    | some a => modModel q.1 (fun _ => { x with steerArea := a.2 * 65536 }) (takeBlocks a.2 1 s)
    | none => modModel q.1 (fun _ => x) s
  let area := (getModel s1 q.1).steerArea
  let s2 := (steer.filter fun b => decide (b.1 = q.1)).foldl (fun s b => s.onMem fun m => { m with bytes := memWrite m.bytes area b.2 }) s1
  modModel q.1 (fun y => { y with switch := none, state := if x.state = 0 then 0 else if have' then 1 else 3 }) s2

/-- A pan of the mirror is created again, and its image is loaded (R346, step 4). -/
def restorePan (s : State) (n : Nat) (p : Pan) : State :=
  let s1 := createPan n (Pan.fresh p.ctx p.x0 p.y0 p.w p.h p.compat) s
  match p.active with
  | none => s1
  | some g =>
    let h := ((getModel s1 g.model).cur.images).getD g.kind 0
    let o := storageOf s1 (getObj s1 p.ctx (hIndex h))
    match startLoad n none none (objBytes s1 o 0 o.size) o.size g.spillMib true false s1 with
    | .inr s2 => s2
    | .inl _ => s1

/-- The mirrored state is restored (R346, steps 3 to 5). -/
def restoreMirror (v : MirrorImage) (s : State) : State :=
  let s1 := v.ctxs.foldl restoreCtx s
  let s2 := v.contents.foldl (fun s b => (writeObj b.1 b.2.1 0 b.2.2 s).2) s1
  let s3 := v.archives.foldl restoreArchive ((v.entries.filterMap fun p => p.2.map fun e => (p.1, e)).foldl restoreEntry s2)
  let s4 := v.models.foldl (restoreModel v.steering) s3
  let s5 := v.slots.foldl (fun s q => if q.2.state = 2 then
      let was := storageOf s (tget Obj.fresh (tget Ctx.fresh v.ctxs q.2.ctx.toNat).objs (hIndex q.2.handle))
      modSlot q.1 (fun _ => { q.2 with dataAddr := adapterAddr s q.2.ctx q.2.handle (q.2.dataAddr - was.location) }) s
    else modSlot q.1 (fun x => { x with gen := q.2.gen }) s) s4
  let s6 := v.embs.foldl (fun s q => modEmb q.1 (fun _ => { q.2 with maintBy := none }) s) s5
  v.pans.foldl (fun s q => match q.2 with | some p => restorePan s q.1 p | none => s) s6

/-- CLAIM_RECEIVE (R346, R348): a standby spare takes the first CLAIM: it assumes the chip ID at the next generation, sends its record on
every link, takes the mirror's step epoch plus 1 and its TTL clock, and restores the mirrored state; without a mirror LOST_STATE is set. -/
def execClaimReceive (claim : Claim) (mirror : MirrorImage) (s : State) : Res :=
  let c := claim.chip.toNat
  .next (if !standsBy s c then s
    else
      let e := s.lnk.plan.bind fun p => p.ofChip c
      let job := match e with | some x => x.job | none => 0x3FF
      let s1 := s.onLnk fun l => { l with assumed := some (c, nextIdgen claim.idgen.toNat, job, claim.claimant.toNat), yielded := false }
      let s2 := settleAll (leaveHotSpare s1)
      let s3 := (List.range 48).foldl (fun s j => if 3 ≤ linkState s j ∧ linkState s j ≤ 5 then sendRecord j s else s) s2
      let s4 := (bump CMT_TAKEOVERS s3).onCmt fun k => { k with pairingOpen := true, refused := false, lastWardFrame := s.tick }
      if claim.lostState then setFld CMT_STATUS 5 1 1 s4
      else
        let s5 := (setFld CMT_BUDDY 0 10 claim.claimant.toNat s4).onSeq fun q => { q with
          epoch := claim.mirrorEpoch.toNat + 1, ttlClock := claim.ttlClock.toNat, ttlCkpt := claim.ttlClock.toNat }
        setFld CMT_STATUS 3 1 1 (restoreMirror mirror s5))

/-- REMOTE_PAGE_PULL (R350, R351): a REMOTE page comes from the buddy's mirror into this package's own tiers; bad data is pulled again. -/
def execRemotePagePull (page : RemotePage) (data : List Byte) (crcOk : Bool) (s : State) : Res :=
  .next (if !crcOk then s
    else match page with
    | .kv i k =>
      match getEntry s i with
      | none => s
      | some e =>
        if !(e.kvMap.any fun p => decide (p.1 = k) && p.2.remote) then s
        else match takeKv e.ctx 1 s with
          | none => s
          | some (ps, s1) =>
            let a := ps.headD 0 * 0x40000
            endRerep (modEntry i (fun x => { x with
              kvMap := x.kvMap.map fun p => if p.1 = k then (p.1, { p.2 with remote := false, addr := a }) else p })
              (s1.onMem fun m => { m with bytes := memWrite m.bytes a (data.take 0x40000) }))
    | .arch c h k =>
      match findArchive s c h with
      | none => s
      | some a =>
        if !a.remote.contains k then s
        else
          let old := a.frames.getD k 0
          match (if s.mem.frames.contains old then some (old, s) else (findFrame s).map fun f => (f, takeFrame f s)) with
          | none => s
          | some (f, s1) =>
            let b := a.inFrames (a.frames.set k f)
            let p := a.objPages.getD k (0, 0)
            endRerep (modObj c p.1 (fun o => { o with pages := tput PageEntry.zero o.pages p.2 { state := 1, frame := f, remoteChip := 0 } })
              ((s1.onMem fun m => { m with bytes := memWrite m.bytes (f * 0x200000) (data.take 0x200000) }).onSeq fun q => { q with
                archives := q.archives.map fun x => if x.ctx = c ∧ x.handle = h then { b with remote := b.remote.filter fun y => !decide (y = k) } else x }))
    | .obj c i k =>
      let o := getObj s c i.toNat
      if o.tier ≠ 2 ∧ o.lost ∧ (o.type = 3 ∨ o.type = 4) ∧ o.state ≠ 0 ∧ !o.aliased then
        modObj c i.toNat (fun x => { x with lost := false }) (s.onMem fun m => { m with
          bytes := memWrite m.bytes (o.location + 0x200000 * k) (data.take (min 0x200000 (o.size - 0x200000 * k))) })
      else if o.tier ≠ 2 ∨ (tget PageEntry.zero o.pages k).state ≠ 2 ∨ s.seq.archives.any (fun a => decide (a.ctx = c) && a.objPages.contains (i.toNat, k)) then s
      else match findFrame s with
        | none => s
        | some f =>
          endRerep (modObj c i.toNat (fun x => { x with pages := tput PageEntry.zero x.pages k { state := 1, frame := f, remoteChip := 0 } })
            ((takeFrame f s).onMem fun m => { m with bytes := memWrite m.bytes (f * 0x200000) (data.take 0x200000) })))

end Sys2Proof.Machine
end

