-- ==== Sys2Proof/Machine/Contexts.lean ====
section
/-! DEFINITION. Contexts: opening, closing, query, key import and the function-level reset (R161, R294, R298, R299, R411, R412). -/

namespace Sys2Proof.Machine

/-- The device interface version: major 1, minor 0 (R294). -/
def interfaceVersion : Nat := 0x10000

/-- CTX_OPEN (R294): major version 1 opens the context, drawing keys where it has none (R161), with its object table in tier 1 (R136); any other leaves
it in MISMATCH. A first one is refused while the entropy source has failed (R407). -/
def execCtxOpen (c : CmdRef) (s : State) : Res :=
  .next (startCmd 0x0101 c s fun m s =>
    let x := getCtx s m.ctx
    let r0 := interfaceVersion + 2 ^ 32 * m.ctx.toNat
    if x.state = 1 then endFail m (stNotPermitted 3) s
    else if x.dataKey.isNone ∧ getFld s FW_STATUS 5 1 = 1 then endFail m (stNotPermitted 0x65) s
    else if m.f 0 16 16 ≠ 1 then endWith m (0x0102, 0) false r0 (chipId s) (modCtx m.ctx (fun x => { x with state := 2 }) s)
    else
      let k := draw Config.freeKey s
      let t := draw Config.freeKey k.2
      let s1 := if x.dataKey.isSome then s else modCtx m.ctx (fun x => { x with dataKey := some k.1, tweakKey := some t.1, wroteT2 := false }) t.2
      let r := placeTable m.ctx s1
      if !r.1 then endFail m (stNoSpace 0) s
      else endOk m r0 (chipId s) (modCtx m.ctx (fun x => { x with
        state := 1, ekgen := x.ekgen + 1, everOpened := true
        lostState := x.lostState || (!x.everOpened && decide (getFld s CMT_STATUS 5 1 = 1)) }) r.2))

/-! ### Closing (R299) -/

/-- Commands of a context that have not started end with ST_CANCELLED, DETAIL 2. -/
def cancelWaiting (c : CtxId) (n : Nat) (s : State) : State :=
  s.onCmds fun l => l.map fun m =>
    if m.ctx = c ∧ m.phase = .waiting ∧ m.seqno ≠ n then { m with phase := .ended (entryOf m.tag m.irq (stCancelled 2) true 0 0), waitsOn := none } else m

/-- A live sequence ends as under a SESSION cancel (Table 7.10). -/
def closeSeq (s : State) (q : Nat × SeqEntry) : State :=
  match q.2.state with
  | .held => freeSeq q.1 (endWaiting q.2 (stCancelled 0) s)
  | .pausing => endSession q.1 (endWaiting q.2 (stCancelled 0) s)
  | .resuming => endSession q.1 (endWaiting q.2 (stCancelled 0) s)
  | .ending => s
  | .free => s
  | _ => endSession q.1 s

/-- The close begins: CLOSING, pending commands cancelled, sequences ended, pans to be released at their next drain. -/
def beginClose (c : CtxId) (n : Nat) (s : State) : State :=
  let s1 := cancelWaiting c n (modCtx c (fun x => { x with state := 3, visible := [] }) s)
  let s2 := ((liveEntries s1).filter fun q => decide (q.2.ctx = c)).foldl closeSeq s1
  s2.onPans fun t => t.map fun p => (p.1, p.2.map fun x => if x.ctx = c then { x with releasing := true } else x)

/-- Nothing of the context is under way: its other commands have ended, no sequence lives, and its pans are gone. -/
def closeReady (s : State) (c : CtxId) (n : Nat) : Bool :=
  !((outstanding s c).any fun m => !m.isEnded && !decide (m.seqno = n))
    && !((liveEntries s).any fun q => decide (q.2.ctx = c))
    && !(s.pans.any fun p => match p.2 with | some x => decide (x.ctx = c) | none => false)

/-- An object of a closing context goes: an alias leaves its owner; an owner whose aliases remain keeps the storage as an orphan (R139). -/
def closeObj (c : CtxId) (s : State) (i : Nat) : State :=
  let o := getObj s c i
  if o.state = 0 ∨ o.orphan then s
  else if o.aliased then dropAlias o.ownerCtx (hIndex o.ownerHandle.toNat) (modObj c i (fun _ => Obj.fresh) s)
  else if 0 < o.shareCount then modObj c i (fun o => { o with orphan := true }) s
  else dropObj c i s

/-- The context's tables, objects and keys are freed (R161, R277, R299). -/
def freeContext (c : CtxId) (s : State) : State :=
  let s1 := (s.seq.archives.filter fun a => decide (a.ctx = c)).foldl (fun s a => freeArchive a s) s
  let s2 := (s1.mdl.models.filter fun p => decide (p.2.state ≠ 0) && decide (p.2.ctx = c)).foldl (fun s p =>
    modModel p.1 (fun _ => ModelEntry.free) (if p.2.steerArea = 0 then s else freeBlocks (p.2.steerArea / 65536) s)) s1
  let s3 := (s2.mdl.slots.filter fun p => decide (p.2.state ≠ 0) && decide (p.2.ctx = c)).foldl (fun s p =>
    modSlot p.1 (fun x => { AdpSlot.free with gen := x.gen }) s) s2
  let tables := (s3.mdl.embs.filter fun p => decide (p.2.state ≠ 0) && decide (p.2.ctx = c)).map (·.1)
  let s4 := tables.foldl (fun s e => modEmb e (fun _ => EmbEntry.free)
    ((tkeys s.arr.dies).foldl (fun s p => dropHot p (fun h => decide (h.entry = e)) s) s)) s3
  let s5 := (s4.onMdl fun d => { d with grads := d.grads.filter fun g => !decide (g.cmd.ctx = c), imports := d.imports.filter fun g => !decide (g.cmd.ctx = c) })
    |>.onBalances fun l => l.filter fun b => !decide (b.ctx = c)
  let s6 := freeTable c ((tkeys (getCtx s5 c).objs).foldl (closeObj c) s5)
  modCtx c (fun x => { x with
    dataKey := none, tweakKey := none, wroteT2 := false, expired := [], lostHandles := [], kvUsed := [], archUsed := 0
    visible := [], tok := x.tok }) s6

/-- CTX_CLOSE (R299): the context is CLOSING from its first part on; its last part frees what is left, and its entry is the last. -/
def execCtxClose (c : CmdRef) (s : State) : Res :=
  let finish (m : Cmd) (s : State) : State := if closeReady s m.ctx m.seqno then endOk m m.count0 0 (freeContext m.ctx s) else s
  let start (m : Cmd) (s : State) : State :=
    let n := ((outstanding s m.ctx).filter fun k => decide (k.phase = .waiting) && !decide (k.seqno = m.seqno)).length
    let s1 := modCmd m.seqno (fun k => { k with count0 := n }) (beginClose m.ctx m.seqno s)
    finish { m with count0 := n } s1
  .next (match findCmd s c with
    | some m => if m.phase = .running then whileRunning 0x0102 c s finish else startCmd 0x0102 c s start
    | none => s)

/-- One context under a function-level reset: its close begins, its rings are gone, and once nothing of it is under way it is CLOSED. -/
def resetContext (s : State) (c : CtxId) : State :=
  let x := getCtx s c
  if x.state = 0 then s
  else
    let s1 := if x.flr then s
      else modCtx c (fun x => { x with flr := true, queues := (x.queues.filter fun q => decide (0 < q.2.reserved)).map fun q => (q.1, { Queue.fresh with reserved := q.2.reserved }) })
        (beginClose c s.host.nextSeqno (resetRegs (0x100000000 + fnOf c * 0x10000 + 0x2000 + c.toNat % 16 * 0x200)
          (0x100000000 + fnOf c * 0x10000 + 0x2200 + c.toNat % 16 * 0x200) s))
    if closeReady s1 c s1.host.nextSeqno ∧ (outstanding s1 c).isEmpty then
      modCtx c (fun x => { x with state := 0, flr := false, lostState := false, tok := TokenRing.fresh }) (freeContext c s1)
    else s1

/-- FUNCTION_LEVEL_RESET (R299): every context of the function closes as by CTX_CLOSE, and no completion of it is written. -/
def execFunctionLevelReset (fn : BitVec 8) (s : State) : Res :=
  .next ((List.range 16).foldl (fun s k => resetContext s (BitVec.ofNat 12 (16 * fn.toNat + k))) s)

/-! ### Query (R298) -/

/-- The record of Table 11.18. -/
def queryRecord (s : State) (c : CtxId) : List Byte :=
  let x := getCtx s c
  let t1 := 65536 * ((List.range 12).map (sliceBlocks s)).foldl (· + ·) 0
  let t2 := 0x200000 * ((List.range 12).map (portFrames s)).foldl (· + ·) 0
  let pans := (s.pans.map fun p => match p.2 with | some q => if q.ctx = c then 2 ^ p.1 else 0 | none => 0).foldl (· + ·) 0
  leBytes 4 interfaceVersion ++ leBytes 2 c.toNat ++ leBytes 1 x.state.toNat ++ leBytes 1 (fnOf c) ++ leBytes 2 (chipId s) ++ leBytes 6 0
    ++ leBytes 8 t1 ++ leBytes 8 t2
    ++ leBytes 4 x.quota.t1Units ++ leBytes 4 (t1Use s c) ++ leBytes 4 x.quota.t2Pages ++ leBytes 4 (t2Use s c)
    ++ leBytes 2 x.quota.seqs ++ leBytes 2 (seqsUsed s c) ++ leBytes 2 x.quota.objMax ++ leBytes 2 (x.objs.filter fun o => decide (o.2.state ≠ 0)).length
    ++ leBytes 1 x.quota.share ++ leBytes 1 (b2n x.quota.kvFp8) ++ leBytes 2 pans ++ leBytes 4 (outstanding s c).length ++ leBytes 192 0

/-- CTX_QUERY (R298): state, version and outstanding commands, and the record when a host address is given. -/
def execCtxQuery (c : CmdRef) (s : State) : Res :=
  .next (startCmd 0x0103 c s fun m s =>
    let s1 := if m.p 0 = 0 then s else dmaWrite m.ctx (m.p 0) (queryRecord s m.ctx) s
    endOk m ((getCtx s m.ctx).state.toNat + 0x10000) (outstanding s m.ctx).length s1)

/-! ### Key import (R161, R412) -/

/-- The two keys that an import block carries, when EK_ID is current and the unwrap checks (R412). -/
def importKeys (s : State) (c : CtxId) (b : List Byte) : Option (BitVec 256 × BitVec 256) :=
  let g := (getCtx s c).ekgen
  let ek := bytesAt b 8 8
  if ek ≠ Config.ekId c.toNat g then none
  else match Config.kemDecap c.toNat g (bytesAt b 0x10 1568) with
    | none => none
    | some z => Config.keyUnwrap (BitVec.ofNat 256 (leNat (Config.shake256 (leBytes 32 z.toNat ++ leBytes 2 c.toNat ++ ek)))) (bytesAt b 0x630 72)

/-- CTX_KEY_IMPORT (R412): refused after the context's first tier-2 write; new keys take force and EKGEN rises. -/
def execCtxKeyImport (c : CmdRef) (block : List Byte) (s : State) : Res :=
  .next (startCmd 0x0105 c s fun m s =>
    if (getCtx s m.ctx).wroteT2 then endFail m (stNotPermitted 0) s
    else if m.f 1 0 16 ≠ 1656 ∨ fieldAt block 0 4 ≠ 0x4B494359 ∨ fieldAt block 4 2 ≠ 1 ∨ fieldAt block 6 2 ≠ m.ctx.toNat then endFail m (stBadParam 7) s
    else match importKeys s m.ctx block with
      | none => endFail m (stBadParam 8) s
      | some k => endOk m 0 0 (modCtx m.ctx (fun x => { x with dataKey := some k.1, tweakKey := some k.2, ekgen := x.ekgen + 1 }) s))

end Sys2Proof.Machine
end

