-- ==== Sys2Proof/Machine/Faults.lean ====
section
/-! DEFINITION. The commands and events of fault collection, forced faults, ALIVE_OUT and the lifetime record (R358, R367–R375, R296). -/

namespace Sys2Proof.Machine

/-! ### Commands (Table 11.14) -/

/-- FLT_READ (R367): the history entries, oldest first; with CLEAR exactly those leave the queue. -/
def execFltRead (c : CmdRef) (s : State) : Res :=
  .next (startCmd 0x0701 c s fun m s =>
    let l := s.flt.history
    let s1 := dmaWrite m.ctx (m.p 0) (l.map histBytes).flatten s
    let s2 := if bit (m.p 1) 0 then showHist (s1.onFlt fun f => { f with history := [] }) else s1
    endOk m l.length 0 s2)

/-- A source permits a reaction and its reaction is not fixed (R358). -/
def mayReact (id reaction : Nat) : Bool :=
  match sourceRow id with
  | some r => !r.fixed && bit r.allowed reaction
  | none => false

/-- FLT_CONFIG (R358): a source's reaction, for the events after it. -/
def execFltConfig (c : CmdRef) (s : State) : Res :=
  .next (startCmd 0x0702 c s fun m s =>
    if mayReact (m.f 0 0 16) (m.f 0 16 3) then endOk m 0 0 (modSrc (m.f 0 0 16) (fun x => { x with reaction := some (m.f 0 16 3) }) s)
    else endFail m (stBadParam 7) s)

/-- LIFE_READ (R375): a range of the 4 MiB record space. -/
def execLifeRead (c : CmdRef) (s : State) : Res :=
  .next (startCmd 0x0703 c s fun m s =>
    if 0x400000 < m.p 1 + m.p 2 then endFail m (stBadParam 7) s
    else endOk m (m.p 2) 0 (dmaWrite m.ctx (m.p 0) (lifeBytes s (m.p 1) (m.p 2)) s))

/-- A source's force bit and repeat count (R368): a count of 0 cancels what is pending. -/
def forceSource (id n : Nat) (s : State) : State :=
  modSrc id (fun x => { x with force := decide (0 < n), repeats := n, forcedAt := none }) s

/-- TEST_FORCE (R368). -/
def execTestForce (c : CmdRef) (s : State) : Res :=
  .next (startCmd 0x0901 c s fun m s =>
    if (sourceRow (m.f 0 0 16)).isNone then endFail m (stBadParam 7) s
    else endOk m 0 0 (forceSource (m.f 0 0 16) (m.f 0 16 16) s))

/-- TEST_PATTERN (R296, Table 11.16): refused on a die of a pan; RESULT0 is the number of failing units that the pattern found. The layout of the host
result is not stated, and none is written (notes/assumptions/59). -/
def execTestPattern (c : CmdRef) (failing : Nat) (s : State) : Res :=
  .next (startCmd 0x0902 c s fun m s =>
    if 72 ≤ m.f 0 0 7 then endFail m (stBadParam 7) s
    else if (dieOfPan s (physDie s (m.f 0 0 7))).isSome then endFail m (stNotPermitted 0) s
    else endOk m failing 0 s)

/-! ### Forced events (R368) -/

/-- SRC_FORCE_SET (R368): FORCE written in FLT_SRC_CFG with a repeat count, for the source that FLT_SRC_SEL selects. -/
def execSrcForceSet (repeats : BitVec 16) (s : State) : Res :=
  let id := getFld s FLT_SRC_SEL 0 16
  .next (if (sourceRow id).isSome then forceSource id repeats.toNat s else s)

/-- The lowest-numbered die of a source in service, by die code. -/
def firstDie (s : State) (id : Nat) : Nat :=
  if id < 0x0200 ∨ id = 0x0701 ∨ id = 0x0702 ∨ id = 0x0704 then ((List.range 74).find? fun p => (logicalDie s p).isSome).getD 0
  else if 0x0311 ≤ id ∧ id < 0x0400 then 0x60 + ((List.range 12).find? (portUp' s)).getD 0 / 3
  else if 0x0300 ≤ id ∧ id < 0x0311 then 0x50 + ((List.range 12).find? fun p => decide (0 < getFld s (NEAR_STATUS p) 7 3)).getD 0
  else if id = 0x0204 ∨ id = 0x0205 ∨ id = 0x0208 then 0x70
  else if id < 0x0300 then 0x50
  else if id < 0x0500 then 0x68 else 0x70
where
  /-- The CXL port is in service. -/
  portUp' (s : State) (c : Nat) : Bool := decide (getFld s (FAR_PORT_STATUS (c / 3) (c % 3)) 0 1 = 1)

/-- The lowest-numbered unit of a source on a die: device, CXL port, link or core; 0xFF for sources without units. -/
def firstUnit (s : State) (id die : Nat) : Nat :=
  if 0x0300 ≤ id ∧ id < 0x0311 then ((List.range 4).find? fun d => decide (getFld s (NEAR_DEV_STATUS (die - 0x50) d) 0 1 = 1)).getD 0
  else if 0x0311 ≤ id ∧ id < 0x0400 then ((List.range 3).find? fun j => decide (getFld s (FAR_PORT_STATUS (die - 0x60) j) 0 1 = 1)).getD 0
  else if 0x0401 ≤ id ∧ id < 0x0403 then 0
  else if id = 0x0601 then 0 else 0xFF

/-- The event at the instance that FLT_FORCE_INST names; 0xFF selects the lowest-numbered instance in service. -/
def forcedEvent (s : State) (id : Nat) : FaultEvent :=
  let d0 := getFld s FLT_FORCE_INST 0 8
  let u0 := getFld s FLT_FORCE_INST 8 8
  let d := if d0 = 0xFF then firstDie s id else d0
  let pan := if d < 74 then dieOfPan s d else none
  { faultOf id d (if u0 = 0xFF then firstUnit s id d else u0) 0 with
    ctx := (pan.bind (getPan s)).map (·.ctx)
    pan := pan.bind fun n => if h : n < 16 then some ⟨n, h⟩ else none }

/-- FORCED_EVENT (R368): one event a millisecond while FORCE_REPEAT remains; the first at once. -/
def execForcedEvent (source : BitVec 16) (s : State) : Res :=
  let id := source.toNat
  let x := getSrc s id
  let due : Bool := match x.forcedAt with | none => true | some t => decide (t + msTicks 1 ≤ s.tick)
  .next (if x.force ∧ 0 < x.repeats ∧ due then
      collect (forcedEvent s id) true (modSrc id (fun x => { x with repeats := x.repeats - 1, force := decide (1 < x.repeats), forcedAt := some s.tick }) s)
    else s)

/-! ### ALIVE_OUT (R369, R370) -/

/-- The heartbeat is refreshed: the first refresh after PERST_N release or a chip reset starts ALIVE_OUT; a stopped one ignores it. -/
def refreshAlive (s : State) : State :=
  if !fwRuns s ∨ getFld s FLT_ALIVE_STATUS 2 1 = 1 then s
  else
    let s1 := s.onFlt fun f => { f with kickAt := s.tick, edgeAt := if getFld s FLT_ALIVE_STATUS 1 1 = 1 then f.edgeAt else s.tick }
    setFld FLT_ALIVE_STATUS 1 1 1 s1

/-- ALIVE_KICK (R369): KEY 0x5A3C refreshes; any other value is ignored. -/
def execAliveKick (value : Word) (s : State) : Res :=
  .next (if bits value.toNat 0 16 = 0x5A3C then refreshAlive s else s)

/-- ALIVE_OUT_EDGE (R369): one edge every 500 µs while it runs. -/
def execAliveOutEdge (s : State) : Res :=
  .next (if getFld s FLT_ALIVE_STATUS 1 1 = 1 ∧ s.flt.edgeAt + usTicks 500 ≤ s.tick then
      setFld FLT_ALIVE_STATUS 0 1 (1 - getFld s FLT_ALIVE_STATUS 0 1) (s.onFlt fun f => { f with edgeAt := f.edgeAt + usTicks 500 })
    else s)

/-- HEARTBEAT_TIMEOUT (R370): 10 ms without a refresh stop ALIVE_OUT and record CTL_ALIVE. -/
def execHeartbeatTimeout (s : State) : Res :=
  .next (if getFld s FLT_ALIVE_STATUS 1 1 = 1 ∧ s.flt.kickAt + msTicks 10 ≤ s.tick then
      collect (faultOf 0x0602 0x70 0xFF 0) false (stopAlive 0x0602 true s)
    else s)

/-! ### Bittern totals and the lifetime record (R372, R373) -/

/-- BITTERN_ACCUMULATE (R372): every 60 s. -/
def execBitternAccumulate (s : State) : Res :=
  .next (if fwRuns s ∧ s.flt.baccAt + msTicks 60000 ≤ s.tick then readAllBacc s else s)

/-- Every built step has committed or been abandoned, and every record is durable (R342, R404, R435). -/
def allSettled (s : State) : Bool := s.seq.steps.isEmpty && recDurable s (s.cmt.nextJseq - 1)

/-- LIFETIME_WRITE (R373, R435): every 15 minutes, and for a shutdown once its steps have settled. -/
def execLifetimeWrite (s : State) : Res :=
  .next (if !fwRuns s ∨ s.flt.life.writing.isSome then s
    else if s.pwr.shutdown = .settling ∧ allSettled s then
      beginLifeWrite (s.onPwr fun p => { p with shutdown := .writing })
    else if s.flt.life.lastWrite + msTicks 900000 ≤ s.tick then beginLifeWrite s else s)

/-- SHUTDOWN_READY is answered, and the journal heartbeats stop (R435). -/
def answerShutdown (s : State) : State :=
  s.onPwr fun p => { p with shutdown := .answered, answers := leBytes 1 1 :: p.answers }

/-- LIFETIME_WRITE_DONE (R373): the slot write ends with its verify; a shutdown that waited for it is answered. -/
def execLifetimeWriteDone (verifyOk : Bool) (s : State) : Res :=
  .next (if s.flt.life.writing.isNone then s
    else
      let s1 := endLifeWrite verifyOk s
      if s1.pwr.shutdown = .writing then answerShutdown s1 else s1)

end Sys2Proof.Machine
end

