-- ==== Sys2Proof/Machine/Cores.lean ====
section
/-! DEFINITION. Control cores, their watchdogs, restart and retirement, and the warm standby (R364, R389–R395). -/

namespace Sys2Proof.Machine

/-- CORE_KICK (R364): a core refreshes its watchdog. -/
def execCoreKick (core : Fin 8) (s : State) : Res :=
  .next (if fwRuns s then s.onFlt fun f => { f with coreKick := tput 0 f.coreKick core (s.tick + 1) } else s)

/-- CORE_WATCHDOG_EXPIRY (R364, R353): 4 ms without a refresh mark the core and raise CTL_CORE; the collector sends the NMI. -/
def execCoreWatchdogExpiry (core : Fin 8) (s : State) : Res :=
  let last := tget 0 s.flt.coreKick core - 1
  .next (if fwRuns s ∧ !cd1Active s ∧ roleOf s core ≠ 15 ∧ !coreDown s core ∧ last + msTicks 4 ≤ s.tick then
      present (faultOf 0x0601 0x70 core 0) (crashCore core s)
    else s)

/-- The tick at which a core that is down crashed. -/
def downSince (s : State) (n : Nat) : Option Nat := (s.fw.down.find? fun d => decide (d.1 = n)).map (·.2)

/-- A crashed core is to be retired: it crashed within 10 s of a restart, or 50 ms have passed (R393). -/
def mustRetire (s : State) (n : Nat) : Bool :=
  match downSince s n with
  | none => false
  | some t =>
    let r := tget 0 s.fw.restartedAt n
    (decide (0 < r) && decide (t < r - 1 + msTicks 10000)) || decide (t + msTicks 50 < s.tick)

/-- A spare core runs. -/
def spareCore (s : State) : Option Nat := (List.range 8).find? fun n => decide (roleOf s n = 5) && !coreDown s n

/-- CORE_RESTART (R392): within 50 ms of its crash, a core that another core can restart is given its segments anew from the pristine copy and runs again; the
fault-and-telemetry core takes the heartbeat back. A segment that fails its SEG_DIGEST leaves the restart uncompleted. -/
def execCoreRestart (core : Fin 8) (s : State) : Res :=
  .next (if coreDown s core ∧ !mustRetire s core ∧ nmiCore s core < 8 ∧ segmentsGood s.fw.running core then
      let s1 := s.onFw fun f => { f with
        down := f.down.filter fun d => !decide (d.1 = core.val)
        restartedAt := tput 0 f.restartedAt core (s.tick + 1) }
      let s2 := bump FW_RESTARTS (s1.onFlt fun f => { f with coreKick := tput 0 f.coreKick core (s.tick + 1) })
      if roleOf s2 core = 4 then refreshAlive s2 else s2
    else s)

/-- CORE_RETIRE (R393): the spare takes the role of a core that is to be retired. -/
def execCoreRetire (core : Fin 8) (s : State) : Res :=
  .next (match spareCore s with
    | some p =>
      if mustRetire s core ∧ p ≠ core.val then
        setFld FW_ROLE_MAP (4 * p) 4 (roleOf s core) (setFld FW_ROLE_MAP (4 * core.val) 4 15
          (s.onFw fun f => { f with down := f.down.filter fun d => !decide (d.1 = core.val) }))
      else s
    | none => s)

/-- CD1 takes over: a core of CD0 would be retired, or its fault-and-telemetry core is down, and no spare remains (R395). -/
def takeoverDue (s : State) : Bool :=
  fwRuns s && !noStandby s && (spareCore s).isNone && (List.range 8).any fun n => mustRetire s n || (coreDown s n && decide (roleOf s n = 4))

/-- CD1_TAKEOVER (R395, Table 16.2): a crash of every core of CD0; CD1's cores take the roles and the heartbeat, and no standby follows. An update in
its pause is abandoned (Table 16.13). -/
def execCd1Takeover (s : State) : Res :=
  .next (if !takeoverDue s then s
    else
      let s1 := crashWork 0 (dropUpdate s)
      let s2 := setReg FW_ROLE_MAP 0x54332210 (setFld FW_STATUS 1 2 2 s1)
      let s3 := s2.onFw fun f => { f with down := [], restartedAt := [], running := f.standby }
      let s4 := s3.onCmt fun c => { c with ctl := [], ctlAcked := c.nextJseq - 1 }
      refreshAlive (showFw (s4.onFlt fun f => { f with coreKick := (List.range 8).map fun n => (n, s.tick + 1) })))

/-- CONTROL_LOG_APPLY (R394): CD1 applies the oldest record of the control log and acknowledges it. -/
def execControlLogApply (s : State) : Res :=
  .next (match s.cmt.ctl with
    | r :: rs => if noStandby s then s else s.onCmt fun c => { c with ctl := rs, ctlAcked := r.jseq }
    | [] => s)

end Sys2Proof.Machine
end

