-- ==== Sys2Proof/Machine/Firmware.lean ====
section
/-! DEFINITION. Firmware images, fuses, live update, entropy and attestation (R400–R410, R414). -/

namespace Sys2Proof.Machine

/-! ### Staging (R403, Table 16.7) -/

/-- Major part of IFACE. -/
def imgIface (b : List Byte) : Nat := fieldAt b 0x16 2

/-- Image A passes on one of the flash devices. -/
def imageAPasses (s : State) : Bool := decide (flashFail s 0 = 0) || decide (flashFail s 1 = 0)

/-- FW_STAGE's refusal, in the order of Table 16.7. -/
def stageRefusal (s : State) (b : List Byte) (len : Nat) (toA : Bool) : Option Status :=
  let code := imgFail s true b
  if len = 0 ∨ 8388608 < len ∨ code = 2 then some (stBadParam 7)
  else if code = 3 ∨ code = 4 then some (stBadParam 0xC)
  else if code = 5 then some (stNotPermitted 0x60)
  else if toA ∧ imageAPasses s then some (stNotPermitted 0x61)
  else if imgIface b ≠ 1 then some (stNotPermitted 0x62) else none

/-- An image is written to A or B of both flash devices and read back. -/
def writeFlash (toA : Bool) (b : List Byte) (s : State) : State :=
  let k := if toA then 0 else 2
  s.onFw fun f => { f with flash := (f.flash.set k b).set (k + 1) b, readOk := f.readOk ||| BitVec.ofNat 4 (3 * 2 ^ k) }

/-- FW_STAGE (R403): held while a live update runs. -/
def execFwStage (c : CmdRef) (image : List Byte) (s : State) : Res :=
  .next (startHeld 0x0801 c s (fun _ => s.fw.update.isSome) fun m s =>
    let b := image.take (m.p 1)
    let toA := !bit (m.p 2) 0
    match stageRefusal s b (m.p 1) toA with
    | some st => endFail m st s
    | none => endOk m 0 0 (writeFlash toA b s))

/-! ### Live update (R404, R405, Table 16.8) -/

/-- The image that FW_ACTIVATE takes: on device 0, else on device 1; or the status of device 1's failure. -/
def activateImage (s : State) (fromB : Bool) : Status ⊕ List Byte :=
  let k := if fromB then 2 else 0
  let c := flashFail s (k + 1)
  if flashFail s k = 0 then .inr (s.fw.flash.getD k [])
  else if c = 0 then .inr (s.fw.flash.getD (k + 1) [])
  else if c = 3 ∨ c = 4 then .inl (stBadParam 0xC)
  else if c = 5 then .inl (stNotPermitted 0x60) else .inl (stBadParam 7)

/-- FW_ACTIVATE's checks (Table 16.7). -/
def activateCheck (s : State) (fromB : Bool) : Status ⊕ List Byte :=
  match activateImage s fromB with
  | .inl st => .inl st
  | .inr b =>
    if imgIface b ≠ 1 then .inl (stNotPermitted 0x62)
    else if imgDigest b = imgDigest s.fw.running then .inl (stNotPermitted 0x63) else .inr b

/-- The pause begins (Table 16.8, order 1): no step is built and no slot fetched, and UPDATING is set. -/
def beginPause (u : Update) (s : State) : State :=
  setFld FW_STATUS 3 1 1 ((s.onFw fun f => { f with update := some { u with pausedAt := some s.tick } }).onHost fun h => { h with updating := true })

/-- The sections of a handoff block (R405): one of each TYPE 1–7, of at most 8 KiB, whose contents firmware lays out (notes/assumptions/183). -/
def handoffSections (s : State) : List (List Byte) := (List.range 7).map fun k => (Config.handoffSection (k + 1) s.free).take 8192

/-- Section entries (Table 16.9): TYPE, the tier-0 offset and the length of each section, which lie one behind another from an offset. -/
def sectionEntries : Nat → Nat → List (List Byte) → List Byte
  | _, _, [] => []
  | type, off, x :: xs => leBytes 2 type ++ leBytes 2 0 ++ leBytes 4 off ++ leBytes 4 x.length ++ leBytes 4 0 ++ sectionEntries (type + 1) (off + x.length) xs

/-- CHECK of a handoff block: SHAKE256 over the block with the field zero and over every section its entries name (Table 16.9). -/
def handoffCheck (b : List Byte) : List Byte :=
  Config.shake256 (b.take 0x440 ++ leBytes 32 0 ++ b.drop 0x460 ++ ((List.range (fieldAt b 6 2)).map fun k =>
    bytesAt b (fieldAt b (0x44 + 16 * k) 4 - handoffAt) (fieldAt b (0x48 + 16 * k) 4)).flatten)

/-- The handoff block that the old image writes for a new one (Table 16.9), its sections behind CHECK. -/
def handoffBlock (s : State) (image : List Byte) : List Byte :=
  let x := handoffSections s
  let b := bytesAt (leBytes 4 0x46484359 ++ leBytes 2 1 ++ leBytes 2 7 ++ leBytes 4 (imgVersion s.fw.running) ++ leBytes 4 (imgVersion image)
    ++ leBytes 8 (durableJseq s) ++ leBytes 8 s.seq.epoch ++ leBytes 4 s.seq.ttlClock ++ leBytes 4 (chipId s + 65536 * getFld s LNK_FAB_ID 16 16)
    ++ leBytes 24 0 ++ bytesAt (sectionEntries 1 (handoffAt + 0x460) x) 0 1024 ++ leBytes 32 0 ++ x.flatten) 0 0x10000
  b.take 0x440 ++ bytesAt (handoffCheck b) 0 32 ++ b.drop 0x460

/-- The new image's check of the block in CD0's tier 0: FORMAT 1, which it must accept, and CHECK (Table 16.8, order 4). -/
def handoffOk (s : State) : Bool :=
  let b := s.fw.handoff
  decide (fieldAt b 0 4 = 0x46484359) && decide (fieldAt b 4 2 = 1) && decide (bytesAt b 0x440 32 = bytesAt (handoffCheck b) 0 32)

/-- The old image writes the handoff block (Table 16.8, order 3). -/
def writeHandoff (u : Update) (s : State) : State := { s.onFw fun f => { f with handoff := handoffBlock s u.image } with free := s.free + 1 }

/-- The image waits in the staging region, the first 8 MiB of the firmware region (R391, R404). -/
def stageImage (b : List Byte) (s : State) : State :=
  match regionBase s with
  | some a => s.onMem fun m => { m with bytes := memWrite m.bytes a b }
  | none => s

/-- The new image takes over (Table 16.8, orders 3 to 6): it is the running, the pristine and CD1's copy, its digest is measured, the pause ends, and
FW_ACTIVATE answers the new VERSION. -/
def adoptImage (m : Cmd) (u : Update) (t : Nat) (s : State) : State :=
  let s1 := extend 5 (imgDigest u.image) (s.onFw fun f => { f with
    running := u.image, standby := u.image, update := none, activatedB := if u.fromB then some s.tick else none })
  let s2 := setReg FW_UPDATE_PAUSE (BitVec.ofNat 32 (min ((s.tick - t) / 100) 0xFFFFF)) (setFld FW_STATUS 6 1 0 (setFld FW_STATUS 3 1 0 s1))
  let s3 := (showFw s2).onFlt fun f => { f with coreKick := (List.range 8).map fun n => (n, s.tick + 1) }
  resumeShutdown (endOk m (imgVersion u.image) 0 (s3.onHost fun h => { h with updating := false }))

/-- A live update goes on: the lifetime record is written, then the pause lets built steps commit, abandons after 200 ms those that have not ended, and
waits until every record is durable. The old image then writes the handoff block, which the new one checks before it takes over; a refusal leaves the old
image running. -/
def goOnUpdate (m : Cmd) (s : State) : State :=
  match s.fw.update with
  | none => s
  | some u =>
    match u.pausedAt with
    | none =>
      if s.flt.life.writing.isSome then s
      else if m.count0 = 0 then beginLifeWrite (modCmd m.seqno (fun x => { x with count0 := 1 }) s)
      else beginPause u s
    | some t =>
      let s1 := if t + msTicks 200 ≤ s.tick then abandonAll (fun st => !st.ended) s else s
      if allSettled s1 then
        let s2 := writeHandoff u s1
        if handoffOk s2 then adoptImage m u t s2 else dropUpdate s2
      else s1

/-- FW_ACTIVATE (R404): held while a core is down or an update runs; the checks, then the update, which every further occurrence carries on. -/
def execFwActivate (c : CmdRef) (s : State) : Res :=
  .next (match findCmd s c with
    | some m =>
      if m.phase = .running then whileRunning 0x0802 c s goOnUpdate
      else startHeld 0x0802 c s (fun _ => !s.fw.down.isEmpty || s.fw.update.isSome) fun m s =>
        match activateCheck s (bit (m.p 0) 0) with
        | .inl st => endFail m st s
        | .inr b => goOnUpdate m ((stageImage b s).onFw fun f => { f with update := some { cmd := m.ref, image := b, fromB := bit (m.p 0) 0, pausedAt := none } })
    | none => s)

/-- FW_PROMOTION (R406): 15 minutes after an activation from image B without a fatal event, image B is copied to image A of both devices, and the image's SVN
is blown. -/
def execFwPromotion (s : State) : Res :=
  .next (match s.fw.activatedB with
    | some t =>
      if fwRuns s ∧ s.fw.update.isNone ∧ t + msTicks 900000 ≤ s.tick then
        let b := s.fw.flash.getD (if flashFail s 2 = 0 then 2 else 3) []
        let s1 := writeFlash true b s
        setFld FW_STATUS 6 1 1 (showFw (s1.onFw fun f => { f with activatedB := none, fuseSvn := max f.fuseSvn (imgSvn f.running) }))
      else s
    | none => s)

/-! ### Lock and fuses (R400, R401) -/

/-- The registers of a block that hold an RWL field. -/
def rwlAddrs (b : RegBlock) : List Nat :=
  ((List.range b.count).map fun n =>
    ((b.rows.filter fun r => r.fields.any fun f => decide (f.acc = .rwl)).map fun r =>
      (List.range (max 1 r.count)).map fun i => b.base + n * b.stride + r.off + i * r.stride).flatten).flatten

/-- Every RWL field as MEASURE[4] takes it: the registers that hold one, in address order of their blocks, 4 bytes each (notes/assumptions/61). -/
def rwlBytes (s : State) : List Byte := ((regBlocks.map rwlAddrs).flatten.map fun a => leBytes 4 (getReg s a).toNat).flatten

/-- LOCK is set: every RWL field keeps its value until a chip reset, and MEASURE[4] takes them (R401, R409). -/
def setLock (s : State) : State :=
  if getFld s FW_STATUS 0 1 = 1 then s else extend 4 (rwlBytes s) (setFld FW_STATUS 0 1 1 (setFld FW_LOCK 0 1 1 s))

/-- FW_LOCK (R401): writing 1 sets LOCK. -/
def execFwLock (value : Word) (s : State) : Res := .next (if bit value.toNat 0 then setLock s else s)

/-- Fuses are blown up to TARGET, which must lie above FUSE_SVN and at most at the running image's SVN (R400). -/
def svnAdvance (v : Nat) (s : State) : State :=
  let t := bits v 0 7
  if fwRuns s ∧ s.fw.fuseSvn < t ∧ t ≤ imgSvn s.fw.running then showFw (s.onFw fun f => { f with fuseSvn := t }) else s

/-- Bit k revokes key slot k; the running image's slot stays (R400). -/
def revokeKeys (v : Nat) (s : State) : State :=
  let keep : BitVec 4 := BitVec.ofNat 4 (2 ^ imgSlot s.fw.running)
  if fwRuns s then showFw (s.onFw fun f => { f with revoked := f.revoked ||| (BitVec.ofNat 4 v &&& ~~~keep) }) else s

/-- FW_SVN_ADVANCE (R400). -/
def execFwSvnAdvance (value : Word) (s : State) : Res := .next (svnAdvance value.toNat s)

/-- FW_KEY_REVOKE (R400). -/
def execFwKeyRevoke (value : Word) (s : State) : Res := .next (revokeKeys value.toNat s)

/-! ### Entropy and attestation (R407, R410) -/

/-- ENTROPY_HEALTH_FAIL (R407): a noise source fails: 0 CD0's, from which on the engine reseeds from CD1's; 1 CD1's; both set ENTROPY_FAIL. -/
def execEntropyHealthFail (source : Fin 2) (s : State) : Res :=
  let s1 := s.onFw fun f => if source = 0 then { f with badSource0 := true } else { f with badSource1 := true }
  .next (if s1.fw.badSource0 && s1.fw.badSource1 then setFld FW_STATUS 5 1 1 s1
    else if s1.fw.badSource0 then setFld FW_STATUS 4 1 1 s1 else s1)

/-- STANDBY_VALID (R394): CD1 follows with at most 64 records outstanding. -/
def standbyValid (s : State) : Bool := fwRuns s && !noStandby s && decide (s.cmt.ctl.length ≤ 64)

/-- The signed part of the attestation report of a context, 0x7A0 bytes (Table 16.11). -/
def attestHead (s : State) (m : Cmd) : List Byte :=
  let sec := getFld s FW_STATUS 0 1 + 4 * b2n (standbyValid s) + 8 * b2n (cd1Active s) + 16 * getFld s CMT_STATUS 0 1
  leBytes 4 0x54535441 ++ leBytes 2 1 ++ leBytes 2 10522 ++ leBytes 8 (m.p 1) ++ leBytes 8 (m.p 2) ++ leBytes 8 (m.p 3) ++ leBytes 8 (m.p 4)
    ++ bytesAt (Config.shake256 Config.devicePk) 0 32 ++ leBytes 2 m.ctx.toNat
    ++ leBytes 2 (chipId s + 0x4000 * b2n (unassigned s) + 0x8000 * getFld s LNK_FAB_ID 11 1) ++ leBytes 2 (getFld s LNK_FAB_ID 16 16)
    ++ leBytes 2 (getFld s LNK_FAB_POS 0 11 + 0x8000 * getFld s LNK_FAB_POS 11 1) ++ leBytes 4 (imgVersion s.fw.running)
    ++ leBytes 1 (imgSvn s.fw.running) ++ leBytes 1 s.fw.fuseSvn ++ leBytes 1 (getFld s FW_BOOT_RESULT 0 8) ++ leBytes 1 sec ++ leBytes 1 0xA1
    ++ leBytes 39 0 ++ (s.fw.measures.map fun x => bytesAt x 0 32).flatten ++ bytesAt (Config.kemEk m.ctx.toNat (getCtx s m.ctx).ekgen) 0 1568

/-- The attestation report, 10,522 bytes. -/
def attestReport (s : State) (m : Cmd) : List Byte :=
  let h := attestHead s m
  let label : List Byte := "YD960 attestation".toUTF8.toList.map fun x => BitVec.ofNat 8 x.toNat
  h ++ bytesAt (Config.mldsaSign (label ++ h)) 0 3309 ++ bytesAt Config.devicePk 0 1952 ++ bytesAt Config.endorsement 0 3309

/-- ATTEST (R410): the report for a nonce goes to the host buffer; held during an update's pause (R414). -/
def execAttest (c : CmdRef) (s : State) : Res :=
  .next (startHeld 0x0803 c s (fun _ => s.host.updating) fun m s =>
    endOk m 10522 0 (dmaWrite m.ctx (m.p 0) (attestReport s m) s))

end Sys2Proof.Machine
end

