-- ==== Sys2Proof/Machine/Manage.lean ====
section
/-! DEFINITION. The management bus and the JTAG port: PMBus, PLDM and MCTP answers (R375, R429), boundary scan and IDCODE (Table 16.6). -/

namespace Sys2Proof.Machine

/-- An answer goes out on SMBus. -/
def answer (b : List Byte) (s : State) : State := s.onPwr fun p => { p with answers := b :: p.answers }

/-- The management target answers: VDD_STBY is up. -/
def stbyUp (s : State) : Bool := decide (s.pwr.stage ≠ .off)

/-! ### PMBus and PLDM (R429) -/

/-- READ_PIN: the package's input power in watts, as a word (notes/assumptions/62). -/
def execReadPin (s : State) : Res := .next (if stbyUp s then answer (leBytes 2 (getFld s PWR_PKG_POWER 0 13)) s else s)

/-- READ_TEMPERATURE_1: the hottest junction in °C, as a word. -/
def execReadTemperature1 (s : State) : Res := .next (if stbyUp s then answer (leBytes 2 (getFld s PWR_TEMP_MAX 0 8)) s else s)

/-- STATUS_WORD: its bits are not stated, and the word is free. -/
def execStatusWord (s : State) : Res :=
  .next (if stbyUp s then
      let r := draw Config.freeWord s
      answer (leBytes 2 r.1.toNat) r.2
    else s)

/-- The reading of a PLDM numeric sensor: 0 package power, 1 the hottest junction, 2 + die code that die's temperature (notes/assumptions/62). -/
def sensorReading (s : State) (sensor : Nat) : Option Nat :=
  if sensor = 0 then some (getFld s PWR_PKG_POWER 0 13)
  else if sensor = 1 then some (getFld s PWR_TEMP_MAX 0 8)
  else if sensor < 2 + 0x72 then some (tget 0 s.pwr.temps (sensor - 2)) else none

/-- PLDM_SENSOR_READ (R429): answered with the reading, or not at all for a sensor that does not exist. -/
def execPldmSensorRead (sensor : Nat) (s : State) : Res :=
  .next (match sensorReading s sensor with
    | some v => if stbyUp s then answer (leBytes 4 v) s else s
    | none => s)

/-! ### MCTP (R375) -/

/-- MCTP_LIFETIME_READ (R375): up to 1 KiB of the record space, while firmware runs. -/
def execMctpLifetimeRead (offset : Nat) (length : Nat) (s : State) : Res :=
  .next (if fwRuns s ∧ length ≤ 1024 ∧ offset + length ≤ 0x400000 then answer (lifeBytes s offset length) s else s)

/-- What the standby logic answers: 0 the history queue, 1 FLT_STBY_FATAL, 2 FLT_STBY_LAST, 3 FW_BOOT_RESULT, 4 FLT_HIST_LOST (R375, R377, R415). -/
def stbyItem (s : State) (item : Nat) : Option (List Byte) :=
  match item with
  | 0 => some (s.flt.history.map histBytes).flatten
  | 1 => some (leBytes 4 (getReg s FLT_STBY_FATAL).toNat)
  | 2 => some (leBytes 4 (getReg s FLT_STBY_LAST).toNat)
  | 3 => some (leBytes 4 (getReg s FW_BOOT_RESULT).toNat)
  | 4 => some (leBytes 4 (getReg s FLT_HIST_LOST).toNat)
  | _ => none

/-- MCTP_STBY_READ (R375): at any time that VDD_STBY is up. -/
def execMctpStbyRead (item : Nat) (s : State) : Res :=
  .next (match stbyItem s item with
    | some b => if stbyUp s then answer b s else s
    | none => s)

/-! ### The JTAG port (Table 16.6, IEEE 1149.1) -/

/-- The next state of the TAP controller by TMS. -/
def Tap.next (t : Tap) (tms : Bool) : Tap :=
  match t with
  | .reset => if tms then .reset else .idle
  | .idle => if tms then .selectDr else .idle
  | .selectDr => if tms then .selectIr else .captureDr
  | .captureDr => if tms then .exit1Dr else .shiftDr
  | .shiftDr => if tms then .exit1Dr else .shiftDr
  | .exit1Dr => if tms then .updateDr else .pauseDr
  | .pauseDr => if tms then .exit2Dr else .pauseDr
  | .exit2Dr => if tms then .updateDr else .shiftDr
  | .updateDr => if tms then .selectDr else .idle
  | .selectIr => if tms then .reset else .captureIr
  | .captureIr => if tms then .exit1Ir else .shiftIr
  | .shiftIr => if tms then .exit1Ir else .shiftIr
  | .exit1Ir => if tms then .updateIr else .pauseIr
  | .pauseIr => if tms then .exit2Ir else .pauseIr
  | .exit2Ir => if tms then .updateIr else .shiftIr
  | .updateIr => if tms then .selectDr else .idle

/-- n free bits, drawn one by one. -/
def freeBits : Nat → State → List Bool × State
  | 0, s => ([], s)
  | n + 1, s =>
    let b := draw Config.freeBool s
    let r := freeBits n b.2
    (b.1 :: r.1, r.2)

/-- The data register that the instruction in force captures: IDCODE, whose lowest bit is 1, the pins at the boundary-scan cells, or a BYPASS bit of 0. -/
def captureData (s : State) : List Bool × State :=
  if s.pwr.instr = Config.idcodeInstr then ((List.range 32).map fun k => bit (Config.idcode ||| 1).toNat k, s)
  else if Config.selectsBoundary s.pwr.instr then freeBits Config.boundaryBits s
  else ([false], s)

/-- A rising edge of TCK: the register of the present state captures or shifts, and the controller moves. -/
def tckRise (tms tdi : Bool) (s : State) : State :=
  let s1 := match s.pwr.tap with
    | .captureDr => let r := captureData s; r.2.onPwr fun p => { p with dr := r.1 }
    | .shiftDr => s.onPwr fun p => { p with dr := p.dr.drop 1 ++ [tdi] }
    | .captureIr => let r := freeBits (Config.irBits - 2) s; r.2.onPwr fun p => { p with ir := [true, false] ++ r.1 }
    | .shiftIr => s.onPwr fun p => { p with ir := p.ir.drop 1 ++ [tdi] }
    | _ => s
  s1.onPwr fun p => { p with tap := p.tap.next tms, instr := if p.tap.next tms = .reset then Config.idcodeInstr else p.instr }

/-- A falling edge of TCK: TDO takes the next bit out, and an instruction that was shifted in comes into force. -/
def tckFall (s : State) : State :=
  s.onPwr fun p => { p with
    tdo := if p.tap = .shiftDr then p.dr.headD false else if p.tap = .shiftIr then p.ir.headD false else p.tdo
    instr := if p.tap = .updateIr then p.ir else p.instr }

/-- BOUNDARY_SCAN (R402): the board sets TCK, TMS, TDI and TRST_N; TRST_N low resets the controller. -/
def execBoundaryScan (tck : Bool) (tms : Bool) (tdi : Bool) (trstN : Bool) (s : State) : Res :=
  let s1 := if !trstN then s.onPwr fun p => { p with tap := .reset, instr := Config.idcodeInstr }
    else if tck && !s.pwr.tck then tckRise tms tdi s
    else if !tck && s.pwr.tck then tckFall s else s
  .next (if stbyUp s then s1.onPwr fun p => { p with tck := tck } else s)

end Sys2Proof.Machine
end

