-- ==== Sys2Proof/Machine/Pmc.lean ====
section
/-! DEFINITION. The commands and events of performance counting (R382–R387). -/

namespace Sys2Proof.Machine

/-- A pan's part of a set 0x04 record (Table 15.2): its bins, then STEPS, ABANDONED and RAKES in 8 bytes each (notes/assumptions/60); zeros where no pan
exists. -/
def panBody (s : State) (n : Nat) : List Byte :=
  if (getPan s n).isNone then leBytes 256 0
  else
    let h := getHist s n
    let bins (k m : Nat) : List Byte := ((List.range m).map fun i => leBytes 4 (tget 0 h.bins (32 * k + i))).flatten
    bins 0 20 ++ bins 1 20 ++ bins 2 16 ++ leBytes 8 h.steps ++ leBytes 8 h.abandoned ++ leBytes 8 h.rakes ++ leBytes 8 0

/-- The record of set 0x04. -/
def panRecord (s : State) (pan : Option Nat) : List Byte :=
  let ns := match pan with | some n => [n] | none => List.range 16
  let e := sampleEpoch s pan
  leBytes 1 4 ++ leBytes 1 (pan.getD 0xF) ++ leBytes 1 ns.length ++ leBytes 1 0 ++ leBytes 4 0 ++ leBytes 4 e ++ leBytes 4 e ++ leBytes 48 0
    ++ (ns.map (panBody s)).flatten

/-- PMC_SAMPLE's refusal (R296, R385): set and window, the package from a VF, and the pan statuses. -/
def sampleRefusal (s : State) (m : Cmd) : Option Status :=
  let set := m.f 0 8 8
  if set = 0 ∨ 4 < set ∨ (set ≠ 4 ∧ (m.f 2 0 32 = 0 ∨ 3000000 < m.f 2 0 32)) then some (stBadParam 7)
  else if m.f 0 0 4 = 0xF then (if fnOf m.ctx = 0 then none else some (stNotPermitted 2))
  else panRefusal s m.ctx (m.f 0 0 4)

/-- PMC_SAMPLE (R383, R385): the pan histograms at once, or a window whose start notice goes to every die of the scope. -/
def execPmcSample (c : CmdRef) (s : State) : Res :=
  .next (startCmd 0x0704 c s fun m s =>
    match sampleRefusal s m with
    | some st => endFail m st s
    | none =>
      let pan := if m.f 0 0 4 = 0xF then none else some (m.f 0 0 4)
      if m.f 0 8 8 = 4 then
        let b := panRecord s pan
        endOk m b.length 0 (dmaWrite m.ctx (m.p 1) b s)
      else
        let dies := match pan.bind (getPan s) with | some p => p.logical | none => List.range 72
        let x : Sample := { cmd := m.ref, seqno := m.seqno, set := m.f 0 8 8, pan := pan, window := m.f 2 0 32, toOpen := dies, toReport := [],
                            reports := [], epoch0 := sampleEpoch s pan, began := s.tick, cut := none, epoch1 := 0 }
        s.onPmc fun p => { p with samples := p.samples ++ [x] })

/-- The sample that a PMC_SAMPLE command runs. -/
def sampleOf (s : State) (c : CmdRef) : Option Sample := s.pmc.samples.find? fun x => decide (x.cmd = c)

/-- The first window of a sample gives its EPOCH_START and the start of the window run (R384, R386). -/
def startSample (s : State) (x : Sample) : Sample :=
  if x.toReport.isEmpty && x.reports.isEmpty then { x with epoch0 := sampleEpoch s x.pan, began := s.tick } else x

/-- PMC_WINDOW_OPEN (R383): the start notice reaches a die, and its window opens. -/
def execPmcWindowOpen (c : CmdRef) (die : Fin 74) (s : State) : Res :=
  .next (match sampleOf s c, logicalDie s die with
    | some x, some l =>
      if x.toOpen.contains l then
        modSample x.seqno (fun y => { startSample s y with toOpen := y.toOpen.filter fun k => !decide (k = l), toReport := y.toReport ++ [l] })
          (openWindow x.seqno x.window die s)
      else s
    | _, _ => s)

/-- PMC_WINDOW_CLOSE (R383): a die's window has reached its end on its counter; the last report ends the command. -/
def execPmcWindowClose (c : CmdRef) (die : Fin 74) (s : State) : Res :=
  .next (match sampleOf s c, logicalDie s die with
    | some x, some l =>
      match (getDie s die).windows.find? fun w => decide (w.sample = x.seqno) with
      | some w => if w.stop ≤ dieCount s die ∧ x.toReport.contains l then closeWindow x l die s else s
      | none => s
    | _, _ => s)

/-- Every high-water mark of a die is cleared, and the windows open on it share them (R387). -/
def clearMarks (p : Nat) (s : State) : State :=
  modDie p (fun d => { d with windows := d.windows.map fun w => { w with hwmShared := true } }) (clearHwm p s)

/-- PMC_HWM_CLR (R387): writing 1 clears every high-water mark of the die; open windows set HWM_SHARED. -/
def execPmcHwmClr (die : Fin 74) (value : Word) (s : State) : Res :=
  .next (if bit value.toNat 0 then clearMarks die s else s)

/-- PMC_PAN_CLR (R382): writing 1 clears the histograms and totals of the pan that PMC_PAN_SEL selects. -/
def execPmcPanClr (value : Word) (s : State) : Res :=
  .next (if bit value.toNat 0 then modHist (getFld s PMC_PAN_SEL 0 4) (fun _ => PanHist.fresh) s else s)

end Sys2Proof.Machine
end

