-- ==== Sys2Proof/Machine/Power.lean ====
section
/-! DEFINITION. The power cap, the governor, droop, temperature and rails (R416–R424, R429, R436). -/

namespace Sys2Proof.Machine

/-! ### The cap (R420) -/

/-- The effective cap in watts: the least of 4,800, the board cap and PWR_CAP_FW. -/
def effCap (s : State) : Nat := min 4800 (min (getFld s PWR_CAP_BOARD 0 13) (getFld s PWR_CAP_FW 0 13))

/-- A change of the effective cap is counted. -/
def noteCap (before : Nat) (s : State) : State := if effCap s = before then s else bump PWR_CAP_CHANGES s

/-- MFR_POWER_CAP (R420, R429): the board cap, clamped to 1,500–4,800 W. -/
def execMfrPowerCap (watts : BitVec 16) (s : State) : Res :=
  .next (if s.pwr.stage = .off then s
    else noteCap (effCap s) (setFld PWR_CAP_BOARD 0 13 (max 1500 (min 4800 watts.toNat)) s))

/-! ### Samples (R420, Table 17.8) -/

/-- The mean of a list, 0 of none. -/
def mean (l : List Nat) : Nat := l.foldl (· + ·) 0 / max 1 l.length

/-- POWER_SAMPLE (R420): the package's input power, and that of the dies named, every 100 µs; PWR_PKG_POWER is the mean of the last 5 ms. -/
def execPowerSample (watts : Nat) (dies : List (Nat × Nat)) (s : State) : Res :=
  let s1 := s.onPwr fun p => { p with
    samples := (watts :: p.samples).take 50
    dieWatts := dies.foldl (fun t d => tmod [] t d.1 fun l => (d.2 :: l).take 50) p.dieWatts }
  .next (if s.pwr.stage = .off then s else setReg PWR_PKG_POWER (BitVec.ofNat 32 (min (mean s1.pwr.samples) 8191)) s1)

/-! ### Clocks (R27, R421–R423) -/

/-- Die p's ARRAY_CLK: ARR_CLK shows it, halved while a droop lasts (R422). -/
def setClock (p mhz : Nat) (s : State) : State :=
  setFld (ARR_CLK p) 0 12 (if (getDie s p).drooped then mhz / 2 else mhz) (modDie p (fun d => { d with mhz := mhz }) s)

/-! ### The governor (R421) -/

/-- The model's entry for a die and a frequency. -/
def modelFor (l : List DieModel) (p mhz : Nat) : Option DieModel := l.find? fun x => decide (x.die.val = p) && decide (x.mhz = mhz)

/-- Steps of 25 MHz from 1,250 down to 500. -/
def clockSteps : List Nat := (List.range 31).map fun i => 1250 - 25 * i

/-- Power in mW of some dies at a frequency; none where the model has no entry. -/
def diesPower (l : List DieModel) (dies : List Nat) (mhz : Nat) : Option Nat :=
  dies.foldl (fun r p => match r, modelFor l p mhz with
    | some n, some x => some (n + x.milliwatts)
    | _, _ => none) (some 0)

/-- The voltage in mV that row domain r needs: the highest of its running islands at their clocks, and 10 mV more, within 600–850 (R417). -/
def rowVolts (l : List DieModel) (s : State) (dies : List Nat) (r : Nat) : Option Nat :=
  let vs := dies.filterMap fun p => if rowDomain p = r then (modelFor l p (getDie s p).mhz).map (·.mv) else none
  if vs.isEmpty then none else some (max 600 (min 850 (vs.foldl max 0 + 10)))

/-- GOVERNOR_TICK (R421, R423): the highest step at which the dies of all pans fit the budget, 500 MHz and CAP_UNMET when none does; one step less per tick
while a die other than an array die is hot; a throttled die keeps its lower clock; dies of no pan stand still. -/
def execGovernorTick (models : List DieModel) (nonArray : Nat) (idle : Nat) (s : State) : Res :=
  let cap := effCap s
  let budget := 980 * cap - 1000 * nonArray
  let dies := (s.pans.filterMap fun q => q.2.map (panDies s)).flatten.filter fun p => (getDie s p).islandOn
  let fit := clockSteps.find? fun f => match diesPower models dies f with | some n => decide (n + idle ≤ budget) | none => false
  let steps := if s.pwr.hot.isEmpty then 0 else s.pwr.govSteps + 1
  let f := max 500 (fit.getD 500 - 25 * steps)
  .next (if !fwRuns s ∨ s.pwr.stage = .training ∨ s.pwr.stage = .selfTest ∨ s.pwr.thermTrip ∨ getFld s PWR_STATUS 3 1 = 1 then s
    else
      let s1 := setFld PWR_STATUS 1 1 (b2n fit.isNone) (setFld PWR_STATUS 0 1 (b2n (decide (fit.getD 500 < 1250)))
        (setReg PWR_ARR_BUDGET (BitVec.ofNat 32 (budget / 1000)) (s.onPwr fun p => { p with govSteps := steps })))
      let s2 := (List.range 74).foldl (fun s p =>
        if !(getDie s p).islandOn then s
        else if dies.contains p then
          setClock p (if (getDie s p).throttled then min (getDie s p).mhz f else f) (modDie p (fun d => { d with clockOn := true }) s)
        else modDie p (fun d => { d with clockOn := false }) s) s1
      (List.range 9).foldl (fun s r => match rowVolts models s dies r with | some v => setFld (PWR_ROW_VDD r) 0 10 v s | none => s) s2)

/-! ### Droop (R422) -/

/-- DROOP_DETECT (R422): ARRAY_CLK is halved; the event is counted and raises PWR_DROOP. -/
def execDroopDetect (die : Fin 74) (s : State) : Res :=
  .next (if !(getDie s die).islandOn ∨ (getDie s die).drooped then s
    else
      let s1 := setClock die (getDie s die).mhz (modDie die (fun d => { d with drooped := true }) s)
      present (faultOf 0x0702 die 0xFF 0) (lifeAdd (0x1018 + 64 * die.val) 8 1 (bump PWR_DROOP_COUNT s1)))

/-- DROOP_RECOVER (R422): the die restores its clock. -/
def execDroopRecover (die : Fin 74) (s : State) : Res :=
  .next (if (getDie s die).drooped then setClock die (getDie s die).mhz (modDie die (fun d => { d with drooped := false }) s) else s)

/-! ### Temperature (R423, R424) -/

/-- The highest temperature of a list of readings by die code; the lower code among equals. -/
def hottest (t : Tab Nat) : Option (Nat × Nat) :=
  t.foldl (fun r q => match r with | some b => if b.2 < q.2 then some q else some b | none => some q) none

/-- A die enters throttling: counted, and PWR_THROTTLE is raised. -/
def enterThrottle (code : Nat) (s : State) : State := present (faultOf 0x0701 code 0xFF 0) (bump PWR_THROTTLE_COUNT s)

/-- One die's hottest sensor is read (R423): it enters or leaves throttling, and a throttled array die goes 125 MHz lower. -/
def readTemp (s : State) (q : Nat × Nat) : State :=
  let s0 := s.onPwr fun p => { p with temps := tput 0 p.temps q.1 q.2 }
  let peak := leNat (memRead s0.flt.life.shadow (0x1024 + 64 * q.1) 2)
  let s1 := if peak < q.2 then lifeAdd (0x1024 + 64 * q.1) 2 (q.2 - peak) s0 else s0
  if q.1 < 74 then
    let d := getDie s1 q.1
    if !d.islandOn then s1
    else
      let s2 := if 95 ≤ q.2 ∧ !d.throttled then enterThrottle q.1 (modDie q.1 (fun d => { d with throttled := true }) s1)
        else if q.2 < 93 ∧ d.throttled then modDie q.1 (fun d => { d with throttled := false }) s1 else s1
      if (getDie s2 q.1).throttled then setClock q.1 (max 500 ((getDie s2 q.1).mhz - 125)) s2 else s2
  else if 95 ≤ q.2 ∧ !s1.pwr.hot.contains q.1 then enterThrottle q.1 (s1.onPwr fun p => { p with hot := p.hot ++ [q.1] })
  else if q.2 < 93 then s1.onPwr fun p => { p with hot := p.hot.filter fun c => !decide (c = q.1) }
  else s1

/-- A GDDR7 device's temperature readout (Table 6.8): codes from 0x80 on name G00–G47 (notes/assumptions/177). -/
def deviceTemp (s : State) (q : Nat × Nat) : State :=
  let g := q.1 - 0x80
  if g < 48 ∧ (tget [] s.mem.near (g / 4)).contains (g % 4) then setFld (NEAR_DEV_STATUS (g / 4) (g % 4)) 8 8 (min 255 q.2) s else s

/-- A junction at 110 °C (R424): THERM_TRIP_N is asserted, every ARRAY_CLK stops, and PWR_TRIP is raised. -/
def tripAt (code : Nat) (s : State) : State :=
  if s.pwr.thermTrip then s
  else
    let s1 := (List.range 74).foldl (fun s p => if (getDie s p).clockOn then modDie p (fun d => { d with clockOn := false }) s else s) s
    present (faultOf 0x0704 code 0xFF 0) (s1.onPwr fun p => { p with thermTrip := true })

/-- THERMAL_SAMPLE (R423, R424): the hottest sensor of each die named, by die code, and readouts of GDDR7 devices. -/
def execThermalSample (temps : List (Nat × Nat)) (s : State) : Res :=
  .next (if s.pwr.stage = .off ∨ !s.pwr.pwrGood then s
    else
      let s1 := (temps.filter fun q => decide (q.1 < 0x80)).foldl readTemp ((temps.filter fun q => decide (0x80 ≤ q.1)).foldl deviceTemp s)
      let s2 := match hottest s1.pwr.temps with
        | some q => setReg PWR_TEMP_MAX (BitVec.ofNat 32 (min q.2 255 + 256 * q.1)) s1
        | none => s1
      let s3 := setFld PWR_STATUS 2 1 (b2n (!s2.pwr.hot.isEmpty || s2.arr.dies.any fun d => d.2.throttled)) s2
      match temps.find? fun q => decide (q.1 < 0x80) && decide (110 ≤ q.2) with
      | some q => tripAt q.1 s3
      | none => s3)

/-! ### Rails (R418) -/

/-- RAIL_FAULT (R418): a rail has been outside its limits for more than 100 µs while PWR_GOOD is asserted. -/
def execRailFault (rail : Fin 7) (s : State) : Res :=
  .next (if s.pwr.pwrGood then
      present (faultOf 0x0703 0xFF 0xFF 0) (setFld PWR_RAIL_STATUS (8 + rail.val) 1 1 (setFld PWR_RAIL_STATUS rail 1 0 s))
    else s)

end Sys2Proof.Machine
end

