-- ==== Sys2Proof/Machine/Rake.lean ====
section
/-! DEFINITION. The watchdog, the rake, spill segments and orphans of an array die (R118–R121, R128). -/

namespace Sys2Proof.Machine

/-- The elastic queue that lengthens a TERM queue is full; a queue without one counts as full (R119). -/
def elasticFull (s : State) (p col row key : Nat) : Bool :=
  let r := (getTile s p col row).route key
  if !r.elastic then true
  else
    let l := (logicalDie s p).getD 0
    let dies := match (dieOfPan s p).bind (getPan s) with | some x => panDies s x | none => [p]
    !(dies.any fun q =>
      let m := (logicalDie s q).getD 0
      (getDie s q).tiles.any fun t =>
        let e := tget EqDesc.unused t.2.eqDescs r.index.toNat
        decide (0 < e.size) && decide (e.termCol = col) && decide (e.termRow = row) && decide (4 * e.termPort.toNat + e.termVq.toNat = key)
          && decide ((m % 8 : Int) + e.termDx = (l % 8 : Int)) && decide ((m / 8 : Int) + e.termDy = (l / 8 : Int))
          && decide (t.2.eqLen r.index.toNat < 64 * e.size))

/-- The victims of a rake, by tile key and queue key (R119). -/
def rakeVictims (s : State) (p : Nat) : List (Nat × Nat) :=
  ((getDie s p).tiles.map fun q =>
    if q.2.starved then (tkeys q.2.queues).filterMap fun k =>
      if (q.2.queue k).length = 8 ∧ (q.2.route k).type = 0 ∧ elasticFull s p (q.1 % 16) (q.1 / 16) k then some (q.1, k) else none
    else []).flatten

/-- One victim moves to a new segment, when a segment and spill space are left. The segments of one queue form a chain in the order of their creation, the
newest next to the queue: each stands between the queue and what fed it before (R119). -/
def rakeOne (p epoch rakes : Nat) (r : Nat × State) (v : Nat × Nat) : Nat × State :=
  let s := r.2
  let d := getDie s p
  if 64 ≤ d.segments.length ∨ spillCapacity s p d < d.spilled + 8 then r
  else
    let tier0 := 1024 * (d.tiles.map fun q => q.2.active.units.getD 5 0).foldl (· + ·) 0
    match firstFree (d.segments.map (·.id)) 64 0 with
    | none => r
    | some i =>
      let g : Segment := { id := i, rakeLow := rakes % 16, epoch := epoch, col := v.1 % 16, row := v.1 / 16, key := v.2,
                           flits := (tget Tile.fresh d.tiles v.1).queue v.2, accepting := true, tokenSent := false,
                           tier1 := decide (tier0 < d.spilled + 8) }
      (r.1 + g.flits.length, modDie p (fun d => { d with
        segments := d.segments ++ [g]
        tiles := tmod Tile.fresh d.tiles v.1 fun t => { t with queues := tput [] t.queues v.2 [] } }) s)

/-- RAKE (R119): the victims' flits move to segments, and the rake is counted. Cycles of a rake are not stated and are free. -/
def rake (p : Nat) (s : State) : Nat × State :=
  let epoch := match (dieOfPan s p).bind (getPan s) with | some x => x.epoch | none => 0
  let rakes := (getReg s (CFG_RAKE_COUNT p)).toNat
  let r := (rakeVictims s p).foldl (rakeOne p epoch rakes) (0, s)
  let c := draw Config.freeNat r.2
  let step := getFld c.2 (CFG_RAKE_STEP p) 0 8
  let nop := getFld c.2 (CFG_RAKE_STEP p) 8 2
  let s1 := setFld (CFG_WD_STATUS p) 0 1 1 (setReg (CFG_RAKE_STEP p)
    (BitVec.ofNat 32 (min (step + 1) 255 + 256 * (if 0 < r.1 then 0 else min (nop + 1) 3))) (bump (CFG_RAKE_COUNT p) c.2))
  (r.1, lifeAdd (0x1010 + 64 * p) 8 1 <| noteSpill p (modDie p (fun d => { d with quiet := 0, rakeCycles := (d.rakeCycles + c.1) % 2 ^ 48 }) s1))

/-- An event of a die that names no tile. -/
def dieEvent (s : State) (source p unit detail : Nat) : FaultEvent :=
  { source := BitVec.ofNat 16 source, die := BitVec.ofNat 8 p, col := 0xFF, row := 0xFF, unit := BitVec.ofNat 8 unit,
    ctx := (panCtx s p).2, pan := (panCtx s p).1, detail := BitVec.ofNat 16 detail }

/-- The pan of a die waits on a page-in: its watchdogs neither count nor rake (R151). -/
def waitingDie (s : State) (p : Nat) : Bool :=
  match dieOfPan s p with | some n => decide (getFld s TIER_PAGEIN_STATUS (16 + n) 1 = 1) | none => false

/-- WATCHDOG_EXPIRY (R118, R119, R121): 4,096 cycles without a fire on a die that is non-empty and blocked start a rake; a third rake
without progress in a row, or more than CAP in one step, raises ARR_RAKE. -/
def execWatchdogExpiry (die : Fin 74) (s : State) : Res :=
  let d := getDie s die
  .next (if waitingDie s die || decide (d.quiet < 4096) || !d.nonEmpty || !(d.tiles.any fun q => q.2.blocked) then s
    else
      let r := (rake die s).2
      let r1 := match (dieOfPan r die).bind (getPan r) with
        | some p => (match p.step with | some e => modStep e (fun st => { st with rakes := st.rakes + 1 }) r | none => r)
        | none => r
      if getFld r1 (CFG_RAKE_STEP die) 8 2 = 3 ∨ getFld r1 (CFG_RAKE_CTL die) 0 8 < getFld r1 (CFG_RAKE_STEP die) 0 8
      then present (dieEvent r1 0x0105 die 0 0) r1 else r1)

/-- ORPHAN_TIMEOUT (R118): data at a done tile's head for 4,096 cycles raises ARR_ORPHAN with ORPHAN set. -/
def execOrphanTimeout (die : Fin 74) (s : State) : Res :=
  .next (if waitingDie s die || decide ((getDie s die).orphanFor < 4096) then s
    else
      let s1 := modDie die (fun d => { d with orphanFor := 0 }) (setFld (CFG_WD_STATUS die) 1 1 1 s)
      present (dieEvent s1 0x0104 die 0 0) s1)

/-- The segment of a number on a die. -/
def findSegment (s : State) (p i : Nat) : Option Segment := (getDie s p).segments.find? fun g => decide (g.id = i)

/-- The state with f applied to segment i of a die. -/
def modSegment (p i : Nat) (f : Segment → Segment) (s : State) : State :=
  modDie p (fun d => { d with segments := d.segments.map fun g => if g.id = i then f g else g }) s

/-- SPILL_SEGMENT_EMPTY (R119): when a segment has emptied and its queue has room, the RAKE token enters the queue and the segment
closes to arrivals. -/
def execSpillSegmentEmpty (die : Fin 74) (segment : Nat) (s : State) : Res :=
  .next (match findSegment s die segment with
    | none => s
    | some g =>
      if !g.flits.isEmpty ∨ g.tokenSent ∨ 8 ≤ ((getTile s die g.col g.row).queue g.key).length then s
      else
        let f : Flit := { kind := 3, arg := 0, payload := BitVec.ofNat 512 (g.id + 4096 * g.rakeLow) }
        modTile die g.col g.row (fun t => { t with queues := tmod [] t.queues g.key (· ++ [f]) })
          (modSegment die segment (fun g => { g with accepting := false, tokenSent := true }) s))

/-- The segment of a queue's chain that a segment refills: the next newer one while it takes arrivals (R119). -/
def nextSegment (d : Die) (g : Segment) : Option Segment :=
  ((d.segments.dropWhile fun h => !decide (h.id = g.id)).drop 1).find? fun h =>
    decide (h.col = g.col) && decide (h.row = g.row) && decide (h.key = g.key) && h.accepting

/-- SPILL_REFILL (R119, R120): the head of a segment refills its queue, or the next segment of its chain; a segment whose tag differs from the pan epoch when its refill
begins is discarded whole, its flits counted. -/
def execSpillRefill (die : Fin 74) (segment : Nat) (s : State) : Res :=
  let epoch := match (dieOfPan s die).bind (getPan s) with | some x => x.epoch | none => 0
  .next (match findSegment s die segment with
    | none => s
    | some g =>
      if g.epoch ≠ epoch then
        bumpBy (CFG_BITTERN_SPILL die) g.flits.length (modDie die (fun d => { d with segments := d.segments.filter fun h => !decide (h.id = g.id) }) s)
      else
        match g.flits with
        | [] => s
        | f :: fs =>
          match nextSegment (getDie s die) g with
          | some h => modSegment die h.id (fun h => { h with flits := h.flits ++ [f] }) (modSegment die segment (fun g => { g with flits := fs }) s)
          | none =>
            if 8 ≤ ((getTile s die g.col g.row).queue g.key).length then s
            else modTile die g.col g.row (fun t => { t with queues := tmod [] t.queues g.key (· ++ [f]) })
              (modSegment die segment (fun g => { g with flits := fs }) s))

/-- CFG_SPILL_HWM.UNITS returns to 0. -/
def clearSpillHwm (p : Nat) (s : State) : State := setFld (CFG_SPILL_HWM p) 0 16 0 s

/-- SPILL_HWM_CLEAR (R128): writing CLEAR clears the high-water mark. -/
def execSpillHwmClear (die : Fin 74) (value : Word) (s : State) : Res :=
  .next (if bit value.toNat 31 then clearSpillHwm die s else s)

end Sys2Proof.Machine
end

