-- ==== Sys2Proof/Machine/RegRead.lean ====
section
/-! DEFINITION. What a register reads as (R6–R8): the stored registers, and the registers that show state which the model keeps elsewhere. -/

namespace Sys2Proof.Machine

/-- A register value from its fields: lowest bit, width, value. -/
def pack (l : List (Nat × Nat × Nat)) : Nat := (l.map fun f => f.2.2 % 2 ^ f.2.1 * 2 ^ f.1).foldl (· + ·) 0

/-- A field as `pack` takes it. -/
def fld (lo width x : Nat) : Nat × Nat × Nat := (lo, width, x)

/-- Array die registers (R54, R63: a row above 19 selects no tile and reads 0), and the accepting epoch of the mixture-of-experts ports (R246). -/
def viewArrDie (s : State) (p o : Nat) : Option Nat :=
  let d := getDie s p
  let sel := (getReg s (ARR_TILE_SEL p)).toNat
  let t := d.tile (bits sel 0 4) (bits sel 8 5)
  let occ (port : Nat) : Nat := pack ((List.range 4).map fun v => fld (4 * v) 4 (t.queue (4 * port + v)).length)
  if o = 0x4 then some (pack [fld 0 1 (b2n d.nonEmpty), fld 1 1 (b2n (d.tiles.any fun q => q.2.blocked)),
      fld 2 1 (b2n (match d.firedFor with | some n => decide (n < 4096) | none => false)), fld 3 1 (b2n d.allDone)])
  else if 0x24 ≤ o ∧ o ≤ 0x48 ∧ 19 < bits sel 8 5 then some 0
  else if o = 0x24 then some (pack [fld 0 6 t.pc, fld 8 1 (b2n t.done), fld 9 1 (b2n t.starved), fld 10 1 (b2n t.blocked)])
  else if o = 0x30 ∨ o = 0x34 ∨ o = 0x38 ∨ o = 0x3C then some (t.counters.getD ((o - 0x30) / 4) 0)
  else if o = 0x40 then some (pack ((List.range 4).map fun q => fld (16 * q) 16 (occ q)))
  else if o = 0x48 then some (if hasPortX (bits sel 0 4) (bits sel 8 5) then occ 4 else 0)
  else if o = 0xE0 then some (d.accepting.getD 0 % 2 ^ 32)
  else if o = 0xE4 then some (d.accepting.getD 0 / 2 ^ 32)
  else none

/-- Configuration die registers (Table 4.8). -/
def viewCfgDie (s : State) (p o : Nat) : Option Nat :=
  let d := getDie s p
  if o = 0x0 then some (tileOrder.foldl (fun m c => min m (d.tile c.1 c.2).epoch) (2 ^ 32 - 1))
  else if o = 0x8 then some (pack [fld 0 9 d.pendingTiles, fld 16 1 (b2n d.shadowValid), fld 17 1 (b2n d.dieDone)])
  else if o = 0x2C then some (pack [fld 0 16 d.spillUnits, fld 16 7 d.segments.length])
  else none

/-- Counter registers of a die (Table 15.4). -/
def viewPmcDie (s : State) (p o : Nat) : Option Nat :=
  let d := getDie s p
  let sel := (getReg s (PMC_TILE_SEL p)).toNat
  let t := d.tile (bits sel 0 4) (bits sel 8 5)
  let q := 4 * bits sel 13 3 + bits sel 16 2
  let e := bits sel 18 3
  let used := decide (kindAt (bits sel 0 4) (bits sel 8 5) = 3) && decide (0 < (tget EqDesc.unused t.eqDescs e).size)
  match o with
  | 0x8 => some t.perf.fire
  | 0x10 => some t.perf.starved
  | 0x18 => some t.perf.blocked
  | 0x20 => some t.perf.busy
  | 0x28 => some (tget 0 t.full q)
  | 0x30 => some (tget 0 t.hwm q)
  | 0x34 => some (if used then pack [fld 0 11 (t.eqLen e), fld 16 11 (tget 0 t.eqHwm e), fld 31 1 1] else 0)
  | 0x38 => some (tget 0 t.eqFull e)
  | 0x40 => some d.cycles
  | 0x48 => some d.rakeCycles
  | 0x50 => some d.waitCycles
  | _ => none

/-- Pan registers of the configuration package block (Table 4.9). -/
def viewPan (s : State) (n o : Nat) : Option Nat :=
  match getPan s n with
  | none => some 0
  | some p =>
    if o = 0 then some (pack [fld 0 1 1, fld 1 1 (b2n p.compat), fld 2 2 ((p.active.map (·.kind)).getD 0), fld 16 12 p.ctx.toNat])
    else if o = 4 then some (pack [fld 0 3 p.x0, fld 8 4 p.y0, fld 16 4 p.w, fld 20 4 p.h])
    else if o = 8 then some p.epoch
    else if o = 0xC then some (pack [fld 0 1 (b2n (drained s n p)), fld 1 1 (b2n p.wave.isSome), fld 2 1 (b2n (s.balances.any fun b => b.pans.contains n))])
    else none

/-- Registers of the packages' serving blocks: chapters 5, 7, 8, 10 and 13. -/
def viewServe (s : State) (a : Nat) : Option Nat :=
  let tc := getCtx s (BitVec.ofNat 12 (getFld s TIER_CTX_SEL 0 12))
  let qc := getCtx s (BitVec.ofNat 12 (getFld s SEQ_CTX_SEL 0 12))
  let slot := getSlot s (getFld s ADP_SLOT_SEL 0 13)
  let m := getModel s (getFld s ADP_MODEL_SEL 0 10)
  let e := getEmb s (getFld s EMB_TABLE_SEL 0 10)
  if a = TIER_TTL_CLOCK then some s.seq.ttlClock
  else if a = TIER_CTX_T1_USED then some (t1Use s (BitVec.ofNat 12 (getFld s TIER_CTX_SEL 0 12)))
  else if a = TIER_CTX_T1_QUOTA then some tc.quota.t1Units
  else if a = TIER_CTX_T2_USED then some (t2Use s (BitVec.ofNat 12 (getFld s TIER_CTX_SEL 0 12)))
  else if a = TIER_CTX_T2_QUOTA then some tc.quota.t2Pages
  else if a = TIER_CTX_POLICY then some (pack [fld 0 8 tc.quota.share, fld 8 1 (b2n tc.quota.kvFp8)])
  else if a = TIER_CTX_SEQ then
    some (pack [fld 0 15 (seqsUsed s (BitVec.ofNat 12 (getFld s TIER_CTX_SEL 0 12))), fld 16 15 tc.quota.seqs])
  else if a = SEQ_STATUS then
    some (pack [fld 0 15 (liveEntries s).length, fld 16 15 ((liveEntries s).filter fun q => decide (q.2.state = .held)).length])
  else if a = SEQ_STEP_EPOCH_LO then some (s.seq.epoch % 2 ^ 32)
  else if a = SEQ_STEP_EPOCH_HI then some (s.seq.epoch / 2 ^ 32)
  else if a = SEQ_POOL then some (poolUsed s)
  else if a = SEQ_CTX_LC_GOAL then some qc.lcGoalUs
  else if a = SEQ_CTX_BE_GOAL then some qc.beGoalUs
  else if a = SEQ_CTX_HOLD then some qc.holdMaxMs
  else if a = SEQ_CTX_KV_WAIT then some qc.kvWaitSteps
  else if a = ADP_STATUS then some (s.mdl.slots.filter fun q => decide (q.2.state = 2)).length
  else if a = ADP_SLOT_INFO then some (pack [fld 0 2 slot.state, fld 8 8 slot.rank, fld 16 12 slot.ctx.toNat, fld 28 4 slot.format])
  else if a = ADP_SLOT_BINDS then some (slotBinds s (getFld s ADP_SLOT_SEL 0 13))
  else if a = ADP_MODEL_INFO then
    some (pack [fld 0 2 m.state, fld 2 1 m.current, fld 3 1 m.steerLive, fld 8 8 m.cur.version,
      fld 16 8 (if (m.ver (1 - m.current)).vstate = 0 then 0 else (m.ver (1 - m.current)).version)])
  else if a = EMB_TABLE_INFO then
    some (pack [fld 0 2 e.state, fld 2 1 e.current, fld 8 8 e.cur.version,
      fld 16 8 (if (e.ver (1 - e.current)).vstate = 0 then 0 else (e.ver (1 - e.current)).version), fld 24 4 e.cur.format])
  else if a = EMB_STATUS then some (s.mdl.embs.filter fun q => decide (q.2.state ≠ 0)).length
  else if a = CMT_COMMIT_EPOCH_LO then some (s.seq.commitEpoch % 2 ^ 32)
  else if a = CMT_COMMIT_EPOCH_HI then some (s.seq.commitEpoch / 2 ^ 32)
  else if a = CMT_PENDING then some (s.seq.steps.filter (·.ended)).length
  else none

/-- Word k of a byte string. -/
def wordAt (b : List Byte) (k : Nat) : Nat := fieldAt b (4 * k) 4

/-- Registers of the fault, counter, firmware and power blocks: chapters 14 to 17. -/
def viewPlatform (s : State) (a : Nat) : Option Nat :=
  let id := getFld s FLT_SRC_SEL 0 16
  let x := getSrc s id
  let bacc := ((bitternAddr (getFld s FLT_BACC_SEL 0 8) (getFld s FLT_BACC_SEL 8 8)).map fun r => tget 0 s.acc r).getD 0
  let h := getHist s (getFld s PMC_PAN_SEL 0 4)
  let hs := getFld s PMC_PAN_HIST_SEL 0 2
  let hb := getFld s PMC_PAN_HIST_SEL 8 5
  let die := getFld s PWR_DIE_SEL 0 8
  let d := getDie s die
  let array := decide (die < 74)
  if a = FLT_SRC_CFG then
    some ((sourceRow id).elim 0 fun r => pack [fld 0 3 (reactionOf s r), fld 8 1 (b2n x.force), fld 16 16 x.repeats])
  else if a = FLT_SRC_INFO then
    some ((sourceRow id).elim 0 fun r => pack [fld 0 2 r.cls, fld 2 1 (b2n r.fixed), fld 8 6 r.allowed, fld 16 3 r.dflt])
  else if a = FLT_SRC_COUNT then some x.count
  else if a = FLT_BACC_LO then some (bacc % 2 ^ 32)
  else if a = FLT_BACC_HI then some (bacc / 2 ^ 32 % 2 ^ 32)
  else if FLT_HIST_DATA 0 ≤ a ∧ a < FLT_HIST_DATA 8 then
    some ((s.flt.history[getFld s FLT_HIST_SEL 0 5]?).elim 0 fun e => wordAt (histBytes e) ((a - FLT_HIST_DATA 0) / 4))
  else if a = PMC_PAN_STEPS then some h.steps
  else if a = PMC_PAN_ABANDONED then some h.abandoned
  else if a = PMC_PAN_RAKES then some h.rakes
  else if a = PMC_PAN_HIST_DATA then
    some (if hs < 2 ∧ hb < 20 ∨ hs = 2 ∧ hb < 16 then tget 0 h.bins (32 * hs + hb) else 0)
  else if a = FW_STATUS then some (putBits (getReg s a) 1 1 (b2n (standbyValid s))).toNat
  else if a = FW_STBY_LAG then some (min 0xFFFF s.cmt.ctl.length)
  else if FW_MEAS_DATA 0 ≤ a ∧ a < FW_MEAS_DATA 8 then
    some (wordAt (s.fw.measures.getD (getFld s FW_MEAS_SEL 0 3) []) ((a - FW_MEAS_DATA 0) / 4))
  else if a = PWR_DIE_STATUS then
    some (pack [fld 0 12 (if array && d.clockOn then getFld s (ARR_CLK die) 0 12 else 0), fld 12 8 (tget 0 s.pwr.temps die),
      fld 20 1 (b2n (if array then d.throttled else s.pwr.hot.contains die)), fld 21 1 (b2n (array && d.islandOn))])
  else if a = PWR_DIE_POWER then some (mean (tget [] s.pwr.dieWatts die))
  else none

/-- Registers of BAR0 of function f (Tables 11.20 to 11.22); the VF allotment lies in the PF's only. -/
def viewCmd (s : State) (f o : Nat) : Option Nat :=
  let c : CtxId := BitVec.ofNat 12 (16 * f + (o - 0x2000) / 0x200)
  let k := o % 0x200
  let x := getCtx s c
  if o = 0x0 then some (pack [fld 0 8 f, fld 8 12 (16 * f), fld 24 5 (fnContexts s f)])
  else if o = 0x8 then some (pack [fld 0 1 (b2n s.host.ready), fld 1 1 (b2n s.host.updating)])
  else if o = 0xC then some (fnVectors s f)
  else if o = 0x1000 ∨ (f ≠ 0 ∧ 0x1000 ≤ o ∧ o < 0x2000) then some 0
  else if o < 0x2000 ∨ 0x4000 ≤ o then none
  else if k = 0 then some (pack [fld 0 2 x.state.toNat, fld 16 13 (outstanding s c).length])
  else if k = 0x14 then some (pack [fld 0 20 x.tok.tail, fld 28 3 x.tok.err, fld 31 1 (b2n x.tok.stopped)])
  else if 0x54 ≤ k ∧ (k - 0x54) % 0x20 = 0 ∧ (k - 0x54) / 0x20 < 8 then
    let q := x.queue ((k - 0x54) / 0x20)
    some (pack [fld 0 16 q.sqHead, fld 28 3 q.err, fld 31 1 (b2n q.stopped)])
  else none

/-- The physical register that an address reaches: the die blocks of a logical die are those of the die that serves it (R20, R61). -/
def physAddr (s : State) (a : Nat) : Nat :=
  let b := a / 0x1000000
  let l := a / 0x10000 % 256
  if (b = 2 ∨ b = 3 ∨ b = 5 ∨ b = 6 ∨ b = 7) ∧ l < 72 then a - l * 0x10000 + physDie s l * 0x10000 else a

/-- A register that shows state kept elsewhere. -/
def viewReg (s : State) (a : Nat) : Option Nat :=
  let p := a / 0x10000 % 256
  let o := a % 0x10000
  if 0x100000000 ≤ a then viewCmd s ((a - 0x100000000) / 0x10000) o
  else match a / 0x1000000 with
    | 0x2 => if p < 74 then viewArrDie s p o else none
    | 0x3 => if p < 74 then viewCfgDie s p o else none
    | 0x6 => if p < 74 ∧ o = 0x18 then some (((getDie s p).hot.filter (·.replicated)).length) else none
    | 0x7 => if p < 74 then viewPmcDie s p o else none
    | _ =>
      if CFG_PAN_CTL 0 ≤ a ∧ a < CFG_PAN_CTL 16 then viewPan s ((a - CFG_PAN_CTL 0) / 0x20) ((a - CFG_PAN_CTL 0) % 0x20)
      else match viewServe s a with
        | some v => some v
        | none => viewPlatform s a

/-- The bits of a register that a read shows: those of its fields, but for write-only ones (R7, R8). -/
def readMask (r : RegRow) : Nat :=
  (r.fields.filter fun f => !decide (f.acc = .wo)).foldl (fun m f => m ||| (2 ^ f.width - 1) * 2 ^ f.lo) 0

/-- What a register reads as, at its natural width in bytes (R6–R8): 0 where no register lies, at another width, in reserved bits and in write-only
fields. -/
def readReg (s : State) (addr width : Nat) : Nat :=
  let a := physAddr s addr
  match regRow a with
  | none => 0
  | some r =>
    if width ≠ (if r.wide then 8 else 4) then 0
    else (match viewReg s a with
      | some v => v
      | none => (getReg s a).toNat) &&& readMask r

end Sys2Proof.Machine
end

