-- ==== Sys2Proof/Machine/RegWrite.lean ====
section
/-! DEFINITION. A register write (R6–R8): by the access code of each field, with what a write of a particular register does besides. -/

namespace Sys2Proof.Machine

/-- What a field takes from a written value: an RWL field is read-only once FW_LOCK is set (R8, R401). -/
def RegField.written (f : RegField) (locked : Bool) (old v : Nat) : Nat :=
  let o := bits old f.lo f.width
  let w := bits v f.lo f.width
  match f.acc with
  | .ro => o
  | .rw => w
  | .wo => w
  | .w1c => o &&& ((2 ^ f.width - 1) ^^^ w)
  | .w1s => o ||| w
  | .rwl => if locked then o else w

/-- A 32-bit register's value after a write (R7, R8): reserved bits stay 0. -/
def writtenValue (r : RegRow) (locked : Bool) (old v : Nat) : Word :=
  BitVec.ofNat 32 ((r.fields.map fun f => f.place (f.written locked old v)).foldl (· + ·) 0)

/-- The register at an address takes a write by its access codes. -/
def genericWrite (a : Nat) (v : Nat) (s : State) : State :=
  match regRow a with
  | some r => if r.wide then s else setReg a (writtenValue r (decide (getFld s FW_LOCK 0 1 = 1)) (getReg s a).toNat v) s
  | none => s

/-- A write to a register of BAR0: rings by R280, R287 and R302, the VF allotment by R280. -/
def writeCmd (f : Nat) (o : Nat) (v : Word) (s : State) : State :=
  let c : CtxId := BitVec.ofNat 12 (16 * f + (o - 0x2000) / 0x200)
  let k := o % 0x200
  let a := 0x100000000 + f * 0x10000 + o
  let q := (k - 0x40) / 0x20
  if o < 0x1000 then s
  else if o < 0x2000 then
    if f = 0 ∧ o % 4 = 0 ∧ o ≤ 0x13FC then vfAllot ((o - 0x1000) / 4) v s else s
  else if 0x4000 ≤ o ∨ !ctxPresent s c then s
  else if k = 0x10 then tokCfgWrite c v s
  else if k = 0x4 then
    if (List.range 8).any (qEnabled s c) || tokEnabled s c then s else genericWrite a v.toNat s
  else if k = 0x8 ∨ k = 0xC then if tokEnabled s c then s else genericWrite a v.toNat s
  else if 0x40 ≤ k ∧ q < 8 ∧ k % 0x20 = 0x10 then qCfgWrite c q v s
  else if 0x40 ≤ k ∧ q < 8 then if qEnabled s c q then s else genericWrite a v.toNat s
  else s

/-- FLT_SRC_CFG (R358, R368): REACTION where R358 permits it; FORCE starts the forced events that FORCE_REPEAT counts. -/
def writeSrcCfg (v : Nat) (s : State) : State :=
  let id := getFld s FLT_SRC_SEL 0 16
  if (sourceRow id).isNone then s
  else
    let s1 := if mayReact id (bits v 0 3) then modSrc id (fun x => { x with reaction := some (bits v 0 3) }) s else s
    if bit v 8 then forceSource id (bits v 16 16) s1
    else modSrc id (fun x => { x with repeats := bits v 16 16, force := x.force && decide (0 < bits v 16 16) }) s1

/-- A write of LNK_CTL: EN starts a link that is OFF, and clearing it turns the link off (R307, Table 12.6). -/
def writeLnkCtl (j a v : Nat) (s : State) : State :=
  let s1 := genericWrite a v s
  if linkEn s j && !linkEn s1 j then linkOff j s1
  else if linkEn s1 j && !linkEn s j then linkOn j s1
  else s1

/-- FLT_CORE_KICK (R364): each bit set refreshes a core's watchdog. -/
def kickCores (v : Nat) (s : State) : State :=
  if fwRuns s then (List.range 8).foldl (fun s n => if bit v n then s.onFlt fun f => { f with coreKick := tput 0 f.coreKick n (s.tick + 1) } else s) s
  else s

/-- A write of a register of an array die by its offset: the clears of R97 and R387, the token error record (R63), the rounding seed (R82), and COMPAT, which
changes only while the die belongs to no pan (R55). -/
def writeDie (b p o a v : Nat) (s : State) : State :=
  if b = 2 ∧ o = 0x90 then (if bit v 0 then clearArith p s else s)
  else if b = 3 ∧ o = 0x30 then (if bit v 31 then clearSpillHwm p s else s)
  else if b = 7 ∧ o = 0x58 then (if bit v 0 then clearMarks p s else s)
  else
    let s1 := genericWrite a v s
    if b = 2 ∧ o = 0 then (if (dieOfPan s p).isSome then setFld (ARR_DIE_CTL p) 0 1 (getFld s (ARR_DIE_CTL p) 0 1) s1 else s1)
    else if b = 2 ∧ o = 0x18 then (if getFld s1 (ARR_TOKEN_ERR p) 0 5 = 0 then setFld (ARR_TOKEN_ERR_TILE p) 31 1 0 s1 else s1)
    else if b = 2 ∧ (o = 0x98 ∨ o = 0x9C) then
      modDie p (fun d => { d with srSeed := BitVec.ofNat 64 (getReg64 s1 (ARR_SR_SEED_LO p) (ARR_SR_SEED_HI p)) }) s1
    else s1

/-- A write of a register of the package blocks or of a periphery die. -/
def writePkg (a v : Nat) (s : State) : State :=
  if a = FLT_ALIVE_KICK then (if bits v 0 16 = 0x5A3C then refreshAlive s else s)
  else if a = FLT_CORE_KICK then kickCores v s
  else if a = FLT_SRC_CFG then writeSrcCfg v s
  else if a = PMC_PAN_CLR then (if bit v 0 then modHist (getFld s PMC_PAN_SEL 0 4) (fun _ => PanHist.fresh) s else s)
  else if a = FW_LOCK then (if bit v 0 then setLock s else s)
  else if a = FW_SVN_ADVANCE then svnAdvance v s
  else if a = FW_KEY_REVOKE then revokeKeys v s
  else if a = PWR_CAP_FW then
    let w := max 1500 (min 4800 (bits v 0 13))
    noteCap (effCap s) (genericWrite a w s)
  else if a = ARR_SPARE0 ∨ a = ARR_SPARE1 ∨ a = ARR_UNAVAIL0 ∨ a = ARR_UNAVAIL1 ∨ a = ARR_UNAVAIL2 then showTunnels (genericWrite a v s)
  else if 0x4400000 ≤ a ∧ a < 0x4480000 ∧ 0x100 ≤ a % 0x10000 ∧ a % 0x10000 < 0x280 ∧ a % 0x40 = 0 then
    writeLnkCtl (6 * ((a - 0x4400000) / 0x10000) + (a % 0x10000 - 0x100) / 0x40) a v s
  else genericWrite a v s

/-- REGISTER_WRITE (R6–R8): a write at another width than the register's, or where no register lies, is ignored; the 64-bit registers are read-only. -/
def execRegisterWrite (space : RegSpace) (width : Nat) (value : Dword) (s : State) : Res :=
  let addr := match space with
    | .ctl a => a.toNat
    | .bar0 fn o => 0x100000000 + fn.toNat * 0x10000 + o.toNat
  let a := physAddr s addr
  let v := value.toNat % 2 ^ 32
  let b := a / 0x1000000
  let p := a / 0x10000 % 256
  .next (match regRow a with
    | none => s
    | some r =>
      if width ≠ 4 ∨ r.wide = true then s
      else match space with
        | .bar0 fn o => writeCmd fn.toNat o.toNat (BitVec.ofNat 32 v) s
        | .ctl _ => if (b = 2 ∨ b = 3 ∨ b = 7) ∧ p < 74 then writeDie b p (a % 0x10000) a v s else writePkg a v s)

end Sys2Proof.Machine
end

