-- ==== Sys2Proof/Machine/Layout.lean ====
section
/-! DEFINITION. The bytes that stand at each device address (R130–R136, R142, R154, R186, R391). Tables that the device keeps in its memories, and that the
state holds as structures, appear here in the layout that the manual gives them. -/

namespace Sys2Proof.Machine

/-! ### Tables in tier 1 (R136, R142, R154) -/

/-- The 64 bytes of the entry at INDEX i of a context's object table (Table 5.3). -/
def objEntryBytes (c i : Nat) (o : Obj) : List Byte :=
  leBytes 4 (if o.state = 0 then 0 else i + 65536 * o.gen.toNat) ++ leBytes 2 (if o.state = 0 then 0 else c) ++ leBytes 1 o.type.toNat
    ++ leBytes 1 o.state.toNat ++ leBytes 1 o.tier ++ leBytes 1 (b2n o.aliased + 2 * b2n o.readOnly) ++ leBytes 2 o.flitsPerBlock
    ++ leBytes 4 o.shareCount ++ leBytes 8 o.size ++ leBytes 8 o.location ++ leBytes 4 o.ownerHandle.toNat ++ leBytes 2 o.ownerCtx.toNat ++ leBytes 26 0

/-- A tier-2 page table entry (Table 5.4). -/
def PageEntry.word (e : PageEntry) : Nat :=
  e.state.toNat + (if e.state = 1 then e.frame * 0x200000 else 0) + (if e.state = 2 then e.remoteChip.toNat * 2 ^ 42 else 0)

/-- A byte of the object table or of a page table of a context, where the address lies in one. -/
def ctxTableByte (c : Nat) (x : Ctx) (a : Nat) : Option Byte :=
  if x.objTable.1 ≤ a ∧ a < x.objTable.1 + 64 * x.quota.objMax ∧ x.objTable.2 ≠ 0 then
    let k := a - x.objTable.1
    (objEntryBytes c (k / 64 + 1) (tget Obj.fresh x.objs (k / 64 + 1)))[k % 64]?
  else x.objs.findSome? fun q =>
    if q.2.tier = 2 ∧ !q.2.aliased ∧ q.2.state ≠ 0 ∧ q.2.location ≤ a ∧ a < q.2.location + 8 * q.2.pageCount then
      let k := a - q.2.location
      (leBytes 8 (tget PageEntry.zero q.2.pages (k / 8)).word)[k % 8]?
    else none

/-- A byte of a KV map's node (Table 5.8), where the address lies in one. -/
def kvNodeByte (e : SeqEntry) (a : Nat) : Option Byte :=
  e.kvNodes.findSome? fun n => if n.2 ≤ a ∧ a < n.2 + 4096 then (nodeBytes e.kvMap e.kvNodes 1 n.1)[a - n.2]? else none

/-- A byte of tier 1. -/
def tier1Byte (s : State) (a : Nat) : Byte :=
  match s.ctxs.findSome? fun p => ctxTableByte p.1 p.2 a with
  | some b => b
  | none => match s.seq.entries.findSome? fun p => p.2.bind fun e => kvNodeByte e a with
    | some b => b
    | none => memGet s.mem.bytes a

/-! ### Tier 0 (R132, R391) -/

/-- Bytes of the local buffer of a tile of kind M, A, S or G (Table 2.1). -/
def bufferSize (kind : Nat) : Nat := match kind with | 0 => 163840 | 1 => 262144 | 2 => 65536 | 4 => 131072 | _ => 0

/-- The tile and the offset in its buffer of byte `off` of the buffers of M, A, S and G tiles, in row-major order of Table 2.2. -/
def bufferPlace : List Nat → Nat → Option (Nat × Nat × Nat)
  | [], _ => none
  | k :: ks, off =>
    let n := bufferSize (kindAt (k % 16) (k / 16))
    if off < n then some (k % 16, k / 16, off) else bufferPlace ks (off - n)

/-- A byte of an array die's tier 0: the SRAM of a T tile, 0x0014_0000 apart in row-major order, or the operand store of an M tile; the manual gives
the other buffers' contents no layout. -/
def arrayByte (s : State) (p off : Nat) : Option Byte :=
  if off < 0x0B400000 then
    let c := tTiles.getD (off / 0x140000) (0, 0)
    some (memGet (getTile s p c.1 c.2).sram (off % 0x140000))
  else match bufferPlace (List.range 320) (off - 0x0B400000) with
    | some (col, row, o) => if kindAt col row = 0 then some (memGet (getTile s p col row).operands o) else none
    | none => none

/-- Offsets in CD0's tier 0 of what R391 lists, in its order: the sequence table behind two images of 8 MiB, and the shadow of the lifetime record behind
the work lists and three tables (notes/assumptions/178). -/
def seqTableAt : Nat := 0x1000000
/-- The shadow of the lifetime record. -/
def shadowAt : Nat := 0x18E0000

/-- The model table (R215), the adapter slot table (R218) and the embedding directory (R258), behind the row-slot pool and the work lists. -/
def modelTableAt : Nat := 0x1800000
/-- The adapter slot table. -/
def slotTableAt : Nat := 0x1840000
/-- The embedding directory. -/
def embTableAt : Nat := 0x18C0000

/-- The 96 bytes of a version record (Table 8.2). -/
def VerRec.bytes (v : VerRec) : List Byte :=
  leBytes 1 v.version ++ leBytes 1 v.vstate ++ leBytes 1 v.maxRank ++ leBytes 1 v.points ++ leBytes 2 v.maxDistinct ++ leBytes 1 v.steerPoints
    ++ leBytes 1 v.kinds ++ leBytes 8 v.shape ++ ((List.range 4).map fun k => leBytes 4 (v.images.getD k 0)).flatten
    ++ ((List.range 4).map fun k => leBytes 4 (v.weights.getD k 0)).flatten ++ ((List.range 4).map fun k => bytesAt (v.digest8.getD k []) 0 8).flatten
    ++ leBytes 2 v.hidden ++ leBytes 14 0

/-- The 256 bytes of a model table entry (Table 8.1). -/
def ModelEntry.bytes (x : ModelEntry) : List Byte :=
  leBytes 2 x.ctx.toNat ++ leBytes 1 x.state ++ leBytes 1 x.current ++ leBytes 4 0 ++ leBytes 8 x.steerArea ++ leBytes 1 x.steerLive ++ leBytes 47 0
    ++ x.v0.bytes ++ x.v1.bytes

/-- The 64 bytes of adapter slot n (Table 8.4). -/
def slotBytes (s : State) (n : Nat) : List Byte :=
  let x := getSlot s n
  leBytes 4 x.handle ++ leBytes 2 x.ctx.toNat ++ leBytes 2 x.model ++ leBytes 1 x.state ++ leBytes 1 x.format ++ leBytes 1 x.rank ++ leBytes 1 x.gen
    ++ leBytes 4 (slotBinds s n) ++ leBytes 8 x.dataAddr ++ leBytes 4 x.bytesPerPoint ++ leBytes 4 0 ++ leBytes 8 x.lastEpoch ++ leBytes 24 0

/-- The 40 bytes of an embedding version record (Table 10.2). -/
def EmbRec.bytes (v : EmbRec) : List Byte :=
  leBytes 1 v.version ++ leBytes 1 v.vstate ++ leBytes 1 v.format ++ leBytes 1 (b2n v.sparse) ++ leBytes 2 v.dim ++ leBytes 2 v.stride
    ++ leBytes 4 v.base ++ leBytes 4 v.bitmap ++ leBytes 8 v.rows ++ leBytes 4 v.scale.toNat ++ leBytes 4 v.rowsPerBlock ++ leBytes 8 0

/-- The 128 bytes of an embedding directory entry (Table 10.1). -/
def EmbEntry.bytes (x : EmbEntry) : List Byte :=
  leBytes 2 x.ctx.toNat ++ leBytes 1 x.state ++ leBytes 1 x.current ++ leBytes 1 x.homes.length ++ leBytes 1 x.shardShift ++ leBytes 2 0
    ++ leBytes 8 x.appliedGepoch ++ ((List.range 16).map fun k => leBytes 2 (x.homes.getD k 0)).flatten ++ x.r0.bytes ++ x.r1.bytes

/-- A byte of CD0's tier 0: the pristine copy of the image (R390), the active sequence table (R186), the tables of models, adapter slots and embeddings, the
shadow of the lifetime record (R373) and the handoff block (R405). -/
def cd0Byte (s : State) (off : Nat) : Option Byte :=
  if 0x800000 ≤ off ∧ off < 0x1000000 then some (s.fw.running.getD (off - 0x800000) 0)
  else if handoffAt ≤ off ∧ off < handoffAt + 0x10000 then some (s.fw.handoff.getD (off - handoffAt) 0)
  else if seqTableAt ≤ off ∧ off < seqTableAt + 256 * 16384 then
    let k := off - seqTableAt
    match getEntry s (k / 256) with | some e => e.bytes[k % 256]? | none => some 0
  else if modelTableAt ≤ off ∧ off < modelTableAt + 256 * 1024 then
    (getModel s ((off - modelTableAt) / 256)).bytes[(off - modelTableAt) % 256]?
  else if slotTableAt ≤ off ∧ off < slotTableAt + 64 * 8192 then (slotBytes s ((off - slotTableAt) / 64))[(off - slotTableAt) % 64]?
  else if embTableAt ≤ off ∧ off < embTableAt + 128 * 1024 then
    (getEmb s ((off - embTableAt) / 128)).bytes[(off - embTableAt) % 128]?
  else if shadowAt ≤ off ∧ off < shadowAt + 0x100000 then some (lifeByte s (off - shadowAt))
  else none

/-- A byte of tier 0 (Table 5.2): array dies by logical die, port dies, link dies, far dies, CD0 and CD1. -/
def tier0Byte (s : State) (a : Nat) : Option Byte :=
  if a < 0x00384000000 then arrayByte s (physDie s (a / 0x0C800000)) (a % 0x0C800000)
  else if a < 0x003CC000000 then some (memGet s.mem.bytes a)
  else if a < 0x003E4000000 then none
  else if a < 0x003F4000000 then some (memGet s.mem.bytes a)
  else if a < 0x003F6000000 then cd0Byte s (a - 0x003F4000000)
  else none

/-- The byte at a device address (R130); none where nothing is mapped, or where the manual gives what lies there no layout. -/
def deviceByte (s : State) (a : Nat) : Option Byte :=
  match windowOf s a with
  | .tier0 => tier0Byte s a
  | .tier1 _ => some (tier1Byte s a)
  | .tier2 _ => some (memGet s.mem.bytes a)
  | _ => none

/-- `len` bytes from a device address. -/
def deviceBytes (s : State) (a : Nat) : Nat → List Byte
  | 0 => []
  | n + 1 => (deviceByte s a).getD 0 :: deviceBytes s (a + 1) n

/-! ### Tier 2 as the devices hold it (R161) -/

/-- The keys of the context whose object holds a frame; none for a frame of firmware's own, which the device key covers. -/
def frameKeys (s : State) (f : Nat) : Option (BitVec 256 × BitVec 256) :=
  s.ctxs.findSome? fun p =>
    if p.2.objs.any fun q => decide (q.2.tier = 2) && !q.2.aliased && (framesOf q.2.pages).contains f then
      p.2.dataKey.bind fun k => p.2.tweakKey.map fun t => (k, t)
    else none

/-- The 4 KiB data unit at a tier-2 address as the CXL device holds it: AES-256-XTS under the context's keys, with bits [41:12] of the address as its
tweak (R161). -/
def storedUnit (s : State) (a : Nat) : Option (List Byte) :=
  let u := a / 4096
  (frameKeys s (a / 0x200000)).map fun k => Config.xtsUnit k.1 k.2 (BitVec.ofNat 128 u) (memRead s.mem.bytes (4096 * u) 4096)

end Sys2Proof.Machine
end

