-- ==== Sys2Proof/Machine/Tiers.lean ====
section
/-! DEFINITION. The tiers' interfaces: access checks, memory errors, scrub and retirement, and training (R131, R160, R171–R182). -/

namespace Sys2Proof.Machine

/-! ### Addresses and owners -/

/-- A placement of `size` bytes holds a device address: in tier 2 one of its frames, else its range. -/
def placeHolds (tier location size : Nat) (pages : Tab PageEntry) (a : Nat) : Bool :=
  if tier = 2 then (framesOf pages).contains (a / 0x200000) else decide (location ≤ a) && decide (a < location + size)

/-- The storage of an object, live or freeing, holds a device address: its placement, the destination of a move, or an old copy that is still read. The
contexts that may reach it are its owner and its aliases (R138, R160). -/
def holdsAddr (o : Obj) (a : Nat) : Bool :=
  !o.aliased && decide (o.state ≠ 0) &&
    (placeHolds o.tier o.location o.size o.pages a
      || (match o.move with | some v => placeHolds v.tier v.location o.size v.pages a | none => false)
      || (match o.oldCopy with | some k => placeHolds k.tier k.location o.size k.pages a | none => false))

/-- The owner of a device address: context and INDEX. -/
def ownerOf (s : State) (a : Nat) : Option (CtxId × Nat) :=
  s.ctxs.findSome? fun p => p.2.objs.findSome? fun q => if holdsAddr q.2 a then some (BitVec.ofNat 12 p.1, q.1) else none

/-- A context may reach an address: it owns the object there or holds an alias of it (R160). -/
def mayReach (s : State) (c : CtxId) (a : Nat) : Bool :=
  match ownerOf s a with
  | none => false
  | some (w, i) => decide (w = c) || (getCtx s c).objs.any fun q => q.2.aliased && decide (q.2.ownerCtx = w) && decide (hIndex q.2.ownerHandle.toNat = i)

/-- Die code of port or far die d (0–11 port dies, 12–15 far dies), and its two refusal counters. -/
def tierCode (d : Nat) : Nat := if d < 12 then 0x50 + d else 0x60 + (d - 12)
/-- Its TIER_BITTERN_XCTX. -/
def tierXctx (d : Nat) : Nat := if d < 12 then TIER_BITTERN_XCTX d else TIER_F_BITTERN_XCTX (d - 12)
/-- Its TIER_BITTERN_ADDR. -/
def tierAddr (d : Nat) : Nat := if d < 12 then TIER_BITTERN_ADDR d else TIER_F_BITTERN_ADDR (d - 12)

/-- Port or far die d serves an address: its own tier-0 window, its slice, or a frame of one of its ports (R130–R134, R173, R180). -/
def serves (s : State) (d a : Nat) : Bool :=
  match windowOf s a with
  | .tier0 => if d < 12 then decide (0x00384000000 + d * 0x06000000 ≤ a) && decide (a < 0x00384000000 + (d + 1) * 0x06000000)
      else decide (0x003E4000000 + (d - 12) * 0x04000000 ≤ a) && decide (a < 0x003E4000000 + (d - 11) * 0x04000000)
  | .tier1 p => decide (p = d)
  | .tier2 c => decide (12 + c / 3 = d)
  | _ => false

/-- The event of port or far die d with the context and the pan of the stream that it hits. -/
def tierEvent (s : State) (source d unit : Nat) (c : Option CtxId) (pan : Option Nat) : FaultEvent :=
  { faultOf source (tierCode d) unit 0 with
    ctx := match c with | some x => some x | none => pan.bind fun n => (getPan s n).map (·.ctx)
    pan := pan.bind fun n => if h : n < 16 then some ⟨n, h⟩ else none }

/-- Running streams whose object holds an address. -/
def streamsAt (s : State) (a : Nat) : List (Nat × Stream) :=
  s.mem.streams.filterMap fun q => match q.2 with
    | some t => if t.isOver then none
      else if (match streamObj s t with | some o => holdsAddr o a | none => false)
        || (decide (t.use ≠ .run) && (match (objAt s t.ctx t.dstHandle.toNat).map (storageOf s) with | some o => holdsAddr o a | none => false))
      then some (q.1, t) else none
    | none => none

/-! ### Retirement (R176, R181) -/

/-- The local device that holds a tier-1 address (R173). -/
def deviceOf (s : State) (p a : Nat) : Nat := (nearPlace s p a).device

/-- Block b of slice p is marked for retirement: withheld at once when no object holds it, else when its object is freed (R176). -/
def markBlock (p b : Nat) (s : State) : State :=
  if s.mem.retiredBlocks.contains b ∨ s.mem.marked.contains b then s
  else if s.mem.extents.any fun e => decide (e.1 ≤ b) && decide (b < e.1 + e.2) then
    s.onMem fun m => { m with marked := m.marked ++ [b] }
  else retireBlock p b s

/-- Frame f of CXL port c is retired: off the free list for good, counted and recorded with the length of the port's list (R181). -/
def retireFrame (c f : Nat) (s : State) : State :=
  if s.mem.retiredFrames.contains f then s
  else
    let n := getFld s (FAR_PORT_RETIRED (c / 3) (c % 3)) 0 11
    let s1 := s.onMem fun m => { m with retiredFrames := m.retiredFrames ++ [f] }
    if n < 1024 then
      setFld (FAR_PORT_RETIRED (c / 3) (c % 3)) 0 11 (n + 1) (s1.onFlt fun x => { x with life := { x.life with
        shadow := memWrite (memWrite x.life.shadow (0x20000 + 4096 * c + 4 * n) (leBytes 4 (f - portFrame c))) (0x230 + 4 * c) (leBytes 4 (n + 1)) } })
    else s1

/-- The object that holds a lost block or frame: pages of KV pools and archives that the buddy's mirror holds are REMOTE there and come back from
it; any other object is LOST (R175, R334, R351). -/
def loseAt (a : Nat) (s : State) : State :=
  match ownerOf s a with
  | some (c, i) =>
    let o := getObj s c i
    if paired s ∧ o.type = 6 then
      let page := a / 0x40000
      (liveEntries s).foldl (fun s p =>
        if p.2.ctx = c ∧ (p.2.kvMap.any fun q => decide (q.2.loc = 1) && decide (q.2.addr / 0x40000 = page)) then
          giveKv c [page] (modEntry p.1 (fun e => { e with
            kvMap := e.kvMap.map fun q => if q.2.loc = 1 ∧ q.2.addr / 0x40000 = page then (q.1, { q.2 with remote := true, addr := 0 }) else q }) s)
        else s) s
    else if paired s ∧ o.type = 7 then
      let f := a / 0x200000
      let away : Archive → Archive := fun x =>
        { x with remote := dedup (x.remote ++ (x.frames.zipIdx.filter fun q => decide (q.1 = f)).map (·.2)) }
      (freeFrames [f] (modObj c i (fun o => { o with
        pages := o.pages.map fun q => if q.2.state = 1 ∧ q.2.frame = f then
          (q.1, { state := 2, frame := 0, remoteChip := BitVec.ofNat 10 (getFld s CMT_BUDDY 0 10) }) else q }) s)).onSeq fun q =>
        { q with archives := q.archives.map away }
    else modObj c i (fun o => { o with lost := true }) s
  | none => s

/-- Data at an address is lost: what runs on it aborts, and the owner's object is marked (R175, R181). -/
def loseData (source d unit a : Nat) (s : State) : State :=
  let hit := streamsAt s a
  let pans := dedup (hit.filterMap fun q => if q.2.use = .run then some q.2.pan else none)
  let key := a / 65536
  let s1 := loseAt a (s.onMem fun m => { m with lostBlocks := if m.lostBlocks.contains key then m.lostBlocks else m.lostBlocks ++ [key] })
  let s2 := if pans.isEmpty then present (tierEvent s source d unit ((ownerOf s a).map (·.1)) none) s1
    else pans.foldl (fun s n => present (tierEvent s source d unit none (some n)) s) s1
  hit.foldl (fun s q => if q.2.use = .run then s else failCopy q.1 q.2 (stFaultContained 0) s) s2

/-! ### Lifetime counters of devices (R374, Table 14.7) -/

/-- Offset of counter k of GDDR7 device d of port die p: 0 corrections, 1 uncorrectables, 2 CRC retries, 3 parity retrains. -/
def lifeNear (p d k : Nat) : Nat := 0x3000 + 64 * (4 * p + d) + 8 * k
/-- Offset of counter k of CXL port c: 0 replays, 1 poisoned reads, 2 timeouts, 3 corrected media events. -/
def lifeFar (c k : Nat) : Nat := 0x3000 + 64 * (48 + c) + 8 * k

/-! ### Errors of GDDR7 (Table 6.3) -/

/-- An ECC uncorrectable at an address of slice p: counted, the block marked, its data lost. -/
def nearUncorrectable (p a : Nat) (s : State) : State :=
  let d := deviceOf s p a
  loseData 0x0303 p d a (markBlock p (a / 65536) (lifeAdd (lifeNear p d 1) 8 1 (bump (NEAR_DEV_UE p d) s)))

/-- An ECC correction at an address of slice p: counted, a write-back queued, and the eighth of a patrol pass marks the block. -/
def nearCorrected (p a : Nat) (s : State) : State :=
  let d := deviceOf s p a
  let b := a / 65536
  let s1 := (lifeAdd (lifeNear p d 0) 8 1 (bump (NEAR_DEV_CE p d) s)).onMem fun m => { m with
    writeBacks := if m.writeBacks.contains (a / 64) then m.writeBacks else m.writeBacks ++ [a / 64]
    passCe := tmod 0 m.passCe b (· + 1) }
  let s2 := if 8 ≤ tget 0 s1.mem.passCe b then markBlock p b s1 else s1
  present (faultOf 0x0302 (0x50 + p) d 0) s2

/-- CRC retries of a read: up to three succeed; the fourth mismatch is an uncorrectable. The flag tells whether data came. -/
def nearRetries (p a n : Nat) (s : State) : Bool × State :=
  let d := deviceOf s p a
  if n = 0 then (true, s)
  else if n ≤ 3 then (true, present (faultOf 0x0302 (0x50 + p) d 0) (lifeAdd (lifeNear p d 2) 8 n (bumpBy (NEAR_DEV_CRC p d) n s)))
  else (false, nearUncorrectable p a (lifeAdd (lifeNear p d 2) 8 3 (bumpBy (NEAR_DEV_CRC p d) 3 s)))

/-- A device's report of an on-die ECC correction is counted, and nothing is done about it (Table 6.1). -/
def noteOnDie (p a : Nat) (r : Bool) (s : State) : State :=
  if r then s.onMem fun m => { m with onDie := tmod 0 m.onDie (4 * p + deviceOf s p a) (· + 1) } else s

/-- A unit of 68 bytes is decoded (R170): one wrong byte is corrected, two or three are detected; whether more are detected is open, and those that are not
count as a correction. The flag tells whether data came. -/
def decodeUnit (p a : Nat) (bad : List (Fin 68)) (s : State) : Bool × State :=
  let n := bad.eraseDups.length
  if n = 0 then (true, s)
  else if n = 1 then (true, nearCorrected p a s)
  else if n ≤ 3 then (false, nearUncorrectable p a s)
  else
    let d := draw Config.freeBool s
    if d.1 then (false, nearUncorrectable p a d.2) else (true, nearCorrected p a d.2)

/-- A read of a tier-1 unit meets an outcome (Table 6.3); the flag tells whether data came. -/
def nearRead (p a : Nat) (o : MediaOutcome) (s : State) : Bool × State :=
  match o with
  | .unit n r bad =>
    let x := nearRetries p a n (noteOnDie p a r s)
    if x.1 then decodeUnit p a bad x.2 else x
  | .poison => (true, s)
  | .sramCorrected => (true, present (faultOf 0x0206 (0x50 + p) 0xFF 0) s)
  | .sramUncorrectable => (false, loseData 0x0207 p 0xFF a s)

/-- A tier-2 read with poison, or an uncorrectable media event on a frame that holds data: the frame is retired and the data lost
(Table 6.6). -/
def farPoison (c a : Nat) (s : State) : State :=
  loseData 0x0312 (12 + c / 3) (c % 3) a (retireFrame c (a / 0x200000) s)

/-- A read of tier 2 through CXL port c meets an outcome; the flag tells whether data came. -/
def farRead (c a : Nat) (o : MediaOutcome) (s : State) : Bool × State :=
  match o with
  | .unit _ _ _ => (true, s)
  | .poison => (false, farPoison c a (lifeAdd (lifeFar c 1) 8 1 (bump (FAR_PORT_POISON (c / 3) (c % 3)) s)))
  | .sramCorrected => (true, present (faultOf 0x0206 (0x60 + c / 3) 0xFF 0) s)
  | .sramUncorrectable => (false, loseData 0x0207 (12 + c / 3) 0xFF a s)

/-- A read of a die's tier 0: its SRAM corrects or loses data. -/
def sramRead (d a : Nat) (o : MediaOutcome) (s : State) : Bool × State :=
  match o with
  | .sramCorrected => (true, present (faultOf 0x0206 (tierCode d) 0xFF 0) s)
  | .sramUncorrectable => (false, loseData 0x0207 d 0xFF a s)
  | _ => (true, s)

/-- What a request's die answers it: the data, or nothing. -/
def answerReq (r : Option (List Byte)) (s : State) : State := s.onMem fun m => { m with reply := r }

/-- A read of `len` bytes at an address that port or far die d serves: the data, unless the medium loses it. -/
def tierRead (d a len : Nat) (o : MediaOutcome) (s : State) : State :=
  let r := match windowOf s a with
    | .tier1 p => nearRead p a o s
    | .tier2 c => farRead c a o s
    | _ => sramRead d a o s
  answerReq (if r.1 then some (deviceBytes s a len) else none) r.2

/-- A write at a tier-0, tier-1 or tier-2 address: a write-back that the patrol scrub has queued for one of its units is dropped (R176). -/
def tierWrite (a : Nat) (data : List Byte) (s : State) : State :=
  s.onMem fun m => { m with
    bytes := memWrite m.bytes a data
    writeBacks := m.writeBacks.filter fun u => !(decide (a < 64 * u + 64) && decide (64 * u < a + data.length)) }

/-- TIER_ACCESS (R131, R160): the die refuses an address that it does not serve, and a context that neither owns nor aliases the object
there, and returns no data; otherwise it writes, or reads with the outcome that the medium gives. -/
def execTierAccess (die : Fin 16) (req : TierReq) (outcome : MediaOutcome) (s : State) : Res :=
  let a := req.addr.toNat
  .next (if !serves s die a then
      answerReq none (present (tierEvent s 0x0202 die 0xFF (if req.fw then none else some req.ctx) none) (bump (tierAddr die) s))
    else if !req.fw && !mayReach s req.ctx a then
      answerReq none (present (tierEvent s 0x0201 die 0xFF (some req.ctx) none) (bump (tierXctx die) s))
    else if req.write then tierWrite a req.data s
    else tierRead die a req.len outcome s)

/-- WRITE_CRC_ERROR (R175): the write is repeated up to three times, each counted; a fourth failure is an uncorrectable. -/
def execWriteCrcError (device : Fin 48) (addr : BitVec 42) (rewrites : Nat) (s : State) : Res :=
  let p := device.val / 4
  let d := device.val % 4
  let n := min 3 (max 1 rewrites)
  .next (if !serves s p addr.toNat ∨ deviceOf s p addr.toNat ≠ d then s
    else
      let s1 := lifeAdd (lifeNear p d 2) 8 n (bumpBy (NEAR_DEV_CRC p d) n s)
      if rewrites ≤ 3 then present (faultOf 0x0302 (0x50 + p) d 0) s1 else nearUncorrectable p addr.toNat s1)

/-- A device is lost in service (R177): it no longer counts as working, and its port die is DEGRADED; rate and mapping stay as they are (R174). -/
def loseDevice (p d : Nat) (s : State) : State :=
  let n := getFld s (NEAR_STATUS p) 7 3
  setFld (NEAR_STATUS p) (3 + d) 1 0 (setFld (NEAR_STATUS p) 7 3 (n - 1) (setFld (NEAR_STATUS p) 10 1 1 (setFld (NEAR_DEV_STATUS p d) 0 2 2 s)))

/-- CA_PARITY_ERROR (R174, R175, R177): the channel is held, retrained and replayed; a retrain that fails loses the device. -/
def execCaParityError (device : Fin 48) (_channel : Fin 4) (retrainOk : Bool) (s : State) : Res :=
  let p := device.val / 4
  let d := device.val % 4
  .next (if getFld s (NEAR_DEV_STATUS p d) 0 1 = 0 then s
    else
      let s1 := lifeAdd (lifeNear p d 3) 8 1 (bump (NEAR_DEV_CAPAR p d) s)
      if retrainOk then present (faultOf 0x0302 (0x50 + p) d 0) s1 else present (faultOf 0x0305 (0x50 + p) d 0) (loseDevice p d s1))

/-- A patrol pass of port die p may end: PASS_HOURS have passed on its local counter since the last one ended (R176). -/
def passDue (s : State) (p : Nat) : Bool :=
  decide (tget 0 s.mem.passAt p + getFld s (NEAR_SCRUB p) 8 8 * 3600 * 100000000 ≤ dieCount s (0x50 + p))

/-- PATROL_SCRUB (R176): the scrub reads a unit, queues a write-back of what it corrects, and writes back what earlier reads corrected;
the end of a pass, PASS_HOURS after the last, clears the counts per block. -/
def execPatrolScrub (addr : BitVec 42) (outcome : MediaOutcome) (passEnds : Bool) (s : State) : Res :=
  let a := addr.toNat
  .next (match windowOf s a with
    | .tier1 p =>
      if getFld s (NEAR_SCRUB p) 0 1 = 0 then s
      else
        let s1 := (nearRead p a outcome s).2
        let s2 := s1.onMem fun m => { m with writeBacks := m.writeBacks.filter fun u => !decide (u = a / 64) }
        if passEnds && passDue s p then bump (NEAR_SCRUB_PASSES p) (s2.onMem fun m => { m with
          passAt := tput 0 m.passAt p (dieCount s (0x50 + p))
          passCe := m.passCe.filter fun q => !(decide (sliceBase p ≤ q.1) && decide (q.1 < sliceBase p + 491520)) }) else s2
    | _ => s)

/-! ### Errors of CXL (Table 6.6) -/

/-- A CXL port is lost in service (R182). -/
def losePort (c : Nat) (s : State) : State :=
  present (faultOf 0x0313 (0x60 + c / 3) (c % 3) 0) (setFld (FAR_PORT_STATUS (c / 3) (c % 3)) 0 1 0 s)

/-- The port is in service. -/
def portUp (s : State) (c : Nat) : Bool := decide (getFld s (FAR_PORT_STATUS (c / 3) (c % 3)) 0 1 = 1)

/-- FAR_FLIT_REPLAY (R181): a flit CRC error is replayed and counted; a recovery that fails loses the port. -/
def execFarFlitReplay (port : Fin 12) (recovered : Bool) (s : State) : Res :=
  .next (if !portUp s port then s
    else
      let s1 := lifeAdd (lifeFar port 0) 8 1 (bump (FAR_PORT_REPLAY (port.val / 3) (port.val % 3)) s)
      if recovered then present (faultOf 0x0311 (0x60 + port.val / 3) (port.val % 3) 0) s1 else losePort port s1)

/-- FAR_REQUEST_TIMEOUT (R181): the request is reissued once; its second timeout loses the port. -/
def execFarRequestTimeout (port : Fin 12) (second : Bool) (s : State) : Res :=
  .next (if !portUp s port then s
    else
      let s1 := lifeAdd (lifeFar port 2) 8 1 (bump (FAR_PORT_TIMEOUT (port.val / 3) (port.val % 3)) s)
      if second then
        (if s.mem.reissued.contains port.val then losePort port (s1.onMem fun m => { m with reissued := m.reissued.filter fun k => !decide (k = port.val) })
         else s)
      else present (faultOf 0x0312 (0x60 + port.val / 3) (port.val % 3) 0) (s1.onMem fun m => { m with reissued := m.reissued ++ [port.val] }))

/-- EVENT_LOG_POLL (R181): corrected events are counted; the frames of uncorrectable ones are retired, and one that holds data is handled
as poison. -/
def execEventLogPoll (port : Fin 12) (corrected : Nat) (uncorrected : List (BitVec 42)) (s : State) : Res :=
  let c := port.val
  .next (if !portUp s c then s
    else
      let s1 := lifeAdd (lifeFar c 3) 8 corrected (bumpBy (FAR_PORT_MEDIA_CE (c / 3) (c % 3)) corrected s)
      let s2 := (List.range corrected).foldl (fun s _ => present (faultOf 0x0311 (0x60 + c / 3) (c % 3) 0) s) s1
      uncorrected.foldl (fun s a =>
        if windowOf s a.toNat ≠ .tier2 c then s
        else if s.mem.frames.contains (a.toNat / 0x200000) then farPoison c a.toNat s
        else present (faultOf 0x0312 (0x60 + c / 3) (c % 3) 0) (retireFrame c (a.toNat / 0x200000) s)) s2)

/-! ### Training (R171–R174, R179, R180) -/

/-- The highest rate code at or below the cap that a device passes. -/
def bestRate (cap : Nat) (t : NearTrain) : Option Nat :=
  ((List.range (cap + 1)).reverse).find? fun r => t.identOk && bit t.passes.toNat r

/-- Port die p trains its four devices (R172), maps its slice (R173) and fills it with zeros (R171). -/
def trainPort (p : Nat) (l : List NearTrain) (s : State) : State :=
  let cap := min 4 (getFld s (NEAR_CTL p) 0 3)
  let dv : List (Nat × NearTrain × Option Nat) := (l.zipIdx).map fun q => (q.2, q.1, bestRate cap q.1)
  let ok := dv.filter fun q => q.2.2.isSome
  let rate := ok.foldl (fun r q => min r (q.2.2.getD 4)) 4
  let good (q : Nat × NearTrain × Option Nat) : Bool := match q.2.2 with | some r => decide (r ≤ rate) || q.2.1.retrainOk | none => false
  let works := (dv.filter good).map (·.1)
  let n := works.length
  let degraded := decide (n < 4) || decide (rate < cap)
  let s1 := dv.foldl (fun s q =>
    let step := if !q.2.1.identOk then 1 else q.2.1.failStep.toNat
    setReg (NEAR_DEV_STATUS p q.1) (BitVec.ofNat 32 (if works.contains q.1 then 1 else 2 + 65536 * step)) s) s
  let s2 := setReg (NEAR_STATUS p) (BitVec.ofNat 32 ((if n = 0 then 0 else rate)
      + 8 * (works.map fun d => 2 ^ d).foldl (· + ·) 0 + 128 * n + 1024 * b2n degraded)) s1
  let s3 := (setReg (NEAR_SLICE_MAP p) (BitVec.ofNat 32 (15 * n)) s2).onMem fun m => { m with
    near := tput [] m.near p works
    passAt := tput 0 m.passAt p (dieCount s (0x50 + p))
    bytes := memZero m.bytes (65536 * sliceBase p) 0x00780000000 }
  if degraded then present (faultOf 0x0301 (0x50 + p) 0xFF 0) s3 else s3

/-- REASON of Table 6.5, with the rate cap of the far die; 0 for a port that comes up. -/
def farReason (rate : Nat) (t : FarTrain) : Nat :=
  if !t.present then 1
  else if t.lanes < 4 then 2
  else if rate < 32 then 3
  else if !t.memDevice then 4
  else if !t.direct then 5
  else if t.capacity < 2 ^ 30 then 6
  else if !t.hdmOk then 7 else 0

/-- CXL port c trains, is enumerated and mapped (R179, R180). -/
def trainFar (c : Nat) (t : FarTrain) (s : State) : State :=
  let f := c / 3
  let j := c % 3
  let rate := if getFld s (FAR_CTL f) 0 1 = 1 then min t.rateGt 32 else t.rateGt
  let why := farReason rate t
  let width := if 16 ≤ t.lanes then 3 else if 8 ≤ t.lanes then 2 else 1
  let pages := if why = 0 then min (t.capacity / 0x200000) 131072 else 0
  let degraded := decide (why ≠ 0) || decide (width < 3) || decide (rate < 64) || decide (pages < 131072)
  let v := if why = 0 then 1 + 2 * width + 8 * b2n (decide (64 ≤ rate)) + 16 * b2n (decide (64 ≤ rate)) else 0
  let s1 := setReg (FAR_PORT_STATUS f j) (BitVec.ofNat 32 (v + 32 * b2n degraded + 256 * why)) (setReg (FAR_PORT_MAPPED f j) (BitVec.ofNat 32 pages) s)
  if degraded then present (faultOf 0x0301 (0x60 + f) j 0) s1 else s1

/-- Every port and far die trains (R172, R179). -/
def trainAll (near : List NearTrain) (far : List FarTrain) (s : State) : State :=
  let s1 := (List.range 12).foldl (fun s p => trainPort p ((near.drop (4 * p)).take 4) s) s
  ((far.take 12).zipIdx).foldl (fun s q => trainFar q.2 q.1 s) s1

end Sys2Proof.Machine
end

