-- ==== Sys2Proof/Machine/Startup.lean ====
section
/-! DEFINITION. Power, reset, start-up and shutdown (R416–R418, R431–R436, R445, R450). -/

namespace Sys2Proof.Machine

/-! ### Power and reset (R418) -/

/-- The package without power: the flash devices, the fuses and host memory stand, nothing else does. -/
def unpowered (s : State) : State :=
  let r := State.reset
  { r with
    pending := s.pending
    tick := s.tick
    free := s.free
    host := { r.host with mem := s.host.mem }
    flt := { r.flt with life := { r.flt.life with slots := s.flt.life.slots, lastSlot := s.flt.life.lastSlot, seq := s.flt.life.seq, logNext := s.flt.life.logNext } }
    lnk := { r.lnk with flash := s.lnk.flash }
    fw := { r.fw with flash := s.fw.flash, readOk := s.fw.readOk, fuseSvn := s.fw.fuseSvn, revoked := s.fw.revoked }
    pwr := { r.pwr with stage := .off, pwrGood := false } }

/-- POWER_DOWN (R418): VDD_STBY falls last, and the standby logic loses its contents. -/
def execPowerDown (s : State) : Res := .next (unpowered s)

/-- POWER_UP (R418): the rails ramp in order under PERST_N; ALIVE_OUT is low, and the standby registers and the history queue are at their reset values. -/
def execPowerUp (s : State) : Res :=
  .next (if s.pwr.stage = .off then
      setReg PWR_RAIL_STATUS 0x7F ((unpowered s).onPwr fun p => { p with stage := .held, pwrGood := true })
    else s)

/-- PERST_N_ASSERT (R418, R450): the package is reset; THERM_TRIP_N stays asserted until PWR_GOOD falls. -/
def execPerstNAssert (s : State) : Res :=
  .next (if s.pwr.stage = .off ∨ s.pwr.perst then s
    else setReg PWR_RAIL_STATUS (getReg s PWR_RAIL_STATUS) ((resetPackage s).onPwr fun p => { p with stage := .held, perst := true }))

/-- PWR_GOOD_FALL (R418, R424): THERM_TRIP_N is released; while PERST_N is released the package resets at once and leaves a rail fault in FLT_STBY_LAST. -/
def execPwrGoodFall (s : State) : Res :=
  let s1 := s.onPwr fun p => { p with pwrGood := false, thermTrip := false }
  .next (if !s.pwr.pwrGood then s
    else if s.pwr.perst then s1
    else setReg FLT_STBY_LAST 0x0703 ((resetPackage s1).onPwr fun p => { p with stage := .held }))

/-- The flash devices as they are first seen; what FW_STAGE wrote stands (R396). -/
def takeMedia (media : BootMedia) (s : State) : State :=
  s.onFw fun f => { f with
    flash := if f.flash.all (·.isEmpty) then (List.range 4).map fun k => media.images.getD k [] else f.flash
    readOk := media.readOk }

/-- PERST_N_RELEASE (R431, R432, R445): the straps are sampled, bits 1:0 SLOT_ID and bit 2 TESTEN_N; with TESTEN_N high the host port trains and the ROM runs. -/
def execPerstNRelease (straps : Word) (media : BootMedia) (s : State) : Res :=
  .next (if s.pwr.stage ≠ .held ∨ !s.pwr.perst ∨ !s.pwr.pwrGood then s
    else
      let slot := bits straps.toNat 0 2
      let s1 := setFld LNK_FAB_POS 9 2 slot (s.onPwr fun p => { p with perst := false, slotId := slot })
      if !bit straps.toNat 2 then s1.onPwr fun p => { p with stage := .testMode }
      else romBoot (takeMedia media <| setFld PWR_RAIL_STATUS 0 7 0x7F ({ s1 with cd0ResetAt := s1.tick }.onHost fun h => { h with linkUp := true })))

/-! ### Start-up (R431–R434) -/

/-- The firmware region: the first 512 MiB of the lowest-numbered slice that is not absent (R391). -/
def takeRegion (s : State) : State :=
  match (List.range 12).find? fun p => decide (0 < sliceBlocks s p) with
  | some p => if clashes s (sliceBase p) 8192 then s else takeBlocks (sliceBase p) 8192 s
  | none => s

/-- MEMORY_TRAINING (R172, R179, R362): step 5, with the first heartbeat refresh; after a block reset of port or far dies only those train, and start-up goes
on at step 7. -/
def execMemoryTraining (near : List NearTrain) (far : List FarTrain) (s : State) : Res :=
  .next (if s.pwr.stage ≠ .training then s
    else if !s.flt.blockResets.isEmpty then
      let s1 := s.flt.blockResets.foldl (fun s d =>
        if d < 0x60 then trainPort (d - 0x50) ((near.drop (4 * (d - 0x50))).take 4) s
        else ((far.drop (3 * (d - 0x60))).take 3).zipIdx.foldl (fun s q => trainFar (3 * (d - 0x60) + q.2) q.1 s) s) s
      (s1.onFlt fun f => { f with blockResets := [] }).onPwr fun p => { p with stage := .discovery }
    else takeRegion (trainAll near far (refreshAlive (s.onPwr fun p => { p with stage := .selfTest }))))

/-- A die that failed self-test (R433): a spare is marked failed, an array die is replaced, the devices or ports of a port or far die stay out of service, a
link die's links stay OFF, and CD1 follows no control log. -/
def failDie (s : State) (d : Nat) : State :=
  let s1 := s.onPwr fun p => { p with failedDies := p.failedDies ++ [d] }
  if 72 ≤ d ∧ d < 74 ∧ (logicalDie s1 d).isNone then islandPower d false (setFld (spareReg d) 30 1 1 s1)
  else if d < 74 then (if (logicalDie s1 d).isSome then swapDie d s1 else s1)
  else if 0x50 ≤ d ∧ d < 0x5C then
    let p := d - 0x50
    present (faultOf 0x0301 d 0xFF 0)
      ((List.range 4).foldl (fun s k => setReg (NEAR_DEV_STATUS p k) 2 s) (setReg (NEAR_SLICE_MAP p) 0 (setReg (NEAR_STATUS p) (BitVec.ofNat 32 1024) s1)))
  else if 0x60 ≤ d ∧ d < 0x64 then
    (List.range 3).foldl (fun s j => present (faultOf 0x0301 d j 0)
      (setReg (FAR_PORT_MAPPED (d - 0x60) j) 0 (setReg (FAR_PORT_STATUS (d - 0x60) j) 32 s))) s1
  else if d = 0x71 then s1.onFw fun f => { f with cd1Failed := true } else s1

/-- DIE_SELF_TEST (R433): step 6; the islands of the dies in use go on at 0.75 V and 500 MHz, and the failed dies, by die code, are handled. A failure of CD0
halts start-up with ALIVE_OUT low. -/
def execDieSelfTest (failed : List Nat) (s : State) : Res :=
  .next (if s.pwr.stage ≠ .selfTest then s
    else if failed.contains 0x70 then setReg FLT_ALIVE_STATUS 0 (s.onPwr fun p => { p with stage := .halted })
    else
      let s1 := (List.range 74).foldl (fun s p => if (logicalDie s p).isSome then islandPower p true s else s) s
      (failed.foldl failDie s1).onPwr fun p => { p with stage := .discovery })

/-- DISCOVERY (R307, R431): step 7, once no spare swap is in progress: the plan comes from flash, every enabled link enters DETECT, and the chip ID is taken. -/
def execDiscovery (s : State) : Res :=
  .next (if s.pwr.stage ≠ .discovery ∨ s.pwr.swap.isSome then s
    else
      let s1 := (s.onLnk fun l => { l with started := true }).onPwr fun p => { p with stage := .readying }
      let s2 := match s1.lnk.flash with | some p => usePlan p s1 | none => s1
      settleAll ((List.range 48).foldl (fun s j => linkOn j s) s2))

/-- The idle hot-spare state (R434): GDDR7 in self-refresh, islands at 0.60 V with ARRAY_CLK stopped. -/
def enterHotSpare (s : State) : State :=
  let s1 := setFld PWR_STATUS 3 1 1 (selfRefresh 1 (s.onPwr fun p => { p with selfRefresh := true }))
  let s2 := (List.range 9).foldl (fun s r => setFld (PWR_ROW_VDD r) 0 10 600 s) s1
  (List.range 74).foldl (fun s p => if (getDie s p).clockOn then modDie p (fun d => { d with clockOn := false }) s else s) s2

/-- Doorbells written before Ready are acted on (R432). -/
def earlyDoorbells (s : State) : State :=
  s.ctxs.foldl (fun s c => c.2.queues.foldl (fun s q =>
    match q.2.early with
    | some v => sqTail (BitVec.ofNat 12 c.1) q.1 v (modQueue (BitVec.ofNat 12 c.1) q.1 (fun y => { y with early := none }) s)
    | none => s) s) s

/-- READY (R431–R434): step 8: LOCK, BUILD_EN and READY are set, pairing begins, and a spare without a chip ID goes idle. -/
def execReady (s : State) : Res :=
  .next (if s.pwr.stage ≠ .readying then s
    else
      let s1 := setFld SEQ_CTL 0 1 1 (setLock s)
      let s2 := (s1.onHost fun h => { h with ready := true, intakeHeld := false }).onFlt fun f => { f with outOfService := false }
      let s3 := (s2.onCmt fun c => { c with pairingOpen := true }).onPwr fun p => { p with stage := .ready }
      let s4 := earlyDoorbells s3
      if unassigned s4 ∧ getFld s4 LNK_FAB_ID 11 1 = 1 then enterHotSpare s4 else s4)

/-! ### Shutdown (R435) -/

/-- SHUTDOWN (R435): step building and slot fetch stop and the TTL clock is checkpointed (R159); once the built steps have committed or been abandoned and every record is durable, the lifetime record
is written, and its end answers SHUTDOWN_READY. Held until a live update that runs ends (Table 17.6). -/
def execShutdown (s : State) : Res :=
  .next (if !fwRuns s ∨ s.pwr.shutdown = .writing ∨ s.pwr.shutdown = .answered then s
    else if s.fw.update.isSome then s.onPwr fun p => { p with shutdown := .held }
    else
      let s1 := if s.pwr.shutdown = .settling then s else beginShutdown s
      if allSettled s1 ∧ s1.flt.life.writing.isNone then beginLifeWrite (s1.onPwr fun p => { p with shutdown := .writing }) else s1)

end Sys2Proof.Machine
end

