-- ==== Sys2Proof/Machine/Dispatch.lean ====
section
/-! DEFINITION. The effect of each command: one arm per row of the table, in its order. -/

namespace Sys2Proof.Machine

def exec (i : Instr) (s : State) : Host.Outcome State Fault Refusal :=
  match i with
  | .cmdDbSqTail ctx q value => Sys2Proof.Machine.execCmdDbSqTail ctx q value s
  | .cmdDbCqHead ctx q value => Sys2Proof.Machine.execCmdDbCqHead ctx q value s
  | .cmdDbTokHead ctx value => Sys2Proof.Machine.execCmdDbTokHead ctx value s
  | .slotFetch ctx q slot => Sys2Proof.Machine.execSlotFetch ctx q slot s
  | .completionWrite c => Sys2Proof.Machine.execCompletionWrite c s
  | .commandDeadlineExpiry c => Sys2Proof.Machine.execCommandDeadlineExpiry c s
  | .tokenIrqHoldoff ctx => Sys2Proof.Machine.execTokenIrqHoldoff ctx s
  | .dmaFault purpose => Sys2Proof.Machine.execDmaFault purpose s
  | .queueEnable ctx q value => Sys2Proof.Machine.execQueueEnable ctx q value s
  | .queueDisable ctx q value => Sys2Proof.Machine.execQueueDisable ctx q value s
  | .tokenRingCfg ctx value => Sys2Proof.Machine.execTokenRingCfg ctx value s
  | .cmdVfAllotWrite vf value => Sys2Proof.Machine.execCmdVfAllotWrite vf value s
  | .functionLevelReset fn => Sys2Proof.Machine.execFunctionLevelReset fn s
  | .registerWrite space width value => Sys2Proof.Machine.execRegisterWrite space width value s
  | .ctxOpen c => Sys2Proof.Machine.execCtxOpen c s
  | .ctxClose c => Sys2Proof.Machine.execCtxClose c s
  | .ctxQuery c => Sys2Proof.Machine.execCtxQuery c s
  | .ctxSetQuota c => Sys2Proof.Machine.execCtxSetQuota c s
  | .ctxKeyImport c block => Sys2Proof.Machine.execCtxKeyImport c block s
  | .objCreate c => Sys2Proof.Machine.execObjCreate c s
  | .objFree c => Sys2Proof.Machine.execObjFree c s
  | .objFreeRelease ctx index => Sys2Proof.Machine.execObjFreeRelease ctx index s
  | .objPlace c => Sys2Proof.Machine.execObjPlace c s
  | .objMoveDone ctx index => Sys2Proof.Machine.execObjMoveDone ctx index s
  | .objCopy c => Sys2Proof.Machine.execObjCopy c s
  | .objWriteHost c data => Sys2Proof.Machine.execObjWriteHost c data s
  | .objReadHost c => Sys2Proof.Machine.execObjReadHost c s
  | .objShare c => Sys2Proof.Machine.execObjShare c s
  | .modelImport c => Sys2Proof.Machine.execModelImport c s
  | .cfgLoad c => Sys2Proof.Machine.execCfgLoad c s
  | .cfgShadowWritten pan => Sys2Proof.Machine.execCfgShadowWritten pan s
  | .panCreate c => Sys2Proof.Machine.execPanCreate c s
  | .panRelease c => Sys2Proof.Machine.execPanRelease c s
  | .modelSwitch c => Sys2Proof.Machine.execModelSwitch c s
  | .modelVersionFlip entry => Sys2Proof.Machine.execModelVersionFlip entry s
  | .modelEvict c => Sys2Proof.Machine.execModelEvict c s
  | .seqAdmit c input => Sys2Proof.Machine.execSeqAdmit c input s
  | .seqAppend c input => Sys2Proof.Machine.execSeqAppend c input s
  | .seqPause c => Sys2Proof.Machine.execSeqPause c s
  | .seqResume c => Sys2Proof.Machine.execSeqResume c s
  | .seqCancel c => Sys2Proof.Machine.execSeqCancel c s
  | .seqRetire c => Sys2Proof.Machine.execSeqRetire c s
  | .stepPolicy c => Sys2Proof.Machine.execStepPolicy c s
  | .specPolicy c => Sys2Proof.Machine.execSpecPolicy c s
  | .exitPolicy c => Sys2Proof.Machine.execExitPolicy c s
  | .adpLoad c => Sys2Proof.Machine.execAdpLoad c s
  | .adpUnload c => Sys2Proof.Machine.execAdpUnload c s
  | .adpBind c => Sys2Proof.Machine.execAdpBind c s
  | .steerSet c data => Sys2Proof.Machine.execSteerSet c data s
  | .embTableCreate c => Sys2Proof.Machine.execEmbTableCreate c s
  | .embVersionSwitch c => Sys2Proof.Machine.execEmbVersionSwitch c s
  | .embMaintChange c => Sys2Proof.Machine.execEmbMaintChange c s
  | .embRowUpdate c => Sys2Proof.Machine.execEmbRowUpdate c s
  | .embLookup c => Sys2Proof.Machine.execEmbLookup c s
  | .embApplyGrad c => Sys2Proof.Machine.execEmbApplyGrad c s
  | .gradWaitTimeout entry => Sys2Proof.Machine.execGradWaitTimeout entry s
  | .run c => Sys2Proof.Machine.execRun c s
  | .coll c => Sys2Proof.Machine.execColl c s
  | .collTimeout c => Sys2Proof.Machine.execCollTimeout c s
  | .fence c => Sys2Proof.Machine.execFence c s
  | .fltRead c => Sys2Proof.Machine.execFltRead c s
  | .fltConfig c => Sys2Proof.Machine.execFltConfig c s
  | .lifeRead c => Sys2Proof.Machine.execLifeRead c s
  | .pmcSample c => Sys2Proof.Machine.execPmcSample c s
  | .pmcWindowOpen c die => Sys2Proof.Machine.execPmcWindowOpen c die s
  | .pmcWindowClose c die => Sys2Proof.Machine.execPmcWindowClose c die s
  | .fwStage c image => Sys2Proof.Machine.execFwStage c image s
  | .fwActivate c => Sys2Proof.Machine.execFwActivate c s
  | .attest c => Sys2Proof.Machine.execAttest c s
  | .fabricPlan c plan => Sys2Proof.Machine.execFabricPlan c plan s
  | .fabricStatus c => Sys2Proof.Machine.execFabricStatus c s
  | .testForce c => Sys2Proof.Machine.execTestForce c s
  | .testPattern c failing => Sys2Proof.Machine.execTestPattern c failing s
  | .tileCycle t => Sys2Proof.Machine.execTileCycle t s
  | .flitArrival t port parityErr => Sys2Proof.Machine.execFlitArrival t port parityErr s
  | .creditReturn t port vq => Sys2Proof.Machine.execCreditReturn t port vq s
  | .weightFillDone t => Sys2Proof.Machine.execWeightFillDone t s
  | .fp32FlushSecondPush t => Sys2Proof.Machine.execFp32FlushSecondPush t s
  | .watchdogExpiry die => Sys2Proof.Machine.execWatchdogExpiry die s
  | .orphanTimeout die => Sys2Proof.Machine.execOrphanTimeout die s
  | .spillSegmentEmpty die segment => Sys2Proof.Machine.execSpillSegmentEmpty die segment s
  | .spillRefill die segment => Sys2Proof.Machine.execSpillRefill die segment s
  | .stepBoundaryDrain pan => Sys2Proof.Machine.execStepBoundaryDrain pan s
  | .configSwitchWave pan => Sys2Proof.Machine.execConfigSwitchWave pan s
  | .waveDieDone die => Sys2Proof.Machine.execWaveDieDone die s
  | .routeCommit pan => Sys2Proof.Machine.execRouteCommit pan s
  | .modeWave pan => Sys2Proof.Machine.execModeWave pan s
  | .preemptSwap pan => Sys2Proof.Machine.execPreemptSwap pan s
  | .preemptReturn pan => Sys2Proof.Machine.execPreemptReturn pan s
  | .balanceEval ctx => Sys2Proof.Machine.execBalanceEval ctx s
  | .routerPacket router net => Sys2Proof.Machine.execRouterPacket router net s
  | .streamBlockIssue stream => Sys2Proof.Machine.execStreamBlockIssue stream s
  | .streamBlockDone stream => Sys2Proof.Machine.execStreamBlockDone stream s
  | .portxFlit die port vq => Sys2Proof.Machine.execPortxFlit die port vq s
  | .pageInRequest stream => Sys2Proof.Machine.execPageInRequest stream s
  | .pageInDone pagein => Sys2Proof.Machine.execPageInDone pagein s
  | .pageInTimeout pagein => Sys2Proof.Machine.execPageInTimeout pagein s
  | .tierAccess die req outcome => Sys2Proof.Machine.execTierAccess die req outcome s
  | .writeCrcError device addr rewrites => Sys2Proof.Machine.execWriteCrcError device addr rewrites s
  | .caParityError device channel retrainOk => Sys2Proof.Machine.execCaParityError device channel retrainOk s
  | .patrolScrub addr outcome passEnds => Sys2Proof.Machine.execPatrolScrub addr outcome passEnds s
  | .farFlitReplay port recovered => Sys2Proof.Machine.execFarFlitReplay port recovered s
  | .farRequestTimeout port second => Sys2Proof.Machine.execFarRequestTimeout port second s
  | .eventLogPoll port corrected uncorrected => Sys2Proof.Machine.execEventLogPoll port corrected uncorrected s
  | .stepBuild pan => Sys2Proof.Machine.execStepBuild pan s
  | .workListDelivery pan => Sys2Proof.Machine.execWorkListDelivery pan s
  | .exchangePacket die port vq hdr flits => Sys2Proof.Machine.execExchangePacket die port vq hdr flits s
  | .rowFetchDone die entry row => Sys2Proof.Machine.execRowFetchDone die entry row s
  | .stepEnd epoch outcomes => Sys2Proof.Machine.execStepEnd epoch outcomes s
  | .hotRowReplicate entry reports => Sys2Proof.Machine.execHotRowReplicate entry reports s
  | .hotCopyEvict die entry row => Sys2Proof.Machine.execHotCopyEvict die entry row s
  | .commitRecordSend epoch => Sys2Proof.Machine.execCommitRecordSend epoch s
  | .stepCommit epoch => Sys2Proof.Machine.execStepCommit epoch s
  | .heldAdmissionRetry => Sys2Proof.Machine.execHeldAdmissionRetry s
  | .holdExpiry c => Sys2Proof.Machine.execHoldExpiry c s
  | .pauseArchiveStart index => Sys2Proof.Machine.execPauseArchiveStart index s
  | .pauseArchiveDone index => Sys2Proof.Machine.execPauseArchiveDone index s
  | .resumePagesDone index crcOk => Sys2Proof.Machine.execResumePagesDone index crcOk s
  | .ttlSweep => Sys2Proof.Machine.execTtlSweep s
  | .ttlCheckpoint => Sys2Proof.Machine.execTtlCheckpoint s
  | .journalHeartbeat => Sys2Proof.Machine.execJournalHeartbeat s
  | .journalRecordReceive frame => Sys2Proof.Machine.execJournalRecordReceive frame s
  | .journalAckReceive jseq => Sys2Proof.Machine.execJournalAckReceive jseq s
  | .controlLogApply => Sys2Proof.Machine.execControlLogApply s
  | .wardLoss => Sys2Proof.Machine.execWardLoss s
  | .claimReceive claim mirror => Sys2Proof.Machine.execClaimReceive claim mirror s
  | .claimRetry => Sys2Proof.Machine.execClaimRetry s
  | .pairing evidence => Sys2Proof.Machine.execPairing evidence s
  | .pairingRetry => Sys2Proof.Machine.execPairingRetry s
  | .remotePagePull page data crcOk => Sys2Proof.Machine.execRemotePagePull page data crcOk s
  | .faultEvent event => Sys2Proof.Machine.execFaultEvent event s
  | .spareSelfTestDone spare pass => Sys2Proof.Machine.execSpareSelfTestDone spare pass s
  | .forcedEvent source => Sys2Proof.Machine.execForcedEvent source s
  | .srcForceSet repeats => Sys2Proof.Machine.execSrcForceSet repeats s
  | .coreKick core => Sys2Proof.Machine.execCoreKick core s
  | .coreWatchdogExpiry core => Sys2Proof.Machine.execCoreWatchdogExpiry core s
  | .coreRestart core => Sys2Proof.Machine.execCoreRestart core s
  | .coreRetire core => Sys2Proof.Machine.execCoreRetire core s
  | .cd1Takeover => Sys2Proof.Machine.execCd1Takeover s
  | .aliveKick value => Sys2Proof.Machine.execAliveKick value s
  | .aliveOutEdge => Sys2Proof.Machine.execAliveOutEdge s
  | .heartbeatTimeout => Sys2Proof.Machine.execHeartbeatTimeout s
  | .bitternAccumulate => Sys2Proof.Machine.execBitternAccumulate s
  | .lifetimeWrite => Sys2Proof.Machine.execLifetimeWrite s
  | .arrArithClr die value => Sys2Proof.Machine.execArrArithClr die value s
  | .spillHwmClear die value => Sys2Proof.Machine.execSpillHwmClear die value s
  | .pmcHwmClr die value => Sys2Proof.Machine.execPmcHwmClr die value s
  | .pmcPanClr value => Sys2Proof.Machine.execPmcPanClr value s
  | .fwLock value => Sys2Proof.Machine.execFwLock value s
  | .fwSvnAdvance value => Sys2Proof.Machine.execFwSvnAdvance value s
  | .fwKeyRevoke value => Sys2Proof.Machine.execFwKeyRevoke value s
  | .fwPromotion => Sys2Proof.Machine.execFwPromotion s
  | .entropyHealthFail source => Sys2Proof.Machine.execEntropyHealthFail source s
  | .perstNAssert => Sys2Proof.Machine.execPerstNAssert s
  | .perstNRelease straps media => Sys2Proof.Machine.execPerstNRelease straps media s
  | .memoryTraining near far => Sys2Proof.Machine.execMemoryTraining near far s
  | .dieSelfTest failed => Sys2Proof.Machine.execDieSelfTest failed s
  | .discovery => Sys2Proof.Machine.execDiscovery s
  | .ready => Sys2Proof.Machine.execReady s
  | .linkEnable link => Sys2Proof.Machine.execLinkEnable link s
  | .linkSignalDetect link => Sys2Proof.Machine.execLinkSignalDetect link s
  | .linkTraining link offer => Sys2Proof.Machine.execLinkTraining link offer s
  | .discoveryRecordSend link => Sys2Proof.Machine.execDiscoveryRecordSend link s
  | .discoveryRecordReceive link rec => Sys2Proof.Machine.execDiscoveryRecordReceive link rec s
  | .elpFrameReceive link frame fec => Sys2Proof.Machine.execElpFrameReceive link frame fec s
  | .ackTimeout link retrainOk => Sys2Proof.Machine.execAckTimeout link retrainOk s
  | .linkDown link => Sys2Proof.Machine.execLinkDown link s
  | .linkDownRetry link => Sys2Proof.Machine.execLinkDownRetry link s
  | .moduleInsert link => Sys2Proof.Machine.execModuleInsert link s
  | .moduleRemove link => Sys2Proof.Machine.execModuleRemove link s
  | .cmisPoll link poll => Sys2Proof.Machine.execCmisPoll link poll s
  | .noRouteTimeout dest => Sys2Proof.Machine.execNoRouteTimeout dest s
  | .shardJoin chip digest => Sys2Proof.Machine.execShardJoin chip digest s
  | .shardPassStart digest => Sys2Proof.Machine.execShardPassStart digest s
  | .shardTimeout c shard data => Sys2Proof.Machine.execShardTimeout c shard data s
  | .governorTick models nonArray idle => Sys2Proof.Machine.execGovernorTick models nonArray idle s
  | .powerSample watts dies => Sys2Proof.Machine.execPowerSample watts dies s
  | .droopDetect die => Sys2Proof.Machine.execDroopDetect die s
  | .droopRecover die => Sys2Proof.Machine.execDroopRecover die s
  | .thermalSample temps => Sys2Proof.Machine.execThermalSample temps s
  | .railFault rail => Sys2Proof.Machine.execRailFault rail s
  | .pwrGoodFall => Sys2Proof.Machine.execPwrGoodFall s
  | .mfrPowerCap watts => Sys2Proof.Machine.execMfrPowerCap watts s
  | .readPin => Sys2Proof.Machine.execReadPin s
  | .readTemperature1 => Sys2Proof.Machine.execReadTemperature1 s
  | .statusWord => Sys2Proof.Machine.execStatusWord s
  | .pldmSensorRead sensor => Sys2Proof.Machine.execPldmSensorRead sensor s
  | .mctpLifetimeRead offset length => Sys2Proof.Machine.execMctpLifetimeRead offset length s
  | .mctpStbyRead item => Sys2Proof.Machine.execMctpStbyRead item s
  | .shutdown => Sys2Proof.Machine.execShutdown s
  | .vfEnable value => Sys2Proof.Machine.execVfEnable value s
  | .lifetimeWriteDone verifyOk => Sys2Proof.Machine.execLifetimeWriteDone verifyOk s
  | .powerUp => Sys2Proof.Machine.execPowerUp s
  | .powerDown => Sys2Proof.Machine.execPowerDown s
  | .boundaryScan tck tms tdi trstN => Sys2Proof.Machine.execBoundaryScan tck tms tdi trstN s

end Sys2Proof.Machine
end

