-- ==== Sys2Proof/Machine/Idle.lean ====
section
/-! DEFINITION. What passes when no command waits: time (R30). -/

namespace Sys2Proof.Machine

/-- One tick of the TTL clock's second, which it counts while the package runs (R157). -/
def ttlAdvance (s : State) : State :=
  s.onSeq fun q => if q.ttlTick + 1 = 100000000 then { q with ttlTick := 0, ttlClock := q.ttlClock + 1 } else { q with ttlTick := q.ttlTick + 1 }

/-- The package is powered and out of reset (R157). -/
def outOfReset (s : State) : Bool := decide (s.pwr.stage ≠ .off) && decide (s.pwr.stage ≠ .held)

/-- 10 ns pass: every local counter counts one (R30), the TTL clock runs while the package is powered and out of reset (R157), and firmware samples the minutes of power-on
time (R374). -/
def idle (s : State) : State :=
  let s1 := { s with tick := s.tick + 1 }
  let s2 := if outOfReset s then ttlAdvance s1 else s1
  if fwRuns s2 && decide (s2.flt.life.minuteAt + msTicks 60000 ≤ s2.tick) then minuteSample s2 else s2

end Sys2Proof.Machine
end

