-- ==== Sys2Proof/Safety.lean ====
section
/-! DEFINITION. The terms in which the statements speak of the block: completing, starting, ending, and what a step may not leave behind. -/

namespace Sys2Proof.Machine

/-- A command answers a next state of which P holds. -/
def Completes (i : Instr) (s : State) (P : State → Prop) : Prop := ∃ t, exec i s = .next t ∧ P t

/-- A command's next state is t. -/
abbrev Goes (i : Instr) (s t : State) : Prop := exec i s = .next t

/-- The opcode row of `op` may start command m that c names: accepted and waiting, its start conditions met (R289–R293), its reserved parameter
bits clear (R296). -/
def Starts (op : Nat) (c : CmdRef) (m : Cmd) (s : State) : Prop :=
  findCmd s c = some m ∧ m.opcode.toNat = op ∧ startable s m = true ∧ maskOk ((opRow op).map (·.masks) |>.getD []) m.params = true

/-- Command m that c names runs. -/
def Running (op : Nat) (c : CmdRef) (m : Cmd) (s : State) : Prop := findCmd s c = some m ∧ m.opcode.toNat = op ∧ m.phase = .running

/-- The arrays of a state are in their one canonical form: keys rise and no default value is listed. -/
structure Canonical (s : State) : Prop where
  regs : twf (0 : Word) s.regs = true
  acc : twf 0 s.acc = true
  host : Memory.wf s.host.mem = true
  tiers : Memory.wf s.mem.bytes = true
  entries : twf none s.seq.entries = true
  dies : twf Die.fresh s.arr.dies = true
  hists : twf PanHist.fresh s.pmc.hists = true

/-- No command ends the run: the step answers a next state. -/
def Answers (s : State) : Prop := ∃ t, step s = .next t

end Sys2Proof.Machine
end

