-- ==== Sys2Proof/Certificates/Slice0/Obligations.lean ====
section
/-! DEFINITION. The statements for the provers: what each command of the table does, what a step keeps, what the rules of the manual say. -/

open Sys2Proof Sys2Proof.Machine

/-! ### The step, reset and the whole block -/

/-- The command at the front of the queue is the one that a step runs, on the state with the rest of the queue; on an empty queue the block idles
(notes/assumptions/1, the model's choice). -/
def Obligations.StepRunsFrontCommand : Prop :=
  (∀ (c : Instr) (q : List Instr) (s : State), s.pending = c :: q → step s = exec c (s.withPending q))
  ∧ ∀ s : State, s.pending = [] → step s = .next (idle s)

/-- No command ends the run: a step answers a next state from every state (the manual gives every row of the table an effect). -/
def Obligations.EveryStepAnswers : Prop := ∀ s : State, Answers s

/-- A step takes exactly the command at the front of the queue: every other command stays, in its order, and none is added. -/
def Obligations.QueueIsFifo : Prop := ∀ s t : State, step s = .next t → t.pending = s.pending.tail

/-- Registers, accumulators, host memory, the tiers' contents, the sequence table, the dies and the pan histograms keep their canonical form in every step, from every state that has
it. -/
def Obligations.CanonicalFormIsKept : Prop := ∀ s t : State, Canonical s → step s = .next t → Canonical t

/-- The state after reset is canonical. -/
def Obligations.ResetIsCanonical : Prop := Canonical State.reset

/-- Reset (R8, R418, R431): every register of the map reads its table's reset value in its stored bits, no command waits, the package stands under
PERST_N, and the tables and memories are empty. -/
def Obligations.ResetState : Prop :=
  (∀ a, getReg State.reset a = regReset a)
  ∧ State.reset.pending = [] ∧ State.reset.pwr.stage = .held ∧ State.reset.pwr.perst = true ∧ State.reset.host.ready = false
  ∧ (∀ a, memGet State.reset.mem.bytes a = 0) ∧ (∀ c, (getCtx State.reset c).state = 0) ∧ (∀ n, getPan State.reset n = none)
  ∧ (∀ i, getEntry State.reset i = none) ∧ State.reset.flt.history = []
  ∧ readReg State.reset ARR_PKG_ID 4 = 0x00090848 ∧ readReg State.reset FW_ROLE_MAP 4 = 0x54332210
  ∧ readReg State.reset (CFG_RAKE_CTL 5) 4 = 0x40 ∧ readReg State.reset PWR_CAP_FW 4 = 4800 ∧ readReg State.reset (CMD_Q_CFG 7 3) 4 = 0x202

/-- Time (R30): on an empty queue every local counter counts one 10 ns tick, and no register or memory changes but those of the minute sample. -/
def Obligations.IdleCountsTime : Prop :=
  ∀ s : State, (idle s).tick = s.tick + 1
    ∧ (fwRuns s = false → idle s = { s with tick := s.tick + 1, seq := (idle s).seq } ∧ (outOfReset s = false → (idle s).seq = s.seq))

/-! ### Rings and doorbells (chapter 11) -/

/-- Doorbells: a tail within the ring and its free slots makes slots visible, one outside stops the queue with ERR_CODE 3; before Ready the tail is
kept; a head returns entries. -/
def Obligations.DoorbellCompletion : Prop :=
  (∀ (c : CtxId) (q : Fin 8) (v : Word) (s : State), ctxPresent s c = true → s.host.ready = true → qEnabled s c q = true →
      ((getCtx s c).queue q).stopped = false →
      let n := sqSize s c q
      let t := v.toNat % 65536
      let add := (t + n - ((getCtx s c).queue q).sqTail) % n
      t < n → visibleOf (getCtx s c) q + add ≤ n → add ≠ 0 →
      Goes (.cmdDbSqTail c q v) s (modCtx c (fun x => { x with
        queues := tmod Queue.fresh x.queues q fun y => { y with sqTail := t }
        visible := x.visible ++ [(q.val, add)] }) s))
  ∧ (∀ (c : CtxId) (q : Fin 8) (v : Word) (s : State), ctxPresent s c = true → s.host.ready = true → qEnabled s c q = true →
      ((getCtx s c).queue q).stopped = false → sqSize s c q ≤ v.toNat % 65536 →
      Goes (.cmdDbSqTail c q v) s (stopQueue c q 3 s))
  ∧ (∀ (c : CtxId) (q : Fin 8) (v : Word) (s : State), ctxPresent s c = true → s.host.ready = false →
      Goes (.cmdDbSqTail c q v) s (modQueue c q (fun y => { y with early := some v.toNat }) s))
  ∧ (∀ (c : CtxId) (q : Fin 8) (v : Word) (s : State), ctxPresent s c = true → qEnabled s c q = true → v.toNat % 65536 < cqSize s c q →
      Goes (.cmdDbCqHead c q v) s
        (deliverKept c q ((getCtx s c).queue q).kept.length (modQueue c q (fun y => { y with cqHead := v.toNat % 65536 }) s)))
  ∧ (∀ (c : CtxId) (v : Word) (s : State), ctxPresent s c = true → tokEnabled s c = true → v.toNat % 2 ^ 20 < tokSize s c →
      Goes (.cmdDbTokHead c v) s (retryRelease c (modCtx c (fun x => { x with tok := { x.tok with head := v.toNat % 2 ^ 20 } }) s)))

/-- Queue and ring configuration: setting ENABLE starts the rings afresh, clearing it gives up the visible slots, a bad configuration sets ERR_CODE 5
and leaves the register; the token ring, the VF allotment, VF Enable, the token vector's holdoff, and the four kinds of DMA error. -/
def Obligations.RingConfigurationCompletion : Prop :=
  (∀ (c : CtxId) (q : Fin 8) (w v : Word) (s : State), v = w ||| 0x80000000 → ctxPresent s c = true → qEnabled s c q = false →
      2 ≤ bits v.toNat 0 5 → bits v.toNat 0 5 ≤ 16 → bits v.toNat 0 5 ≤ bits v.toNat 8 5 → bits v.toNat 8 5 ≤ 16 →
      bits v.toNat 16 11 < fnVectors s (fnOf c) → bit v.toNat 31 = true →
      Goes (.queueEnable c q w) s (deliverKept c q ((getCtx s c).queue q).kept.length
        (modCtx c (fun x => { x with
          queues := tmod Queue.fresh x.queues q fun y => { y with
            sqHead := 0, sqTail := 0, cqHead := 0, cqTail := 0, phase := true, err := 0, stopped := false }
          visible := x.visible.filter fun p => !decide (p.1 = q.val) }) (setReg (CMD_Q_CFG c.toNat q) (v &&& qCfgBits) s))))
  ∧ (∀ (c : CtxId) (q : Fin 8) (w v : Word) (s : State), v = w ||| 0x80000000 → ctxPresent s c = true → qEnabled s c q = false →
      bits v.toNat 8 5 < bits v.toNat 0 5 →
      Goes (.queueEnable c q w) s (modQueue c q (fun y => { y with err := 5, stopped := true }) s))
  ∧ (∀ (c : CtxId) (q : Fin 8) (w v : Word) (s : State), v = w &&& 0x7FFFFFFF → ctxPresent s c = true →
      2 ≤ bits v.toNat 0 5 → bits v.toNat 0 5 ≤ 16 → bits v.toNat 0 5 ≤ bits v.toNat 8 5 → bits v.toNat 8 5 ≤ 16 →
      bits v.toNat 16 11 < fnVectors s (fnOf c) → bit v.toNat 31 = false →
      Goes (.queueDisable c q w) s (modCtx c (fun x => { x with visible := x.visible.filter fun p => !decide (p.1 = q.val) })
        (setReg (CMD_Q_CFG c.toNat q) (v &&& qCfgBits) s)))
  ∧ (∀ (c : CtxId) (v : Word) (s : State), ctxPresent s c = true → tokEnabled s c = false → 6 ≤ bits v.toNat 0 5 → bits v.toNat 0 5 ≤ 20 →
      bits v.toNat 16 11 < fnVectors s (fnOf c) → bit v.toNat 31 = true →
      Goes (.tokenRingCfg c v) s
        (retryRelease c (modCtx c (fun x => { x with tok := TokenRing.fresh }) (setReg (CMD_TOK_CFG c.toNat) (v &&& tokCfgBits) s))))
  ∧ (∀ (f : BitVec 8) (v : Word) (s : State), f ≠ 0 → s.host.vfEnable = false → bits v.toNat 0 5 ≤ 16 → bits v.toNat 16 7 ≤ 64 →
      bits v.toNat 16 7 + 1 ≤ fnVectors s 0 + fnVectors s f.toNat →
      Goes (.cmdVfAllotWrite f v) s (setReg (CMD_VF_ALLOT 0 f.toNat) (v &&& 0x007F001F) s))
  ∧ (∀ (b : Bool) (s : State), Goes (.vfEnable b) s { s with host := { s.host with vfEnable := b } })
  ∧ (∀ (c : CtxId) (n : Nat) (s : State), (getCtx s c).tok.firstSince = some n → n + usTicks (16 * getFld s (CMD_TOK_CFG c.toNat) 27 4) ≤ s.tick →
      Goes (.tokenIrqHoldoff c) s (raiseTok c s))
  ∧ (∀ (c : CmdRef) (m : Cmd) (s : State), findCmd s c = some m → m.phase = .running → hostBuffered m = true →
      ∀ moved, Goes (.dmaFault (.hostBuffer c moved)) s (endWith m (stBadParam 6) false 0 0 s))
  ∧ (∀ (c : CtxId) (q : Fin 8) (s : State), canFetch s c = some q.val → Goes (.dmaFault (.slotFetch c q)) s (stopQueue c q 1 s))
  ∧ (∀ (c : CtxId) (q : Fin 8) (s : State), qLive s c q = true → Goes (.dmaFault (.completionWrite c q)) s (stopQueue c q 2 s))
  ∧ (∀ (c : CtxId) (s : State), tokEnabled s c = true →
      Goes (.dmaFault (.tokenWrite c)) s (modCtx c (fun x => { x with tok := { x.tok with stopped := true, err := 4 } }) s))

/-- Slots and completions: the slot whose turn it is is accepted and one completion entry is reserved; an ended command whose effects are in place
leaves the outstanding commands, and its entry is written to a live ring or kept; a deadline that has passed ends a command that has not started; a FENCE
ends when nothing earlier of its scope is left. -/
def Obligations.SlotAndCompletionCompletion : Prop :=
  (∀ (c : CtxId) (q : Fin 8) (b : List Byte) (s : State), turnCtx s = some c.toNat → canFetch s c = some q.val →
      Completes (.slotFetch c q b) s fun t =>
        t.cmds = s.cmds ++ [acceptCmd s c q b] ∧ t.host.nextSeqno = s.host.nextSeqno + 1
          ∧ ((getCtx t c).queue q).sqHead = (((getCtx s c).queue q).sqHead + 1) % sqSize s c q
          ∧ ((getCtx t c).queue q).reserved = ((getCtx s c).queue q).reserved + 1
          ∧ t = { s with cmds := t.cmds, ctxs := t.ctxs, host := t.host } ∧ t.host.mem = s.host.mem)
  ∧ (∀ (r : CmdRef) (m : Cmd) (e : CplEntry) (s : State), findEnded s r = some (m, e) → entryDue s m = true → (getCtx s m.ctx).flr = false →
      let e' := { e with late := m.started && !decide (m.deadline = 0) && decide (deadlineTick m < s.tick) }
      let s1 := reapOld (retireCmd m e' 1 s)
      let s2 := if qLive s1 m.ctx m.queue && ((getCtx s m.ctx).queue m.queue).kept.isEmpty then cplWrite m.ctx m.queue e' s1
         else modQueue m.ctx m.queue (fun y => { y with kept := y.kept ++ [e'] }) s1
      Goes (.completionWrite r) s
        (if decide (m.opcode = 0x0102) && !m.rejected then modCtx m.ctx (fun y => { y with state := 0, lostState := false }) s2 else s2))
  ∧ (∀ (r : CmdRef) (m : Cmd) (e : CplEntry) (s : State), findEnded s r = some (m, e) → entryDue s m = true → (getCtx s m.ctx).flr = true →
      m.opcode ≠ 0x0102 →
      Goes (.completionWrite r) s
        (reapOld (retireCmd m { e with late := m.started && !decide (m.deadline = 0) && decide (deadlineTick m < s.tick) } 3 s)))
  ∧ (∀ (r : CmdRef) (m : Cmd) (s : State), findCmd s r = some m → m.phase = .waiting → m.deadline ≠ 0 → deadlineTick m < s.tick →
      Goes (.commandDeadlineExpiry r) s (endFail m (0x0401, 0) s))
  ∧ (∀ (r : CmdRef) (m : Cmd) (s : State), Running 0x0604 r m s →
      ((outstanding s m.ctx).all fun k => decide (m.seqno ≤ k.seqno) || (!bit (m.p 0) 0 && !decide (k.queue = m.queue))) = true →
      (bit (m.p 0) 1 = true → fenceTokensDone s m = true) →
      Goes (.fence r) s (endOk m 0 0 s))

/-- A command's end (R285, R297, R340, R353): its entry carries the tag, the status and NO_EFFECT; only the commands, the journal and CMT_REPLAYED
change, and a successful command that changes mirrored state waits for the record that it forms. -/
def Obligations.CommandEnd : Prop :=
  (∀ (m : Cmd) (st : Status) (s : State), m ∈ s.cmds →
      ({ m with phase := .ended (entryOf m.tag m.irq (if m.replayed && decide (st = stOk) then (0x0500, 0) else st) true 0 0), waitJseq := none } : Cmd)
        ∈ (endFail m st s).cmds)
  ∧ (∀ (m : Cmd) (st : Status) (ne : Bool) (r0 r1 : Nat) (s : State),
      let t := endWith m st ne r0 r1 s
      t = { s with cmds := t.cmds, cmt := t.cmt, regs := t.regs } ∧ (m.replayed = false → t.regs = s.regs)
        ∧ (mirrored m.opcode.toNat = false ∨ ne = true → t.cmt = s.cmt)
        ∧ ∀ k ∈ t.cmds, k.seqno ≠ m.seqno → k ∈ s.cmds)

/-- Reserved parameter bits (R296) are checked: with one set, these commands end with ST_BAD_PARAM, DETAIL 7, and change nothing else. -/
def Obligations.ReservedParameterBits : Prop :=
  ∀ (c : CmdRef) (m : Cmd) (s : State), findCmd s c = some m → startable s m = true →
    let bad (op : Nat) : Prop := m.opcode.toNat = op ∧ maskOk ((opRow op).map (·.masks) |>.getD []) m.params = false
    (bad 0x0101 → Goes (.ctxOpen c) s (endFail m (stBadParam 7) s)) ∧ (bad 0x0104 → Goes (.ctxSetQuota c) s (endFail m (stBadParam 7) s))
    ∧ (bad 0x0201 → Goes (.objCreate c) s (endFail m (stBadParam 7) s)) ∧ (bad 0x0202 → Goes (.objFree c) s (endFail m (stBadParam 7) s))
    ∧ (bad 0x0207 → Goes (.objShare c) s (endFail m (stBadParam 7) s)) ∧ (bad 0x0303 → Goes (.panCreate c) s (endFail m (stBadParam 7) s))
    ∧ (bad 0x0304 → Goes (.panRelease c) s (endFail m (stBadParam 7) s)) ∧ (bad 0x0305 → Goes (.modelSwitch c) s (endFail m (stBadParam 7) s))
    ∧ (∀ l, bad 0x0401 → Goes (.seqAdmit c l) s (endFail m (stBadParam 7) s)) ∧ (bad 0x0403 → Goes (.seqPause c) s (endFail m (stBadParam 7) s))
    ∧ (bad 0x0404 → Goes (.seqResume c) s (endFail m (stBadParam 7) s)) ∧ (bad 0x0405 → Goes (.seqCancel c) s (endFail m (stBadParam 7) s))
    ∧ (bad 0x0406 → Goes (.seqRetire c) s (endFail m (stBadParam 7) s)) ∧ (bad 0x0502 → Goes (.adpBind c) s (endFail m (stBadParam 7) s))
    ∧ (bad 0x0702 → Goes (.fltConfig c) s (endFail m (stBadParam 7) s)) ∧ (bad 0x0704 → Goes (.pmcSample c) s (endFail m (stBadParam 7) s))
    ∧ (bad 0x0901 → Goes (.testForce c) s (endFail m (stBadParam 7) s))

/-! ### Contexts and objects (chapters 5 and 11) -/

/-- Context commands: CTX_OPEN opens on major 1 (drawing keys where there are none) and leaves MISMATCH on another; CTX_QUERY answers state, version and
outstanding commands; CTX_SET_QUOTA sets the quotas of the named context; CTX_KEY_IMPORT is refused after a tier-2 write and for a block of another form,
and otherwise takes the keys that the block carries. -/
def Obligations.ContextCommandCompletion : Prop :=
  (∀ (c : CmdRef) (m : Cmd) (s : State), Starts 0x0101 c m s →
      let s1 := markStarted m s
      let r0 := 0x10000 + 2 ^ 32 * m.ctx.toNat
      (getCtx s1 m.ctx).state ≠ 1 → (getCtx s1 m.ctx).dataKey.isSome = true →
      (m.f 0 16 16 = 1 → (placeTable m.ctx s1).1 = true → Goes (.ctxOpen c) s (endOk m r0 (chipId s1) (modCtx m.ctx (fun x => { x with
        state := 1, ekgen := x.ekgen + 1, everOpened := true
        lostState := x.lostState || (!x.everOpened && decide (getFld s1 CMT_STATUS 5 1 = 1)) }) (placeTable m.ctx s1).2)))
      ∧ (m.f 0 16 16 = 1 → (placeTable m.ctx s1).1 = false → Goes (.ctxOpen c) s (endFail m (stNoSpace 0) s1))
      ∧ (m.f 0 16 16 ≠ 1 → Goes (.ctxOpen c) s (endWith m (0x0102, 0) false r0 (chipId s1) (modCtx m.ctx (fun x => { x with state := 2 }) s1))))
  ∧ (∀ (c : CmdRef) (m : Cmd) (s : State), Starts 0x0101 c m s → (getCtx (markStarted m s) m.ctx).state ≠ 1 →
      (getCtx (markStarted m s) m.ctx).dataKey = none → getFld (markStarted m s) FW_STATUS 5 1 = 0 → m.f 0 16 16 = 1 →
      let n := ceilDiv ((getCtx s m.ctx).quota.objMax * 64) 65536
      (n = 0 ∨ (findPlace s 1 0xFF n).isSome = true) →
      Completes (.ctxOpen c) s fun t => (getCtx t m.ctx).state = 1 ∧ (getCtx t m.ctx).dataKey.isSome = true ∧ (getCtx t m.ctx).tweakKey.isSome = true
        ∧ t.free = s.free + 2)
  ∧ (∀ (c : CmdRef) (m : Cmd) (s : State), Starts 0x0101 c m s → (getCtx (markStarted m s) m.ctx).state = 1 →
      Goes (.ctxOpen c) s (endFail m (stNotPermitted 3) (markStarted m s)))
  ∧ (∀ (c : CmdRef) (m : Cmd) (s : State), Starts 0x0103 c m s →
      let s1 := markStarted m s
      Goes (.ctxQuery c) s (endOk m ((getCtx s1 m.ctx).state.toNat + 0x10000) (outstanding s1 m.ctx).length
        (if m.p 0 = 0 then s1 else dmaWrite m.ctx (m.p 0) (queryRecord s1 m.ctx) s1)))
  ∧ (∀ (c : CmdRef) (m : Cmd) (s : State), Starts 0x0104 c m s →
      let s1 := markStarted m s
      let target : CtxId := BitVec.ofNat 12 (m.f 0 0 12)
      m.f 3 16 16 ≠ 0 → m.f 3 32 8 ≠ 0 →
      let s2 := modCtx target (fun x => { x with
        quota := { t1Units := m.p 1, t2Pages := m.p 2, seqs := m.f 3 0 15, objMax := m.f 3 16 16, share := m.f 3 32 8, kvFp8 := bit (m.p 3) 40 } }) s1
      let same : Prop := (getCtx s1 target).state ≠ 1 ∧ (getCtx s1 target).state ≠ 3 ∨ m.f 3 16 16 = (getCtx s1 target).quota.objMax
      ((getCtx s1 target).objs.length ≤ m.f 3 16 16 → same → Goes (.ctxSetQuota c) s (endOk m 0 0 s2))
      ∧ ((getCtx s1 target).objs.length ≤ m.f 3 16 16 → ¬ same →
          Goes (.ctxSetQuota c) s (if (placeTable target (freeTable target s2)).1 then endOk m 0 0 (placeTable target (freeTable target s2)).2
            else endFail m (stNoSpace 0) s1))
      ∧ (m.f 3 16 16 < (getCtx s1 target).objs.length → Goes (.ctxSetQuota c) s (endFail m stQuota s1)))
  ∧ (∀ (c : CmdRef) (m : Cmd) (b : List Byte) (s : State), Starts 0x0105 c m s →
      let s1 := markStarted m s
      ((getCtx s1 m.ctx).wroteT2 = true → Goes (.ctxKeyImport c b) s (endFail m (stNotPermitted 0) s1))
      ∧ ((getCtx s1 m.ctx).wroteT2 = false → m.f 1 0 16 = 1656 → fieldAt b 0 4 = 0x4B494359 → fieldAt b 4 2 = 1 → fieldAt b 6 2 = m.ctx.toNat →
          Goes (.ctxKeyImport c b) s (match importKeys s1 m.ctx b with
            | none => endFail m (stBadParam 8) s1
            | some k => endOk m 0 0 (modCtx m.ctx (fun x => { x with dataKey := some k.1, tweakKey := some k.2, ekgen := x.ekgen + 1 }) s1))))

/-- CTX_CLOSE and the function-level reset (R299): the context is CLOSING, what has not started is cancelled with DETAIL 2, and once nothing of it is under
way its objects and keys are freed; the part of a running CTX_CLOSE that ends it; a context of a reset function with nothing under way is CLOSED. -/
def Obligations.ContextCloseCompletion : Prop :=
  (∀ (c : CmdRef) (m : Cmd) (s : State), Running 0x0102 c m s →
      Goes (.ctxClose c) s (if closeReady s m.ctx m.seqno then endOk m m.count0 0 (freeContext m.ctx s) else s))
  ∧ (∀ (c : CmdRef) (m : Cmd) (s : State), Starts 0x0102 c m s →
      let s1 := markStarted m s
      let n := ((outstanding s1 m.ctx).filter fun k => decide (k.phase = .waiting) && !decide (k.seqno = m.seqno)).length
      let s2 := modCmd m.seqno (fun k => { k with count0 := n }) (beginClose m.ctx m.seqno s1)
      Goes (.ctxClose c) s (if closeReady s2 m.ctx m.seqno then endOk { m with count0 := n } n 0 (freeContext m.ctx s2) else s2))
  ∧ (∀ (f : BitVec 8) (s : State),
      Goes (.functionLevelReset f) s ((List.range 16).foldl (fun s k => resetContext s (BitVec.ofNat 12 (16 * f.toNat + k))) s))
  ∧ (∀ (f : BitVec 8) (s : State), (∀ k, k < 16 → (getCtx s (BitVec.ofNat 12 (16 * f.toNat + k))).state = 0) → Goes (.functionLevelReset f) s s)

/-- Object creation and release: a created object has the handle of the lowest free INDEX and its next GEN, its storage taken and its charge added; a failed
check changes nothing; a freed object stands in freeing until no command names it. -/
def Obligations.ObjectLifeCompletion : Prop :=
  (∀ (c : CmdRef) (m : Cmd) (s : State), Starts 0x0201 c m s →
      let s1 := markStarted m s
      (∀ st, createCheck s1 m = some st → Goes (.objCreate c) s (endFail m st s1))
      ∧ (∀ die loc n i, createCheck s1 m = none → placeFor s1 (m.f 0 0 8) (m.f 0 8 8) (m.f 0 16 8) (m.p 1) = some (die, loc, n) → freeIndex s1 m.ctx = some i →
          let s2 := putObj m.ctx i { Obj.fresh with
            type := BitVec.ofNat 8 (m.f 0 0 8), state := 1, tier := m.f 0 8 8, portDie := die, flitsPerBlock := m.f 0 32 11, size := m.p 1, location := loc }
            (charge m.ctx (t1Charge (m.f 0 8 8) (m.p 1)) (t2Charge (m.f 0 8 8) (m.p 1)) (takeBlocks (loc / 65536) n s1))
          Goes (.objCreate c) s (endOk m (i + 65536 * (getObj s2 m.ctx i).gen.toNat) 0 s2))
      ∧ (createCheck s1 m = none → placeFor s1 (m.f 0 0 8) (m.f 0 8 8) (m.f 0 16 8) (m.p 1) = none → Goes (.objCreate c) s (endFail m (stNoSpace 0) s1)))
  ∧ (∀ (c : CmdRef) (m : Cmd) (o : Obj) (s : State), Starts 0x0202 c m s →
      let s1 := markStarted m s
      objFor s1 m (m.f 0 0 32) = some o → freeRefusal s1 m.ctx (m.f 0 0 32) = none →
      Goes (.objFree c) s (modObj m.ctx (hIndex (m.f 0 0 32)) (fun o => { o with state := 3 }) s1))
  ∧ (∀ (c : CmdRef) (m : Cmd) (s : State), Starts 0x0202 c m s → objFor (markStarted m s) m (m.f 0 0 32) = none →
      Goes (.objFree c) s (endFail m (stBadParam 0) (markStarted m s)))
  ∧ (∀ (ctx : CtxId) (i : BitVec 16) (m : Cmd) (s : State),
      (s.cmds.find? fun m => decide (m.ctx = ctx) && decide (m.opcode = 0x0202) && decide (m.phase = .running)
        && decide (hIndex (m.f 0 0 32) = i.toNat)) = some m →
      (getObj s ctx i.toNat).state = 3 → objNamed s ctx i.toNat m.seqno = false → (getObj s ctx i.toNat).aliased = false →
      Goes (.objFreeRelease ctx i) s (endOk m 0 0
        (if 0 < (getObj s ctx i.toNat).shareCount then modObj ctx i.toNat (fun x => { x with orphan := true }) s else dropObj ctx i.toNat s)))
  ∧ (∀ (c : CmdRef) (m : Cmd) (o : Obj) (i : Nat) (s : State), Starts 0x0207 c m s →
      let s1 := markStarted m s
      let target : CtxId := BitVec.ofNat 12 (m.f 0 32 12)
      let h := m.f 0 0 32
      bit (m.p 1) 16 = false → fnOf target = fnOf m.ctx → objFor s1 m h = some o → o.state ≠ 3 → o.aliased = false → (getCtx s1 target).state = 1 →
      freeIndex s1 target = some i →
      let s2 := putObj target i { Obj.fresh with
        type := o.type, state := 1, tier := o.tier, portDie := o.portDie, aliased := true, readOnly := true, flitsPerBlock := o.flitsPerBlock, size := o.size
        location := o.location, ownerHandle := BitVec.ofNat 32 h, ownerCtx := m.ctx }
        (modObj m.ctx (hIndex h) (fun x => { x with shareCount := x.shareCount + 1 }) s1)
      Goes (.objShare c) s (endOk m (i + 65536 * (getObj s2 target i).gen.toNat) 0 s2))

/-- Access to objects: a host read delivers the range's bytes, a host write enters them; a copy starts one chain of movers; a placement takes its destination
and moves, and the end of the move changes LOCATION in one write and ends the command. -/
def Obligations.ObjectAccessCompletion : Prop :=
  (∀ (c : CmdRef) (m : Cmd) (o : Obj) (s : State), Starts 0x0206 c m s →
      let s1 := markStarted m s
      accessHeld s m (m.f 0 0 32) (m.p 1) (m.p 3) false = false → objFor s1 m (m.f 0 0 32) = some o →
      let b := storageOf s1 o
      (b.size < m.p 1 + m.p 3 → Goes (.objReadHost c) s (endFail m (stBadParam 7) s1))
      ∧ (m.p 1 + m.p 3 ≤ b.size → b.lost = true → Goes (.objReadHost c) s (endFail m (stFaultContained 0x50) s1))
      ∧ (m.p 1 + m.p 3 ≤ b.size → b.lost = false →
          Goes (.objReadHost c) s (endOk m 0 0 (dmaWrite m.ctx (m.p 2) (objBytes s1 b (m.p 1) (m.p 3)) s1))))
  ∧ (∀ (c : CmdRef) (m : Cmd) (d : List Byte) (o : Obj) (s : State), Starts 0x0205 c m s →
      let s1 := markStarted m s
      accessHeld s m (m.f 0 0 32) (m.p 1) (m.p 3) true = false → objFor s1 m (m.f 0 0 32) = some o →
      m.p 1 + m.p 3 ≤ o.size → o.isReadOnly = false →
      let r := writeObj m.ctx (hIndex (m.f 0 0 32)) (m.p 1) (bytesAt d 0 (m.p 3)) s1
      Goes (.objWriteHost c d) s (if r.1 then endOk m 0 0 r.2 else endWith m (stNoSpace 0) false 0 0 r.2))
  ∧ (∀ (c : CmdRef) (m : Cmd) (a b : Obj) (s : State), Starts 0x0204 c m s →
      let s1 := markStarted m s
      accessHeld s m (m.f 0 32 32) (m.p 2) (m.p 3) true = false → accessHeld s m (m.f 0 0 32) (m.p 1) (m.p 3) false = false →
      objFor s1 m (m.f 0 0 32) = some a → objFor s1 m (m.f 0 32 32) = some b → m.p 1 % 64 = 0 → m.p 2 % 64 = 0 → m.p 3 % 64 = 0 → m.p 3 ≠ 0 →
      outside (storageOf s1 a) (m.p 1) (m.p 3) = false → outside b (m.p 2) (m.p 3) = false → b.isReadOnly = false → (storageOf s1 a).lost = false →
      Completes (.objCopy c) s fun t => t = { s1 with mem := t.mem } ∧ t.mem.nextStream = s.mem.nextStream + 1
        ∧ (∃ x : Stream, getStream t s.mem.nextStream = some x ∧ x.use = .copy ∧ x.cmd = some m.ref ∧ x.offset = m.p 1 ∧ x.length = m.p 3
            ∧ x.dstOffset = m.p 2 ∧ x.phase = .running)
        ∧ t.mem.bytes = s.mem.bytes)
  ∧ (∀ (c : CmdRef) (m : Cmd) (o : Obj) (s : State), Starts 0x0203 c m s →
      let s1 := markStarted m s
      objFor s m (m.f 0 0 32) = some o → o.state ≠ 2 → (o.tier ≠ 2 ∨ rangeAway o 0 o.size = false) → objFor s1 m (m.f 0 0 32) = some o →
      m.f 0 32 8 ≤ 2 → (m.f 0 40 8 ≤ 11 ∨ m.f 0 40 8 = 0xFF) → o.aliased = false → placeRefused s1 m.ctx (m.f 0 0 32) (m.f 0 32 8) = false →
      o.type ≠ 9 → tierRule o.type.toNat (m.f 0 32 8) = true →
      (samePlace o (m.f 0 32 8) (m.f 0 40 8) = true → Goes (.objPlace c) s (endOk m 0 0 s1))
      ∧ (∀ pd loc n, samePlace o (m.f 0 32 8) (m.f 0 40 8) = false → m.f 0 32 8 ≠ 2 →
          overQuota s1 m.ctx (t1Charge (m.f 0 32 8) o.size) (t2Charge (m.f 0 32 8) o.size) (t1Use s1 m.ctx) = false →
          placeFor s1 o.type.toNat (m.f 0 32 8) (m.f 0 40 8) o.size = some (pd, loc, n) →
          Goes (.objPlace c) s (modObj m.ctx (hIndex (m.f 0 0 32)) (fun o => { o with
            state := 2
            pages := o.pages.map fun p => if p.2.state = 1 then (p.1, { p.2 with state := 3 }) else p
            move := some { tier := m.f 0 32 8, portDie := pd, location := loc, pages := [], cmd := m.ref } })
            (charge m.ctx (t1Charge (m.f 0 32 8) o.size) 0 (takeBlocks (loc / 65536) n s1)))))
  ∧ (∀ (ctx : CtxId) (i : BitVec 16) (v : Move) (s : State), (getObj s ctx i.toNat).move = some v →
      Completes (.objMoveDone ctx i) s fun t =>
        let o := getObj s ctx i.toNat
        let back : Tab PageEntry := o.pages.map fun p => if p.2.state = 3 then (p.1, { p.2 with state := 1 }) else p
        let new := { o with state := if o.state = 2 then 1 else o.state, tier := v.tier, portDie := v.portDie, location := v.location, pages := v.pages
                            move := none
                            oldCopy := some { tier := o.tier, location := o.location, pages := back, readers := readersOf s ctx i.toNat
                                              streams := streamsOf s ctx i.toNat, steps := slotSteps s ctx i.toNat } }
        let s1 := refreshSlots ctx i.toNat o.location (modObj ctx i.toNat (fun _ => new)
          (s.onMem fun m => { m with bytes := pokeObj new 0 (objBytes s { o with pages := back } 0 o.size) m.bytes }))
        let s2 := if o.type = 6 then moveKv ctx o.location v.location o.size s1 else s1
        t = reapOld (match findCmd s2 v.cmd with | some m => endOk m 0 0 s2 | none => s2))

/-! ### Pans, configurations and waves (chapter 4) -/

/-- Pan commands: PAN_CREATE takes the lowest free number and makes the pan, refusing by R104; PAN_RELEASE marks the pan, which the next step-boundary drain
releases; CFG_LOAD starts a load that CFG_SHADOW_WRITTEN checks in the order of Table 4.4; RUN opens the streams of its list under a fresh step epoch. -/
def Obligations.PanCommandCompletion : Prop :=
  (∀ (c : CmdRef) (m : Cmd) (s : State), Starts 0x0303 c m s →
      let s1 := markStarted m s
      (∀ st, createRefusal s1 (m.f 0 0 3) (m.f 0 8 4) (m.f 0 16 4) (m.f 0 20 4) = some st → Goes (.panCreate c) s (endFail m st s1))
      ∧ (∀ n, createRefusal s1 (m.f 0 0 3) (m.f 0 8 4) (m.f 0 16 4) (m.f 0 20 4) = none → firstFree (tkeys s1.pans) 16 0 = some n →
          (getFld s1 FW_STATUS 5 1 = 1 → Goes (.panCreate c) s (endFail m (stNotPermitted 0x65) s1))
          ∧ (getFld s1 FW_STATUS 5 1 ≠ 1 → Goes (.panCreate c) s (endOk m n 0
              (createPan n (Pan.fresh m.ctx (m.f 0 0 3) (m.f 0 8 4) (m.f 0 16 4) (m.f 0 20 4) (bit (m.p 0) 24))
                (modHist n (fun _ => PanHist.fresh) s1))))))
  ∧ (∀ (c : CmdRef) (m : Cmd) (s : State), Starts 0x0304 c m s →
      let s1 := markStarted m s
      (∀ st, panRefusal s1 m.ctx (m.f 0 0 4) = some st → Goes (.panRelease c) s (endFail m st s1))
      ∧ (panRefusal s1 m.ctx (m.f 0 0 4) = none →
          Goes (.panRelease c) s (modPan (m.f 0 0 4) (fun p => { p with release := some m.ref, releasing := true }) s1)))
  ∧ (∀ (n : Fin 16) (p : Pan) (s : State), getPan s n = some p → p.releasing = true → p.wave = none → p.run = none → drained s n p = true →
      Goes (.stepBoundaryDrain n) s (releasePan n p s))
  ∧ (∀ (c : CmdRef) (m : Cmd) (p : Pan) (mib : Nat) (b : List Byte) (size : Nat) (s : State), Starts 0x0302 c m s →
      let s1 := markStarted m s
      getPan s (m.f 0 0 4) = some p → p.wave = none → panRefusal s1 m.ctx (m.f 0 0 4) = none → spillField (m.f 0 8 9) = some mib →
      loadImage s1 m = .inr (b, size) →
      Goes (.cfgLoad c) s (match startLoad (m.f 0 0 4) (some m.ref) none b size mib (bit (m.p 0) 4) false s1 with
        | .inl st => endFail m st s1
        | .inr t => t))
  ∧ (∀ (n : Fin 16) (p : Pan) (l : Load) (m : Cmd) (s : State), getPan s n = some p → p.load = some l → l.written = false → l.switchEntry = none →
      (∀ d, imgCheck s p.ctx p l.image l.size = some d →
        let s1 := freeSpill p.ctx l.spill l.spillMib (showActiveSpill n (modPan n (fun p => { p with load := none, shadow := none }) s))
        l.cmd.bind (findCmd s1) = some m → Goes (.cfgShadowWritten n) s (endFail m (stConfigRejected d) s1))
      ∧ (imgCheck s p.ctx p l.image l.size = none →
        let s1 := modPan n (fun q => { q with
          shadow := some (cfgOf (parseImg l.image) s l)
          saveServe := !p.jobActive && p.saveServe
          saveJob := p.jobActive && p.saveJob
          load := if l.thenSwitch then some { l with written := true } else none }) (writeShadow p (parseImg l.image) l.image s)
        (l.thenSwitch = true → Goes (.cfgShadowWritten n) s s1)
        ∧ (l.thenSwitch = false → l.cmd.bind (findCmd s1) = some m → Goes (.cfgShadowWritten n) s (endOk m p.epoch 0 s1))))
  ∧ (∀ (c : CmdRef) (m : Cmd) (s : State), Starts 0x0601 c m s → runHeld s m = false →
      let s1 := markStarted m s
      let n := m.f 0 0 4
      let e := s1.seq.epoch + 1
      (∀ st, runRefusal s1 m = some st → Goes (.run c) s (endFail m st s1))
      ∧ (runRefusal s1 m = none → Goes (.run c) s (modPan n (fun p => { p with run := some m.ref })
          ((List.range (m.f 1 32 13)).foldl (fun s i =>
            addStream (descStream s m.ctx n (some m.ref) (m.f 1 0 32) e i (listDesc s m.ctx (m.f 1 0 32) i)) s)
            (sendStep n e (runVersions n (s1.onSeq fun q => { q with epoch := e })))))))

/-- Waves: a class-0 wave starts at the drain for which the switch is due; a die reports when it has no tile pending and no flit queued; the route commit ends the
wave once every die has reported; a mode wave is held for the next STEP of a MODE_SAFE plane and otherwise starts at a drain; a swap of planes is a class-2 wave
and is counted; the balance is skipped within 50 ms of the last evaluation, away from a step
boundary and while the model switches, and otherwise updates its window and streak. -/
def Obligations.WaveCompletion : Prop :=
  (∀ (n : Fin 16) (p : Pan) (l : Load) (s : State), getPan s n = some p → p.load = some l → switchDue s n p l = true →
      Goes (.configSwitchWave n) s (startWave n 0 l.cmd s))
  ∧ (∀ (d : Fin 74) (n : Nat) (p : Pan) (w : Wave) (s : State), dieOfPan s d = some n → getPan s n = some p → p.wave = some w →
      (getDie s d).pendingTiles = 0 → (getDie s d).quietNow = true → networkQuiet s d = true → (getDie s d).dieDone = false → p.wantMode = none →
      let s1 := modDie d (fun x => { x with dieDone := true }) s
      Goes (.waveDieDone d) s (if w.cls = 1 ∧ (panDies s p).all fun q => (getDie s1 q).dieDone then finishWave n p w s1 else s1))
  ∧ (∀ (n : Fin 16) (p : Pan) (w : Wave) (s : State), getPan s n = some p → p.wave = some w → w.cls ≠ 1 →
      ((panDies s p).all fun d => (getDie s d).dieDone) = true → Goes (.routeCommit n) s (finishWave n p w s))
  ∧ (∀ (n : Fin 16) (p : Pan) (g : PanCfg) (s : State), getPan s n = some p → p.wave = none → p.active = some g → g.modeSafe = true →
      Goes (.modeWave n) s (modPan n (fun q => { q with wantMode := some (getFld s (CFG_MODE ((panDies s p).headD 0)) 0 2) }) s))
  ∧ (∀ (n : Fin 16) (p : Pan) (s : State), getPan s n = some p → p.wave = none → (∀ g, p.active = some g → g.modeSafe = false) → drained s n p = true →
      p.run = none → Goes (.modeWave n) s (startWave n 1 none s))
  ∧ (∀ (n : Fin 16) (p : Pan) (g : PanCfg) (s : State), getPan s n = some p → p.serving = some g → p.jobActive = true → p.wave = none → p.run = none →
      p.load = none → drained s n p = true →
      (readyRows s n p g false ≠ [] ∨ readyRows s n p g true ≠ []) →
      Goes (.preemptSwap n) s (bump SEQ_PREEMPT (startWave n 2 none s)))
  ∧ (∀ (n : Fin 16) (p : Pan) (s : State), getPan s n = some p → p.jobActive = false → p.shadow.isSome = true → jobWaits s n = true → p.wave = none →
      p.run = none → p.load = none → drained s n p = true → Goes (.preemptReturn n) s (bump SEQ_PREEMPT (startWave n 2 none s)))
  ∧ (∀ (c : CtxId) (b : BalanceSet) (s : State), (s.balances.find? fun b => decide (b.ctx = c)) = some b →
      let model := (b.pans.findSome? fun n => (getPan s n).bind fun p => p.active.map (·.model)).getD 0
      let now := cd0Count s
      let cost (kind : Nat) : List Nat := ((kindPans s b.pans kind).head?.map fun p =>
        [p.2.2.cost.baseNs, p.2.2.cost.tokNs, p.2.2.cost.ctxNs, p.2.2.cost.maxRows, p.2.2.cost.maxTokens]).getD []
      let r := balanceStep b (prefillPans s b.pans) (Config.pansNeeded (cost 0) (demand b now).2) (Config.pansNeeded (cost 1) (demand b now).1) now
      let s1 := s.onBalances fun l => l.map fun x =>
        if x.ctx = c then { r.1 with window := r.1.window.filter fun q => decide (now ≤ q.1 + msTicks 50) } else x
      (now < b.lastEval + msTicks 50 ∨ balanceBoundary s b = false → Goes (.balanceEval c) s s)
      ∧ (b.lastEval + msTicks 50 ≤ now → balanceBoundary s b = true → (getModel s model).state = 2 → Goes (.balanceEval c) s s)
      ∧ (b.lastEval + msTicks 50 ≤ now → balanceBoundary s b = true → (getModel s model).state ≠ 2 → r.2 = none → Goes (.balanceEval c) s s1)
      ∧ (∀ up, b.lastEval + msTicks 50 ≤ now → balanceBoundary s b = true → (getModel s model).state ≠ 2 → r.2 = some up → balancePan s1 b up = none →
          Goes (.balanceEval c) s s1))

/-! ### Models, adapters, steering and policies (chapters 7 to 9) -/

/-- Model commands: MODEL_IMPORT enters a checked manifest as a version record or asks its source for the shards; MODEL_SWITCH makes the entry SWITCHING and loads
the images that change; MODEL_VERSION_FLIP makes the named record CURRENT once every pan is ready; MODEL_EVICT empties a record and retires the entry with its last. -/
def Obligations.ModelCompletion : Prop :=
  (∀ (c : CmdRef) (m : Cmd) (e k : Nat) (s : State), Starts 0x0301 c m s →
      let s1 := markStarted m s
      let images := handlePairs m 2
      let b := handleBytes s1 m.ctx (m.f 1 0 32)
      let v := manifestRec b images (handlePairs m 4) (images.map fun h => if h = 0 then [] else bytesAt (handleBytes s1 m.ctx h) 0x30 8)
      let x := getModel s1 e
      handleBad s1 m 0 (m.f 1 0 32) = none → images.findSome? (handleBad s1 m 2) = none → (handlePairs m 4).findSome? (handleBad s1 m 8) = none →
      importPlace s1 m.ctx (m.f 0 0 10) = .inr (e, k) → m.f 1 0 32 ≠ 0 →
      manifestBad v (if x.state = 0 then VerRec.empty else x.ver (1 - k)) = false → (x.state = 0 → t1Use s1 m.ctx + 1 ≤ (getCtx s1 m.ctx).quota.t1Units) →
      (bit (m.p 6) 15 = false → (images.all fun h => decide (h = 0) || digestOk (handleBytes s1 m.ctx h) 0x30) = true →
        Goes (.modelImport c) s (match enterImport m e k v s1 with
          | some s2 => endOk m (e + 65536 * k + 2 ^ 24 * v.version) 0 s2
          | none => endFail m (stNoSpace 0) s1))
      ∧ (bit (m.p 6) 15 = true → Completes (.modelImport c) s fun t =>
          t.mdl.imports = s.mdl.imports ++ [{
            cmd := m.ref, entry := e, record := k, source := m.f 6 0 10, digest := Config.shake256 b, ver := v
            shards := importShards s1 m.ctx v.shardSums (images ++ handlePairs m 4), lastAt := s.tick, pass := [] }]
          ∧ t.cmds = s1.cmds))
  ∧ (∀ (c : CmdRef) (m : Cmd) (s : State), Starts 0x0305 c m s →
      let s1 := markStarted m s
      let e := m.f 0 0 10
      let x := getModel s1 e
      (∀ st, switchRefusal s1 m.ctx e (m.f 0 16 1) = some st → Goes (.modelSwitch c) s (endFail m st s1))
      ∧ (switchRefusal s1 m.ctx e (m.f 0 16 1) = none →
          let ps := (modelPans s1 m.ctx e).filter fun p => imageChanges x.cur (x.ver (m.f 0 16 1)) p.2.2.kind
          let s2 := modModel e (fun x => { x with state := 2, switch := some { cmd := m.ref, target := m.f 0 16 1, pans := ps.map (·.1), flipped := false } }) s1
          Goes (.modelSwitch c) s (match switchLoads m.ctx e (x.ver (m.f 0 16 1)) ps s2 with
            | .inl st => endFail m st s1
            | .inr s3 => s3)))
  ∧ (∀ (e : BitVec 10) (w : SwitchWork) (s : State), (getModel s e.toNat).switch = some w → w.flipped = false → switchReady s w = true →
      let x := getModel s e.toNat
      let mine := (liveEntries s).filter fun q => decide (q.2.ctx = x.ctx) && decide (q.2.model = e.toNat)
      imageChanges x.cur (x.ver w.target) 2 = false →
      Goes (.modelVersionFlip e) s (settleSwitch e.toNat
        (mine.foldl (fun s q => modEntry q.1 (fun y => { y with modelVer := BitVec.ofNat 8 (x.ver w.target).version }) s)
          (modModel e.toNat (fun x =>
            let y := (x.onVer w.target fun v => { v with vstate := 2 }).onVer (1 - w.target) fun v => { v with vstate := 3 }
            { y with current := w.target, switch := some { w with flipped := true } }) s))))
  ∧ (∀ (c : CmdRef) (m : Cmd) (s : State), Starts 0x0306 c m s →
      let s1 := markStarted m s
      let e := m.f 0 0 10
      let k := m.f 0 16 1
      let x := getModel s1 e
      (x.ver k).vstate ≠ 0 → x.ctx = m.ctx → (x.state = 1 ∨ x.state = 3) →
      ((x.ver k).vstate ≠ 2 → verInFlight s e (x.ver k).version = false →
          Goes (.modelEvict c) s (endOk m 0 0 (modModel e (fun x => x.onVer k fun _ => VerRec.empty) s1)))
      ∧ ((x.ver k).vstate = 2 → (x.ver (1 - k)).vstate = 0 → verOnPan s1 e (x.ver k) = false →
          Goes (.modelEvict c) s (endOk m 0 0 (modModel e (fun x => { x.onVer k (fun _ => VerRec.empty) with state := 3 }) s1)))
      ∧ ((x.ver k).vstate = 2 → (x.ver (1 - k)).vstate ≠ 0 → Goes (.modelEvict c) s (endFail m (stNotPermitted 0) s1)))

/-- Adapters and steering: ADP_LOAD fills a slot under the next GEN and counts ADP_LOADS; ADP_UNLOAD makes an unbound READY slot UNLOADING; ADP_BIND names a
sequence's slot and scale; STEER_SET builds the copy that is not live and makes it live. -/
def Obligations.AdapterCompletion : Prop :=
  (∀ (c : CmdRef) (m : Cmd) (n : Nat) (s : State), Starts 0x0501 c m s → bit (m.p 1) 0 = false →
      ¬ (m.f 0 48 16 < 8192 ∧ (getSlot s (m.f 0 48 16)).state = 3 ∧ (getSlot s (m.f 0 48 16)).ctx = m.ctx) →
      let s1 := markStarted m s
      let h := m.f 0 0 32
      let b := objBytes s1 (storageOf s1 (getObj s1 m.ctx (hIndex h))) 0 64
      (∀ st, adpRefusal s1 m = some st → Goes (.adpLoad c) s (endFail m st s1))
      ∧ (adpRefusal s1 m = none → (m.f 0 48 16 = n ∧ n ≠ 0xFFFF ∨ m.f 0 48 16 = 0xFFFF ∧ freeSlot s1 = some n) →
          Goes (.adpLoad c) s (endOk m (n + 65536 * (((getSlot s n).gen + 1) % 256)) 0 (bump ADP_LOADS (modSlot n (fun _ =>
            { handle := h, ctx := m.ctx, model := m.f 0 32 10, state := 2, format := fieldAt b 4 1, rank := fieldAt b 5 1
              gen := ((getSlot s n).gen + 1) % 256, dataAddr := adapterAddr s1 m.ctx h (fieldAt b 0x18 8), bytesPerPoint := fieldAt b 8 4
              lastEpoch := (getSlot s n).lastEpoch }) s1)))))
  ∧ (∀ (c : CmdRef) (m : Cmd) (s : State), Starts 0x0501 c m s → bit (m.p 1) 0 = true → m.f 0 48 16 ≤ 8191 →
      let s1 := markStarted m s
      let n := m.f 0 48 16
      (getSlot s1 n).state = 2 → (getSlot s1 n).ctx = m.ctx →
      (slotBinds s1 n = 0 → Goes (.adpUnload c) s (settleSlots (modSlot n (fun x => { x with state := 3 }) s1)))
      ∧ (0 < slotBinds s1 n → Goes (.adpUnload c) s (endFail m (stNotPermitted 0x26) s1)))
  ∧ (∀ (c : CmdRef) (m : Cmd) (i : Nat) (e : SeqEntry) (s : State), Starts 0x0502 c m s → findEntry s m.ctx (BitVec.ofNat 64 (m.p 0)) = some (i, e) →
      let s1 := markStarted m s
      (adapterOk s1 m.ctx e.model (m.f 1 0 16) = true → Goes (.adpBind c) s (endOk m 0 0 (modEntry i (fun y => { y with
          adapterSlot := BitVec.ofNat 16 (m.f 1 0 16), adapterScale := BitVec.ofNat 16 (m.f 1 16 16) }) s1)))
      ∧ (adapterOk s1 m.ctx e.model (m.f 1 0 16) = false → Goes (.adpBind c) s (endFail m (stBadParam 0x27) s1)))
  ∧ (∀ (c : CmdRef) (m : Cmd) (data : List Byte) (s : State), Starts 0x0503 c m s → steerInUse s (m.f 0 0 10) = false →
      let s1 := markStarted m s
      let e := m.f 0 0 10
      let set := m.f 0 16 4
      let x := getModel s1 e
      let d := bytesAt data 0 (m.f 2 0 14)
      let sets := steerBuild s1 x set (if bit (m.p 0) 24 then none else some (d.drop 64, hostSet d))
      x.ctx = m.ctx → (x.state = 1 ∨ x.state = 2) →
      (bit (m.p 0) 24 = true → ((liveEntries s1).all fun q => decide (q.2.ctx ≠ m.ctx) || decide (q.2.model ≠ e) || decide (q.2.steerSlot.toNat ≠ set)) = true) →
      (bit (m.p 0) 24 = false → setBad (hostSet d) (d.drop 64) x.cur = false ∧ mirrorRoom s1 0 = true) →
      (sets.map fun q => ceilDiv q.2.2.length 64 * 64).foldl (· + ·) 0 ≤ 16128 →
      Goes (.steerSet c data) s (endOk m 0 0 (bump ADP_STEER_FLIPS (modModel e (fun y => { y with steerLive := 1 - x.steerLive })
        (s1.onMem fun w => { w with bytes := memWrite w.bytes (steerCopy x (1 - x.steerLive)) (steerBytes sets 256 (List.replicate 16384 0)) })))))

/-- Policies: STEP_POLICY sets the context's goals and limits, and with BAL its balance set and CFG_BAL; EXIT_POLICY sets the model entry's sixteen thresholds
and a sequence's EXIT_POLICY byte; a field outside its range answers ST_BAD_PARAM, DETAIL 7. -/
def Obligations.PolicyCompletion : Prop :=
  (∀ (c : CmdRef) (m : Cmd) (s : State), Starts 0x0407 c m s →
      let s1 := markStarted m s
      let ps := (List.range 16).filter fun n => bit (m.p 2) n
      let ok : Prop := 1 ≤ m.f 0 0 20 ∧ m.f 0 0 20 ≤ 1000000 ∧ 1 ≤ m.f 0 32 20 ∧ m.f 0 32 20 ≤ 1000000 ∧ m.f 1 0 20 ≤ 600000 ∧ 1 ≤ m.f 1 32 16
      let s2 := modCtx m.ctx (fun x => { x with
        lcGoalUs := m.f 0 0 20, beGoalUs := m.f 0 32 20, holdMaxMs := m.f 1 0 20, kvWaitSteps := m.f 1 32 16 }) s1
      (ok → bit (m.p 2) 32 = false → Goes (.stepPolicy c) s (endOk m 0 0 s2))
      ∧ (ok → bit (m.p 2) 32 = true → balanceOk s1 m.ctx ps = true → m.f 2 16 5 ≤ m.f 2 24 5 →
          Goes (.stepPolicy c) s (endOk m 0 0
            (setReg CFG_BAL (BitVec.ofNat 32 (m.f 2 16 5 + 256 * m.f 2 24 5 + 65536 * prefillPans s1 ps + 2 ^ 24 * ps.length))
              (s2.onBalances fun l => (l.filter fun b => !decide (b.ctx = m.ctx)) ++
                if ps.isEmpty then [] else [{
                  ctx := m.ctx, pans := ps, minP := m.f 2 16 5, maxP := m.f 2 24 5, lastEval := cd0Count s, streak := 0, dirUp := false, window := [] }]))))
      ∧ (¬ ok → Goes (.stepPolicy c) s (endFail m (stBadParam 7) s1)))
  ∧ (∀ (c : CmdRef) (m : Cmd) (s : State), Starts 0x0409 c m s →
      let s1 := markStarted m s
      let e := m.f 0 0 10
      let x := getModel s1 e
      let h : Dword := BitVec.ofNat 64 (m.p 1)
      let set := fun (x : ModelEntry) => { x with exits := (List.range 16).map fun k => BitVec.ofNat 32 (m.f (3 + k / 2) (32 * (k % 2)) 32) }
      (bit (m.p 0) 16 = true → bit (m.p 0) 17 = false → x.ctx = m.ctx → (x.state = 1 ∨ x.state = 2) →
          Goes (.exitPolicy c) s (endOk m 0 0 (modModel e set s1)))
      ∧ (∀ i y, bit (m.p 0) 16 = false → bit (m.p 0) 17 = true → m.f 2 0 8 < 32 → findEntry s m.ctx h = some (i, y) →
          Goes (.exitPolicy c) s (endOk m 0 0 (modEntry i (fun y => { y with exitPolicy := BitVec.ofNat 8 (m.f 2 0 8) }) s1)))
      ∧ (bit (m.p 0) 16 = false → bit (m.p 0) 17 = false → Goes (.exitPolicy c) s (endOk m 0 0 s1)))

/-! ### Sequences (chapter 7) -/

/-- Commands on live sequences: SEQ_ADMIT enters a sequence that passes R194's checks at the lowest FREE index, holds it with WAIT, or denies it; SEQ_APPEND
starts a turn of an IDLE sequence, and with INTERRUPT ends a running turn first; SEQ_PAUSE marks the sequence PAUSE_PENDING; SPEC_POLICY sets speculation. -/
def Obligations.SequenceCompletion : Prop :=
  (∀ (c : CmdRef) (m : Cmd) (input : List Word) (i : Nat) (s : State), Starts 0x0401 c m s →
      let s1 := markStarted m s
      let e := admitEntry m input s1
      admitFieldsBad m = false → findEntry s m.ctx e.handle = none → findArchive s m.ctx e.handle = none → admitRefusal s1 e = none →
      adapterOk s1 m.ctx e.model e.adapterSlot.toNat = true → steerOk s1 m.ctx e.model e.steerSlot.toNat = true → freeEntry s1 = some i →
      (admitFails s1 i e (inputPagesFor e) = none → heldAhead s1 e = false → Goes (.seqAdmit c input) s (endOk m i 0 (grantAdmission i e s1)))
      ∧ (∀ d, admitFails s1 i e (inputPagesFor e) = d → (d.isSome = true ∨ heldAhead s1 e = true) →
          (bit (m.p 1) 18 = true → Goes (.seqAdmit c input) s (holdEntry i e s1))
          ∧ (bit (m.p 1) 18 = false → Goes (.seqAdmit c input) s (bump SEQ_ADMIT_DENIED (endFail m (stDenied (d.getD 1)) s1)))))
  ∧ (∀ (c : CmdRef) (m : Cmd) (input : List Word) (i : Nat) (e : SeqEntry) (s : State), Starts 0x0402 c m s →
      let s1 := markStarted m s
      1 ≤ m.f 2 0 32 → m.f 2 0 32 ≤ 65536 → findEntry s m.ctx (BitVec.ofNat 64 (m.p 0)) = some (i, e) → modelUsable s1 m.ctx e.model = true →
      e.position < 2097152 →
      (e.state = .idle → getEntry s i = some e → Goes (.seqAppend c input) s (match addInput i e (input.take (m.f 2 0 32)) s1 with
          | some s2 => endOk m 0 0 s2
          | none => endFail m (stNoSpace 0) s1))
      ∧ (e.state = .decode → bit (m.p 2) 32 = false → Goes (.seqAppend c input) s s1)
      ∧ ((e.state = .prefill ∨ e.state = .ending) → Goes (.seqAppend c input) s (endFail m (stBadParam 0x10) s1))
      ∧ (∀ e2, e.state = .decode → bit (m.p 2) 32 = true →
          let s2 := modEntry i (fun x => { x with interrupt := carried s1 i }) (endTurn i 4 s1)
          getEntry s2 i = some e2 → Goes (.seqAppend c input) s (match addInput i e2 (input.take (m.f 2 0 32)) s2 with
            | some s3 => endOk m 0 0 s3
            | none => endWith m (stNoSpace 0) false 0 0 s2)))
  ∧ (∀ (c : CmdRef) (m : Cmd) (i : Nat) (e : SeqEntry) (s : State), Starts 0x0403 c m s → m.f 1 0 23 ≤ 5443200 →
      findEntry s m.ctx (BitVec.ofNat 64 (m.p 0)) = some (i, e) → (e.state = .prefill ∨ e.state = .decode ∨ e.state = .idle) → e.pausePending = false →
      Goes (.seqPause c) s (modEntry i (fun x => { x with
        pausePending := true, cmd := some m.ref, pauseTtl := if m.f 1 0 23 = 0 then 604800 else m.f 1 0 23, transcode := bit (m.p 1) 32 }) (dropDrafts i (markStarted m s))))
  ∧ (∀ (c : CmdRef) (m : Cmd) (i : Nat) (e : SeqEntry) (s : State), Starts 0x0408 c m s → m.f 1 16 4 ≤ 8 → bit (m.p 1) 0 = false →
      findEntry s m.ctx (BitVec.ofNat 64 (m.p 0)) = some (i, e) →
      let on := bit (m.p 1) 8 && decide (0 < m.f 1 16 4)
      let s1 := modEntry i (fun e => { e with specOn := on, specDepth := m.f 1 16 4, specZero := 0, specGen := e.specGen + 1 }) (markStarted m s)
      Goes (.specPolicy c) s (endOk m 0 0 (if on then s1 else dropDrafts i s1)))
  ∧ (∀ (c : CmdRef) (m : Cmd) (s : State), Starts 0x0408 c m s → 8 < m.f 1 16 4 →
      Goes (.specPolicy c) s (endFail m (stBadParam 7) (markStarted m s)))

/-- The ends of sequences: SEQ_RESUME brings an archive back as RESUMING (counting SEQ_ADMIT_OK), or HELD with WAIT, or answers ST_EXPIRED; SEQ_CANCEL ends the turn, or
with SESSION the sequence and its archive, and answers ST_CANCELLED (R209); SEQ_RETIRE lets the steps in flight commit. -/
def Obligations.SequenceEndCompletion : Prop :=
  (∀ (c : CmdRef) (m : Cmd) (a : Archive) (i : Nat) (s : State), Starts 0x0404 c m s →
      let s1 := markStarted m s
      let h : Dword := BitVec.ofNat 64 (m.p 0)
      findArchive s m.ctx h = some a → findEntry s m.ctx h = none →
      (a.deadline ≤ m.ttlAt → Goes (.seqResume c) s (endFail m stExpired s1))
      ∧ (let e := restored a (some m.ref) s.tick
         m.ttlAt < a.deadline → admitRefusal s1 e = none → freeEntry s1 = some i →
         (admitFails s1 i e (resumePages e) = none → heldAhead s1 e = false →
           Goes (.seqResume c) s (bump SEQ_ADMIT_OK (holdArchive e.ctx e.handle true
             (putEntry i { e with kvReserved := reservation s1 e + resumePages e, timeDue := timeDeferred s1 e } s1))))
         ∧ (∀ d, admitFails s1 i e (resumePages e) = d → (d.isSome = true ∨ heldAhead s1 e = true) →
           (bit (m.p 1) 0 = true → Goes (.seqResume c) s (holdArchive m.ctx h true (holdEntry i (heldResumeEntry e) s1)))
           ∧ (bit (m.p 1) 0 = false → Goes (.seqResume c) s (bump SEQ_ADMIT_DENIED (endFail m (stDenied (d.getD 1)) s1))))))
  ∧ (∀ (c : CmdRef) (m : Cmd) (s : State), Starts 0x0405 c m s →
      let s1 := markStarted m s
      let h : Dword := BitVec.ofNat 64 (m.p 0)
      (∀ i e, findEntry s m.ctx h = some (i, e) → (e.state = .decode ∨ e.state = .prefill) →
        (bit (m.p 1) 0 = false → Goes (.seqCancel c) s (endWith m (stCancelled 0) false 0 0 (endTurn i 4 s1)))
        ∧ (bit (m.p 1) 0 = true → Goes (.seqCancel c) s (endWith m (stCancelled 0) false 0 0 (endSession i s1))))
      ∧ (∀ i e t, findEntry s m.ctx h = some (i, e) → e.state = .idle → e.turnEndedAt = some t → m.acceptedAt ≤ t → bit (m.p 1) 0 = false →
          Goes (.seqCancel c) s (endWith m (0x0001, 0) false 0 0 s1))
      ∧ (∀ a, findEntry s m.ctx h = none → findArchive s m.ctx h = some a → bit (m.p 1) 0 = true →
          Goes (.seqCancel c) s (endWith m (stCancelled 0) false 0 0 (freeArchive a s1))))
  ∧ (∀ (c : CmdRef) (m : Cmd) (s : State), Starts 0x0406 c m s →
      let s1 := markStarted m s
      let h : Dword := BitVec.ofNat 64 (m.p 0)
      (∀ i e, findEntry s m.ctx h = some (i, e) → e.state ≠ .ending → e.cmd = none → findArchive s m.ctx h = none →
          Goes (.seqRetire c) s (reapEnding (modEntry i (fun x => { x with state := .ending, cancelPending := true, retireCmd := some m.ref }) s1)))
      ∧ (∀ a, findEntry s m.ctx h = none → findArchive s m.ctx h = some a → Goes (.seqRetire c) s (endOk m 0 0 (freeArchive a s1))))

/-- Sequence events: held admissions are retried in order; a hold that lasted HOLD_MAX_MS is denied and counted; a settled pause starts its archive and then frees the
tier-1 pages; a resume takes its pages back; archives past their deadline are freed and counted; the clock is checkpointed after 60 s. -/
def Obligations.SequenceEventCompletion : Prop :=
  (∀ (s : State), Goes .heldAdmissionRetry s ((heldOrder s).foldl (fun r p => retryHeld p r) (s, [])).1)
  ∧ (∀ (c : CmdRef) (i : Nat) (e : SeqEntry) (s : State),
      ((liveEntries s).find? fun p => decide (p.2.state = .held) && decide (p.2.cmd = some c)) = some (i, e) →
      e.heldSince + msTicks (getCtx s e.ctx).holdMaxMs ≤ s.tick →
      Goes (.holdExpiry c) s (bump SEQ_HOLD_EXPIRED (bump SEQ_ADMIT_DENIED (freeSeq i (holdArchive e.ctx e.handle false (endWaiting e (stDenied 0) s))))))
  ∧ (∀ (i : Fin 16384) (e : SeqEntry) (s : State), getEntry s i = some e → e.pausePending = true →
      (e.state = .prefill ∨ e.state = .decode ∨ e.state = .idle) → carried s i = false →
      (archiveRefusal s e = none → Goes (.pauseArchiveStart i) s (modEntry i (fun x => { x with state := .pausing, prior := e.state })
        (if e.autoPause = true ∧ (e.state = .decode ∨ e.state = .prefill) then releaseToken i (endEntry e 5) s else s)))
      ∧ (∀ d, archiveRefusal s e = some d → Goes (.pauseArchiveStart i) s (failPause i e d s)))
  ∧ (∀ (i : Fin 16384) (e : SeqEntry) (ps : List ((Nat × Nat) × Nat)) (s s0 : State), Canonical s → getEntry s i = some e → e.state = .pausing →
      e.releaseBuf = [] →
      let n := archivePages e (transcodes s e)
      takeArchive e.ctx n s = some (ps, s0) →
      let a := writeArchive e (transcodes s e) ps s.seq.ttlClock s0.mem.bytes
      Completes (.pauseArchiveDone i) s fun t =>
        t.mem.bytes = a.2 ∧ getEntry t i = none ∧ t.seq.archives = s.seq.archives ++ [a.1]
          ∧ a.1.handle = e.handle ∧ a.1.ctx = e.ctx ∧ a.1.pageCount = e.kvMap.length ∧ a.1.deadline = s.seq.ttlClock + e.pauseTtl
          ∧ a.1.t2Pages = ps.length ∧ a.1.entry.state = e.prior
          ∧ (getCtx t e.ctx).archUsed = (getCtx s0 e.ctx).archUsed + n)
  ∧ (∀ (i : Fin 16384) (e : SeqEntry) (a : Archive) (ps : List Nat) (s s1 s3 : State), getEntry s i = some e → findArchive s e.ctx e.handle = some a →
      e.state = .resuming → a.remote = [] → (a.entry.kvMap.any fun p => decide (crc32c (archivedPage s p.2) ≠ p.2.crc.toNat)) = false →
      takeKv e.ctx (resumePages a.entry) s = some (ps, s1) →
      let e1 := resumed s1 e a ps
      growNodes i (nodesFor (tkeys e1.kvMap)) (putEntry i e1 (s1.onMem fun m => { m with
        bytes := pokeInput e1 0 (if a.inputAddrs.isEmpty then e1.input else []) (bringPages a ps m.bytes) })) = some s3 →
      Goes (.resumePagesDone i true) s (match e.cmd.bind (findCmd s3) with | some m => endOk m i 0 s3 | none => s3))
  ∧ (∀ (i : Fin 16384) (e : SeqEntry) (a : Archive) (s : State), getEntry s i = some e → findArchive s e.ctx e.handle = some a →
      e.state = .resuming → a.remote = [] → e.reread = false →
      Goes (.resumePagesDone i false) s (modEntry i (fun x => { x with reread := true }) s))
  ∧ (∀ (s : State), Goes .ttlSweep s ((s.seq.archives.filter fun a => decide (a.deadline ≤ s.seq.ttlClock) && !resumeAccepted s a).foldl (fun s a =>
      journal 4 0 a.ctx a.handle none (bump TIER_BITTERN_EXPIRED
        (modCtx a.ctx (fun x => { x with expired := (a.handle :: x.expired).take 4096 }) (freeArchive a s)))) s))
  ∧ (∀ (s : State),
      (s.seq.ttlCkpt + 60 ≤ s.seq.ttlClock →
        Goes .ttlCheckpoint s (journal 5 0 0 0 none (setReg TIER_TTL_CKPT (BitVec.ofNat 32 s.seq.ttlClock) (s.onSeq fun q => { q with ttlCkpt := q.ttlClock }))))
      ∧ (s.seq.ttlClock < s.seq.ttlCkpt + 60 → Goes .ttlCheckpoint s s))

/-! ### Steps (chapters 7 and 13) -/

/-- A step's life: STEP_BUILD gives the ready rows the next step epoch and sends it to its pan; the delivery opens its streams; STEP_END journals one KV delta per row; the
COMMIT record follows once the deltas are durable; STEP_COMMIT advances every row and counts CMT_COMMITS. -/
def Obligations.StepCompletion : Prop :=
  (∀ (n : Fin 16) (p : Pan) (g : PanCfg) (s : State), getPan s n = some p → p.active = some g → mayBuild s p = true → (buildRows n p g s).rows ≠ [] →
      Completes (.stepBuild n) s fun t =>
        let b := buildRows n p g s
        t = bumpBy SEQ_REL_SKIP (releaseBound s n p g) (enterStep n p g b) ∧ t.seq.epoch = b.st.seq.epoch + 1 ∧ t.seq.steps = b.st.seq.steps ++ [buildStep n p g b]
          ∧ (getPan b.st n = some p → (getPan t n).map (·.step) = some (some t.seq.epoch)))
  ∧ (∀ (n : Fin 16) (p : Pan) (g : PanCfg) (s : State), getPan s n = some p → p.active = some g → mayBuild s p = true → (buildRows n p g s).rows = [] →
      Goes (.stepBuild n) s (buildRows n p g s).st)
  ∧ (∀ (epoch : Dword) (o : List RowOutcome) (st : Step) (s : State), findStep s epoch.toNat = some st → st.delivered = true → st.ended = false →
      panStreamsBusy s st.pan = false →
      Completes (.stepEnd epoch o) s fun t => t.cmt.nextJseq = s.cmt.nextJseq + (if s.flt.outOfService then 0 else st.rows.length)
        ∧ t.tick = s.tick ∧ t.host = s.host)
  ∧ (∀ (epoch : Dword) (st : Step) (s : State), findStep s epoch.toNat = some st → st.ended = true → st.commitSeq = none →
      st.deltas.all (recDurable s) = true → depsSettled s st = true →
      Goes (.commitRecordSend epoch) s (modStep st.epoch (fun x => { x with commitSeq := some s.cmt.nextJseq }) (journal 2 st.epoch st.ctx 0 none s)))
  ∧ (∀ (epoch : Dword) (st : Step) (s : State), findStep s epoch.toNat = some st → mayCommit s st = true →
      let s1 := s.onSeq fun q => { q with
        steps := q.steps.filter fun x => !decide (x.epoch = st.epoch)
        commitEpoch := max q.commitEpoch st.epoch }
      Goes (.stepCommit epoch) s (reapEnding (stepHist st (bump CMT_COMMITS
        (setReg CMT_COMMIT_NS (BitVec.ofNat 32 (min ((s.tick - st.endedAt) * 10) 0xFFFFFFFF)) (st.rows.foldl (commitRow st) s1))))))
/-! ### Streams, page-in and the crossing of port X (chapter 5) -/

/-- Streams: a work list whose last packet has arrived is delivered once; the front stream's next block is issued when its page is there, and the stream halts with SAVED_POS on a
miss; the first mover sends a block on, and the last one delivers or writes it; a data flit at the head of a port X crossing joins the active WRITE's block, one that no WRITE takes raises
LNK_PORTX, and tokens are absorbed. -/
def Obligations.StreamCompletion : Prop :=
  (∀ (n : Fin 16) (p : Pan) (st : Step) (s : State), getPan s n = some p → p.step.bind (findStep s) = some st → st.delivered = false →
      listArrived s p st.epoch = true →
      let s1 := (panDies s p).foldl (fun s d => readAdapters st p.logical.length d (acceptEpoch d st.epoch st.embVer s))
        (modStep st.epoch (fun x => { x with delivered := true }) s)
      let s2 := addWeightStreams n st (sendStep n st.epoch s1)
      Goes (.workListDelivery n) s (match p.serving with | some g => addKvStreams n p g.cost st s2 | none => s2))
  ∧ (∀ (k : Nat) (t : Stream) (s : State), getStream s k = some t → t.live s = true → (t.phase = .running ∨ t.phase = .waiting) →
      atFront s k t = true → blockReady s t = true → kvAway s t = false → t.issued < t.blocks →
      (missOf s t = none → t.kv.isSome = true → Goes (.streamBlockIssue k) s (issueBlock k t s))
      ∧ (missOf s t = none → t.kv.isSome = false →
        let key := storageKey s t.ctx (hIndex t.handle.toNat)
        Goes (.streamBlockIssue k) s (translate key.1 key.2 ((t.offset + 65536 * t.issued) / 0x200000) (issueBlock k t s)))
      ∧ (∀ c i page st dst, missOf s t = some (c, i, page, st, dst) →
        Goes (.streamBlockIssue k) s (noteFault t c i page st dst (saveDesc t 0 0 (modStream k (fun t => { t with
          phase := .halted, firstRequest := t.firstRequest.orElse fun _ => some (dieCount s (t.dies.headD 0)) }) s)))))
  ∧ (∀ (k : Nat) (t : Stream) (s : State), getStream s k = some t → t.live s = true → (t.phase = .running ∨ t.phase = .halted) →
      let len := t.blockLen t.doneBlocks
      (t.doneBlocks < t.issued → blockArrived s t t.doneBlocks = true → t.use ≠ .run →
        let r := writeObj t.ctx (hIndex t.dstHandle.toNat) (t.dstOffset + 65536 * t.doneBlocks) (t.arrived.take len) s
        (r.1 = false → Goes (.streamBlockDone k) s (failCopy k t (stNoSpace 0) r.2))
        ∧ (r.1 = true → Goes (.streamBlockDone k) s
            (finishStream k (modStream k (fun t => { t with done := t.done + len, arrived := t.arrived.drop len }) r.2))))
      ∧ (t.doneBlocks < t.issued → blockArrived s t t.doneBlocks = true → t.use = .run → t.kind ≠ 1 →
          Goes (.streamBlockDone k) s (finishStream k (modStream k (fun t => { t with done := t.done + len }) s)))
      ∧ (t.doneBlocks < t.issued → blockArrived s t t.doneBlocks = true → t.use = .run → t.kind = 1 → t.closing = false →
          (t.server s (65536 * t.doneBlocks)).1 < 0x60 →
          Goes (.streamBlockDone k) s (finishStream k (modStream k (fun t => { t with arrived := [], asked := 0, done := t.done + len })
            (s.onMem fun m => { m with bytes := t.poke s (65536 * t.doneBlocks) t.arrived m.bytes }))))
      ∧ (t.doneBlocks = t.issued → (t.use ≠ .run ∨ t.kind ≠ 1) → t.read < t.asked → Goes (.streamBlockDone k) s (sendBlock k t t.read s)))
  ∧ (∀ (d : Fin 74) (port : Fin 8) (vq : Fin 4) (n : Nat) (f : Flit) (fs : List (Nat × Flit)) (s : State), dieOfPan s d = some n →
      tget [] (getDie s d).portOut port = (vq.val, f) :: fs →
      ((f.kind.toNat = 1 ∨ f.kind.toNat = 2) → Goes (.portxFlit d port vq) s (popX d port s))
      ∧ (f.kind.toNat = 3 → Goes (.portxFlit d port vq) s (bump (CFG_BITTERN_RAKEID d) (popX d port s)))
      ∧ ((f.kind.toNat = 0 ∨ f.kind.toNat = 4) → frontAt s n d port vq = none →
          Goes (.portxFlit d port vq) s
            (present (panEvent s 0x0203 d n) (bump (ARR_BITTERN_PORTX d) (popX d port s))))
      ∧ (∀ k t, (f.kind.toNat = 0 ∨ f.kind.toNat = 4) → frontAt s n d port vq = some (k, t) → t.kind = 1 → t.closing = false → t.live s = true →
          0 < writeRoom s t → t.block.length < 64 * 2048 →
          Goes (.portxFlit d port vq) s (modStream k (fun t => { t with
            phase := if t.phase = .waiting then .running else t.phase
            block := t.block ++ leBytes 64 (if f.kind.toNat = 4 then 0 else f.payload.toNat) }) (popX d port s))))

/-- Demand page-in (R150, R152): a halted stream's request starts a page-in or joins the one of its page; a ZERO page takes a frame of zeros; a page-in that lasts
longer than TIMEOUT_MS raises TIER_PAGEIN for each pan that waits. -/
def Obligations.PageInCompletion : Prop :=
  (∀ (k i page st : Nat) (dst : Bool) (x : CtxId) (t : Stream) (s : State), getStream s k = some t → missOf s t = some (x, i, page, st, dst) → t.phase = .halted →
      (s.mem.pageIns.any fun q => match q.2 with | some g => g.streams.contains k | none => false) = false →
      (s.mem.pageIns.find? fun q => match q.2 with
        | some g => decide (g.ctx = x) && decide (g.index = i) && decide (g.page = page) | none => false) = none →
      s.mem.pageIns.length < 64 →
      Goes (.pageInRequest k) s (showPageIns ((setWaiting t.pan true s).onMem fun m => { m with
        pageIns := tput none m.pageIns m.nextPageIn (some { ctx := x, index := i, page := page, streams := [k], started := s.tick, found := st })
        nextPageIn := m.nextPageIn + 1 })))
  ∧ (∀ (k : Nat) (g : PageIn) (s : State), tget none s.mem.pageIns k = some g → (getObj s g.ctx g.index).tier = 2 →
      let e := tget PageEntry.zero (getObj s g.ctx g.index).pages g.page
      (e.state = 1 → Goes (.pageInDone k) s (closePageIn k g s))
      ∧ (e.state = 0 → t2Use s g.ctx ≤ (getCtx s g.ctx).quota.t2Pages → ∀ f, findFrame s = some f →
          Goes (.pageInDone k) s (closePageIn k g (modObj g.ctx g.index (fun x => { x with
            pages := tput PageEntry.zero x.pages g.page { state := 1, frame := f, remoteChip := 0 } }) (takeFrame f s))))
      ∧ (e.state = 0 → t2Use s g.ctx ≤ (getCtx s g.ctx).quota.t2Pages → findFrame s = none →
          Goes (.pageInDone k) s (failPageIn k g (stNoSpace 0) s)))
  ∧ (∀ (k n : Nat) (g : PageIn) (t : Stream) (s : State), tget none s.mem.pageIns k = some g → g.streams = [n] → getStream s n = some t →
      g.started + msTicks (getFld s TIER_PAGEIN_CTL 0 16) < s.tick → t.use = .run →
      Goes (.pageInTimeout k) s (present (panEvent s 0x0204 0x70 t.pan)
        (s.onMem fun m => { m with pageIns := tmod none m.pageIns k (Option.map fun g => { g with streams := [] }) })))

/-! ### Embedding tables (chapter 10) -/

/-- Tables: EMB_TABLE_CREATE fills a FREE entry with record 0 CURRENT; EMB_VERSION_SWITCH makes a LOADED or PREVIOUS record CURRENT and counts EMB_SWITCHES; MAINT
is entered once no die holds a copy and left by READY; EMB_ROW_UPDATE writes its records in order; EMB_LOOKUP pools host bags on an idle pan. -/
def Obligations.TableCompletion : Prop :=
  (∀ (c : CmdRef) (m : Cmd) (s : State), Starts 0x0504 c m s →
      let s1 := markStarted m s
      let e := m.f 0 0 10
      e ≠ 0x3FF → (getEmb s1 e).state = 0 → createTableRefusal s1 m = none →
      Goes (.embTableCreate c) s (endOk m e 0 (modEmb e (fun _ => { EmbEntry.free with
        ctx := m.ctx, state := 1, shardShift := m.f 3 8 8, homes := createHomes m, r0 := createRec m 1 2 }) s1)))
  ∧ (∀ (c : CmdRef) (m : Cmd) (s : State), Starts 0x0505 c m s → bit (m.p 0) 17 = false →
      let s1 := markStarted m s
      let e := m.f 0 0 10
      let k := m.f 0 16 1
      let x := getEmb s1 e
      tableRefusal s1 m.ctx e = none →
      (x.state = 1 → ((x.ver k).vstate = 1 ∨ (x.ver k).vstate = 3) →
        let s2 := modEmb e (fun x =>
          { (x.onVer x.current fun r => { r with vstate := 3 }).onVer k (fun r => { r with vstate := 2 }) with current := k }) s1
        Goes (.embVersionSwitch c) s (endOk m 0 0 (bump EMB_SWITCHES ((tkeys s2.arr.dies).foldl dropStale s2))))
      ∧ (((x.ver k).vstate = 0 ∨ (x.ver k).vstate = 2) → Goes (.embVersionSwitch c) s (endFail m (stBadParam 0x33) s1)))
  ∧ (∀ (c : CmdRef) (m : Cmd) (s : State), Starts 0x0505 c m s → bit (m.p 0) 17 = true →
      let s1 := markStarted m s
      let e := m.f 0 0 10
      tableRefusal s1 m.ctx e = none → (getEmb s1 e).state ≠ 0 →
      (bit (m.p 0) 18 = false → Goes (.embMaintChange c) s (endOk m 0 0 (modEmb e (fun x => { x with state := 1 }) s1)))
      ∧ (bit (m.p 0) 18 = true → ((dropTable e s1).arr.dies.any fun d => d.2.hot.any fun h => decide (h.entry = e)) = false →
          Goes (.embMaintChange c) s (endOk m 0 0 (modEmb e (fun x => { x with state := 2, maintBy := none }) (dropTable e s1)))))
  ∧ (∀ (c : CmdRef) (m : Cmd) (o : Obj) (s : State), Starts 0x0506 c m s →
      let s1 := markStarted m s
      let x := getEmb s (m.f 0 0 10)
      let v := x.ver (m.f 0 16 1)
      let size := 64 + v.stride * 64
      targetRefusal s m = none → targetRefusal s1 m = none → recordsOf s m (m.f 1 0 32) (m.f 2 0 32) size = .inr o →
      recordsOf s1 m (m.f 1 0 32) (m.f 2 0 32) size = .inr o → rangeAway o 0 (m.f 2 0 32 * size) = false → recMoving s x v = false →
      ((List.range (m.f 2 0 32)).any fun k => rowAway s x v (fieldAt (objBytes s o (k * size) 4) 0 4)) = false →
      let r := applyUpdates s1 x v o (m.f 2 0 32) 0 (0, 0) s1
      Goes (.embRowUpdate c) s (if r.1.2.2 then endOk m r.1.1 r.1.2.1 r.2 else endWith m (stNoSpace 0) false r.1.1 r.1.2.1 r.2))
  ∧ (∀ (c : CmdRef) (m : Cmd) (p : Pan) (l out : Obj) (s : State), Starts 0x0507 c m s →
      let s1 := markStarted m s
      let e := m.f 0 0 10
      let n := fieldAt (objBytes s1 (storageOf s1 l) 0 4) 0 4
      getPan s (m.f 0 16 4) = some p → p.wave = none → p.run = none → p.step = none → p.load = none → lookupAway s m = false →
      panRefusal s1 m.ctx (m.f 0 16 4) = none → tableRefusal s1 m.ctx e = none → objFor s1 m (m.f 1 0 32) = some l → objFor s1 m (m.f 1 32 32) = some out →
      (getEmb s1 e).state ≠ 0 → out.isReadOnly = false → (storageOf s1 l).lost = false → 4 + 4 * n ≤ (storageOf s1 l).size →
      n * (ceilDiv ((getEmb s1 e).cur.dim * 4) 64 * 64) ≤ out.size →
      ((List.range n).any fun b => decide (4096 < (lookupBag s1 (storageOf s1 l) n b).length)) = false →
      let d := (panDies s1 p).headD 0
      let r := lookupBags s1 (storageOf s1 l) m d e n (List.range n) (modDie d (fun d => { d with rowUse := [], gathered := [e], embVer := embNow s1 }) s1)
      let s2 := dropHot d (fun h => !h.replicated) r.2
      Goes (.embLookup c) s (if r.1 then endOk m n 0 s2 else endWith m (stNoSpace 0) false 0 0 s2))

/-- Gradients and rows on the dies: an epoch that was applied before only counts EMB_BITTERN_REGRAD, and a command whose homes have all answered applies its rows once; a home that lacks an end
marker after GRAD_WAIT_MS applies nothing; a fetched row reaches every tile that waits; a hot copy unread for 16 steps goes. -/
def Obligations.RowCompletion : Prop :=
  (∀ (c : CmdRef) (m : Cmd) (o : Obj) (s : State), Starts 0x0508 c m s →
      let s1 := markStarted m s
      let e := m.f 0 0 10
      let n := m.f 1 32 32
      let r := (getEmb s1 e).ver (m.f 0 16 1)
      targetRefusal s m = none → targetRefusal s1 m = none → rangeAway (handleObj s m.ctx (m.f 1 0 32)) 0 (n * (64 + ceilDiv (r.dim * 4) 64 * 64)) = false →
      recordsOf s1 m (m.f 1 0 32) n (64 + ceilDiv (r.dim * 4) 64 * 64) = .inr o →
      (m.p 3 ≤ (getEmb s1 e).appliedGepoch → Goes (.embApplyGrad c) s (endOk m 0 0 (bumpBy EMB_BITTERN_REGRAD n s1)))
      ∧ ((getEmb s1 e).appliedGepoch < m.p 3 →
        let recs := (List.range n).map (gradRecord s1 o r.dim)
        let good := recs.filter fun g => !gradBad s1 (getEmb s1 e) r g
        let merged := good.foldl (fun l g => mergeGrad g l) []
        let w : GradWork :=
          { cmd := m.ref, entry := e, epoch := m.p 3, rows := merged.filter fun g => decide (rowHome (getEmb s1 e) g.row = chipId s1)
            dropped := recs.length - good.length, since := s.tick }
        let s2 := sendGrads (getEmb s1 e) e (m.p 3) (merged.filter fun g => !decide (rowHome (getEmb s1 e) g.row = chipId s1)) (bumpBy EMB_BITTERN_GRADDROP w.dropped s1)
        Goes (.embApplyGrad c) s (if gradComplete s2 w && !recMoving s2 (getEmb s1 e) r then applyGrads m w s2 else s2.onMdl fun d => { d with grads := d.grads ++ [w] })))
  ∧ (∀ (entry : BitVec 10) (w : GradWork) (m : Cmd) (s : State), (s.mdl.grads.find? fun g => decide (g.entry = entry.toNat)) = some w →
      gradComplete s w = false → w.since + msTicks (getFld s EMB_CTL 0 16) < s.tick → findCmd s w.cmd = some m →
      Goes (.gradWaitTimeout entry) s
        (endWith m (stFaultContained 0) false 0 0 (s.onMdl fun d => { d with
          grads := d.grads.filter fun g => !decide (g.cmd = w.cmd)
          gradIn := d.gradIn.filter fun g => !(decide (g.entry = w.entry) && decide (g.epoch = w.epoch)) })))
  ∧ (∀ (die : Fin 74) (entry : BitVec 10) (row : Nat) (f : RowFetch) (s : State),
      ((getDie s die).fetches.find? fun f => decide (f.entry = entry.toNat) && decide (f.row = row)) = some f →
      let x := getEmb s entry.toNat
      let v := embRec s die entry.toNat
      let b := f.arrived.getD []
      let uses : Option Nat := ((getDie s die).rowUse.find? fun u => decide (u.1 = entry.toNat) && decide (u.2.1 = row)).map (·.2.2)
      let s2 := f.waiting.foldl (fun s2 k => modTile die (k % 16) (k / 16) (fun t => { t with fetched := tput [] t.fetched row b }) s2)
        (modDie die (fun d => { d with fetches := d.fetches.filter fun g => !(decide (g.entry = entry.toNat) && decide (g.row = row)) }) s)
      (f.asked = true → f.sent = false → rowAway s x v row = false → Goes (.rowFetchDone die entry row) s (sendRow die entry.toNat row x s))
      ∧ (f.sent = true → v.stride * 64 ≤ b.length →
          Goes (.rowFetchDone die entry row) s (pumpDie die (if x.state = 1 ∧ 64 < uses.getD 0 then
            addHot die { entry := entry.toNat, version := BitVec.ofNat 8 v.version, row := row, replicated := false
                         lastRead := dieBoundaries s die, bytes := b } s2 else s2))))
  ∧ (∀ (entry : BitVec 10) (reports : List HotReport) (s : State), 
      let pan := reports.head?.bind (reportPan s)
      (reports.all fun r => reportTrue s entry.toNat r && decide (reportPan s r = pan) && dieAtBoundary s (physDie s r.die)) = true →
      (getEmb s entry.toNat).state = 1 → (reports.any fun r => decide (256 < (reports.filter fun q => decide (q.die = r.die)).length)) = false →
      let hot := (dedup (reports.map (·.row))).filter fun i => decide (64 < reportSum i reports)
      let dies := (s.arr.dies.filter fun d => d.2.gathered.contains entry.toNat && decide (dieOfPan s d.1 = pan)).map (·.1)
      let x := getEmb s entry.toNat
      hot.any (rowAway s x x.cur) = false →
      Goes (.hotRowReplicate entry reports) s (dies.foldl (fun s p => modDie p (fun d => { d with
          rowUse := d.rowUse.filter fun u => !decide (u.1 = entry.toNat), gathered := d.gathered.filter fun k => !decide (k = entry.toNat) }) s)
        (hot.foldl (fun s i =>
          let b := rowBytes s x x.cur i
          dies.foldl (fun s p => addHot p { entry := entry.toNat, version := BitVec.ofNat 8 x.cur.version, row := i, replicated := true
                                            lastRead := dieBoundaries s p, bytes := b } s) s) (bumpBy EMB_HOT_ROWS hot.length s))))
  ∧ (∀ (die : Fin 74) (entry : BitVec 10) (row : Nat) (s : State), dieAtBoundary s die = true →
      Goes (.hotCopyEvict die entry row) s (dropHot die (fun h => decide (h.entry = entry.toNat) && decide (h.row = row)
        && (decide (h.lastRead + 16 ≤ dieBoundaries s die) || decide (h.version.toNat ≠ (getEmb s entry.toNat).cur.version))) s))
  ∧ (∀ (die : Fin 74) (port : Fin 8) (vq : Fin 4) (hdr : ExchangeHdr) (fs : List Flit) (s : State),
      ((getDie s die).accepting ≠ some hdr.stepEpoch.toNat → Goes (.exchangePacket die port vq hdr fs) s (bump (ARR_MOE_BITTERN_STALE die) s))
      ∧ ((getDie s die).accepting = some hdr.stepEpoch.toNat → hdr.phase ≠ 2 →
          Goes (.exchangePacket die port vq hdr fs) s (deliverX die port vq fs (modDie die (fun x => { x with
            exchange := modExchange hdr hdr.phase.toNat (fun r => { r with rows := r.rows + hdr.tokens.toNat }) x.exchange }) s)))
      ∧ ((getDie s die).accepting = some hdr.stepEpoch.toNat → hdr.phase = 2 →
          let ph := openPhase hdr (getDie s die).exchange
          let s1 := modDie die (fun x => { x with exchange := modExchange hdr ph (fun r => { r with ended := true }) x.exchange }) s
          let got := ((getDie s1 die).exchange.find? fun r => decide (r.layer = hdr.layer.toNat) && decide (r.source = exchangeSource hdr)
            && decide (r.phase = ph)).map (·.rows)
          let x := streamTiles.getD port (7, 0)
          Goes (.exchangePacket die port vq hdr fs) s
            (if got = some hdr.count.toNat then s1 else present (tileEvent s1 0x0106 die x.1 x.2 (16 + vq.val) 0) s1)))
/-! ### Commit, the mirror and pairing (chapter 13) -/

/-- The journal: a heartbeat after 10 ms of silence; a ward's record in turn joins the mirror and is acknowledged, a copy is acknowledged again, a fenced generation is counted, the third bad tag
ends the pairing; an acknowledgement makes records durable; the standby keeps the next control record. -/
def Obligations.JournalCompletion : Prop :=
  (∀ (s : State), paired s = true → s.pwr.shutdown ≠ .answered → (s.cmt.outstanding.all fun r => decide (r.kind = 0)) = true → s.cmt.lastSent + msTicks 10 ≤ s.tick →
      Goes .journalHeartbeat s (journal 0 0 0 0 none s))
  ∧ (∀ (f : JournalFrame) (s : State),
      (s.cmt.fenced.contains f.srcIdgen = true → Goes (.journalRecordReceive f) s (bump CMT_BITTERN_FENCED s))
      ∧ (s.cmt.fenced.contains f.srcIdgen = false → servesWard s = true →
          (f.tagOk = false → Goes (.journalRecordReceive f) s
            (if 2 ≤ s.cmt.badTags then endWard s else s.onCmt fun c => { c with badTags := c.badTags + 1 }))
          ∧ (f.tagOk = true → f.sealNo ≤ s.cmt.peerSeal →
              Goes (.journalRecordReceive f) s (s.onCmt fun c => { c with badTags := 0, lastWardFrame := s.tick, acks := f.jseq :: c.acks }))
          ∧ (f.tagOk = true → s.cmt.peerSeal < f.sealNo → f.jseq.toNat = s.cmt.mirrorJseq →
              Goes (.journalRecordReceive f) s
                (setReg CMT_MIRROR_USED (BitVec.ofNat 32 (mirrorPages (f :: s.cmt.mirror))) (s.onCmt fun c => { c with
                  badTags := 0, lastWardFrame := s.tick, peerSeal := f.sealNo, mirror := f :: c.mirror, mirrorJseq := c.mirrorJseq + 1
                  acks := f.jseq :: c.acks })))))
  ∧ (∀ (jseq : Dword) (s : State), paired s = true → jseq.toNat + s.cmt.jbase < s.cmt.nextJseq → s.cmt.durable < jseq.toNat + s.cmt.jbase → s.cmt.snapshotDue = false →
      Goes (.journalAckReceive jseq) s (setReg64 CMT_JSEQ_LO CMT_JSEQ_HI jseq.toNat (s.onCmt fun c => { c with
        outstanding := c.outstanding.filter fun r => decide (jseq.toNat + s.cmt.jbase < r.jseq)
        durable := jseq.toNat + s.cmt.jbase, snapshotDue := false })))
  ∧ (∀ (r : JRec) (rs : List JRec) (s : State), s.cmt.ctl = r :: rs → noStandby s = false →
      Goes .controlLogApply s (s.onCmt fun c => { c with ctl := rs, ctlAcked := r.jseq }))
  ∧ (∀ (page : RemotePage) (d : List Byte) (s : State), Goes (.remotePagePull page d false) s s)
  ∧ (∀ (c : CtxId) (i : BitVec 16) (k f : Nat) (d : List Byte) (s : State), (getObj s c i.toNat).tier = 2 →
      (tget PageEntry.zero (getObj s c i.toNat).pages k).state = 2 →
      (s.seq.archives.any fun a => decide (a.ctx = c) && a.objPages.contains (i.toNat, k)) = false → findFrame s = some f →
      Goes (.remotePagePull (.obj c i k) d true) s
        (endRerep (modObj c i.toNat (fun x => { x with pages := tput PageEntry.zero x.pages k { state := 1, frame := f, remoteChip := 0 } })
          ((takeFrame f s).onMem fun m => { m with bytes := memWrite m.bytes (f * 0x200000) (d.take 0x200000) }))))

/-- Loss and takeover: LOSS_MS without a frame of the ward fences its generation, raises the takeover source and sends a CLAIM; a CLAIM that brings no package for 1 s leaves the mirror in custody
and is sent again every 10 s; a standby spare assumes the claimed chip ID; a ward pairs with the buddy of its plan when the evidence holds, and is refused when it does not. -/
def Obligations.TakeoverCompletion : Prop :=
  (∀ (s : State), servesWard s = true → s.cmt.claimAt = none → s.cmt.lastWardFrame + msTicks (getFld s CMT_CTL 0 16) ≤ s.tick →
      Goes .wardLoss s (sendClaim (bump CMT_TAKEOVERS (present (faultOf 0x0501 0x70 0 0) (s.onCmt fun c => { c with
        fenced := BitVec.ofNat 16 (getFld s CMT_WARD 16 16) :: c.fenced })))))
  ∧ (∀ (t : Nat) (s : State), s.cmt.claimAt = some t → olderGen (getFld s CMT_WARD 16 16) (newestGen s (getFld s CMT_WARD 0 10)) = false →
      (getFld s CMT_STATUS 4 1 = 0 → t + msTicks 1000 ≤ s.tick → Goes .claimRetry s (setFld CMT_STATUS 4 1 1 s))
      ∧ (getFld s CMT_STATUS 4 1 = 1 → t + msTicks 10000 ≤ s.tick → Goes .claimRetry s (sendClaim s)))
  ∧ (∀ (e : PairEvidence) (s : State), unassigned s = false → e.asBuddy = false → buddyOf s = some e.peer.toNat → s.cmt.pairingOpen = true →
      (evidenceOk s e = true → Goes (.pairing e) s (pairWard e s))
      ∧ (evidenceOk s e = false → Goes (.pairing e) s ((endPairing s).onCmt fun c => { c with refused := true })))
  ∧ (∀ (e : PairEvidence) (s : State), unassigned s = false → e.asBuddy = true → wardOf s = some e.peer.toNat → evidenceOk s e = true →
      Goes (.pairing e) s (pairBuddy e s))
  ∧ (∀ (s : State), (buddyOf s).isSome = true → paired s = false → s.host.ready = true → s.cmt.pairTriedAt + msTicks 10000 ≤ s.tick →
      Goes .pairingRetry s (s.onCmt fun c => { c with pairingOpen := true, pairTriedAt := s.tick }))
  ∧ (∀ (x : Claim) (m : MirrorImage) (s : State), Canonical s → standsBy s x.chip.toNat = true →
      Completes (.claimReceive x m) s fun t => t.lnk.assumed.map (·.1) = some x.chip.toNat ∧ t.cmt.pairingOpen = true ∧ t.tick = s.tick
        ∧ (x.lostState = true → getFld t CMT_STATUS 5 1 = 1) ∧ (x.lostState = false → getFld t CMT_STATUS 3 1 = 1))

/-! ### Tiles and rakes (chapters 2 to 4) -/

/-- Tiles: a cycle of a tile whose island and clock run; an arriving flit goes where its route says, a parity error or a reserved kind is delivered nowhere, and an IDLE flit of compatibility mode only leaves its link; a credit returns; after its 16 cycles a
fill has the idle set hold the slice at its offset; the second half of an FP32 flush leaves when there is room; CLEAR clears the arithmetic counters. -/
def Obligations.TileCompletion : Prop :=
  (∀ (t : TileRef) (s : State), (getDie s t.die.val).islandOn = true → (getDie s t.die.val).clockOn = true →
      let p := t.die.val
      let col := t.col.val
      let row := t.row.val
      let s1 := [0, 1, 2, 3, 4].foldl (sendLink p col row) s
      let s2 := (tkeys (getTile s1 p col row).elastic).foldl (drainElastic p col row) s1
      let s3 := cleanHeads p col row (modTile p col row (fun t => noteQueues { t with
        frame := (t.frame + 1) % 8, fill := t.fill.map fun f => (f.1 - 1, f.2) }) s2)
      let s4 := (busyCycle p col row s3).getD (evaluate p col row s3)
      Goes (.tileCycle t) s (if col = 0 ∧ row = 0 then dieCycle p s4 else s4))
  ∧ (∀ (t : TileRef) (s : State), (getDie s t.die.val).islandOn = false ∨ (getDie s t.die.val).clockOn = false → Goes (.tileCycle t) s s)
  ∧ (∀ (t : TileRef) (port : Port) (perr : Bool) (y : OnLink) (s : State),
      let n := match port with | .n => 0 | .e => 1 | .s => 2 | .w => 3 | .x => 4
      let x := getTile s t.die t.col t.row
      let key := 4 * n + y.vq
      let s1 := modTile t.die t.col t.row (fun z => oweCredit (isInterface t.col t.row n && !y.isIdle) key
        { z with inFlight := tmod [] z.inFlight n (dropArrival y.vq) }) s
      nextArrival s t.die t.col t.row n (tget [] x.inFlight n) [] = some y →
      (perr = true → Goes (.flitArrival t port perr) s (tokenError t.die t.col t.row key 1 s1))
      ∧ (perr = false → y.isIdle = true → Goes (.flitArrival t port perr) s s1)
      ∧ (perr = false → y.isIdle = false → y.flit? = none → Goes (.flitArrival t port perr) s (tokenError t.die t.col t.row key 0 s1))
      ∧ (∀ f, perr = false → y.isIdle = false → y.flit? = some f →
          ((x.route key).type = 3 → Goes (.flitArrival t port perr) s (tokenError t.die t.col t.row key 0 s1))
          ∧ (∀ i e, (x.route key).type ≠ 3 → x.eqAt key = some (i, e) → Goes (.flitArrival t port perr) s (modTile t.die t.col t.row (fun z => z.eqPush i f) s1))
          ∧ ((x.route key).type = 0 → x.eqAt key = none → Goes (.flitArrival t port perr) s (enqueue t.die t.col t.row key f s1))
          ∧ (((x.route key).type = 1 ∨ (x.route key).type = 2) → x.eqAt key = none →
              Goes (.flitArrival t port perr) s (modTile t.die t.col t.row (fun z => { z with
                stages := tmod [] z.stages key (· ++ [stageFlit (x.route key) y.slot f]) }) s1))))
  ∧ (∀ (t : TileRef) (port : Port) (vq : Fin 4) (s : State),
      let n := match port with | .n => 0 | .e => 1 | .s => 2 | .w => 3 | .x => 4
      Goes (.creditReturn t port vq) s (modTile t.die t.col t.row (fun t => { t with creditDue := tmod 0 t.creditDue (4 * n + vq.val) (· - 1) }) s))
  ∧ (∀ (t : TileRef) (off : Nat) (s : State), (getTile s t.die t.col t.row).fill = some (0, off) →
      Goes (.weightFillDone t) s (modTile t.die t.col t.row (fun t => { t with
        weights := t.weights.set (1 - t.activeSet) (operandBytes t off 2176), fill := none, filled := true }) s))
  ∧ (∀ (t : TileRef) (y : SecondPush) (ys : List SecondPush) (s : State), (getTile s t.die t.col t.row).second = y :: ys →
      kindAt t.col t.row = 0 → outRoom (getTile s t.die t.col t.row) [y.out] = true →
      Goes (.fp32FlushSecondPush t) s (pushAll t.die t.col t.row [y.out] y.flit (modTile t.die t.col t.row (fun t => { t with second := ys }) s)))
  ∧ (∀ (d : Fin 74) (v : Word) (s : State), bit v.toNat 0 = true → Goes (.arrArithClr d v) s (clearArith d s))

/-- Rakes: 4,096 quiet cycles of a non-empty, blocked die that waits for no page start a rake, and a third one without progress or one above CAP raises ARR_RAKE; an orphan of 4,096 cycles
raises ARR_ORPHAN; an empty segment sends its RAKE token into its queue; a segment refills its queue, or the next segment of its chain, flit by flit, or is discarded whole when its tag is
not the pan epoch; CLEAR clears the high-water mark. -/
def Obligations.RakeCompletion : Prop :=
  (∀ (d : Fin 74) (s : State), waitingDie s d = false → 4096 ≤ (getDie s d).quiet → (getDie s d).nonEmpty = true →
      ((getDie s d).tiles.any fun q => q.2.blocked) = true →
      let r := (rake d s).2
      let r1 := match (dieOfPan r d).bind (getPan r) with
        | some p => (match p.step with | some e => modStep e (fun st => { st with rakes := st.rakes + 1 }) r | none => r)
        | none => r
      Goes (.watchdogExpiry d) s
        (if getFld r1 (CFG_RAKE_STEP d) 8 2 = 3 ∨ getFld r1 (CFG_RAKE_CTL d) 0 8 < getFld r1 (CFG_RAKE_STEP d) 0 8 then present (dieEvent r1 0x0105 d 0 0) r1 else r1))
  ∧ (∀ (d : Fin 74) (s : State), waitingDie s d = false → 4096 ≤ (getDie s d).orphanFor →
      let s1 := modDie d (fun d => { d with orphanFor := 0 }) (setFld (CFG_WD_STATUS d) 1 1 1 s)
      Goes (.orphanTimeout d) s (present (dieEvent s1 0x0104 d 0 0) s1)
      ∧ (dieEvent s1 0x0104 d 0 0).source = 0x0104 ∧ (dieEvent s1 0x0104 d 0 0).die = BitVec.ofNat 8 d)
  ∧ (∀ (d : Fin 74) (n : Nat) (g : Segment) (s : State), findSegment s d n = some g → g.flits = [] → g.tokenSent = false →
      ((getTile s d g.col g.row).queue g.key).length < 8 →
      Goes (.spillSegmentEmpty d n) s (modTile d g.col g.row (fun t => { t with
          queues := tmod [] t.queues g.key (· ++ [{ kind := 3, arg := 0, payload := BitVec.ofNat 512 (g.id + 4096 * g.rakeLow) }]) })
        (modSegment d n (fun g => { g with accepting := false, tokenSent := true }) s)))
  ∧ (∀ (d : Fin 74) (n : Nat) (g : Segment) (s : State), findSegment s d n = some g →
      let epoch := match (dieOfPan s d).bind (getPan s) with | some x => x.epoch | none => 0
      (g.epoch ≠ epoch → Goes (.spillRefill d n) s (bumpBy (CFG_BITTERN_SPILL d) g.flits.length
        (modDie d (fun d => { d with segments := d.segments.filter fun h => !decide (h.id = g.id) }) s)))
      ∧ (∀ f fs, g.epoch = epoch → g.flits = f :: fs → nextSegment (getDie s d) g = none → ((getTile s d g.col g.row).queue g.key).length < 8 →
          Goes (.spillRefill d n) s (modTile d g.col g.row (fun t => { t with queues := tmod [] t.queues g.key (· ++ [f]) })
            (modSegment d n (fun g => { g with flits := fs }) s)))
      ∧ (∀ f fs h, g.epoch = epoch → g.flits = f :: fs → nextSegment (getDie s d) g = some h →
          Goes (.spillRefill d n) s (modSegment d h.id (fun h => { h with flits := h.flits ++ [f] }) (modSegment d n (fun g => { g with flits := fs }) s))))
  ∧ (∀ (d : Fin 74) (v : Word) (s : State),
      (bit v.toNat 31 = true → Goes (.spillHwmClear d v) s (clearSpillHwm d s)) ∧ (bit v.toNat 31 = false → Goes (.spillHwmClear d v) s s))
/-! ### Tiers (chapter 6) -/

/-- Tiers: an access that the die does not serve raises TIER_ADDR and one of a context without the object TIER_XCTX, and otherwise the write lands and
the read answers the bytes that its medium gives; a write CRC error, a CA parity error, a flit replay, a
request timeout and an event log count and raise what their rules say; the patrol reads a unit, and the
end of a pass is counted once PASS_HOURS are over. -/
def Obligations.TierCompletion : Prop :=
  (∀ (die : Fin 16) (req : TierReq) (o : MediaOutcome) (s : State),
      (serves s die req.addr.toNat = false → Goes (.tierAccess die req o) s
        (answerReq none (present (tierEvent s 0x0202 die 0xFF (if req.fw then none else some req.ctx) none) (bump (tierAddr die) s))))
      ∧ (serves s die req.addr.toNat = true → req.fw = false → mayReach s req.ctx req.addr.toNat = false → Goes (.tierAccess die req o) s
        (answerReq none (present (tierEvent s 0x0201 die 0xFF (some req.ctx) none) (bump (tierXctx die) s))))
      ∧ (serves s die req.addr.toNat = true → (req.fw = true ∨ mayReach s req.ctx req.addr.toNat = true) → req.write = true →
        Goes (.tierAccess die req o) s (s.onMem fun m => { m with
          bytes := memWrite m.bytes req.addr.toNat req.data
          writeBacks := m.writeBacks.filter fun u => !(decide (req.addr.toNat < 64 * u + 64) && decide (64 * u < req.addr.toNat + req.data.length)) }))
      ∧ (serves s die req.addr.toNat = true → (req.fw = true ∨ mayReach s req.ctx req.addr.toNat = true) → req.write = false →
        let r := match windowOf s req.addr.toNat with
          | .tier1 p => nearRead p req.addr.toNat o s
          | .tier2 c => farRead c req.addr.toNat o s
          | _ => sramRead die req.addr.toNat o s
        Goes (.tierAccess die req o) s (answerReq (if r.1 then some (deviceBytes s req.addr.toNat req.len) else none) r.2)))
  ∧ (∀ (device : Fin 48) (a : BitVec 42) (s : State), serves s (device / 4) a.toNat = true → deviceOf s (device / 4) a.toNat = device % 4 →
      let p := device.val / 4
      let d := device.val % 4
      (∀ n, 1 ≤ n → n ≤ 3 → Goes (.writeCrcError device a n) s
          (present (faultOf 0x0302 (0x50 + p) d 0) (lifeAdd (lifeNear p d 2) 8 n (bumpBy (NEAR_DEV_CRC p d) n s))))
      ∧ (∀ n, 3 < n → Goes (.writeCrcError device a n) s
          (nearUncorrectable p a.toNat (lifeAdd (lifeNear p d 2) 8 3 (bumpBy (NEAR_DEV_CRC p d) 3 s)))))
  ∧ (∀ (device : Fin 48) (ch : Fin 4) (s : State), getFld s (NEAR_DEV_STATUS (device / 4) (device % 4)) 0 1 ≠ 0 →
      let p := device.val / 4
      let d := device.val % 4
      let s1 := lifeAdd (lifeNear p d 3) 8 1 (bump (NEAR_DEV_CAPAR p d) s)
      Goes (.caParityError device ch true) s (present (faultOf 0x0302 (0x50 + p) d 0) s1)
      ∧ Goes (.caParityError device ch false) s (present (faultOf 0x0305 (0x50 + p) d 0) (loseDevice p d s1)))
  ∧ (∀ (a : BitVec 42) (o : MediaOutcome) (p : Nat) (s : State), windowOf s a.toNat = .tier1 p → getFld s (NEAR_SCRUB p) 0 1 ≠ 0 →
      let s1 := (nearRead p a.toNat o s).2.onMem fun m => { m with writeBacks := m.writeBacks.filter fun u => !decide (u = a.toNat / 64) }
      Goes (.patrolScrub a o false) s s1
      ∧ Goes (.patrolScrub a o true) s (if passDue s p then bump (NEAR_SCRUB_PASSES p) (s1.onMem fun m => { m with
          passAt := tput 0 m.passAt p (dieCount s (0x50 + p))
          passCe := m.passCe.filter fun q => !(decide (sliceBase p ≤ q.1) && decide (q.1 < sliceBase p + 491520)) }) else s1))
  ∧ (∀ (k : Fin 12) (s : State), portUp s k = true →
      let s1 := lifeAdd (lifeFar k 0) 8 1 (bump (FAR_PORT_REPLAY (k / 3) (k % 3)) s)
      Goes (.farFlitReplay k true) s (present (faultOf 0x0311 (0x60 + k / 3) (k % 3) 0) s1) ∧ Goes (.farFlitReplay k false) s (losePort k s1))
  ∧ (∀ (k : Fin 12) (s : State), portUp s k = true →
      let s1 := lifeAdd (lifeFar k 2) 8 1 (bump (FAR_PORT_TIMEOUT (k / 3) (k % 3)) s)
      Goes (.farRequestTimeout k false) s (present (faultOf 0x0312 (0x60 + k / 3) (k % 3) 0) (s1.onMem fun m => { m with reissued := m.reissued ++ [k.val] }))
      ∧ (s.mem.reissued.contains k.val = true → Goes (.farRequestTimeout k true) s
          (losePort k (s1.onMem fun m => { m with reissued := m.reissued.filter fun j => !decide (j = k.val) }))))
  ∧ (∀ (k : Fin 12) (n : Nat) (s : State), portUp s k = true → 0 < n →
      Goes (.eventLogPoll k n []) s ((List.range n).foldl (fun s _ => present (faultOf 0x0311 (0x60 + k / 3) (k % 3) 0) s)
        (lifeAdd (lifeFar k 3) 8 n (bumpBy (FAR_PORT_MEDIA_CE (k / 3) (k % 3)) n s))))
  ∧ (∀ (k : Fin 12) (a : BitVec 42) (s : State), portUp s k = true → windowOf s a.toNat = .tier2 k →
      let s1 := lifeAdd (lifeFar k 3) 8 0 (bumpBy (FAR_PORT_MEDIA_CE (k / 3) (k % 3)) 0 s)
      Goes (.eventLogPoll k 0 [a]) s (if s1.mem.frames.contains (a.toNat / 0x200000) then farPoison k a.toNat s1
        else present (faultOf 0x0312 (0x60 + k / 3) (k % 3) 0) (retireFrame k (a.toNat / 0x200000) s1)))

/-! ### Links and the fabric (chapter 12) -/

/-- Link states: EN starts detection; a signal takes DETECT to TRAIN; training keeps the first combination that passes and reaches NEGOTIATE; a partner without the FEC takes the link DOWN with REASON 4; ACK_TIMEOUT
retrains, or takes it DOWN with REASON 10; a DOWN link retries after 10 s and its frames move; a module's removal and its faults take it DOWN. -/
def Obligations.LinkCompletion : Prop :=
  (∀ (j : Fin 48) (s : State), Goes (.linkEnable j) s (linkOn j (setFld (LNK_CTL (j / 6) (j % 6)) 0 1 1 s)))
  ∧ (∀ (j : Fin 48) (s : State), linkState s j = 1 → moduleThere s j = true → Goes (.linkSignalDetect j) s (setReg (lnkStatus j) 2 s))
  ∧ (∀ (j : Fin 48) (o : LinkOffer) (s : State), linkState s j = 2 →
      (o.fec544 = false → Goes (.linkTraining j o) s (settleAll (goDown j 4 s)))
      ∧ (∀ g w l, o.fec544 = true → firstPass (decide (12 ≤ j.val)) (commonCombos s j o) o.trials = some (g, w, l) →
          Goes (.linkTraining j o) s (showFabric (modLink j (fun l => { l with partner := none, recSentAt := none, rxSeq := 0, txSeq := 0, askedReplay := false })
            (setReg (lnkStatus j) (BitVec.ofNat 32 (3 + 256 * g + 1024 * w + 4096 * l)) s))))
      ∧ (o.fec544 = true → firstPass (decide (12 ≤ j.val)) (commonCombos s j o) o.trials = none → Goes (.linkTraining j o) s (settleAll (goDown j 3 s))))
  ∧ (∀ (j : Fin 48) (s : State), linkState s j = 5 → ((getLink s j).unacked.any fun x => decide (x.sentAt + msTicks 1 ≤ s.tick) || decide (8 ≤ x.replays)) = true →
      let s1 := lifeAdd (0x4000 + 128 * j) 8 1 (bump (LNK_RETRAIN (j / 6) (j % 6)) s)
      Goes (.ackTimeout j true) s (replayAll j (modLink j (fun l => { l with unacked := l.unacked.map fun x => { x with replays := 0 } }) s1))
      ∧ Goes (.ackTimeout j false) s (settleAll (goDown j 10 s1)))
  ∧ (∀ (j : Fin 48) (s : State), linkState s j = 7 → Goes (.linkDown j) s (settleAll (moveFrames j s)))
  ∧ (∀ (j : Fin 48) (s : State), linkState s j = 7 → (getLink s j).downAt + msTicks 10000 ≤ s.tick → linkEn s j = true →
      Goes (.linkDownRetry j) s (settleAll (toDetect j s)))
  ∧ (∀ (j : Fin 48) (s : State), 12 ≤ j.val → (linkState s j = 7 ∨ linkState s j = 1) →
      Goes (.moduleInsert j) s (settleAll (toDetect j (setFld (LNK_CMIS (j / 6) (j % 6)) 0 1 1 s))))
  ∧ (∀ (j : Fin 48) (s : State), 12 ≤ j.val → 2 ≤ linkState s j → linkState s j ≤ 6 →
      Goes (.moduleRemove j) s (settleAll (goDown j 2 (setReg (LNK_CMIS (j / 6) (j % 6)) 0 s))))
  ∧ (∀ (j : Fin 48) (p : CmisPoll) (s : State), 12 ≤ j.val → (getLink s j).polledAt = none → p.busErr = false → p.tempWarn = false →
      let s1 := setReg (LNK_CMIS (j / 6) (j % 6)) (BitVec.ofNat 32 (b2n p.present + 2 * p.state.toNat + 16 * b2n p.alarm + 256 * p.tempC.toNat))
        (modLink j (fun l => { l with polledAt := some s.tick }) s)
      (p.fault = true → 2 ≤ linkState s j → linkState s j ≤ 6 → Goes (.cmisPoll j p) s (settleAll (goDown j 9 s1)))
      ∧ (p.fault = false → p.lossOfLock = 0 → Goes (.cmisPoll j p) s s1))

/-- Records, frames and routes: a discovery record goes out each second; a partner's record in NEGOTIATE leads to HOLD and the settlement; another feature level takes the link DOWN with REASON 5; a frame with a bad CRC is
asked for again and the next frame in order is delivered; frames without a path for 1 s are counted; the packet that a router's arbitration
takes goes to the next router, to its die, out of the network, or along the tree of its rectangle. -/
def Obligations.RecordCompletion : Prop :=
  (∀ (j : Fin 48) (s : State), 3 ≤ linkState s j → linkState s j ≤ 5 → (getLink s j).recSentAt = none → Goes (.discoveryRecordSend j) s (sendRecord j s))
  ∧ (∀ (j : Fin 48) (r : DiscoveryRec) (s : State), 3 ≤ linkState s j → linkState s j ≤ 5 → r.magic = 0x44564C45 → r.crcOk = true →
      (r.level ≠ 1 → r.level ≠ 2 → Goes (.discoveryRecordReceive j r) s (settleAll (goDown j 5 s)))
      ∧ ((r.level = 1 ∨ r.level = 2) → linkState s j = 3 →
          let s1 := setLink j 4 0 (showPartner j r (modLink j (fun l => { l with partner := some r }) s))
          Goes (.discoveryRecordReceive j r) s (settleAll (if r.unassigned then s1 else seeChip r.chip.toNat r.idgen.toNat s1))))
  ∧ (∀ (j : Fin 48) (f : ElpFrame) (c : FecCount) (s : State), linkState s j = 5 →
      let s1 := lifeAdd (0x4028 + 128 * j + 8 * c.bin) 8 1 (lifeAdd (0x4020 + 128 * j) 8 c.uncorrectable (lifeAdd (0x4018 + 128 * j) 8 c.corrected
        (bumpBy (LNK_FEC_UNCORR (j / 6) (j % 6)) c.uncorrectable (bumpBy (LNK_FEC_CORR (j / 6) (j % 6)) c.corrected s))))
      (f.crcOk = false → Goes (.elpFrameReceive j f c) s (askReplay j s1))
      ∧ (f.crcOk = true → f.lseq.toNat = (getLink s j).rxSeq → Goes (.elpFrameReceive j f c) s (sortFrame f (takeAck j f
          (modLink j (fun x => { x with rxSeq := ((getLink s j).rxSeq + 1) % 2 ^ 32, askedReplay := false }) s1)))))
  ∧ (∀ (dest : BitVec 10) (s : State),
      let n := (s.lnk.held.filter fun p => decide (p.1.destChip = dest) && decide (p.2 + msTicks 1000 ≤ s.tick)).length
      0 < n → Goes (.noRouteTimeout dest) s (showUnreach (bumpBy LNK_BITTERN_NOROUTE n (s.onLnk fun l => { l with
        held := l.held.filter fun p => !(decide (p.1.destChip = dest) && decide (p.2 + msTicks 1000 ≤ s.tick))
        unreach := if l.unreach.contains dest.toNat then l.unreach else l.unreach ++ [dest.toNat] }))))
  ∧ (∀ (r : Fin 74) (net : VNet) (i : Nat) (k : Packet) (turn : Nat × Nat) (s : State), arbitrate s r (VNet.num net) = some (i, k, turn) →
      let s1 := s.onArr fun a => { a with
        routers := tmod [] a.routers (bufKey r i (VNet.num net)) List.tail
        served := tput (routerInputs - 1) a.served (4 * r.val + VNet.num net) i
        turns := tput (5000, 0) a.turns r turn }
      (∀ d q, k.dest = .array d → nextRouter r (physDie s d) = some q → Goes (.routerPacket r net) s (pushPacket q (linkInput r q) k s1))
      ∧ (∀ d, k.dest = .array d → nextRouter r (physDie s d) = none → Goes (.routerPacket r net) s (landPacket r k s1))
      ∧ (∀ c q, k.dest = .periphery c → nextRouter r k.exit = some q → Goes (.routerPacket r net) s (pushPacket q (linkInput r q) k s1))
      ∧ (∀ c, k.dest = .periphery c → nextRouter r k.exit = none → Goes (.routerPacket r net) s (leavePacket k s1))
      ∧ (∀ x0 y0 w h, k.dest = .rect x0 y0 w h → k.vnet = .data →
          Goes (.routerPacket r net) s ((rectHops s r x0 y0 w h k).foldl (fun s h => doHop r s h) s1))
      ∧ (∀ x0 y0 w h, k.dest = .rect x0 y0 w h → k.vnet ≠ .data →
          Goes (.routerPacket r net) s (s1.onArr fun a => { a with discarded := tmod 0 a.discarded r (· + 1) })))
  ∧ (∀ (r : Fin 74) (net : VNet) (s : State), arbitrate s r (VNet.num net) = none → Goes (.routerPacket r net) s s)

/-- Fabric commands: a plan that Table 12.8 refuses answers its DETAIL, and one that passes is used and kept in flash; FABRIC_STATUS writes the record; a collective joins the list with its ordinal, and COLL_TIMEOUT ends it; a JOIN reaches
its source; a shard that a refetch brings right is landed. -/
def Obligations.FabricCompletion : Prop :=
  (∀ (c : CmdRef) (m : Cmd) (b : List Byte) (s : State), Starts 0x0804 c m s →
      let s1 := markStarted m s
      let d := bytesAt b 0 (min (m.p 1) 0x40001)
      (∀ e, planRefusal s1 d = some e → Goes (.fabricPlan c b) s (endFail m (stBadParam e) s1))
      ∧ (planRefusal s1 d = none → s.pans = [] →
          let s2 := usePlan (parsePlan d) ((extend 3 (Config.shake256 d) s1).onLnk fun l => { l with flash := some (parsePlan d) })
          Goes (.fabricPlan c b) s (endWith m (if fabricDegraded s2 then (2, 0) else stOk) false 0 0 s2)))
  ∧ (∀ (c : CmdRef) (m : Cmd) (s : State), Starts 0x0805 c m s →
      let s1 := markStarted m s
      let r := fabricRecord s1
      let bad := decide (getFld s1 LNK_FAB_STATUS 0 1 = 1) || !s1.lnk.unreach.isEmpty || panTunnelled s1
      Goes (.fabricStatus c) s (endWith m (if bad then (2, 0) else stOk) false r.length 0 (dmaWrite m.ctx (m.p 0) r s1)))
  ∧ (∀ (c : CmdRef) (m : Cmd) (a b : Obj) (s : State), Starts 0x0603 c m s →
      let s1 := markStarted m s
      let members := ((s.lnk.plan.bind fun p => p.groups.find? fun g => decide (g.group = m.f 0 16 16)).map (·.members)).getD []
      let rank (x : Nat) : Nat := members.findIdx fun y => decide (y = x)
      rangeAway (handleObj s m.ctx (m.f 1 0 32)) 0 (m.p 2) = false → rangeAway (handleObj s m.ctx (m.f 1 32 32)) 0 (m.p 2) = false →
      (∀ st, collRefusal s1 m members = some st → Goes (.coll c) s (endFail m st s1))
      ∧ (collRefusal s1 m members = none → objFor s1 m (m.f 1 0 32) = some a → objFor s1 m (m.f 1 32 32) = some b → m.p 2 ≤ (storageOf s1 a).size →
          m.p 2 ≤ (storageOf s1 b).size → b.isReadOnly = false → (storageOf s1 a).lost = false →
          let key := m.ctx.toNat * 65536 + m.f 0 16 16
          let g : Coll :=
            { cmd := m.ref, kind := m.f 0 0 4, format := m.f 0 8 4, op := m.f 0 12 2, group := m.f 0 16 16, ordinal := tget 0 s.lnk.ordinals key
              members := members, boards := boardSets s1 members, rank := rank (chipId s), root := rank (m.f 3 0 10), length := m.p 2
              src := m.f 1 0 32, dst := m.f 1 32 32, done := [], since := s.tick }
          Goes (.coll c) s (advanceColl g (s1.onLnk fun l => { l with colls := l.colls ++ [g], ordinals := tput 0 l.ordinals key (g.ordinal + 1) }))))
  ∧ (∀ (c : CmdRef) (m : Cmd) (g : Coll) (s : State), Running 0x0603 c m s → (s.lnk.colls.find? fun g => decide (g.cmd = c)) = some g →
      g.since + msTicks (getFld s LNK_COLL_CTL 0 16) ≤ s.tick → Goes (.collTimeout c) s (endWith m (stFaultContained 0) false 0 0 (dropColl g s)))
  ∧ (∀ (x : BitVec 10) (d : List Byte) (s : State), sameJob s x.toNat = true → (heldManifest s d).isSome = true →
      (s.lnk.passes.find? fun p => decide (p.digest = d)) = none →
      Goes (.shardJoin x d) s (s.onLnk fun l => { l with passes := l.passes ++ [{ digest := d, receivers := [x.toNat], joinedAt := s.tick, next := [] }] }))
  ∧ (∀ (d : List Byte) (p : ShardPass) (c : CtxId) (v : VerRec) (s : State), (s.lnk.passes.find? fun p => decide (p.digest = d)) = some p →
      heldManifest s d = some (c, v) → p.joinedAt + msTicks 5 ≤ s.tick →
      let chips := chipId s :: p.receivers
      let list := shardHead 3 d chips.length 0 ++ (chips.map fun k => leBytes 2 k).flatten
      let r := (heldShards s d).zipIdx.foldl (fun (a : Bool × State) x =>
        if !a.1 then a
        else if Config.shake256 (shardBytes a.2 c x.1) = x.1.digest then
          (true, (passKids s chips).foldl (fun s k => sendShard c k d x.2 (shardBytes a.2 c x.1) s) a.2)
        else (false, a.2))
        (true, (passKids s chips).foldl (fun s k => sendFrame (ownFrame s k 1 6 c false 0 0 list) s) s)
      Goes (.shardPassStart d) s (r.2.onLnk fun l => { l with
        passes := (l.passes.filter fun x => !decide (x.digest = d))
          ++ (if p.next.isEmpty then [] else [{ digest := d, receivers := p.next, joinedAt := s.tick, next := [] }]) }))
  ∧ (∀ (c : CmdRef) (n : Nat) (data : List Byte) (w : FabImport) (x : Shard) (s : State), findImport s c = some w → w.shards[n]? = some x → x.verified = false → x.bad = true →
      let h := holders s w
      let ask := ownFrame s (h.getD (min x.failed (h.length - 1)) w.source) 1 6 c.ctx false 0 0 (shardHead 2 w.digest n 0)
      let s1 := bump LNK_SHARD_REFETCH (sendFrame ask s)
      (Config.shake256 data = x.digest → Goes (.shardTimeout c n data) s (landShard w n x data s1))
      ∧ (Config.shake256 data ≠ x.digest → x.failed < 2 → Goes (.shardTimeout c n data) s
          (modShard c n (fun y => { y with bad := true, got := [], failed := y.failed + 1 }) s1)))
/-! ### Faults, cores, lifetime records and measurement (chapters 14 to 16) -/

/-- Fault commands: FLT_READ answers the history and with CLEAR empties it; an event reaches the collector, and one of SOURCE 0 names a failed edge (the model's choice,
notes/assumptions/151); FLT_CONFIG sets a permitted reaction; LIFE_READ copies a range of the record space; TEST_FORCE and FORCE raise a source, whose forced events come one a millisecond;
a spare that passes its self-test takes the logical die. -/
def Obligations.FaultCompletion : Prop :=
  (∀ (e : FaultEvent) (s : State), (e.source ≠ 0 ∨ 74 ≤ e.die.toNat ∨ 4 ≤ e.unit.toNat → Goes (.faultEvent e) s (collect e false (takeEvent e s)))
      ∧ (e.source = 0 → e.die.toNat < 74 → e.unit.toNat < 4 → Goes (.faultEvent e) s (failEdge e.die.toNat e.unit.toNat s)))
  ∧ (∀ (c : CmdRef) (m : Cmd) (s : State), Starts 0x0701 c m s →
      let s1 := dmaWrite m.ctx (m.p 0) (s.flt.history.map histBytes).flatten (markStarted m s)
      Goes (.fltRead c) s (endOk m s.flt.history.length 0 (if bit (m.p 1) 0 then showHist (s1.onFlt fun f => { f with history := [] }) else s1)))
  ∧ (∀ (c : CmdRef) (m : Cmd) (s : State), Starts 0x0702 c m s →
      let s1 := markStarted m s
      (mayReact (m.f 0 0 16) (m.f 0 16 3) = true →
        Goes (.fltConfig c) s (endOk m 0 0 (modSrc (m.f 0 0 16) (fun x => { x with reaction := some (m.f 0 16 3) }) s1)))
      ∧ (mayReact (m.f 0 0 16) (m.f 0 16 3) = false → Goes (.fltConfig c) s (endFail m (stBadParam 7) s1)))
  ∧ (∀ (c : CmdRef) (m : Cmd) (s : State), Starts 0x0703 c m s →
      let s1 := markStarted m s
      (m.p 1 + m.p 2 ≤ 0x400000 → Goes (.lifeRead c) s (endOk m (m.p 2) 0 (dmaWrite m.ctx (m.p 0) (lifeBytes s1 (m.p 1) (m.p 2)) s1)))
      ∧ (0x400000 < m.p 1 + m.p 2 → Goes (.lifeRead c) s (endFail m (stBadParam 7) s1)))
  ∧ (∀ (c : CmdRef) (m : Cmd) (s : State), Starts 0x0901 c m s → (sourceRow (m.f 0 0 16)).isSome = true →
      Goes (.testForce c) s (endOk m 0 0 (forceSource (m.f 0 0 16) (m.f 0 16 16) (markStarted m s))))
  ∧ (∀ (c : CmdRef) (m : Cmd) (n : Nat) (s : State), Starts 0x0902 c m s → m.f 0 0 7 < 72 →
      let s1 := markStarted m s
      (dieOfPan s1 (physDie s1 (m.f 0 0 7)) = none → Goes (.testPattern c n) s (endOk m n 0 s1))
      ∧ ((dieOfPan s1 (physDie s1 (m.f 0 0 7))).isSome = true → Goes (.testPattern c n) s (endFail m (stNotPermitted 0) s1)))
  ∧ (∀ (r : BitVec 16) (s : State), (sourceRow (getFld s FLT_SRC_SEL 0 16)).isSome = true →
      Goes (.srcForceSet r) s (forceSource (getFld s FLT_SRC_SEL 0 16) r.toNat s))
  ∧ (∀ (id : BitVec 16) (s : State), (getSrc s id.toNat).force = true → 0 < (getSrc s id.toNat).repeats → (getSrc s id.toNat).forcedAt = none →
      Goes (.forcedEvent id) s (collect (forcedEvent s id.toNat) true
        (modSrc id.toNat (fun x => { x with repeats := x.repeats - 1, force := decide (1 < x.repeats), forcedAt := some s.tick }) s)))
  ∧ (∀ (spare : Fin 2) (w : Swap) (s : State), s.pwr.swap = some w → w.spare = 72 + spare.val →
      Goes (.spareSelfTestDone spare true) s (nextSwap (w.pans.foldl recreatePan (moveWindows w.failed (72 + spare.val) (showTunnels (setUnavail w.logical false
        (setReg (spareReg (72 + spare.val)) (BitVec.ofNat 32 (w.logical + 2 ^ 31)) (s.onPwr fun x => { x with swap := none }))))))))

/-- Liveness and firmware cores: KEY 0x5A3C refreshes ALIVE, whose output has an edge each 500 µs and stops after 10 ms with CTL_ALIVE; a core that does not refresh for 4 ms crashes with CTL_CORE, restarts, or is retired to the spare; with no core of
CD0 left CD1 takes over. -/
def Obligations.CoreCompletion : Prop :=
  (∀ (v : Word) (s : State), bits v.toNat 0 16 = 0x5A3C → Goes (.aliveKick v) s (refreshAlive s))
  ∧ (∀ (s : State), getFld s FLT_ALIVE_STATUS 1 1 = 1 → s.flt.edgeAt + usTicks 500 ≤ s.tick →
      Goes .aliveOutEdge s (setFld FLT_ALIVE_STATUS 0 1 (1 - getFld s FLT_ALIVE_STATUS 0 1) (s.onFlt fun f => { f with edgeAt := f.edgeAt + usTicks 500 })))
  ∧ (∀ (s : State), getFld s FLT_ALIVE_STATUS 1 1 = 1 → s.flt.kickAt + msTicks 10 ≤ s.tick →
      Goes .heartbeatTimeout s (collect (faultOf 0x0602 0x70 0xFF 0) false (stopAlive 0x0602 true s)))
  ∧ (∀ (k : Fin 8) (s : State), fwRuns s = true → Goes (.coreKick k) s (s.onFlt fun f => { f with coreKick := tput 0 f.coreKick k (s.tick + 1) }))
  ∧ (∀ (k : Fin 8) (s : State), fwRuns s = true → cd1Active s = false → roleOf s k ≠ 15 → coreDown s k = false → tget 0 s.flt.coreKick k - 1 + msTicks 4 ≤ s.tick →
      Goes (.coreWatchdogExpiry k) s (present (faultOf 0x0601 0x70 k 0) (crashCore k s)))
  ∧ (∀ (k : Fin 8) (s : State), coreDown s k = true → mustRetire s k = false → nmiCore s k < 8 → segmentsGood s.fw.running k = true →
      roleOf s k ≠ 4 →
      Goes (.coreRestart k) s (bump FW_RESTARTS ((s.onFw fun f => { f with
          down := f.down.filter fun d => !decide (d.1 = k.val)
          restartedAt := tput 0 f.restartedAt k (s.tick + 1) }).onFlt fun f => { f with coreKick := tput 0 f.coreKick k (s.tick + 1) })))
  ∧ (∀ (k : Fin 8) (p : Nat) (s : State), spareCore s = some p → mustRetire s k = true → p ≠ k.val →
      Goes (.coreRetire k) s (setFld FW_ROLE_MAP (4 * p) 4 (roleOf s k) (setFld FW_ROLE_MAP (4 * k.val) 4 15
        (s.onFw fun f => { f with down := f.down.filter fun d => !decide (d.1 = k.val) }))))
  ∧ (∀ (s : State), Canonical s → takeoverDue s = true →
      Completes .cd1Takeover s fun t => getReg t FW_ROLE_MAP = 0x54332210 ∧ cd1Active t = true ∧ t.fw.down = [] ∧ t.cmt.ctl = [] ∧ t.tick = s.tick)

/-- Lifetime records: each minute the counters are accumulated; each 15 minutes, and for a shutdown whose steps have settled, a slot is written; its verify ends the write. -/
def Obligations.LifeCompletion : Prop :=
  (∀ (s : State), fwRuns s = true → s.flt.baccAt + msTicks 60000 ≤ s.tick → Goes .bitternAccumulate s (readAllBacc s))
  ∧ (∀ (s : State), fwRuns s = true → s.flt.life.writing = none →
      (s.pwr.shutdown = .settling → allSettled s = true → Goes .lifetimeWrite s (beginLifeWrite (s.onPwr fun p => { p with shutdown := .writing })))
      ∧ (s.pwr.shutdown ≠ .settling → s.flt.life.lastWrite + msTicks 900000 ≤ s.tick → Goes .lifetimeWrite s (beginLifeWrite s)))
  ∧ (∀ (ok : Bool) (s : State), s.flt.life.writing.isSome = true →
      Goes (.lifetimeWriteDone ok) s (if (endLifeWrite ok s).pwr.shutdown = .writing then answerShutdown (endLifeWrite ok s) else endLifeWrite ok s))

/-- Measurement: PMC_SAMPLE answers the pan histograms at once and otherwise opens a window on every die of its scope; a die's window opens with the notice and closes when its counter reaches the end; the clear bits clear the marks and the selected
pan's histograms. -/
def Obligations.PmcCompletion : Prop :=
  (∀ (c : CmdRef) (m : Cmd) (s : State), Starts 0x0704 c m s →
      let s1 := markStarted m s
      let pan := if m.f 0 0 4 = 0xF then none else some (m.f 0 0 4)
      (∀ st, sampleRefusal s1 m = some st → Goes (.pmcSample c) s (endFail m st s1))
      ∧ (sampleRefusal s1 m = none → m.f 0 8 8 = 4 → Goes (.pmcSample c) s (endOk m (panRecord s1 pan).length 0 (dmaWrite m.ctx (m.p 1) (panRecord s1 pan) s1)))
      ∧ (sampleRefusal s1 m = none → m.f 0 8 8 ≠ 4 →
          let dies := match pan.bind (getPan s1) with | some p => p.logical | none => List.range 72
          Goes (.pmcSample c) s (s1.onPmc fun p => { p with samples := p.samples ++ [{
            cmd := m.ref, seqno := m.seqno, set := m.f 0 8 8, pan := pan, window := m.f 2 0 32, toOpen := dies, toReport := []
            reports := [], epoch0 := sampleEpoch s1 pan, began := s.tick, cut := none, epoch1 := 0 }] })))
  ∧ (∀ (c : CmdRef) (die : Fin 74) (x : Sample) (l : Nat) (s : State), sampleOf s c = some x → logicalDie s die = some l →
      (x.toOpen.contains l = true →
        Goes (.pmcWindowOpen c die) s (modSample x.seqno (fun y => { startSample s y with
          toOpen := y.toOpen.filter fun k => !decide (k = l), toReport := y.toReport ++ [l] }) (openWindow x.seqno x.window die s)))
      ∧ (∀ w, (getDie s die).windows.find? (fun w => decide (w.sample = x.seqno)) = some w → w.stop ≤ dieCount s die → x.toReport.contains l = true →
        Goes (.pmcWindowClose c die) s (closeWindow x l die s)))
  ∧ (∀ (die : Fin 74) (v : Word) (s : State), bit v.toNat 0 = true → Goes (.pmcHwmClr die v) s (clearMarks die s))
  ∧ (∀ (v : Word) (s : State), bit v.toNat 0 = true → Goes (.pmcPanClr v) s (modHist (getFld s PMC_PAN_SEL 0 4) (fun _ => PanHist.fresh) s))
/-! ### Firmware, start-up, power and management (chapters 16 to 18) -/

/-- Firmware: FW_STAGE writes a checked image to flash and FW_ACTIVATE starts the update with it; LOCK locks; the security version and the revoked keys are advanced by their registers; an image that has held for 15 minutes is promoted; a failed noise
source is shown; ATTEST answers the report of 10,522 bytes; a register write reaches the register at its address. -/
def Obligations.FirmwareCompletion : Prop :=
  (∀ (c : CmdRef) (m : Cmd) (image : List Byte) (s : State), Starts 0x0801 c m s → s.fw.update = none →
      let s1 := markStarted m s
      Goes (.fwStage c image) s (match stageRefusal s1 (image.take (m.p 1)) (m.p 1) (!bit (m.p 2) 0) with
        | some st => endFail m st s1
        | none => endOk m 0 0 (writeFlash (!bit (m.p 2) 0) (image.take (m.p 1)) s1)))
  ∧ (∀ (c : CmdRef) (m : Cmd) (s : State), Starts 0x0802 c m s → s.fw.down = [] → s.fw.update = none →
      let s1 := markStarted m s
      Goes (.fwActivate c) s (match activateCheck s1 (bit (m.p 0) 0) with
        | .inl st => endFail m st s1
        | .inr b => goOnUpdate m ((stageImage b s1).onFw fun f => { f with update := some { cmd := m.ref, image := b, fromB := bit (m.p 0) 0, pausedAt := none } })))
  ∧ (∀ (c : CmdRef) (m : Cmd) (s : State), Running 0x0802 c m s → Goes (.fwActivate c) s (goOnUpdate m s))
  ∧ (∀ (t : Nat) (s : State), s.fw.activatedB = some t → fwRuns s = true → s.fw.update = none → t + msTicks 900000 ≤ s.tick →
      Goes .fwPromotion s (setFld FW_STATUS 6 1 1 (showFw ((writeFlash true (s.fw.flash.getD (if flashFail s 2 = 0 then 2 else 3) []) s).onFw fun f => { f with
        activatedB := none, fuseSvn := max f.fuseSvn (imgSvn f.running) }))))
  ∧ (∀ (v : Word) (s : State), bit v.toNat 0 = true → Goes (.fwLock v) s (setLock s))
  ∧ (∀ (v : Word) (s : State), Goes (.fwSvnAdvance v) s (svnAdvance v.toNat s) ∧ Goes (.fwKeyRevoke v) s (revokeKeys v.toNat s))
  ∧ (∀ (s : State), s.fw.badSource1 = false → Goes (.entropyHealthFail 0) s (setFld FW_STATUS 4 1 1 (s.onFw fun f => { f with badSource0 := true })))
  ∧ (∀ (s : State), s.fw.badSource0 = true → Goes (.entropyHealthFail 1) s (setFld FW_STATUS 5 1 1 (s.onFw fun f => { f with badSource1 := true })))
  ∧ (∀ (c : CmdRef) (m : Cmd) (s : State), Starts 0x0803 c m s → s.host.updating = false →
      Goes (.attest c) s (endOk m 10522 0 (dmaWrite m.ctx (m.p 0) (attestReport (markStarted m s) m) (markStarted m s))))
  ∧ (∀ (fn : BitVec 8) (o : BitVec 16) (v : Dword) (s : State),
      let a := physAddr s (0x100000000 + fn.toNat * 0x10000 + o.toNat)
      ∀ r, regRow a = some r → r.wide = false → Goes (.registerWrite (.bar0 fn o) 4 v) s (writeCmd fn.toNat o.toNat (BitVec.ofNat 32 (v.toNat % 2 ^ 32)) s))
  ∧ (∀ (a : Word) (v : Dword) (s : State),
      let b := physAddr s a.toNat
      ∀ r, regRow b = some r → r.wide = false → Goes (.registerWrite (.ctl a) 4 v) s
        (if (b / 0x1000000 = 2 ∨ b / 0x1000000 = 3 ∨ b / 0x1000000 = 7) ∧ b / 0x10000 % 256 < 74
         then writeDie (b / 0x1000000) (b / 0x10000 % 256) (b % 0x10000) b (v.toNat % 2 ^ 32) s else writePkg b (v.toNat % 2 ^ 32) s))

/-- Start-up and shutdown (R418, R431 to R435): the stages follow each other from off through held, boot, training, self-test, discovery and readying to ready; PWR_GOOD falling resets the package and leaves a rail fault; SHUTDOWN settles and writes the lifetime
record, and is held while an update runs. -/
def Obligations.StartupCompletion : Prop :=
  (∀ (s : State), Goes .powerDown s (unpowered s))
  ∧ (∀ (s : State), s.pwr.stage = .off → Goes .powerUp s (setReg PWR_RAIL_STATUS 0x7F ((unpowered s).onPwr fun p => { p with stage := .held, pwrGood := true })))
  ∧ (∀ (s : State), s.pwr.stage ≠ .off → s.pwr.perst = false →
      Goes .perstNAssert s (setReg PWR_RAIL_STATUS (getReg s PWR_RAIL_STATUS) ((resetPackage s).onPwr fun p => { p with stage := .held, perst := true })))
  ∧ (∀ (w : Word) (media : BootMedia) (s : State), s.pwr.stage = .held → s.pwr.perst = true → s.pwr.pwrGood = true →
      let s1 := setFld LNK_FAB_POS 9 2 (bits w.toNat 0 2) (s.onPwr fun p => { p with perst := false, slotId := bits w.toNat 0 2 })
      (bit w.toNat 2 = false → Goes (.perstNRelease w media) s (s1.onPwr fun p => { p with stage := .testMode }))
      ∧ (bit w.toNat 2 = true → Goes (.perstNRelease w media) s
          (romBoot (takeMedia media (setFld PWR_RAIL_STATUS 0 7 0x7F ({ s1 with cd0ResetAt := s1.tick }.onHost fun h => { h with linkUp := true }))))))
  ∧ (∀ (near : List NearTrain) (far : List FarTrain) (s : State), s.pwr.stage = .training → s.flt.blockResets = [] →
      Goes (.memoryTraining near far) s (takeRegion (trainAll near far (refreshAlive (s.onPwr fun p => { p with stage := .selfTest })))))
  ∧ (∀ (failed : List Nat) (s : State), s.pwr.stage = .selfTest →
      (failed.contains 0x70 = true → Goes (.dieSelfTest failed) s (setReg FLT_ALIVE_STATUS 0 (s.onPwr fun p => { p with stage := .halted })))
      ∧ (failed.contains 0x70 = false → Goes (.dieSelfTest failed) s
          ((failed.foldl failDie ((List.range 74).foldl (fun s p => if (logicalDie s p).isSome then islandPower p true s else s) s)).onPwr fun p => { p with
            stage := .discovery })))
  ∧ (∀ (s : State), s.pwr.stage = .discovery → s.pwr.swap = none →
      let s1 := (s.onLnk fun l => { l with started := true }).onPwr fun p => { p with stage := .readying }
      Goes .discovery s (settleAll ((List.range 48).foldl (fun s j => linkOn j s) (match s.lnk.flash with | some p => usePlan p s1 | none => s1))))
  ∧ (∀ (s : State), Canonical s → s.pwr.stage = .readying →
      Completes .ready s fun t => t.host.ready = true ∧ t.pwr.stage = .ready ∧ t.cmt.pairingOpen = true ∧ getFld t SEQ_CTL 0 1 = 1 ∧ getFld t FW_STATUS 0 1 = 1)
  ∧ (∀ (s : State), s.pwr.pwrGood = true →
      let s1 := s.onPwr fun p => { p with pwrGood := false, thermTrip := false }
      (s.pwr.perst = true → Goes .pwrGoodFall s s1)
      ∧ (s.pwr.perst = false → Goes .pwrGoodFall s (setReg FLT_STBY_LAST 0x0703 ((resetPackage s1).onPwr fun p => { p with stage := .held }))))
  ∧ (∀ (s : State), fwRuns s = true → s.pwr.shutdown ≠ .writing → s.pwr.shutdown ≠ .answered →
      let s1 := if s.pwr.shutdown = .settling then s else beginShutdown s
      (s.fw.update.isSome = true → Goes .shutdown s (s.onPwr fun p => { p with shutdown := .held }))
      ∧ (s.fw.update = none →
          Goes .shutdown s (if allSettled s1 ∧ s1.flt.life.writing.isNone then beginLifeWrite (s1.onPwr fun p => { p with shutdown := .writing }) else s1)))

/-- Power and temperature (R418 to R424): the board's cap is clamped to 1,500 to 4,800 W; the package's power is the mean of its last 50 samples; with no pan the governor stops every array clock and sets the budget; a droop halves the die's clock, is counted and
recovers; the hottest die is shown and 110 °C trips; a rail outside its limits is shown and raises its source. -/
def Obligations.PowerCompletion : Prop :=
  (∀ (w : BitVec 16) (s : State), s.pwr.stage ≠ .off → Goes (.mfrPowerCap w) s (noteCap (effCap s) (setFld PWR_CAP_BOARD 0 13 (max 1500 (min 4800 w.toNat)) s)))
  ∧ (∀ (w : Nat) (dies : List (Nat × Nat)) (s : State), s.pwr.stage ≠ .off →
      Goes (.powerSample w dies) s (setReg PWR_PKG_POWER (BitVec.ofNat 32 (min (mean ((w :: s.pwr.samples).take 50)) 8191)) (s.onPwr fun p => { p with
        samples := (w :: p.samples).take 50
        dieWatts := dies.foldl (fun t d => tmod [] t d.1 fun l => (d.2 :: l).take 50) p.dieWatts })))
  ∧ (∀ (ms : List DieModel) (na idle : Nat) (s : State), fwRuns s = true → s.pwr.stage ≠ .training → s.pwr.stage ≠ .selfTest → s.pwr.thermTrip = false →
      getFld s PWR_STATUS 3 1 ≠ 1 → s.pans = [] →
      let budget := 980 * effCap s - 1000 * na
      let fit := clockSteps.find? fun f => match diesPower ms [] f with | some n => decide (n + idle ≤ budget) | none => false
      let s1 := setFld PWR_STATUS 1 1 (b2n fit.isNone) (setFld PWR_STATUS 0 1 (b2n (decide (fit.getD 500 < 1250)))
        (setReg PWR_ARR_BUDGET (BitVec.ofNat 32 (budget / 1000)) (s.onPwr fun p => { p with govSteps := if s.pwr.hot.isEmpty then 0 else s.pwr.govSteps + 1 })))
      Goes (.governorTick ms na idle) s ((List.range 9).foldl (fun t r => match rowVolts ms t [] r with | some v => setFld (PWR_ROW_VDD r) 0 10 v t | none => t)
        ((List.range 74).foldl (fun t p => if !(getDie t p).islandOn then t else modDie p (fun d => { d with clockOn := false }) t) s1)))
  ∧ (∀ (d : Fin 74) (s : State), (getDie s d).islandOn = true → (getDie s d).drooped = false →
      Goes (.droopDetect d) s (present (faultOf 0x0702 d 0xFF 0) (lifeAdd (0x1018 + 64 * d.val) 8 1 (bump PWR_DROOP_COUNT
        (setClock d (getDie s d).mhz (modDie d (fun d => { d with drooped := true }) s))))))
  ∧ (∀ (d : Fin 74) (s : State), (getDie s d).drooped = true →
      Goes (.droopRecover d) s (setClock d (getDie s d).mhz (modDie d (fun d => { d with drooped := false }) s)))
  ∧ (∀ (temps : List (Nat × Nat)) (s : State), s.pwr.stage ≠ .off → s.pwr.pwrGood = true →
      let s1 := (temps.filter fun q => decide (q.1 < 0x80)).foldl readTemp ((temps.filter fun q => decide (0x80 ≤ q.1)).foldl deviceTemp s)
      let s2 := match hottest s1.pwr.temps with
        | some q => setReg PWR_TEMP_MAX (BitVec.ofNat 32 (min q.2 255 + 256 * q.1)) s1
        | none => s1
      let s3 := setFld PWR_STATUS 2 1 (b2n (!s2.pwr.hot.isEmpty || s2.arr.dies.any fun d => d.2.throttled)) s2
      Goes (.thermalSample temps) s (match temps.find? fun q => decide (q.1 < 0x80) && decide (110 ≤ q.2) with
        | some q => tripAt q.1 s3
        | none => s3))
  ∧ (∀ (r : Fin 7) (s : State), s.pwr.pwrGood = true →
      Goes (.railFault r) s (present (faultOf 0x0703 0xFF 0xFF 0) (setFld PWR_RAIL_STATUS (8 + r.val) 1 1 (setFld PWR_RAIL_STATUS r 1 0 s))))

/-- Management (R375, R402, R429): while VDD_STBY is up the sideband reads are answered with the power, the temperature, a free status word, a sensor's reading, a range of the lifetime record and the standby items; TRST_N low resets the test controller. -/
def Obligations.ManagementCompletion : Prop :=
  (∀ (s : State), stbyUp s = true → Goes .readPin s (answer (leBytes 2 (getFld s PWR_PKG_POWER 0 13)) s))
  ∧ (∀ (s : State), stbyUp s = true → Goes .readTemperature1 s (answer (leBytes 2 (getFld s PWR_TEMP_MAX 0 8)) s))
  ∧ (∀ (s : State), stbyUp s = true →
      Goes .statusWord s (answer (leBytes 2 (draw Config.freeWord s).1.toNat) (draw Config.freeWord s).2) ∧ (draw Config.freeWord s).2 = { s with free := s.free + 1 })
  ∧ (∀ (k v : Nat) (s : State), stbyUp s = true → sensorReading s k = some v → Goes (.pldmSensorRead k) s (answer (leBytes 4 v) s))
  ∧ (∀ (k : Nat) (s : State), sensorReading s k = none → Goes (.pldmSensorRead k) s s)
  ∧ (∀ (off n : Nat) (s : State), fwRuns s = true → n ≤ 1024 → off + n ≤ 0x400000 → Goes (.mctpLifetimeRead off n) s (answer (lifeBytes s off n) s))
  ∧ (∀ (k : Nat) (b : List Byte) (s : State), stbyUp s = true → stbyItem s k = some b → Goes (.mctpStbyRead k) s (answer b s))
  ∧ (∀ (tck tms tdi : Bool) (s : State), stbyUp s = true →
      Goes (.boundaryScan tck tms tdi false) s (s.onPwr fun p => { p with tap := .reset, instr := Config.idcodeInstr, tck := tck })
      ∧ (s.pwr.tck = false → Goes (.boundaryScan true tms tdi true) s ((tckRise tms tdi s).onPwr fun p => { p with tck := true }))
      ∧ (s.pwr.tck = true → Goes (.boundaryScan false tms tdi true) s ((tckFall s).onPwr fun p => { p with tck := false })))
/-! ### Registers and counters (chapter 0 and the register tables) -/

/-- R6: a read or a write at another width than a register's own, or at an address where no register lies, reads 0 and writes nothing. -/
def Obligations.RegisterAccessWidth : Prop :=
  (∀ (s : State) (a w : Nat), (∀ r, regRow (physAddr s a) = some r → w ≠ (if r.wide then 8 else 4)) → readReg s a w = 0)
  ∧ (∀ (space : RegSpace) (w : Nat) (v : Dword) (s : State),
      let a := match space with
        | .ctl a => a.toNat
        | .bar0 fn o => 0x100000000 + fn.toNat * 0x10000 + o.toNat
      (∀ r, regRow (physAddr s a) = some r → w ≠ (if r.wide then 8 else 4)) → Goes (.registerWrite space w v) s s)

/-- A write by the access codes of Table 0.2 (R7, R8, R401): every field takes what its code says, reserved bits stay 0 and no other register changes; a
read returns no bit of a reserved or a write-only field. -/
def Obligations.RegisterAccessCodes : Prop :=
  (∀ (a : Nat) (r : RegRow) (v : Nat) (s : State), Canonical s → regRow a = some r → r.wide = false →
      (∀ f ∈ r.fields,
        let new := getFld (genericWrite a v s) a f.lo f.width
        let old := getFld s a f.lo f.width
        let w := bits v f.lo f.width
        (f.acc = .ro → new = old) ∧ (f.acc = .rw → new = w) ∧ (f.acc = .wo → new = w)
        ∧ (f.acc = .rwl → getFld s FW_LOCK 0 1 = 1 → new = old) ∧ (f.acc = .rwl → getFld s FW_LOCK 0 1 ≠ 1 → new = w)
        ∧ (f.acc = .w1c → ∀ i < f.width, bit new i = (bit old i && !bit w i))
        ∧ (f.acc = .w1s → ∀ i < f.width, bit new i = (bit old i || bit w i)))
      ∧ (∀ i, i < 32 → (∀ f ∈ r.fields, ¬(f.lo ≤ i ∧ i < f.lo + f.width)) → bit (getReg (genericWrite a v s) a).toNat i = false)
      ∧ (∀ b, b ≠ a → getReg (genericWrite a v s) b = getReg s b))
  ∧ (∀ (s : State) (a w i : Nat) (r : RegRow), regRow (physAddr s a) = some r →
      (∀ f ∈ r.fields, f.lo ≤ i → i < f.lo + f.width → f.acc = .wo) → bit (readReg s a w) i = false)

/-- Counters (R97, R128, R372): a counter counts up and stops at 0xFFFF_FFFF, no other register changes, and the 64-bit accumulator beside a bittern
counter takes every count and does not stop with it. -/
def Obligations.CountersSaturate : Prop :=
  ∀ (a n : Nat) (s : State), Canonical s →
    (getReg (bumpBy a n s) a).toNat = min ((getReg s a).toNat + n) 0xFFFFFFFF
    ∧ (∀ b, b ≠ a → getReg (bumpBy a n s) b = getReg s b)
    ∧ tget 0 (bumpBy a n s).acc a = tget 0 s.acc a + (if isBittern a then n else 0)
    ∧ (∀ b, b ≠ a → tget 0 (bumpBy a n s).acc b = tget 0 s.acc b)
    ∧ bumpBy a n s = { s with regs := (bumpBy a n s).regs, acc := (bumpBy a n s).acc }

/-! ### Memory -/

/-- Memory: what is written is read back, bytes outside a write or a zeroing stay as they were, a zeroed range reads 0, and the canonical form is kept. -/
def Obligations.MemoryReadAfterWrite : Prop :=
  (∀ (m : Mem) (a : Nat) (bs : List Byte), Memory.wf m = true →
      memRead (memWrite m a bs) a bs.length = bs ∧ Memory.wf (memWrite m a bs) = true)
  ∧ (∀ (m : Mem) (a b : Nat) (bs : List Byte), Memory.wf m = true → b < a ∨ a + bs.length ≤ b → memGet (memWrite m a bs) b = memGet m b)
  ∧ (∀ (m : Mem) (a n : Nat), Memory.wf m = true → Memory.wf (memZero m a n) = true
      ∧ ∀ b, memGet (memZero m a n) b = if a ≤ b ∧ b < a + n then 0 else memGet m b)

/-- What goes to a host buffer: the bytes of the record or of the object's range stand in host memory from the command's address on, every other byte of host memory stays as
it was, and no byte of the tiers changes. -/
def Obligations.HostReadFrame : Prop :=
  let wrote (i : Instr) (m : Cmd) (at' : Nat) (n : Nat) (s : State) : Prop := Completes i s fun t =>
    t.mem = s.mem ∧ t.arr = s.arr ∧ t.seq = s.seq ∧ t.ctxs = s.ctxs ∧ t.mdl = s.mdl
      ∧ ∀ b, b < hostAddr s m.ctx at' ∨ hostAddr s m.ctx at' + n ≤ b → memGet t.host.mem b = memGet s.host.mem b
  (∀ (c : CmdRef) (m : Cmd) (s : State), Starts 0x0206 c m s → Memory.wf s.host.mem = true →
      accessHeld s m (m.f 0 0 32) (m.p 1) (m.p 3) false = false → wrote (.objReadHost c) m (m.p 2) (m.p 3) s)
  ∧ (∀ (c : CmdRef) (m : Cmd) (o : Obj) (s : State), Starts 0x0206 c m s → Memory.wf s.host.mem = true →
      accessHeld s m (m.f 0 0 32) (m.p 1) (m.p 3) false = false → objFor (markStarted m s) m (m.f 0 0 32) = some o →
      let b := storageOf (markStarted m s) o
      outside b (m.p 1) (m.p 3) = false → b.lost = false →
      Completes (.objReadHost c) s fun t =>
        memRead t.host.mem (hostAddr s m.ctx (m.p 2)) (m.p 3) = objBytes (markStarted m s) b (m.p 1) (m.p 3))
  ∧ (∀ (c : CmdRef) (m : Cmd) (s : State), Starts 0x0103 c m s → Memory.wf s.host.mem = true →
      wrote (.ctxQuery c) m (m.p 0) (queryRecord s m.ctx).length s)
  ∧ (∀ (c : CmdRef) (m : Cmd) (s : State), Starts 0x0701 c m s → Memory.wf s.host.mem = true →
      wrote (.fltRead c) m (m.p 0) (s.flt.history.map histBytes).flatten.length s)
  ∧ (∀ (c : CmdRef) (m : Cmd) (s : State), Starts 0x0703 c m s → Memory.wf s.host.mem = true → wrote (.lifeRead c) m (m.p 0) (m.p 2) s)
  ∧ (∀ (c : CmdRef) (m : Cmd) (s : State), Starts 0x0805 c m s → Memory.wf s.host.mem = true →
      wrote (.fabricStatus c) m (m.p 0) (fabricRecord (markStarted m s)).length s)

/-- A tier access that writes: the bytes of the request stand from its address on, every other byte of the tiers stays as it was, and nothing but the tiers' contents changes; an
access that a die refuses changes no byte. -/
def Obligations.TierWriteFrame : Prop :=
  (∀ (die : Fin 16) (req : TierReq) (o : MediaOutcome) (s : State), Memory.wf s.mem.bytes = true → serves s die req.addr.toNat = true →
      (req.fw = true ∨ mayReach s req.ctx req.addr.toNat = true) → req.write = true →
      Completes (.tierAccess die req o) s fun t =>
        t = { s with mem := { s.mem with bytes := t.mem.bytes, writeBacks := t.mem.writeBacks } }
          ∧ memRead t.mem.bytes req.addr.toNat req.data.length = req.data
          ∧ ∀ b, b < req.addr.toNat ∨ req.addr.toNat + req.data.length ≤ b → memGet t.mem.bytes b = memGet s.mem.bytes b)
  ∧ (∀ (die : Fin 16) (req : TierReq) (o : MediaOutcome) (s : State),
      serves s die req.addr.toNat = false ∨ (req.fw = false ∧ mayReach s req.ctx req.addr.toNat = false) →
      Completes (.tierAccess die req o) s fun t => t = { s with regs := t.regs, acc := t.acc, flt := t.flt, mem := { s.mem with reply := none } })

/-! ### Command order, faults, time and the numbers -/

/-- R292: a command with ORDERED set starts only once every command accepted before it on the same queue has completed; but for that, ORDERED holds nothing back. A command that may
not start leaves the state as it is. -/
def Obligations.OrderedCommands : Prop :=
  (∀ (s : State) (m : Cmd), m.ordered = true →
      (startable s m = true ↔ startable s { m with ordered := false } = true
        ∧ ∀ k ∈ outstanding s m.ctx, k.queue = m.queue → m.seqno ≤ k.seqno))
  ∧ (∀ (op : Nat) (c : CmdRef) (m : Cmd) (s : State) (held : Cmd → Bool) (body : Cmd → State → State),
      findCmd s c = some m → startable s m = false → startHeld op c s held body = s)

/-- R358: corrected sources permit LOG and INTR; contained ones INTR and NMI, and BLOCK_RESET on an array die; fatal ones CHIP_RESET and ALIVE_STOP, and BLOCK_RESET on a port die or
a far die; the fixed ones none. FLT_CONFIG sets a permitted reaction and ends with ST_BAD_PARAM, DETAIL 7, on any other; a chip
reset restores every source's default. -/
def Obligations.PermittedReactions : Prop :=
  (∀ r ∈ sourceRows, ∀ k : Nat, k < 8 →
      (mayReact r.id k = true ↔ r.fixed = false
        ∧ ((r.cls = 1 ∧ (k = 0 ∨ k = 1)) ∨ (r.cls = 2 ∧ (k = 1 ∨ k = 2 ∨ (k = 3 ∧ r.id < 0x0200)))
          ∨ (r.cls = 3 ∧ (k = 4 ∨ k = 5 ∨ (k = 3 ∧ (r.id = 0x0305 ∨ r.id = 0x0313)))))))
  ∧ (∀ (c : CmdRef) (m : Cmd) (s : State), Starts 0x0702 c m s →
      (mayReact (m.f 0 0 16) (m.f 0 16 3) = true → Completes (.fltConfig c) s fun t =>
        (getSrc t (m.f 0 0 16)).reaction = some (m.f 0 16 3) ∧ ∀ i, i ≠ m.f 0 0 16 → getSrc t i = getSrc s i)
      ∧ (mayReact (m.f 0 0 16) (m.f 0 16 3) = false → Goes (.fltConfig c) s (endFail m (stBadParam 7) (markStarted m s))))
  ∧ (∀ (s : State), ∀ r ∈ sourceRows, reactionOf (chipReset s) r = r.dflt)

/-- R382: PAN_CREATE clears the pan's histograms and totals, and so does PMC_PAN_CLR, of the pan that PMC_PAN_SEL selects alone; PAN_RELEASE, and the end of the release, leave all of
them as they are. -/
def Obligations.PanHistograms : Prop :=
  (∀ (n : Fin 16) (p : Pan) (s : State), getPan s n = some p → p.releasing = true → p.wave = none → p.run = none → drained s n p = true →
      Completes (.stepBoundaryDrain n) s fun t => ∀ k, getHist t k = getHist s k)
  ∧ (∀ (c : CmdRef) (m : Cmd) (s : State), Starts 0x0304 c m s → Completes (.panRelease c) s fun t => ∀ k, getHist t k = getHist s k)
  ∧ (∀ (v : Word) (s : State), Canonical s → bit v.toNat 0 = true → Completes (.pmcPanClr v) s fun t =>
      ∀ k, getHist t k = if k = getFld s PMC_PAN_SEL 0 4 then PanHist.fresh else getHist s k)
  ∧ (∀ (c : CmdRef) (m : Cmd) (n : Nat) (s : State), Canonical s → Starts 0x0303 c m s → getFld (markStarted m s) FW_STATUS 5 1 ≠ 1 →
      createRefusal (markStarted m s) (m.f 0 0 3) (m.f 0 8 4) (m.f 0 16 4) (m.f 0 20 4) = none → firstFree (tkeys (markStarted m s).pans) 16 0 = some n →
      Completes (.panCreate c) s fun t => ∀ k, getHist t k = if k = n then PanHist.fresh else getHist s k)

/-- R193: the predicted time in sixteenths of a nanosecond is the least whole number that is not below (BASE_NS + TOK_NS × N + CTX_NS × C ÷ 1,024) × 1,250 ÷ f × 16, with a token for
every padding row; the step builder takes N and C as sums over the rows that it builds, and f is the lowest clock among the pan's dies. -/
def Obligations.PredictedTime : Prop :=
  (∀ (ct : CostTable) (f rows tokens c x : Nat), 0 < f →
      let n := tokens + (padRows ct.rowGranule rows - rows)
      (predict ct f rows tokens c ≤ x ↔ 16 * 1250 * (1024 * (ct.baseNs + ct.tokNs * n) + ct.ctxNs * c) ≤ 1024 * f * x))
  ∧ (∀ (pan : Nat) (p : Pan) (g : PanCfg) (s : State),
      let b := buildRows pan p g s
      b.tokens = (b.rows.map (·.tokens)).foldl (· + ·) 0 ∧ b.ctxTokens = (b.rows.map fun r => r.position + r.tokens).foldl (· + ·) 0
        ∧ buildTime p g b = predict g.cost (panMhz b.st p) b.rows.length b.tokens b.ctxTokens)
  ∧ (∀ (g rows : Nat), 0 < g → rows ≤ padRows g rows ∧ padRows g rows < rows + g ∧ padRows g rows % g = 0)
  ∧ (∀ (s : State) (p : Pan), (∀ d ∈ panDies s p, panMhz s p ≤ getFld s (ARR_CLK d) 0 12)
      ∧ (panDies s p ≠ [] → ∃ d ∈ panDies s p, panMhz s p = getFld s (ARR_CLK d) 0 12))

/-- R67, R80, R84: in every layout of Table 3.2, a code that is not a NaN is what the value that it encodes rounds to; a NaN is written as the layout's canonical code. -/
def Obligations.NumericRoundTrip : Prop :=
  (∀ f ∈ [fp32, bf16, e4m3, e5m2, e3m2, e2m3, e2m1], ∀ x : Nat, x < 2 ^ (1 + f.eb + f.mb) → (f.decode x).isNan = false → f.encode (f.decode x) = x)
  ∧ fp32.encode .nan = 0x7FC00000 ∧ bf16.encode .nan = 0x7FC0 ∧ e4m3.encode .nan = 0x7F ∧ e5m2.encode .nan = 0x7E
  ∧ (∀ w : Word, toFp (fpOf w) = if (fpOf w).isNan then 0x7FC00000 else w)

/-- R158: the sweep frees every archive whose clock deadline has come and that no accepted resume holds, and keeps every other. -/
def Obligations.TtlWindow : Prop :=
  ∀ s : State, Completes .ttlSweep s fun t =>
    (∀ a ∈ t.seq.archives, s.seq.ttlClock < a.deadline ∨ resumeAccepted s a = true)
    ∧ (∀ a ∈ s.seq.archives, (∀ b ∈ s.seq.archives, b.handle = a.handle → b = a) → (s.seq.ttlClock < a.deadline ∨ resumeAccepted s a = true) → a ∈ t.seq.archives)

/-! ### Frames -/

/-- The array's own events change nothing but what they name: no command, no context, no object, no host memory and no model changes by them. -/
def Obligations.ArrayFrame : Prop :=
  (∀ (r : TileRef) (s t : State), exec (.tileCycle r) s = .next t →
      t = { s with free := t.free, regs := t.regs, acc := t.acc, arr := t.arr, mem := t.mem, seq := t.seq, flt := t.flt })
  ∧ (∀ (r : TileRef) (p : Port) (e : Bool) (s t : State), exec (.flitArrival r p e) s = .next t →
      t = { s with regs := t.regs, arr := t.arr, flt := t.flt })
  ∧ (∀ (i : Instr) (s t : State), (∃ r p q, i = .creditReturn r p q) ∨ (∃ r, i = .weightFillDone r) ∨ (∃ r, i = .fp32FlushSecondPush r)
      ∨ (∃ d k, i = .spillSegmentEmpty d k) ∨ (∃ d v, i = .pmcHwmClr d v) →
      exec i s = .next t → t = { s with arr := t.arr })
  ∧ (∀ (k : Fin 74) (n : VNet) (s t : State), exec (.routerPacket k n) s = .next t → t = { s with arr := t.arr, mem := t.mem })
  ∧ (∀ (d : Fin 74) (k : Nat) (s t : State), exec (.spillRefill d k) s = .next t → t = { s with regs := t.regs, acc := t.acc, arr := t.arr })
  ∧ (∀ (i : Instr) (s t : State), (∃ d v, i = .arrArithClr d v) ∨ (∃ d v, i = .spillHwmClear d v) → exec i s = .next t → t = { s with regs := t.regs })
  ∧ (∀ (i : Instr) (s t : State), (∃ d, i = .droopDetect d) ∨ (∃ d p q h l, i = .exchangePacket d p q h l) → exec i s = .next t →
      t = { s with regs := t.regs, acc := t.acc, arr := t.arr, flt := t.flt })
  ∧ (∀ (d : Fin 74) (e : BitVec 10) (row : Nat) (s t : State), exec (.rowFetchDone d e row) s = .next t →
      t = { s with free := t.free, regs := t.regs, acc := t.acc, arr := t.arr, flt := t.flt })

/-- The links' own events change nothing but the links, their registers and what they report: no command, no context, no object, no journal changes by them. -/
def Obligations.LinkFrame : Prop :=
  (∀ (i : Instr) (j : Fin 48) (s t : State), i = .linkEnable j ∨ i = .moduleInsert j ∨ i = .linkDown j ∨ i = .linkDownRetry j →
      exec i s = .next t → t = { s with free := t.free, regs := t.regs, lnk := t.lnk })
  ∧ (∀ (j : Fin 48) (s t : State), exec (.linkSignalDetect j) s = .next t → t = { s with regs := t.regs })
  ∧ (∀ (j : Fin 48) (s t : State), exec (.discoveryRecordSend j) s = .next t → t = { s with lnk := t.lnk })
  ∧ (∀ (i : Instr) (j : Fin 48) (s t : State), i = .moduleRemove j ∨ (∃ b, i = .ackTimeout j b) ∨ (∃ x, i = .cmisPoll j x) ∨ (∃ o, i = .linkTraining j o) →
      exec i s = .next t → t = { s with free := t.free, regs := t.regs, acc := t.acc, flt := t.flt, lnk := t.lnk })
  ∧ (∀ (d : BitVec 10) (s t : State), exec (.noRouteTimeout d) s = .next t → t = { s with regs := t.regs, acc := t.acc, lnk := t.lnk })

/-- Commands that configure or ask change only what is theirs and the commands' ends: no byte of host memory and no sequence but where they bind one. -/
def Obligations.CommandFrame : Prop :=
  (∀ (i : Instr) (c : CmdRef) (s t : State), i = .objFree c ∨ i = .objShare c ∨ (∃ b, i = .ctxKeyImport c b) → exec i s = .next t →
      t = { s with regs := t.regs, acc := t.acc, ctxs := t.ctxs, cmds := t.cmds, cmt := t.cmt })
  ∧ (∀ (c : CmdRef) (s t : State), exec (.ctxSetQuota c) s = .next t →
      t = { s with regs := t.regs, acc := t.acc, ctxs := t.ctxs, cmds := t.cmds, mem := t.mem, cmt := t.cmt, flt := t.flt })
  ∧ (∀ (i : Instr) (c : CmdRef) (s t : State), i = .fltConfig c ∨ i = .testForce c → exec i s = .next t →
      t = { s with regs := t.regs, acc := t.acc, cmds := t.cmds, cmt := t.cmt, flt := t.flt })
  ∧ (∀ (i : Instr) (c : CmdRef) (s t : State), i = .adpLoad c ∨ i = .adpUnload c ∨ i = .embTableCreate c ∨ i = .modelEvict c →
      exec i s = .next t → t = { s with regs := t.regs, acc := t.acc, cmds := t.cmds, cmt := t.cmt, mdl := t.mdl })
  ∧ (∀ (c : CmdRef) (s t : State), exec (.embVersionSwitch c) s = .next t →
      t = { s with regs := t.regs, acc := t.acc, cmds := t.cmds, arr := t.arr, cmt := t.cmt, mdl := t.mdl })
  ∧ (∀ (i : Instr) (c : CmdRef) (s t : State), i = .adpBind c ∨ i = .specPolicy c → exec i s = .next t →
      t = { s with regs := t.regs, acc := t.acc, cmds := t.cmds, seq := t.seq, cmt := t.cmt })
  ∧ (∀ (c : CmdRef) (s t : State), exec (.panRelease c) s = .next t → t = { s with regs := t.regs, acc := t.acc, cmds := t.cmds, pans := t.pans, cmt := t.cmt })
  ∧ (∀ (i : Instr) (c : CmdRef) (s t : State), i = .fence c ∨ i = .commandDeadlineExpiry c ∨ (∃ n, i = .testPattern c n) → exec i s = .next t →
      t = { s with regs := t.regs, acc := t.acc, cmds := t.cmds, cmt := t.cmt })
end

