-- ==== Sys2Proof/Laws/Commands.lean ====
section
/-! SUPPORT. What the shared operations over commands do: when a command starts, runs, or is not due. -/

namespace Sys2Proof.Machine

/-- A command that may start runs its body on the state in which it is marked started. -/
theorem startHeld_of_starts {op : Nat} {c : CmdRef} {m : Cmd} {s : State} (h : Starts op c m s) {held : Cmd → Bool} (hh : held m = false)
    (body : Cmd → State → State) : startHeld op c s held body = body m (markStarted m s) := by
  obtain ⟨h1, h2, h3, h4⟩ := h
  simp [startHeld, h1, h2, h3, h4, hh]

/-- A command that no rule of its own holds runs its body. -/
theorem startCmd_of_starts {op : Nat} {c : CmdRef} {m : Cmd} {s : State} (h : Starts op c m s) (body : Cmd → State → State) :
    startCmd op c s body = body m (markStarted m s) := startHeld_of_starts h rfl body

/-- A command that its own rule holds leaves the state as it is. -/
theorem startHeld_of_held {op : Nat} {c : CmdRef} {m : Cmd} {s : State} (h : findCmd s c = some m) {held : Cmd → Bool} (hh : held m = true)
    (body : Cmd → State → State) : startHeld op c s held body = s := by
  simp [startHeld, h, hh]

/-- A running command's later part is applied. -/
theorem whileRunning_of_running {op : Nat} {c : CmdRef} {m : Cmd} {s : State} (h : Running op c m s) (f : Cmd → State → State) :
    whileRunning op c s f = f m s := by
  obtain ⟨h1, h2, h3⟩ := h
  simp [whileRunning, h1, h2, h3]

/-- A reserved parameter bit set ends the command with ST_BAD_PARAM, DETAIL 7. -/
theorem startHeld_reserved {op : Nat} {c : CmdRef} {m : Cmd} {s : State} (h : findCmd s c = some m) (ho : m.opcode.toNat = op)
    (hs : startable s m = true) (hm : maskOk ((opRow op).map (·.masks) |>.getD []) m.params = false) {held : Cmd → Bool} (hh : held m = false)
    (body : Cmd → State → State) : startHeld op c s held body = endFail m (stBadParam 7) s := by
  simp [startHeld, h, ho, hs, hm, hh]

/-- Where no accepted command has the reference, nothing happens. -/
theorem startHeld_absent {op : Nat} {c : CmdRef} {s : State} (h : findCmd s c = none) (held : Cmd → Bool) (body : Cmd → State → State) :
    startHeld op c s held body = s := by
  simp [startHeld, h]

end Sys2Proof.Machine
end

