-- ==== Sys2Proof/Laws/State.lean ====
section
/-! SUPPORT. What each update of the state leaves in each field; true by unfolding, so that no proof unfolds a record update. -/

namespace Sys2Proof.Machine

/-! ### onHost -/

@[simp] theorem State.onHost_pending (f : HostPort → HostPort) (s : State) : (s.onHost f).pending = s.pending := rfl
@[simp] theorem State.onHost_tick (f : HostPort → HostPort) (s : State) : (s.onHost f).tick = s.tick := rfl
@[simp] theorem State.onHost_cd0ResetAt (f : HostPort → HostPort) (s : State) : (s.onHost f).cd0ResetAt = s.cd0ResetAt := rfl
@[simp] theorem State.onHost_free (f : HostPort → HostPort) (s : State) : (s.onHost f).free = s.free := rfl
@[simp] theorem State.onHost_regs (f : HostPort → HostPort) (s : State) : (s.onHost f).regs = s.regs := rfl
@[simp] theorem State.onHost_acc (f : HostPort → HostPort) (s : State) : (s.onHost f).acc = s.acc := rfl
@[simp] theorem State.onHost_host (f : HostPort → HostPort) (s : State) : (s.onHost f).host = f s.host := rfl
@[simp] theorem State.onHost_ctxs (f : HostPort → HostPort) (s : State) : (s.onHost f).ctxs = s.ctxs := rfl
@[simp] theorem State.onHost_cmds (f : HostPort → HostPort) (s : State) : (s.onHost f).cmds = s.cmds := rfl
@[simp] theorem State.onHost_arr (f : HostPort → HostPort) (s : State) : (s.onHost f).arr = s.arr := rfl
@[simp] theorem State.onHost_pans (f : HostPort → HostPort) (s : State) : (s.onHost f).pans = s.pans := rfl
@[simp] theorem State.onHost_balances (f : HostPort → HostPort) (s : State) : (s.onHost f).balances = s.balances := rfl
@[simp] theorem State.onHost_mem (f : HostPort → HostPort) (s : State) : (s.onHost f).mem = s.mem := rfl
@[simp] theorem State.onHost_seq (f : HostPort → HostPort) (s : State) : (s.onHost f).seq = s.seq := rfl
@[simp] theorem State.onHost_cmt (f : HostPort → HostPort) (s : State) : (s.onHost f).cmt = s.cmt := rfl
@[simp] theorem State.onHost_flt (f : HostPort → HostPort) (s : State) : (s.onHost f).flt = s.flt := rfl
@[simp] theorem State.onHost_mdl (f : HostPort → HostPort) (s : State) : (s.onHost f).mdl = s.mdl := rfl
@[simp] theorem State.onHost_lnk (f : HostPort → HostPort) (s : State) : (s.onHost f).lnk = s.lnk := rfl
@[simp] theorem State.onHost_pmc (f : HostPort → HostPort) (s : State) : (s.onHost f).pmc = s.pmc := rfl
@[simp] theorem State.onHost_fw (f : HostPort → HostPort) (s : State) : (s.onHost f).fw = s.fw := rfl
@[simp] theorem State.onHost_pwr (f : HostPort → HostPort) (s : State) : (s.onHost f).pwr = s.pwr := rfl

/-! ### onCtxs -/

@[simp] theorem State.onCtxs_pending (f : Tab Ctx → Tab Ctx) (s : State) : (s.onCtxs f).pending = s.pending := rfl
@[simp] theorem State.onCtxs_tick (f : Tab Ctx → Tab Ctx) (s : State) : (s.onCtxs f).tick = s.tick := rfl
@[simp] theorem State.onCtxs_cd0ResetAt (f : Tab Ctx → Tab Ctx) (s : State) : (s.onCtxs f).cd0ResetAt = s.cd0ResetAt := rfl
@[simp] theorem State.onCtxs_free (f : Tab Ctx → Tab Ctx) (s : State) : (s.onCtxs f).free = s.free := rfl
@[simp] theorem State.onCtxs_regs (f : Tab Ctx → Tab Ctx) (s : State) : (s.onCtxs f).regs = s.regs := rfl
@[simp] theorem State.onCtxs_acc (f : Tab Ctx → Tab Ctx) (s : State) : (s.onCtxs f).acc = s.acc := rfl
@[simp] theorem State.onCtxs_host (f : Tab Ctx → Tab Ctx) (s : State) : (s.onCtxs f).host = s.host := rfl
@[simp] theorem State.onCtxs_ctxs (f : Tab Ctx → Tab Ctx) (s : State) : (s.onCtxs f).ctxs = f s.ctxs := rfl
@[simp] theorem State.onCtxs_cmds (f : Tab Ctx → Tab Ctx) (s : State) : (s.onCtxs f).cmds = s.cmds := rfl
@[simp] theorem State.onCtxs_arr (f : Tab Ctx → Tab Ctx) (s : State) : (s.onCtxs f).arr = s.arr := rfl
@[simp] theorem State.onCtxs_pans (f : Tab Ctx → Tab Ctx) (s : State) : (s.onCtxs f).pans = s.pans := rfl
@[simp] theorem State.onCtxs_balances (f : Tab Ctx → Tab Ctx) (s : State) : (s.onCtxs f).balances = s.balances := rfl
@[simp] theorem State.onCtxs_mem (f : Tab Ctx → Tab Ctx) (s : State) : (s.onCtxs f).mem = s.mem := rfl
@[simp] theorem State.onCtxs_seq (f : Tab Ctx → Tab Ctx) (s : State) : (s.onCtxs f).seq = s.seq := rfl
@[simp] theorem State.onCtxs_cmt (f : Tab Ctx → Tab Ctx) (s : State) : (s.onCtxs f).cmt = s.cmt := rfl
@[simp] theorem State.onCtxs_flt (f : Tab Ctx → Tab Ctx) (s : State) : (s.onCtxs f).flt = s.flt := rfl
@[simp] theorem State.onCtxs_mdl (f : Tab Ctx → Tab Ctx) (s : State) : (s.onCtxs f).mdl = s.mdl := rfl
@[simp] theorem State.onCtxs_lnk (f : Tab Ctx → Tab Ctx) (s : State) : (s.onCtxs f).lnk = s.lnk := rfl
@[simp] theorem State.onCtxs_pmc (f : Tab Ctx → Tab Ctx) (s : State) : (s.onCtxs f).pmc = s.pmc := rfl
@[simp] theorem State.onCtxs_fw (f : Tab Ctx → Tab Ctx) (s : State) : (s.onCtxs f).fw = s.fw := rfl
@[simp] theorem State.onCtxs_pwr (f : Tab Ctx → Tab Ctx) (s : State) : (s.onCtxs f).pwr = s.pwr := rfl

/-! ### onCmds -/

@[simp] theorem State.onCmds_pending (f : List Cmd → List Cmd) (s : State) : (s.onCmds f).pending = s.pending := rfl
@[simp] theorem State.onCmds_tick (f : List Cmd → List Cmd) (s : State) : (s.onCmds f).tick = s.tick := rfl
@[simp] theorem State.onCmds_cd0ResetAt (f : List Cmd → List Cmd) (s : State) : (s.onCmds f).cd0ResetAt = s.cd0ResetAt := rfl
@[simp] theorem State.onCmds_free (f : List Cmd → List Cmd) (s : State) : (s.onCmds f).free = s.free := rfl
@[simp] theorem State.onCmds_regs (f : List Cmd → List Cmd) (s : State) : (s.onCmds f).regs = s.regs := rfl
@[simp] theorem State.onCmds_acc (f : List Cmd → List Cmd) (s : State) : (s.onCmds f).acc = s.acc := rfl
@[simp] theorem State.onCmds_host (f : List Cmd → List Cmd) (s : State) : (s.onCmds f).host = s.host := rfl
@[simp] theorem State.onCmds_ctxs (f : List Cmd → List Cmd) (s : State) : (s.onCmds f).ctxs = s.ctxs := rfl
@[simp] theorem State.onCmds_cmds (f : List Cmd → List Cmd) (s : State) : (s.onCmds f).cmds = f s.cmds := rfl
@[simp] theorem State.onCmds_arr (f : List Cmd → List Cmd) (s : State) : (s.onCmds f).arr = s.arr := rfl
@[simp] theorem State.onCmds_pans (f : List Cmd → List Cmd) (s : State) : (s.onCmds f).pans = s.pans := rfl
@[simp] theorem State.onCmds_balances (f : List Cmd → List Cmd) (s : State) : (s.onCmds f).balances = s.balances := rfl
@[simp] theorem State.onCmds_mem (f : List Cmd → List Cmd) (s : State) : (s.onCmds f).mem = s.mem := rfl
@[simp] theorem State.onCmds_seq (f : List Cmd → List Cmd) (s : State) : (s.onCmds f).seq = s.seq := rfl
@[simp] theorem State.onCmds_cmt (f : List Cmd → List Cmd) (s : State) : (s.onCmds f).cmt = s.cmt := rfl
@[simp] theorem State.onCmds_flt (f : List Cmd → List Cmd) (s : State) : (s.onCmds f).flt = s.flt := rfl
@[simp] theorem State.onCmds_mdl (f : List Cmd → List Cmd) (s : State) : (s.onCmds f).mdl = s.mdl := rfl
@[simp] theorem State.onCmds_lnk (f : List Cmd → List Cmd) (s : State) : (s.onCmds f).lnk = s.lnk := rfl
@[simp] theorem State.onCmds_pmc (f : List Cmd → List Cmd) (s : State) : (s.onCmds f).pmc = s.pmc := rfl
@[simp] theorem State.onCmds_fw (f : List Cmd → List Cmd) (s : State) : (s.onCmds f).fw = s.fw := rfl
@[simp] theorem State.onCmds_pwr (f : List Cmd → List Cmd) (s : State) : (s.onCmds f).pwr = s.pwr := rfl

/-! ### onArr -/

@[simp] theorem State.onArr_pending (f : Arr → Arr) (s : State) : (s.onArr f).pending = s.pending := rfl
@[simp] theorem State.onArr_tick (f : Arr → Arr) (s : State) : (s.onArr f).tick = s.tick := rfl
@[simp] theorem State.onArr_cd0ResetAt (f : Arr → Arr) (s : State) : (s.onArr f).cd0ResetAt = s.cd0ResetAt := rfl
@[simp] theorem State.onArr_free (f : Arr → Arr) (s : State) : (s.onArr f).free = s.free := rfl
@[simp] theorem State.onArr_regs (f : Arr → Arr) (s : State) : (s.onArr f).regs = s.regs := rfl
@[simp] theorem State.onArr_acc (f : Arr → Arr) (s : State) : (s.onArr f).acc = s.acc := rfl
@[simp] theorem State.onArr_host (f : Arr → Arr) (s : State) : (s.onArr f).host = s.host := rfl
@[simp] theorem State.onArr_ctxs (f : Arr → Arr) (s : State) : (s.onArr f).ctxs = s.ctxs := rfl
@[simp] theorem State.onArr_cmds (f : Arr → Arr) (s : State) : (s.onArr f).cmds = s.cmds := rfl
@[simp] theorem State.onArr_arr (f : Arr → Arr) (s : State) : (s.onArr f).arr = f s.arr := rfl
@[simp] theorem State.onArr_pans (f : Arr → Arr) (s : State) : (s.onArr f).pans = s.pans := rfl
@[simp] theorem State.onArr_balances (f : Arr → Arr) (s : State) : (s.onArr f).balances = s.balances := rfl
@[simp] theorem State.onArr_mem (f : Arr → Arr) (s : State) : (s.onArr f).mem = s.mem := rfl
@[simp] theorem State.onArr_seq (f : Arr → Arr) (s : State) : (s.onArr f).seq = s.seq := rfl
@[simp] theorem State.onArr_cmt (f : Arr → Arr) (s : State) : (s.onArr f).cmt = s.cmt := rfl
@[simp] theorem State.onArr_flt (f : Arr → Arr) (s : State) : (s.onArr f).flt = s.flt := rfl
@[simp] theorem State.onArr_mdl (f : Arr → Arr) (s : State) : (s.onArr f).mdl = s.mdl := rfl
@[simp] theorem State.onArr_lnk (f : Arr → Arr) (s : State) : (s.onArr f).lnk = s.lnk := rfl
@[simp] theorem State.onArr_pmc (f : Arr → Arr) (s : State) : (s.onArr f).pmc = s.pmc := rfl
@[simp] theorem State.onArr_fw (f : Arr → Arr) (s : State) : (s.onArr f).fw = s.fw := rfl
@[simp] theorem State.onArr_pwr (f : Arr → Arr) (s : State) : (s.onArr f).pwr = s.pwr := rfl

/-! ### onPans -/

@[simp] theorem State.onPans_pending (f : Tab (Option Pan) → Tab (Option Pan)) (s : State) : (s.onPans f).pending = s.pending := rfl
@[simp] theorem State.onPans_tick (f : Tab (Option Pan) → Tab (Option Pan)) (s : State) : (s.onPans f).tick = s.tick := rfl
@[simp] theorem State.onPans_cd0ResetAt (f : Tab (Option Pan) → Tab (Option Pan)) (s : State) : (s.onPans f).cd0ResetAt = s.cd0ResetAt := rfl
@[simp] theorem State.onPans_free (f : Tab (Option Pan) → Tab (Option Pan)) (s : State) : (s.onPans f).free = s.free := rfl
@[simp] theorem State.onPans_regs (f : Tab (Option Pan) → Tab (Option Pan)) (s : State) : (s.onPans f).regs = s.regs := rfl
@[simp] theorem State.onPans_acc (f : Tab (Option Pan) → Tab (Option Pan)) (s : State) : (s.onPans f).acc = s.acc := rfl
@[simp] theorem State.onPans_host (f : Tab (Option Pan) → Tab (Option Pan)) (s : State) : (s.onPans f).host = s.host := rfl
@[simp] theorem State.onPans_ctxs (f : Tab (Option Pan) → Tab (Option Pan)) (s : State) : (s.onPans f).ctxs = s.ctxs := rfl
@[simp] theorem State.onPans_cmds (f : Tab (Option Pan) → Tab (Option Pan)) (s : State) : (s.onPans f).cmds = s.cmds := rfl
@[simp] theorem State.onPans_arr (f : Tab (Option Pan) → Tab (Option Pan)) (s : State) : (s.onPans f).arr = s.arr := rfl
@[simp] theorem State.onPans_pans (f : Tab (Option Pan) → Tab (Option Pan)) (s : State) : (s.onPans f).pans = f s.pans := rfl
@[simp] theorem State.onPans_balances (f : Tab (Option Pan) → Tab (Option Pan)) (s : State) : (s.onPans f).balances = s.balances := rfl
@[simp] theorem State.onPans_mem (f : Tab (Option Pan) → Tab (Option Pan)) (s : State) : (s.onPans f).mem = s.mem := rfl
@[simp] theorem State.onPans_seq (f : Tab (Option Pan) → Tab (Option Pan)) (s : State) : (s.onPans f).seq = s.seq := rfl
@[simp] theorem State.onPans_cmt (f : Tab (Option Pan) → Tab (Option Pan)) (s : State) : (s.onPans f).cmt = s.cmt := rfl
@[simp] theorem State.onPans_flt (f : Tab (Option Pan) → Tab (Option Pan)) (s : State) : (s.onPans f).flt = s.flt := rfl
@[simp] theorem State.onPans_mdl (f : Tab (Option Pan) → Tab (Option Pan)) (s : State) : (s.onPans f).mdl = s.mdl := rfl
@[simp] theorem State.onPans_lnk (f : Tab (Option Pan) → Tab (Option Pan)) (s : State) : (s.onPans f).lnk = s.lnk := rfl
@[simp] theorem State.onPans_pmc (f : Tab (Option Pan) → Tab (Option Pan)) (s : State) : (s.onPans f).pmc = s.pmc := rfl
@[simp] theorem State.onPans_fw (f : Tab (Option Pan) → Tab (Option Pan)) (s : State) : (s.onPans f).fw = s.fw := rfl
@[simp] theorem State.onPans_pwr (f : Tab (Option Pan) → Tab (Option Pan)) (s : State) : (s.onPans f).pwr = s.pwr := rfl

/-! ### onBalances -/

@[simp] theorem State.onBalances_pending (f : List BalanceSet → List BalanceSet) (s : State) : (s.onBalances f).pending = s.pending := rfl
@[simp] theorem State.onBalances_tick (f : List BalanceSet → List BalanceSet) (s : State) : (s.onBalances f).tick = s.tick := rfl
@[simp] theorem State.onBalances_cd0ResetAt (f : List BalanceSet → List BalanceSet) (s : State) : (s.onBalances f).cd0ResetAt = s.cd0ResetAt := rfl
@[simp] theorem State.onBalances_free (f : List BalanceSet → List BalanceSet) (s : State) : (s.onBalances f).free = s.free := rfl
@[simp] theorem State.onBalances_regs (f : List BalanceSet → List BalanceSet) (s : State) : (s.onBalances f).regs = s.regs := rfl
@[simp] theorem State.onBalances_acc (f : List BalanceSet → List BalanceSet) (s : State) : (s.onBalances f).acc = s.acc := rfl
@[simp] theorem State.onBalances_host (f : List BalanceSet → List BalanceSet) (s : State) : (s.onBalances f).host = s.host := rfl
@[simp] theorem State.onBalances_ctxs (f : List BalanceSet → List BalanceSet) (s : State) : (s.onBalances f).ctxs = s.ctxs := rfl
@[simp] theorem State.onBalances_cmds (f : List BalanceSet → List BalanceSet) (s : State) : (s.onBalances f).cmds = s.cmds := rfl
@[simp] theorem State.onBalances_arr (f : List BalanceSet → List BalanceSet) (s : State) : (s.onBalances f).arr = s.arr := rfl
@[simp] theorem State.onBalances_pans (f : List BalanceSet → List BalanceSet) (s : State) : (s.onBalances f).pans = s.pans := rfl
@[simp] theorem State.onBalances_balances (f : List BalanceSet → List BalanceSet) (s : State) : (s.onBalances f).balances = f s.balances := rfl
@[simp] theorem State.onBalances_mem (f : List BalanceSet → List BalanceSet) (s : State) : (s.onBalances f).mem = s.mem := rfl
@[simp] theorem State.onBalances_seq (f : List BalanceSet → List BalanceSet) (s : State) : (s.onBalances f).seq = s.seq := rfl
@[simp] theorem State.onBalances_cmt (f : List BalanceSet → List BalanceSet) (s : State) : (s.onBalances f).cmt = s.cmt := rfl
@[simp] theorem State.onBalances_flt (f : List BalanceSet → List BalanceSet) (s : State) : (s.onBalances f).flt = s.flt := rfl
@[simp] theorem State.onBalances_mdl (f : List BalanceSet → List BalanceSet) (s : State) : (s.onBalances f).mdl = s.mdl := rfl
@[simp] theorem State.onBalances_lnk (f : List BalanceSet → List BalanceSet) (s : State) : (s.onBalances f).lnk = s.lnk := rfl
@[simp] theorem State.onBalances_pmc (f : List BalanceSet → List BalanceSet) (s : State) : (s.onBalances f).pmc = s.pmc := rfl
@[simp] theorem State.onBalances_fw (f : List BalanceSet → List BalanceSet) (s : State) : (s.onBalances f).fw = s.fw := rfl
@[simp] theorem State.onBalances_pwr (f : List BalanceSet → List BalanceSet) (s : State) : (s.onBalances f).pwr = s.pwr := rfl

/-! ### onMem -/

@[simp] theorem State.onMem_pending (f : MemState → MemState) (s : State) : (s.onMem f).pending = s.pending := rfl
@[simp] theorem State.onMem_tick (f : MemState → MemState) (s : State) : (s.onMem f).tick = s.tick := rfl
@[simp] theorem State.onMem_cd0ResetAt (f : MemState → MemState) (s : State) : (s.onMem f).cd0ResetAt = s.cd0ResetAt := rfl
@[simp] theorem State.onMem_free (f : MemState → MemState) (s : State) : (s.onMem f).free = s.free := rfl
@[simp] theorem State.onMem_regs (f : MemState → MemState) (s : State) : (s.onMem f).regs = s.regs := rfl
@[simp] theorem State.onMem_acc (f : MemState → MemState) (s : State) : (s.onMem f).acc = s.acc := rfl
@[simp] theorem State.onMem_host (f : MemState → MemState) (s : State) : (s.onMem f).host = s.host := rfl
@[simp] theorem State.onMem_ctxs (f : MemState → MemState) (s : State) : (s.onMem f).ctxs = s.ctxs := rfl
@[simp] theorem State.onMem_cmds (f : MemState → MemState) (s : State) : (s.onMem f).cmds = s.cmds := rfl
@[simp] theorem State.onMem_arr (f : MemState → MemState) (s : State) : (s.onMem f).arr = s.arr := rfl
@[simp] theorem State.onMem_pans (f : MemState → MemState) (s : State) : (s.onMem f).pans = s.pans := rfl
@[simp] theorem State.onMem_balances (f : MemState → MemState) (s : State) : (s.onMem f).balances = s.balances := rfl
@[simp] theorem State.onMem_mem (f : MemState → MemState) (s : State) : (s.onMem f).mem = f s.mem := rfl
@[simp] theorem State.onMem_seq (f : MemState → MemState) (s : State) : (s.onMem f).seq = s.seq := rfl
@[simp] theorem State.onMem_cmt (f : MemState → MemState) (s : State) : (s.onMem f).cmt = s.cmt := rfl
@[simp] theorem State.onMem_flt (f : MemState → MemState) (s : State) : (s.onMem f).flt = s.flt := rfl
@[simp] theorem State.onMem_mdl (f : MemState → MemState) (s : State) : (s.onMem f).mdl = s.mdl := rfl
@[simp] theorem State.onMem_lnk (f : MemState → MemState) (s : State) : (s.onMem f).lnk = s.lnk := rfl
@[simp] theorem State.onMem_pmc (f : MemState → MemState) (s : State) : (s.onMem f).pmc = s.pmc := rfl
@[simp] theorem State.onMem_fw (f : MemState → MemState) (s : State) : (s.onMem f).fw = s.fw := rfl
@[simp] theorem State.onMem_pwr (f : MemState → MemState) (s : State) : (s.onMem f).pwr = s.pwr := rfl

/-! ### onSeq -/

@[simp] theorem State.onSeq_pending (f : ServeState → ServeState) (s : State) : (s.onSeq f).pending = s.pending := rfl
@[simp] theorem State.onSeq_tick (f : ServeState → ServeState) (s : State) : (s.onSeq f).tick = s.tick := rfl
@[simp] theorem State.onSeq_cd0ResetAt (f : ServeState → ServeState) (s : State) : (s.onSeq f).cd0ResetAt = s.cd0ResetAt := rfl
@[simp] theorem State.onSeq_free (f : ServeState → ServeState) (s : State) : (s.onSeq f).free = s.free := rfl
@[simp] theorem State.onSeq_regs (f : ServeState → ServeState) (s : State) : (s.onSeq f).regs = s.regs := rfl
@[simp] theorem State.onSeq_acc (f : ServeState → ServeState) (s : State) : (s.onSeq f).acc = s.acc := rfl
@[simp] theorem State.onSeq_host (f : ServeState → ServeState) (s : State) : (s.onSeq f).host = s.host := rfl
@[simp] theorem State.onSeq_ctxs (f : ServeState → ServeState) (s : State) : (s.onSeq f).ctxs = s.ctxs := rfl
@[simp] theorem State.onSeq_cmds (f : ServeState → ServeState) (s : State) : (s.onSeq f).cmds = s.cmds := rfl
@[simp] theorem State.onSeq_arr (f : ServeState → ServeState) (s : State) : (s.onSeq f).arr = s.arr := rfl
@[simp] theorem State.onSeq_pans (f : ServeState → ServeState) (s : State) : (s.onSeq f).pans = s.pans := rfl
@[simp] theorem State.onSeq_balances (f : ServeState → ServeState) (s : State) : (s.onSeq f).balances = s.balances := rfl
@[simp] theorem State.onSeq_mem (f : ServeState → ServeState) (s : State) : (s.onSeq f).mem = s.mem := rfl
@[simp] theorem State.onSeq_seq (f : ServeState → ServeState) (s : State) : (s.onSeq f).seq = f s.seq := rfl
@[simp] theorem State.onSeq_cmt (f : ServeState → ServeState) (s : State) : (s.onSeq f).cmt = s.cmt := rfl
@[simp] theorem State.onSeq_flt (f : ServeState → ServeState) (s : State) : (s.onSeq f).flt = s.flt := rfl
@[simp] theorem State.onSeq_mdl (f : ServeState → ServeState) (s : State) : (s.onSeq f).mdl = s.mdl := rfl
@[simp] theorem State.onSeq_lnk (f : ServeState → ServeState) (s : State) : (s.onSeq f).lnk = s.lnk := rfl
@[simp] theorem State.onSeq_pmc (f : ServeState → ServeState) (s : State) : (s.onSeq f).pmc = s.pmc := rfl
@[simp] theorem State.onSeq_fw (f : ServeState → ServeState) (s : State) : (s.onSeq f).fw = s.fw := rfl
@[simp] theorem State.onSeq_pwr (f : ServeState → ServeState) (s : State) : (s.onSeq f).pwr = s.pwr := rfl

/-! ### onCmt -/

@[simp] theorem State.onCmt_pending (f : CommitState → CommitState) (s : State) : (s.onCmt f).pending = s.pending := rfl
@[simp] theorem State.onCmt_tick (f : CommitState → CommitState) (s : State) : (s.onCmt f).tick = s.tick := rfl
@[simp] theorem State.onCmt_cd0ResetAt (f : CommitState → CommitState) (s : State) : (s.onCmt f).cd0ResetAt = s.cd0ResetAt := rfl
@[simp] theorem State.onCmt_free (f : CommitState → CommitState) (s : State) : (s.onCmt f).free = s.free := rfl
@[simp] theorem State.onCmt_regs (f : CommitState → CommitState) (s : State) : (s.onCmt f).regs = s.regs := rfl
@[simp] theorem State.onCmt_acc (f : CommitState → CommitState) (s : State) : (s.onCmt f).acc = s.acc := rfl
@[simp] theorem State.onCmt_host (f : CommitState → CommitState) (s : State) : (s.onCmt f).host = s.host := rfl
@[simp] theorem State.onCmt_ctxs (f : CommitState → CommitState) (s : State) : (s.onCmt f).ctxs = s.ctxs := rfl
@[simp] theorem State.onCmt_cmds (f : CommitState → CommitState) (s : State) : (s.onCmt f).cmds = s.cmds := rfl
@[simp] theorem State.onCmt_arr (f : CommitState → CommitState) (s : State) : (s.onCmt f).arr = s.arr := rfl
@[simp] theorem State.onCmt_pans (f : CommitState → CommitState) (s : State) : (s.onCmt f).pans = s.pans := rfl
@[simp] theorem State.onCmt_balances (f : CommitState → CommitState) (s : State) : (s.onCmt f).balances = s.balances := rfl
@[simp] theorem State.onCmt_mem (f : CommitState → CommitState) (s : State) : (s.onCmt f).mem = s.mem := rfl
@[simp] theorem State.onCmt_seq (f : CommitState → CommitState) (s : State) : (s.onCmt f).seq = s.seq := rfl
@[simp] theorem State.onCmt_cmt (f : CommitState → CommitState) (s : State) : (s.onCmt f).cmt = f s.cmt := rfl
@[simp] theorem State.onCmt_flt (f : CommitState → CommitState) (s : State) : (s.onCmt f).flt = s.flt := rfl
@[simp] theorem State.onCmt_mdl (f : CommitState → CommitState) (s : State) : (s.onCmt f).mdl = s.mdl := rfl
@[simp] theorem State.onCmt_lnk (f : CommitState → CommitState) (s : State) : (s.onCmt f).lnk = s.lnk := rfl
@[simp] theorem State.onCmt_pmc (f : CommitState → CommitState) (s : State) : (s.onCmt f).pmc = s.pmc := rfl
@[simp] theorem State.onCmt_fw (f : CommitState → CommitState) (s : State) : (s.onCmt f).fw = s.fw := rfl
@[simp] theorem State.onCmt_pwr (f : CommitState → CommitState) (s : State) : (s.onCmt f).pwr = s.pwr := rfl

/-! ### onFlt -/

@[simp] theorem State.onFlt_pending (f : FltState → FltState) (s : State) : (s.onFlt f).pending = s.pending := rfl
@[simp] theorem State.onFlt_tick (f : FltState → FltState) (s : State) : (s.onFlt f).tick = s.tick := rfl
@[simp] theorem State.onFlt_cd0ResetAt (f : FltState → FltState) (s : State) : (s.onFlt f).cd0ResetAt = s.cd0ResetAt := rfl
@[simp] theorem State.onFlt_free (f : FltState → FltState) (s : State) : (s.onFlt f).free = s.free := rfl
@[simp] theorem State.onFlt_regs (f : FltState → FltState) (s : State) : (s.onFlt f).regs = s.regs := rfl
@[simp] theorem State.onFlt_acc (f : FltState → FltState) (s : State) : (s.onFlt f).acc = s.acc := rfl
@[simp] theorem State.onFlt_host (f : FltState → FltState) (s : State) : (s.onFlt f).host = s.host := rfl
@[simp] theorem State.onFlt_ctxs (f : FltState → FltState) (s : State) : (s.onFlt f).ctxs = s.ctxs := rfl
@[simp] theorem State.onFlt_cmds (f : FltState → FltState) (s : State) : (s.onFlt f).cmds = s.cmds := rfl
@[simp] theorem State.onFlt_arr (f : FltState → FltState) (s : State) : (s.onFlt f).arr = s.arr := rfl
@[simp] theorem State.onFlt_pans (f : FltState → FltState) (s : State) : (s.onFlt f).pans = s.pans := rfl
@[simp] theorem State.onFlt_balances (f : FltState → FltState) (s : State) : (s.onFlt f).balances = s.balances := rfl
@[simp] theorem State.onFlt_mem (f : FltState → FltState) (s : State) : (s.onFlt f).mem = s.mem := rfl
@[simp] theorem State.onFlt_seq (f : FltState → FltState) (s : State) : (s.onFlt f).seq = s.seq := rfl
@[simp] theorem State.onFlt_cmt (f : FltState → FltState) (s : State) : (s.onFlt f).cmt = s.cmt := rfl
@[simp] theorem State.onFlt_flt (f : FltState → FltState) (s : State) : (s.onFlt f).flt = f s.flt := rfl
@[simp] theorem State.onFlt_mdl (f : FltState → FltState) (s : State) : (s.onFlt f).mdl = s.mdl := rfl
@[simp] theorem State.onFlt_lnk (f : FltState → FltState) (s : State) : (s.onFlt f).lnk = s.lnk := rfl
@[simp] theorem State.onFlt_pmc (f : FltState → FltState) (s : State) : (s.onFlt f).pmc = s.pmc := rfl
@[simp] theorem State.onFlt_fw (f : FltState → FltState) (s : State) : (s.onFlt f).fw = s.fw := rfl
@[simp] theorem State.onFlt_pwr (f : FltState → FltState) (s : State) : (s.onFlt f).pwr = s.pwr := rfl

/-! ### onMdl -/

@[simp] theorem State.onMdl_pending (f : ModelState → ModelState) (s : State) : (s.onMdl f).pending = s.pending := rfl
@[simp] theorem State.onMdl_tick (f : ModelState → ModelState) (s : State) : (s.onMdl f).tick = s.tick := rfl
@[simp] theorem State.onMdl_cd0ResetAt (f : ModelState → ModelState) (s : State) : (s.onMdl f).cd0ResetAt = s.cd0ResetAt := rfl
@[simp] theorem State.onMdl_free (f : ModelState → ModelState) (s : State) : (s.onMdl f).free = s.free := rfl
@[simp] theorem State.onMdl_regs (f : ModelState → ModelState) (s : State) : (s.onMdl f).regs = s.regs := rfl
@[simp] theorem State.onMdl_acc (f : ModelState → ModelState) (s : State) : (s.onMdl f).acc = s.acc := rfl
@[simp] theorem State.onMdl_host (f : ModelState → ModelState) (s : State) : (s.onMdl f).host = s.host := rfl
@[simp] theorem State.onMdl_ctxs (f : ModelState → ModelState) (s : State) : (s.onMdl f).ctxs = s.ctxs := rfl
@[simp] theorem State.onMdl_cmds (f : ModelState → ModelState) (s : State) : (s.onMdl f).cmds = s.cmds := rfl
@[simp] theorem State.onMdl_arr (f : ModelState → ModelState) (s : State) : (s.onMdl f).arr = s.arr := rfl
@[simp] theorem State.onMdl_pans (f : ModelState → ModelState) (s : State) : (s.onMdl f).pans = s.pans := rfl
@[simp] theorem State.onMdl_balances (f : ModelState → ModelState) (s : State) : (s.onMdl f).balances = s.balances := rfl
@[simp] theorem State.onMdl_mem (f : ModelState → ModelState) (s : State) : (s.onMdl f).mem = s.mem := rfl
@[simp] theorem State.onMdl_seq (f : ModelState → ModelState) (s : State) : (s.onMdl f).seq = s.seq := rfl
@[simp] theorem State.onMdl_cmt (f : ModelState → ModelState) (s : State) : (s.onMdl f).cmt = s.cmt := rfl
@[simp] theorem State.onMdl_flt (f : ModelState → ModelState) (s : State) : (s.onMdl f).flt = s.flt := rfl
@[simp] theorem State.onMdl_mdl (f : ModelState → ModelState) (s : State) : (s.onMdl f).mdl = f s.mdl := rfl
@[simp] theorem State.onMdl_lnk (f : ModelState → ModelState) (s : State) : (s.onMdl f).lnk = s.lnk := rfl
@[simp] theorem State.onMdl_pmc (f : ModelState → ModelState) (s : State) : (s.onMdl f).pmc = s.pmc := rfl
@[simp] theorem State.onMdl_fw (f : ModelState → ModelState) (s : State) : (s.onMdl f).fw = s.fw := rfl
@[simp] theorem State.onMdl_pwr (f : ModelState → ModelState) (s : State) : (s.onMdl f).pwr = s.pwr := rfl

/-! ### onLnk -/

@[simp] theorem State.onLnk_pending (f : LinkState → LinkState) (s : State) : (s.onLnk f).pending = s.pending := rfl
@[simp] theorem State.onLnk_tick (f : LinkState → LinkState) (s : State) : (s.onLnk f).tick = s.tick := rfl
@[simp] theorem State.onLnk_cd0ResetAt (f : LinkState → LinkState) (s : State) : (s.onLnk f).cd0ResetAt = s.cd0ResetAt := rfl
@[simp] theorem State.onLnk_free (f : LinkState → LinkState) (s : State) : (s.onLnk f).free = s.free := rfl
@[simp] theorem State.onLnk_regs (f : LinkState → LinkState) (s : State) : (s.onLnk f).regs = s.regs := rfl
@[simp] theorem State.onLnk_acc (f : LinkState → LinkState) (s : State) : (s.onLnk f).acc = s.acc := rfl
@[simp] theorem State.onLnk_host (f : LinkState → LinkState) (s : State) : (s.onLnk f).host = s.host := rfl
@[simp] theorem State.onLnk_ctxs (f : LinkState → LinkState) (s : State) : (s.onLnk f).ctxs = s.ctxs := rfl
@[simp] theorem State.onLnk_cmds (f : LinkState → LinkState) (s : State) : (s.onLnk f).cmds = s.cmds := rfl
@[simp] theorem State.onLnk_arr (f : LinkState → LinkState) (s : State) : (s.onLnk f).arr = s.arr := rfl
@[simp] theorem State.onLnk_pans (f : LinkState → LinkState) (s : State) : (s.onLnk f).pans = s.pans := rfl
@[simp] theorem State.onLnk_balances (f : LinkState → LinkState) (s : State) : (s.onLnk f).balances = s.balances := rfl
@[simp] theorem State.onLnk_mem (f : LinkState → LinkState) (s : State) : (s.onLnk f).mem = s.mem := rfl
@[simp] theorem State.onLnk_seq (f : LinkState → LinkState) (s : State) : (s.onLnk f).seq = s.seq := rfl
@[simp] theorem State.onLnk_cmt (f : LinkState → LinkState) (s : State) : (s.onLnk f).cmt = s.cmt := rfl
@[simp] theorem State.onLnk_flt (f : LinkState → LinkState) (s : State) : (s.onLnk f).flt = s.flt := rfl
@[simp] theorem State.onLnk_mdl (f : LinkState → LinkState) (s : State) : (s.onLnk f).mdl = s.mdl := rfl
@[simp] theorem State.onLnk_lnk (f : LinkState → LinkState) (s : State) : (s.onLnk f).lnk = f s.lnk := rfl
@[simp] theorem State.onLnk_pmc (f : LinkState → LinkState) (s : State) : (s.onLnk f).pmc = s.pmc := rfl
@[simp] theorem State.onLnk_fw (f : LinkState → LinkState) (s : State) : (s.onLnk f).fw = s.fw := rfl
@[simp] theorem State.onLnk_pwr (f : LinkState → LinkState) (s : State) : (s.onLnk f).pwr = s.pwr := rfl

/-! ### onPmc -/

@[simp] theorem State.onPmc_pending (f : PmcState → PmcState) (s : State) : (s.onPmc f).pending = s.pending := rfl
@[simp] theorem State.onPmc_tick (f : PmcState → PmcState) (s : State) : (s.onPmc f).tick = s.tick := rfl
@[simp] theorem State.onPmc_cd0ResetAt (f : PmcState → PmcState) (s : State) : (s.onPmc f).cd0ResetAt = s.cd0ResetAt := rfl
@[simp] theorem State.onPmc_free (f : PmcState → PmcState) (s : State) : (s.onPmc f).free = s.free := rfl
@[simp] theorem State.onPmc_regs (f : PmcState → PmcState) (s : State) : (s.onPmc f).regs = s.regs := rfl
@[simp] theorem State.onPmc_acc (f : PmcState → PmcState) (s : State) : (s.onPmc f).acc = s.acc := rfl
@[simp] theorem State.onPmc_host (f : PmcState → PmcState) (s : State) : (s.onPmc f).host = s.host := rfl
@[simp] theorem State.onPmc_ctxs (f : PmcState → PmcState) (s : State) : (s.onPmc f).ctxs = s.ctxs := rfl
@[simp] theorem State.onPmc_cmds (f : PmcState → PmcState) (s : State) : (s.onPmc f).cmds = s.cmds := rfl
@[simp] theorem State.onPmc_arr (f : PmcState → PmcState) (s : State) : (s.onPmc f).arr = s.arr := rfl
@[simp] theorem State.onPmc_pans (f : PmcState → PmcState) (s : State) : (s.onPmc f).pans = s.pans := rfl
@[simp] theorem State.onPmc_balances (f : PmcState → PmcState) (s : State) : (s.onPmc f).balances = s.balances := rfl
@[simp] theorem State.onPmc_mem (f : PmcState → PmcState) (s : State) : (s.onPmc f).mem = s.mem := rfl
@[simp] theorem State.onPmc_seq (f : PmcState → PmcState) (s : State) : (s.onPmc f).seq = s.seq := rfl
@[simp] theorem State.onPmc_cmt (f : PmcState → PmcState) (s : State) : (s.onPmc f).cmt = s.cmt := rfl
@[simp] theorem State.onPmc_flt (f : PmcState → PmcState) (s : State) : (s.onPmc f).flt = s.flt := rfl
@[simp] theorem State.onPmc_mdl (f : PmcState → PmcState) (s : State) : (s.onPmc f).mdl = s.mdl := rfl
@[simp] theorem State.onPmc_lnk (f : PmcState → PmcState) (s : State) : (s.onPmc f).lnk = s.lnk := rfl
@[simp] theorem State.onPmc_pmc (f : PmcState → PmcState) (s : State) : (s.onPmc f).pmc = f s.pmc := rfl
@[simp] theorem State.onPmc_fw (f : PmcState → PmcState) (s : State) : (s.onPmc f).fw = s.fw := rfl
@[simp] theorem State.onPmc_pwr (f : PmcState → PmcState) (s : State) : (s.onPmc f).pwr = s.pwr := rfl

/-! ### onFw -/

@[simp] theorem State.onFw_pending (f : FwState → FwState) (s : State) : (s.onFw f).pending = s.pending := rfl
@[simp] theorem State.onFw_tick (f : FwState → FwState) (s : State) : (s.onFw f).tick = s.tick := rfl
@[simp] theorem State.onFw_cd0ResetAt (f : FwState → FwState) (s : State) : (s.onFw f).cd0ResetAt = s.cd0ResetAt := rfl
@[simp] theorem State.onFw_free (f : FwState → FwState) (s : State) : (s.onFw f).free = s.free := rfl
@[simp] theorem State.onFw_regs (f : FwState → FwState) (s : State) : (s.onFw f).regs = s.regs := rfl
@[simp] theorem State.onFw_acc (f : FwState → FwState) (s : State) : (s.onFw f).acc = s.acc := rfl
@[simp] theorem State.onFw_host (f : FwState → FwState) (s : State) : (s.onFw f).host = s.host := rfl
@[simp] theorem State.onFw_ctxs (f : FwState → FwState) (s : State) : (s.onFw f).ctxs = s.ctxs := rfl
@[simp] theorem State.onFw_cmds (f : FwState → FwState) (s : State) : (s.onFw f).cmds = s.cmds := rfl
@[simp] theorem State.onFw_arr (f : FwState → FwState) (s : State) : (s.onFw f).arr = s.arr := rfl
@[simp] theorem State.onFw_pans (f : FwState → FwState) (s : State) : (s.onFw f).pans = s.pans := rfl
@[simp] theorem State.onFw_balances (f : FwState → FwState) (s : State) : (s.onFw f).balances = s.balances := rfl
@[simp] theorem State.onFw_mem (f : FwState → FwState) (s : State) : (s.onFw f).mem = s.mem := rfl
@[simp] theorem State.onFw_seq (f : FwState → FwState) (s : State) : (s.onFw f).seq = s.seq := rfl
@[simp] theorem State.onFw_cmt (f : FwState → FwState) (s : State) : (s.onFw f).cmt = s.cmt := rfl
@[simp] theorem State.onFw_flt (f : FwState → FwState) (s : State) : (s.onFw f).flt = s.flt := rfl
@[simp] theorem State.onFw_mdl (f : FwState → FwState) (s : State) : (s.onFw f).mdl = s.mdl := rfl
@[simp] theorem State.onFw_lnk (f : FwState → FwState) (s : State) : (s.onFw f).lnk = s.lnk := rfl
@[simp] theorem State.onFw_pmc (f : FwState → FwState) (s : State) : (s.onFw f).pmc = s.pmc := rfl
@[simp] theorem State.onFw_fw (f : FwState → FwState) (s : State) : (s.onFw f).fw = f s.fw := rfl
@[simp] theorem State.onFw_pwr (f : FwState → FwState) (s : State) : (s.onFw f).pwr = s.pwr := rfl

/-! ### onPwr -/

@[simp] theorem State.onPwr_pending (f : PowerState → PowerState) (s : State) : (s.onPwr f).pending = s.pending := rfl
@[simp] theorem State.onPwr_tick (f : PowerState → PowerState) (s : State) : (s.onPwr f).tick = s.tick := rfl
@[simp] theorem State.onPwr_cd0ResetAt (f : PowerState → PowerState) (s : State) : (s.onPwr f).cd0ResetAt = s.cd0ResetAt := rfl
@[simp] theorem State.onPwr_free (f : PowerState → PowerState) (s : State) : (s.onPwr f).free = s.free := rfl
@[simp] theorem State.onPwr_regs (f : PowerState → PowerState) (s : State) : (s.onPwr f).regs = s.regs := rfl
@[simp] theorem State.onPwr_acc (f : PowerState → PowerState) (s : State) : (s.onPwr f).acc = s.acc := rfl
@[simp] theorem State.onPwr_host (f : PowerState → PowerState) (s : State) : (s.onPwr f).host = s.host := rfl
@[simp] theorem State.onPwr_ctxs (f : PowerState → PowerState) (s : State) : (s.onPwr f).ctxs = s.ctxs := rfl
@[simp] theorem State.onPwr_cmds (f : PowerState → PowerState) (s : State) : (s.onPwr f).cmds = s.cmds := rfl
@[simp] theorem State.onPwr_arr (f : PowerState → PowerState) (s : State) : (s.onPwr f).arr = s.arr := rfl
@[simp] theorem State.onPwr_pans (f : PowerState → PowerState) (s : State) : (s.onPwr f).pans = s.pans := rfl
@[simp] theorem State.onPwr_balances (f : PowerState → PowerState) (s : State) : (s.onPwr f).balances = s.balances := rfl
@[simp] theorem State.onPwr_mem (f : PowerState → PowerState) (s : State) : (s.onPwr f).mem = s.mem := rfl
@[simp] theorem State.onPwr_seq (f : PowerState → PowerState) (s : State) : (s.onPwr f).seq = s.seq := rfl
@[simp] theorem State.onPwr_cmt (f : PowerState → PowerState) (s : State) : (s.onPwr f).cmt = s.cmt := rfl
@[simp] theorem State.onPwr_flt (f : PowerState → PowerState) (s : State) : (s.onPwr f).flt = s.flt := rfl
@[simp] theorem State.onPwr_mdl (f : PowerState → PowerState) (s : State) : (s.onPwr f).mdl = s.mdl := rfl
@[simp] theorem State.onPwr_lnk (f : PowerState → PowerState) (s : State) : (s.onPwr f).lnk = s.lnk := rfl
@[simp] theorem State.onPwr_pmc (f : PowerState → PowerState) (s : State) : (s.onPwr f).pmc = s.pmc := rfl
@[simp] theorem State.onPwr_fw (f : PowerState → PowerState) (s : State) : (s.onPwr f).fw = s.fw := rfl
@[simp] theorem State.onPwr_pwr (f : PowerState → PowerState) (s : State) : (s.onPwr f).pwr = f s.pwr := rfl

/-! ### onAcc -/

@[simp] theorem State.onAcc_pending (f : Tab Nat → Tab Nat) (s : State) : (s.onAcc f).pending = s.pending := rfl
@[simp] theorem State.onAcc_tick (f : Tab Nat → Tab Nat) (s : State) : (s.onAcc f).tick = s.tick := rfl
@[simp] theorem State.onAcc_cd0ResetAt (f : Tab Nat → Tab Nat) (s : State) : (s.onAcc f).cd0ResetAt = s.cd0ResetAt := rfl
@[simp] theorem State.onAcc_free (f : Tab Nat → Tab Nat) (s : State) : (s.onAcc f).free = s.free := rfl
@[simp] theorem State.onAcc_regs (f : Tab Nat → Tab Nat) (s : State) : (s.onAcc f).regs = s.regs := rfl
@[simp] theorem State.onAcc_acc (f : Tab Nat → Tab Nat) (s : State) : (s.onAcc f).acc = f s.acc := rfl
@[simp] theorem State.onAcc_host (f : Tab Nat → Tab Nat) (s : State) : (s.onAcc f).host = s.host := rfl
@[simp] theorem State.onAcc_ctxs (f : Tab Nat → Tab Nat) (s : State) : (s.onAcc f).ctxs = s.ctxs := rfl
@[simp] theorem State.onAcc_cmds (f : Tab Nat → Tab Nat) (s : State) : (s.onAcc f).cmds = s.cmds := rfl
@[simp] theorem State.onAcc_arr (f : Tab Nat → Tab Nat) (s : State) : (s.onAcc f).arr = s.arr := rfl
@[simp] theorem State.onAcc_pans (f : Tab Nat → Tab Nat) (s : State) : (s.onAcc f).pans = s.pans := rfl
@[simp] theorem State.onAcc_balances (f : Tab Nat → Tab Nat) (s : State) : (s.onAcc f).balances = s.balances := rfl
@[simp] theorem State.onAcc_mem (f : Tab Nat → Tab Nat) (s : State) : (s.onAcc f).mem = s.mem := rfl
@[simp] theorem State.onAcc_seq (f : Tab Nat → Tab Nat) (s : State) : (s.onAcc f).seq = s.seq := rfl
@[simp] theorem State.onAcc_cmt (f : Tab Nat → Tab Nat) (s : State) : (s.onAcc f).cmt = s.cmt := rfl
@[simp] theorem State.onAcc_flt (f : Tab Nat → Tab Nat) (s : State) : (s.onAcc f).flt = s.flt := rfl
@[simp] theorem State.onAcc_mdl (f : Tab Nat → Tab Nat) (s : State) : (s.onAcc f).mdl = s.mdl := rfl
@[simp] theorem State.onAcc_lnk (f : Tab Nat → Tab Nat) (s : State) : (s.onAcc f).lnk = s.lnk := rfl
@[simp] theorem State.onAcc_pmc (f : Tab Nat → Tab Nat) (s : State) : (s.onAcc f).pmc = s.pmc := rfl
@[simp] theorem State.onAcc_fw (f : Tab Nat → Tab Nat) (s : State) : (s.onAcc f).fw = s.fw := rfl
@[simp] theorem State.onAcc_pwr (f : Tab Nat → Tab Nat) (s : State) : (s.onAcc f).pwr = s.pwr := rfl

/-! ### onRegs -/

@[simp] theorem State.onRegs_pending (f : Tab Word → Tab Word) (s : State) : (s.onRegs f).pending = s.pending := rfl
@[simp] theorem State.onRegs_tick (f : Tab Word → Tab Word) (s : State) : (s.onRegs f).tick = s.tick := rfl
@[simp] theorem State.onRegs_cd0ResetAt (f : Tab Word → Tab Word) (s : State) : (s.onRegs f).cd0ResetAt = s.cd0ResetAt := rfl
@[simp] theorem State.onRegs_free (f : Tab Word → Tab Word) (s : State) : (s.onRegs f).free = s.free := rfl
@[simp] theorem State.onRegs_regs (f : Tab Word → Tab Word) (s : State) : (s.onRegs f).regs = f s.regs := rfl
@[simp] theorem State.onRegs_acc (f : Tab Word → Tab Word) (s : State) : (s.onRegs f).acc = s.acc := rfl
@[simp] theorem State.onRegs_host (f : Tab Word → Tab Word) (s : State) : (s.onRegs f).host = s.host := rfl
@[simp] theorem State.onRegs_ctxs (f : Tab Word → Tab Word) (s : State) : (s.onRegs f).ctxs = s.ctxs := rfl
@[simp] theorem State.onRegs_cmds (f : Tab Word → Tab Word) (s : State) : (s.onRegs f).cmds = s.cmds := rfl
@[simp] theorem State.onRegs_arr (f : Tab Word → Tab Word) (s : State) : (s.onRegs f).arr = s.arr := rfl
@[simp] theorem State.onRegs_pans (f : Tab Word → Tab Word) (s : State) : (s.onRegs f).pans = s.pans := rfl
@[simp] theorem State.onRegs_balances (f : Tab Word → Tab Word) (s : State) : (s.onRegs f).balances = s.balances := rfl
@[simp] theorem State.onRegs_mem (f : Tab Word → Tab Word) (s : State) : (s.onRegs f).mem = s.mem := rfl
@[simp] theorem State.onRegs_seq (f : Tab Word → Tab Word) (s : State) : (s.onRegs f).seq = s.seq := rfl
@[simp] theorem State.onRegs_cmt (f : Tab Word → Tab Word) (s : State) : (s.onRegs f).cmt = s.cmt := rfl
@[simp] theorem State.onRegs_flt (f : Tab Word → Tab Word) (s : State) : (s.onRegs f).flt = s.flt := rfl
@[simp] theorem State.onRegs_mdl (f : Tab Word → Tab Word) (s : State) : (s.onRegs f).mdl = s.mdl := rfl
@[simp] theorem State.onRegs_lnk (f : Tab Word → Tab Word) (s : State) : (s.onRegs f).lnk = s.lnk := rfl
@[simp] theorem State.onRegs_pmc (f : Tab Word → Tab Word) (s : State) : (s.onRegs f).pmc = s.pmc := rfl
@[simp] theorem State.onRegs_fw (f : Tab Word → Tab Word) (s : State) : (s.onRegs f).fw = s.fw := rfl
@[simp] theorem State.onRegs_pwr (f : Tab Word → Tab Word) (s : State) : (s.onRegs f).pwr = s.pwr := rfl

/-! ### The queue, draws, registers and commands -/

@[simp] theorem State.withPending_pending (s : State) (q : List Instr) : (s.withPending q).pending = q := rfl
@[simp] theorem State.withPending_tick (s : State) (q : List Instr) : (s.withPending q).tick = s.tick := rfl
@[simp] theorem State.withPending_cd0ResetAt (s : State) (q : List Instr) : (s.withPending q).cd0ResetAt = s.cd0ResetAt := rfl
@[simp] theorem State.withPending_free (s : State) (q : List Instr) : (s.withPending q).free = s.free := rfl
@[simp] theorem State.withPending_regs (s : State) (q : List Instr) : (s.withPending q).regs = s.regs := rfl
@[simp] theorem State.withPending_acc (s : State) (q : List Instr) : (s.withPending q).acc = s.acc := rfl
@[simp] theorem State.withPending_host (s : State) (q : List Instr) : (s.withPending q).host = s.host := rfl
@[simp] theorem State.withPending_ctxs (s : State) (q : List Instr) : (s.withPending q).ctxs = s.ctxs := rfl
@[simp] theorem State.withPending_cmds (s : State) (q : List Instr) : (s.withPending q).cmds = s.cmds := rfl
@[simp] theorem State.withPending_arr (s : State) (q : List Instr) : (s.withPending q).arr = s.arr := rfl
@[simp] theorem State.withPending_pans (s : State) (q : List Instr) : (s.withPending q).pans = s.pans := rfl
@[simp] theorem State.withPending_balances (s : State) (q : List Instr) : (s.withPending q).balances = s.balances := rfl
@[simp] theorem State.withPending_mem (s : State) (q : List Instr) : (s.withPending q).mem = s.mem := rfl
@[simp] theorem State.withPending_seq (s : State) (q : List Instr) : (s.withPending q).seq = s.seq := rfl
@[simp] theorem State.withPending_cmt (s : State) (q : List Instr) : (s.withPending q).cmt = s.cmt := rfl
@[simp] theorem State.withPending_flt (s : State) (q : List Instr) : (s.withPending q).flt = s.flt := rfl
@[simp] theorem State.withPending_mdl (s : State) (q : List Instr) : (s.withPending q).mdl = s.mdl := rfl
@[simp] theorem State.withPending_lnk (s : State) (q : List Instr) : (s.withPending q).lnk = s.lnk := rfl
@[simp] theorem State.withPending_pmc (s : State) (q : List Instr) : (s.withPending q).pmc = s.pmc := rfl
@[simp] theorem State.withPending_fw (s : State) (q : List Instr) : (s.withPending q).fw = s.fw := rfl
@[simp] theorem State.withPending_pwr (s : State) (q : List Instr) : (s.withPending q).pwr = s.pwr := rfl

@[simp] theorem draw_pending {α : Type} (f : Nat → α) (s : State) : (draw f s).2.pending = s.pending := rfl
@[simp] theorem draw_tick {α : Type} (f : Nat → α) (s : State) : (draw f s).2.tick = s.tick := rfl
@[simp] theorem draw_cd0ResetAt {α : Type} (f : Nat → α) (s : State) : (draw f s).2.cd0ResetAt = s.cd0ResetAt := rfl
@[simp] theorem draw_free {α : Type} (f : Nat → α) (s : State) : (draw f s).2.free = s.free + 1 := rfl
@[simp] theorem draw_regs {α : Type} (f : Nat → α) (s : State) : (draw f s).2.regs = s.regs := rfl
@[simp] theorem draw_acc {α : Type} (f : Nat → α) (s : State) : (draw f s).2.acc = s.acc := rfl
@[simp] theorem draw_host {α : Type} (f : Nat → α) (s : State) : (draw f s).2.host = s.host := rfl
@[simp] theorem draw_ctxs {α : Type} (f : Nat → α) (s : State) : (draw f s).2.ctxs = s.ctxs := rfl
@[simp] theorem draw_cmds {α : Type} (f : Nat → α) (s : State) : (draw f s).2.cmds = s.cmds := rfl
@[simp] theorem draw_arr {α : Type} (f : Nat → α) (s : State) : (draw f s).2.arr = s.arr := rfl
@[simp] theorem draw_pans {α : Type} (f : Nat → α) (s : State) : (draw f s).2.pans = s.pans := rfl
@[simp] theorem draw_balances {α : Type} (f : Nat → α) (s : State) : (draw f s).2.balances = s.balances := rfl
@[simp] theorem draw_mem {α : Type} (f : Nat → α) (s : State) : (draw f s).2.mem = s.mem := rfl
@[simp] theorem draw_seq {α : Type} (f : Nat → α) (s : State) : (draw f s).2.seq = s.seq := rfl
@[simp] theorem draw_cmt {α : Type} (f : Nat → α) (s : State) : (draw f s).2.cmt = s.cmt := rfl
@[simp] theorem draw_flt {α : Type} (f : Nat → α) (s : State) : (draw f s).2.flt = s.flt := rfl
@[simp] theorem draw_mdl {α : Type} (f : Nat → α) (s : State) : (draw f s).2.mdl = s.mdl := rfl
@[simp] theorem draw_lnk {α : Type} (f : Nat → α) (s : State) : (draw f s).2.lnk = s.lnk := rfl
@[simp] theorem draw_pmc {α : Type} (f : Nat → α) (s : State) : (draw f s).2.pmc = s.pmc := rfl
@[simp] theorem draw_fw {α : Type} (f : Nat → α) (s : State) : (draw f s).2.fw = s.fw := rfl
@[simp] theorem draw_pwr {α : Type} (f : Nat → α) (s : State) : (draw f s).2.pwr = s.pwr := rfl

@[simp] theorem setReg_pending (a : Nat) (v : Word) (s : State) : (setReg a v s).pending = s.pending := rfl
@[simp] theorem setReg_tick (a : Nat) (v : Word) (s : State) : (setReg a v s).tick = s.tick := rfl
@[simp] theorem setReg_cd0ResetAt (a : Nat) (v : Word) (s : State) : (setReg a v s).cd0ResetAt = s.cd0ResetAt := rfl
@[simp] theorem setReg_free (a : Nat) (v : Word) (s : State) : (setReg a v s).free = s.free := rfl
@[simp] theorem setReg_acc (a : Nat) (v : Word) (s : State) : (setReg a v s).acc = s.acc := rfl
@[simp] theorem setReg_host (a : Nat) (v : Word) (s : State) : (setReg a v s).host = s.host := rfl
@[simp] theorem setReg_ctxs (a : Nat) (v : Word) (s : State) : (setReg a v s).ctxs = s.ctxs := rfl
@[simp] theorem setReg_cmds (a : Nat) (v : Word) (s : State) : (setReg a v s).cmds = s.cmds := rfl
@[simp] theorem setReg_arr (a : Nat) (v : Word) (s : State) : (setReg a v s).arr = s.arr := rfl
@[simp] theorem setReg_pans (a : Nat) (v : Word) (s : State) : (setReg a v s).pans = s.pans := rfl
@[simp] theorem setReg_balances (a : Nat) (v : Word) (s : State) : (setReg a v s).balances = s.balances := rfl
@[simp] theorem setReg_mem (a : Nat) (v : Word) (s : State) : (setReg a v s).mem = s.mem := rfl
@[simp] theorem setReg_seq (a : Nat) (v : Word) (s : State) : (setReg a v s).seq = s.seq := rfl
@[simp] theorem setReg_cmt (a : Nat) (v : Word) (s : State) : (setReg a v s).cmt = s.cmt := rfl
@[simp] theorem setReg_flt (a : Nat) (v : Word) (s : State) : (setReg a v s).flt = s.flt := rfl
@[simp] theorem setReg_mdl (a : Nat) (v : Word) (s : State) : (setReg a v s).mdl = s.mdl := rfl
@[simp] theorem setReg_lnk (a : Nat) (v : Word) (s : State) : (setReg a v s).lnk = s.lnk := rfl
@[simp] theorem setReg_pmc (a : Nat) (v : Word) (s : State) : (setReg a v s).pmc = s.pmc := rfl
@[simp] theorem setReg_fw (a : Nat) (v : Word) (s : State) : (setReg a v s).fw = s.fw := rfl
@[simp] theorem setReg_pwr (a : Nat) (v : Word) (s : State) : (setReg a v s).pwr = s.pwr := rfl

@[simp] theorem setFld_pending (a lo w x : Nat) (s : State) : (setFld a lo w x s).pending = s.pending := rfl
@[simp] theorem setFld_tick (a lo w x : Nat) (s : State) : (setFld a lo w x s).tick = s.tick := rfl
@[simp] theorem setFld_cd0ResetAt (a lo w x : Nat) (s : State) : (setFld a lo w x s).cd0ResetAt = s.cd0ResetAt := rfl
@[simp] theorem setFld_free (a lo w x : Nat) (s : State) : (setFld a lo w x s).free = s.free := rfl
@[simp] theorem setFld_acc (a lo w x : Nat) (s : State) : (setFld a lo w x s).acc = s.acc := rfl
@[simp] theorem setFld_host (a lo w x : Nat) (s : State) : (setFld a lo w x s).host = s.host := rfl
@[simp] theorem setFld_ctxs (a lo w x : Nat) (s : State) : (setFld a lo w x s).ctxs = s.ctxs := rfl
@[simp] theorem setFld_cmds (a lo w x : Nat) (s : State) : (setFld a lo w x s).cmds = s.cmds := rfl
@[simp] theorem setFld_arr (a lo w x : Nat) (s : State) : (setFld a lo w x s).arr = s.arr := rfl
@[simp] theorem setFld_pans (a lo w x : Nat) (s : State) : (setFld a lo w x s).pans = s.pans := rfl
@[simp] theorem setFld_balances (a lo w x : Nat) (s : State) : (setFld a lo w x s).balances = s.balances := rfl
@[simp] theorem setFld_mem (a lo w x : Nat) (s : State) : (setFld a lo w x s).mem = s.mem := rfl
@[simp] theorem setFld_seq (a lo w x : Nat) (s : State) : (setFld a lo w x s).seq = s.seq := rfl
@[simp] theorem setFld_cmt (a lo w x : Nat) (s : State) : (setFld a lo w x s).cmt = s.cmt := rfl
@[simp] theorem setFld_flt (a lo w x : Nat) (s : State) : (setFld a lo w x s).flt = s.flt := rfl
@[simp] theorem setFld_mdl (a lo w x : Nat) (s : State) : (setFld a lo w x s).mdl = s.mdl := rfl
@[simp] theorem setFld_lnk (a lo w x : Nat) (s : State) : (setFld a lo w x s).lnk = s.lnk := rfl
@[simp] theorem setFld_pmc (a lo w x : Nat) (s : State) : (setFld a lo w x s).pmc = s.pmc := rfl
@[simp] theorem setFld_fw (a lo w x : Nat) (s : State) : (setFld a lo w x s).fw = s.fw := rfl
@[simp] theorem setFld_pwr (a lo w x : Nat) (s : State) : (setFld a lo w x s).pwr = s.pwr := rfl

@[simp] theorem modCmd_pending (n : Nat) (f : Cmd → Cmd) (s : State) : (modCmd n f s).pending = s.pending := rfl
@[simp] theorem modCmd_tick (n : Nat) (f : Cmd → Cmd) (s : State) : (modCmd n f s).tick = s.tick := rfl
@[simp] theorem modCmd_cd0ResetAt (n : Nat) (f : Cmd → Cmd) (s : State) : (modCmd n f s).cd0ResetAt = s.cd0ResetAt := rfl
@[simp] theorem modCmd_free (n : Nat) (f : Cmd → Cmd) (s : State) : (modCmd n f s).free = s.free := rfl
@[simp] theorem modCmd_regs (n : Nat) (f : Cmd → Cmd) (s : State) : (modCmd n f s).regs = s.regs := rfl
@[simp] theorem modCmd_acc (n : Nat) (f : Cmd → Cmd) (s : State) : (modCmd n f s).acc = s.acc := rfl
@[simp] theorem modCmd_host (n : Nat) (f : Cmd → Cmd) (s : State) : (modCmd n f s).host = s.host := rfl
@[simp] theorem modCmd_ctxs (n : Nat) (f : Cmd → Cmd) (s : State) : (modCmd n f s).ctxs = s.ctxs := rfl
@[simp] theorem modCmd_arr (n : Nat) (f : Cmd → Cmd) (s : State) : (modCmd n f s).arr = s.arr := rfl
@[simp] theorem modCmd_pans (n : Nat) (f : Cmd → Cmd) (s : State) : (modCmd n f s).pans = s.pans := rfl
@[simp] theorem modCmd_balances (n : Nat) (f : Cmd → Cmd) (s : State) : (modCmd n f s).balances = s.balances := rfl
@[simp] theorem modCmd_mem (n : Nat) (f : Cmd → Cmd) (s : State) : (modCmd n f s).mem = s.mem := rfl
@[simp] theorem modCmd_seq (n : Nat) (f : Cmd → Cmd) (s : State) : (modCmd n f s).seq = s.seq := rfl
@[simp] theorem modCmd_cmt (n : Nat) (f : Cmd → Cmd) (s : State) : (modCmd n f s).cmt = s.cmt := rfl
@[simp] theorem modCmd_flt (n : Nat) (f : Cmd → Cmd) (s : State) : (modCmd n f s).flt = s.flt := rfl
@[simp] theorem modCmd_mdl (n : Nat) (f : Cmd → Cmd) (s : State) : (modCmd n f s).mdl = s.mdl := rfl
@[simp] theorem modCmd_lnk (n : Nat) (f : Cmd → Cmd) (s : State) : (modCmd n f s).lnk = s.lnk := rfl
@[simp] theorem modCmd_pmc (n : Nat) (f : Cmd → Cmd) (s : State) : (modCmd n f s).pmc = s.pmc := rfl
@[simp] theorem modCmd_fw (n : Nat) (f : Cmd → Cmd) (s : State) : (modCmd n f s).fw = s.fw := rfl
@[simp] theorem modCmd_pwr (n : Nat) (f : Cmd → Cmd) (s : State) : (modCmd n f s).pwr = s.pwr := rfl

@[simp] theorem markStarted_pending (m : Cmd) (s : State) : (markStarted m s).pending = s.pending := rfl
@[simp] theorem markStarted_tick (m : Cmd) (s : State) : (markStarted m s).tick = s.tick := rfl
@[simp] theorem markStarted_cd0ResetAt (m : Cmd) (s : State) : (markStarted m s).cd0ResetAt = s.cd0ResetAt := rfl
@[simp] theorem markStarted_free (m : Cmd) (s : State) : (markStarted m s).free = s.free := rfl
@[simp] theorem markStarted_regs (m : Cmd) (s : State) : (markStarted m s).regs = s.regs := rfl
@[simp] theorem markStarted_acc (m : Cmd) (s : State) : (markStarted m s).acc = s.acc := rfl
@[simp] theorem markStarted_host (m : Cmd) (s : State) : (markStarted m s).host = s.host := rfl
@[simp] theorem markStarted_ctxs (m : Cmd) (s : State) : (markStarted m s).ctxs = s.ctxs := rfl
@[simp] theorem markStarted_arr (m : Cmd) (s : State) : (markStarted m s).arr = s.arr := rfl
@[simp] theorem markStarted_pans (m : Cmd) (s : State) : (markStarted m s).pans = s.pans := rfl
@[simp] theorem markStarted_balances (m : Cmd) (s : State) : (markStarted m s).balances = s.balances := rfl
@[simp] theorem markStarted_mem (m : Cmd) (s : State) : (markStarted m s).mem = s.mem := rfl
@[simp] theorem markStarted_seq (m : Cmd) (s : State) : (markStarted m s).seq = s.seq := rfl
@[simp] theorem markStarted_cmt (m : Cmd) (s : State) : (markStarted m s).cmt = s.cmt := rfl
@[simp] theorem markStarted_flt (m : Cmd) (s : State) : (markStarted m s).flt = s.flt := rfl
@[simp] theorem markStarted_mdl (m : Cmd) (s : State) : (markStarted m s).mdl = s.mdl := rfl
@[simp] theorem markStarted_lnk (m : Cmd) (s : State) : (markStarted m s).lnk = s.lnk := rfl
@[simp] theorem markStarted_pmc (m : Cmd) (s : State) : (markStarted m s).pmc = s.pmc := rfl
@[simp] theorem markStarted_fw (m : Cmd) (s : State) : (markStarted m s).fw = s.fw := rfl
@[simp] theorem markStarted_pwr (m : Cmd) (s : State) : (markStarted m s).pwr = s.pwr := rfl

@[simp] theorem modCtx_pending (c : CtxId) (f : Ctx → Ctx) (s : State) : (modCtx c f s).pending = s.pending := rfl
@[simp] theorem modCtx_tick (c : CtxId) (f : Ctx → Ctx) (s : State) : (modCtx c f s).tick = s.tick := rfl
@[simp] theorem modCtx_cd0ResetAt (c : CtxId) (f : Ctx → Ctx) (s : State) : (modCtx c f s).cd0ResetAt = s.cd0ResetAt := rfl
@[simp] theorem modCtx_free (c : CtxId) (f : Ctx → Ctx) (s : State) : (modCtx c f s).free = s.free := rfl
@[simp] theorem modCtx_regs (c : CtxId) (f : Ctx → Ctx) (s : State) : (modCtx c f s).regs = s.regs := rfl
@[simp] theorem modCtx_acc (c : CtxId) (f : Ctx → Ctx) (s : State) : (modCtx c f s).acc = s.acc := rfl
@[simp] theorem modCtx_host (c : CtxId) (f : Ctx → Ctx) (s : State) : (modCtx c f s).host = s.host := rfl
@[simp] theorem modCtx_cmds (c : CtxId) (f : Ctx → Ctx) (s : State) : (modCtx c f s).cmds = s.cmds := rfl
@[simp] theorem modCtx_arr (c : CtxId) (f : Ctx → Ctx) (s : State) : (modCtx c f s).arr = s.arr := rfl
@[simp] theorem modCtx_pans (c : CtxId) (f : Ctx → Ctx) (s : State) : (modCtx c f s).pans = s.pans := rfl
@[simp] theorem modCtx_balances (c : CtxId) (f : Ctx → Ctx) (s : State) : (modCtx c f s).balances = s.balances := rfl
@[simp] theorem modCtx_mem (c : CtxId) (f : Ctx → Ctx) (s : State) : (modCtx c f s).mem = s.mem := rfl
@[simp] theorem modCtx_seq (c : CtxId) (f : Ctx → Ctx) (s : State) : (modCtx c f s).seq = s.seq := rfl
@[simp] theorem modCtx_cmt (c : CtxId) (f : Ctx → Ctx) (s : State) : (modCtx c f s).cmt = s.cmt := rfl
@[simp] theorem modCtx_flt (c : CtxId) (f : Ctx → Ctx) (s : State) : (modCtx c f s).flt = s.flt := rfl
@[simp] theorem modCtx_mdl (c : CtxId) (f : Ctx → Ctx) (s : State) : (modCtx c f s).mdl = s.mdl := rfl
@[simp] theorem modCtx_lnk (c : CtxId) (f : Ctx → Ctx) (s : State) : (modCtx c f s).lnk = s.lnk := rfl
@[simp] theorem modCtx_pmc (c : CtxId) (f : Ctx → Ctx) (s : State) : (modCtx c f s).pmc = s.pmc := rfl
@[simp] theorem modCtx_fw (c : CtxId) (f : Ctx → Ctx) (s : State) : (modCtx c f s).fw = s.fw := rfl
@[simp] theorem modCtx_pwr (c : CtxId) (f : Ctx → Ctx) (s : State) : (modCtx c f s).pwr = s.pwr := rfl

@[simp] theorem present_pending (e : FaultEvent) (s : State) : (present e s).pending = s.pending := rfl
@[simp] theorem present_tick (e : FaultEvent) (s : State) : (present e s).tick = s.tick := rfl
@[simp] theorem present_cd0ResetAt (e : FaultEvent) (s : State) : (present e s).cd0ResetAt = s.cd0ResetAt := rfl
@[simp] theorem present_free (e : FaultEvent) (s : State) : (present e s).free = s.free := rfl
@[simp] theorem present_regs (e : FaultEvent) (s : State) : (present e s).regs = s.regs := rfl
@[simp] theorem present_acc (e : FaultEvent) (s : State) : (present e s).acc = s.acc := rfl
@[simp] theorem present_host (e : FaultEvent) (s : State) : (present e s).host = s.host := rfl
@[simp] theorem present_ctxs (e : FaultEvent) (s : State) : (present e s).ctxs = s.ctxs := rfl
@[simp] theorem present_cmds (e : FaultEvent) (s : State) : (present e s).cmds = s.cmds := rfl
@[simp] theorem present_arr (e : FaultEvent) (s : State) : (present e s).arr = s.arr := rfl
@[simp] theorem present_pans (e : FaultEvent) (s : State) : (present e s).pans = s.pans := rfl
@[simp] theorem present_balances (e : FaultEvent) (s : State) : (present e s).balances = s.balances := rfl
@[simp] theorem present_mem (e : FaultEvent) (s : State) : (present e s).mem = s.mem := rfl
@[simp] theorem present_seq (e : FaultEvent) (s : State) : (present e s).seq = s.seq := rfl
@[simp] theorem present_cmt (e : FaultEvent) (s : State) : (present e s).cmt = s.cmt := rfl
@[simp] theorem present_mdl (e : FaultEvent) (s : State) : (present e s).mdl = s.mdl := rfl
@[simp] theorem present_lnk (e : FaultEvent) (s : State) : (present e s).lnk = s.lnk := rfl
@[simp] theorem present_pmc (e : FaultEvent) (s : State) : (present e s).pmc = s.pmc := rfl
@[simp] theorem present_fw (e : FaultEvent) (s : State) : (present e s).fw = s.fw := rfl
@[simp] theorem present_pwr (e : FaultEvent) (s : State) : (present e s).pwr = s.pwr := rfl

@[simp] theorem dmaWrite_pending (c : CtxId) (a : Nat) (bs : List Byte) (s : State) : (dmaWrite c a bs s).pending = s.pending := rfl
@[simp] theorem dmaWrite_tick (c : CtxId) (a : Nat) (bs : List Byte) (s : State) : (dmaWrite c a bs s).tick = s.tick := rfl
@[simp] theorem dmaWrite_cd0ResetAt (c : CtxId) (a : Nat) (bs : List Byte) (s : State) : (dmaWrite c a bs s).cd0ResetAt = s.cd0ResetAt := rfl
@[simp] theorem dmaWrite_free (c : CtxId) (a : Nat) (bs : List Byte) (s : State) : (dmaWrite c a bs s).free = s.free := rfl
@[simp] theorem dmaWrite_regs (c : CtxId) (a : Nat) (bs : List Byte) (s : State) : (dmaWrite c a bs s).regs = s.regs := rfl
@[simp] theorem dmaWrite_acc (c : CtxId) (a : Nat) (bs : List Byte) (s : State) : (dmaWrite c a bs s).acc = s.acc := rfl
@[simp] theorem dmaWrite_ctxs (c : CtxId) (a : Nat) (bs : List Byte) (s : State) : (dmaWrite c a bs s).ctxs = s.ctxs := rfl
@[simp] theorem dmaWrite_cmds (c : CtxId) (a : Nat) (bs : List Byte) (s : State) : (dmaWrite c a bs s).cmds = s.cmds := rfl
@[simp] theorem dmaWrite_arr (c : CtxId) (a : Nat) (bs : List Byte) (s : State) : (dmaWrite c a bs s).arr = s.arr := rfl
@[simp] theorem dmaWrite_pans (c : CtxId) (a : Nat) (bs : List Byte) (s : State) : (dmaWrite c a bs s).pans = s.pans := rfl
@[simp] theorem dmaWrite_balances (c : CtxId) (a : Nat) (bs : List Byte) (s : State) : (dmaWrite c a bs s).balances = s.balances := rfl
@[simp] theorem dmaWrite_mem (c : CtxId) (a : Nat) (bs : List Byte) (s : State) : (dmaWrite c a bs s).mem = s.mem := rfl
@[simp] theorem dmaWrite_seq (c : CtxId) (a : Nat) (bs : List Byte) (s : State) : (dmaWrite c a bs s).seq = s.seq := rfl
@[simp] theorem dmaWrite_cmt (c : CtxId) (a : Nat) (bs : List Byte) (s : State) : (dmaWrite c a bs s).cmt = s.cmt := rfl
@[simp] theorem dmaWrite_flt (c : CtxId) (a : Nat) (bs : List Byte) (s : State) : (dmaWrite c a bs s).flt = s.flt := rfl
@[simp] theorem dmaWrite_mdl (c : CtxId) (a : Nat) (bs : List Byte) (s : State) : (dmaWrite c a bs s).mdl = s.mdl := rfl
@[simp] theorem dmaWrite_lnk (c : CtxId) (a : Nat) (bs : List Byte) (s : State) : (dmaWrite c a bs s).lnk = s.lnk := rfl
@[simp] theorem dmaWrite_pmc (c : CtxId) (a : Nat) (bs : List Byte) (s : State) : (dmaWrite c a bs s).pmc = s.pmc := rfl
@[simp] theorem dmaWrite_fw (c : CtxId) (a : Nat) (bs : List Byte) (s : State) : (dmaWrite c a bs s).fw = s.fw := rfl
@[simp] theorem dmaWrite_pwr (c : CtxId) (a : Nat) (bs : List Byte) (s : State) : (dmaWrite c a bs s).pwr = s.pwr := rfl

end Sys2Proof.Machine
end

