-- ==== Sys2Proof/Laws/Tab.lean ====
section
/-! SUPPORT. The sparse arrays: a look-up after an update, and the canonical form that every operation keeps. -/

namespace Sys2Proof.Machine

variable {α : Type} [DecidableEq α]

/-- Keys strictly rise from a bound on, and no listed value is the default: the canonical form, stated along the list. -/
def twfFrom (d : α) : Nat → Tab α → Prop
  | _, [] => True
  | n, (k, v) :: t => n ≤ k ∧ v ≠ d ∧ twfFrom d (k + 1) t

theorem twf_cons_cons {d : α} {p q : Nat × α} {t : Tab α} :
    twf d (p :: q :: t) = true ↔ p.2 ≠ d ∧ p.1 < q.1 ∧ twf d (q :: t) = true := by
  simp [twf, and_assoc]

omit [DecidableEq α] in
/-- A lower bound may be weakened. -/
theorem twfFrom.mono {d : α} {n m : Nat} (h : m ≤ n) : ∀ {t : Tab α}, twfFrom d n t → twfFrom d m t
  | [], _ => trivial
  | (_, _) :: _, ⟨h1, h2, h3⟩ => ⟨Nat.le_trans h h1, h2, h3⟩

/-- The canonical form is the one that holds from 0 on. -/
theorem twf_iff_from {d : α} : ∀ {t : Tab α}, twf d t = true ↔ twfFrom d 0 t
  | [] => by simp [twf, twfFrom]
  | [(k, v)] => by simp [twf, twfFrom]
  | (j, v) :: (k, w) :: t => by
    rw [twf_cons_cons, twf_iff_from (t := (k, w) :: t)]
    simp only [twfFrom, Nat.zero_le, true_and]
    constructor
    · rintro ⟨h1, h2, h3, h4⟩; exact ⟨h1, h2, h3, h4⟩
    · rintro ⟨h1, h2, h3, h4⟩; exact ⟨h1, h2, h3, h4⟩

omit [DecidableEq α] in
/-- Below the bound an array lists nothing. -/
theorem tget_of_lt {d : α} {n k : Nat} (h : k < n) : ∀ {t : Tab α}, twfFrom d n t → tget d t k = d
  | [], _ => rfl
  | (j, v) :: t, ⟨h1, _, h3⟩ => by
    rw [tget, if_neg (by omega)]
    exact tget_of_lt (by omega) h3

/-- An update keeps the form, its bound lowered to the key. -/
theorem twfFrom_tput {d : α} (k : Nat) (v : α) : ∀ {t : Tab α} {n : Nat}, n ≤ k → twfFrom d n t → twfFrom d n (tput d t k v)
  | [], n, hn, _ => by
    rw [tput]; split
    · trivial
    · exact ⟨hn, ‹_›, trivial⟩
  | (j, w) :: t, n, hn, ⟨h1, h2, h3⟩ => by
    rw [tput]
    split
    · split
      · exact ⟨h1, h2, h3⟩
      · exact ⟨hn, ‹_›, by omega, h2, h3⟩
    · split
      · subst_vars
        split
        · exact h3.mono (by omega)
        · exact ⟨hn, ‹_›, h3⟩
      · exact ⟨h1, h2, twfFrom_tput k v (by omega) h3⟩

/-- What was put is read back. -/
theorem tget_tput_same {d : α} (k : Nat) (v : α) : ∀ {t : Tab α} {n : Nat}, twfFrom d n t → tget d (tput d t k v) k = v
  | [], n, _ => by
    rw [tput]; split
    · simp [tget, *]
    · simp [tget]
  | (j, w) :: t, n, ⟨h1, h2, h3⟩ => by
    rw [tput]
    split
    · have hd : tget d ((j, w) :: t) k = d := by
        rw [tget, if_neg (by omega)]; exact tget_of_lt (by omega) h3
      split
      · rw [hd]; exact Eq.symm ‹_›
      · simp [tget]
    · split
      · subst_vars
        split
        · rw [tget_of_lt (Nat.lt_succ_self _) h3]; exact Eq.symm ‹_›
        · simp [tget]
      · rw [tget, if_neg (by omega)]
        exact tget_tput_same k v h3

/-- Every other key keeps its value. -/
theorem tget_tput_other {d : α} {k i : Nat} (v : α) (hi : i ≠ k) : ∀ {t : Tab α} {n : Nat}, twfFrom d n t → tget d (tput d t k v) i = tget d t i
  | [], n, _ => by
    rw [tput]; split
    · rfl
    · simp [tget, Ne.symm hi]
  | (j, w) :: t, n, ⟨h1, h2, h3⟩ => by
    rw [tput]
    split
    · split
      · rfl
      · rw [tget, if_neg (Ne.symm hi)]
    · split
      · subst_vars
        split
        · rw [tget, if_neg (Ne.symm hi)]
        · rw [tget, if_neg (Ne.symm hi), tget, if_neg (Ne.symm hi)]
      · rw [tget, tget]; split
        · rfl
        · exact tget_tput_other v hi h3

/-- An update keeps the canonical form. -/
theorem twf_tput {d : α} {t : Tab α} (h : twf d t = true) (k : Nat) (v : α) : twf d (tput d t k v) = true :=
  twf_iff_from.2 (twfFrom_tput k v (Nat.zero_le _) (twf_iff_from.1 h))

/-- A modification keeps the canonical form. -/
theorem twf_tmod {d : α} {t : Tab α} (h : twf d t = true) (k : Nat) (f : α → α) : twf d (tmod d t k f) = true := twf_tput h k _

omit [DecidableEq α] in
/-- Dropping pairs keeps the form. -/
theorem twfFrom_filter {d : α} (p : Nat × α → Bool) : ∀ {t : Tab α} {n : Nat}, twfFrom d n t → twfFrom d n (t.filter p)
  | [], _, _ => trivial
  | (j, w) :: t, n, ⟨h1, h2, h3⟩ => by
    rw [List.filter_cons]
    split
    · exact ⟨h1, h2, twfFrom_filter p h3⟩
    · exact (twfFrom_filter p h3).mono (by omega)

/-- Dropping pairs keeps the canonical form. -/
theorem twf_filter {d : α} {t : Tab α} (h : twf d t = true) (p : Nat × α → Bool) : twf d (t.filter p) = true :=
  twf_iff_from.2 (twfFrom_filter p (twf_iff_from.1 h))

/-- An empty array is canonical. -/
theorem twf_nil (d : α) : twf d ([] : Tab α) = true := rfl

/-- Writing bytes keeps the canonical form of a memory. -/
theorem Memory.wf_memWrite {m : Mem} (h : Memory.wf m = true) (a : Nat) (bs : List Byte) : Memory.wf (memWrite m a bs) = true := by
  induction bs generalizing m a with
  | nil => exact h
  | cons b bs ih => exact ih (twf_tput h a b) (a + 1)

/-- Zeroing a range keeps the canonical form of a memory. -/
theorem Memory.wf_memZero {m : Mem} (h : Memory.wf m = true) (a n : Nat) : Memory.wf (memZero m a n) = true := twf_filter h _

/-- As many bytes are read as are asked for. -/
theorem memRead_length (m : Mem) : ∀ (n a : Nat), (memRead m a n).length = n
  | 0, _ => rfl
  | n + 1, a => by simp [memRead, memRead_length m n]

end Sys2Proof.Machine
end

