-- ==== Sys2Proof/Laws/Within.lean ====
section
/-! SUPPORT. Which fields of the state a change touches, as one relation that composes: a mask of the fields that may differ, and the arrays' canonical form
kept. One lemma for each update of a field; the lemmas for the model's operations are in the files WithinArray to WithinPlatform. -/

namespace Sys2Proof.Machine

/-- State t is s but for the fields whose bits M has, numbered in the order of `State`; and t's arrays are canonical if those of s are. -/
structure Within (M : Nat) (s t : State) : Prop where
  pending : M.testBit 0 = false → t.pending = s.pending
  tick : M.testBit 1 = false → t.tick = s.tick
  cd0ResetAt : M.testBit 2 = false → t.cd0ResetAt = s.cd0ResetAt
  free : M.testBit 3 = false → t.free = s.free
  regs : M.testBit 4 = false → t.regs = s.regs
  acc : M.testBit 5 = false → t.acc = s.acc
  host : M.testBit 6 = false → t.host = s.host
  ctxs : M.testBit 7 = false → t.ctxs = s.ctxs
  cmds : M.testBit 8 = false → t.cmds = s.cmds
  arr : M.testBit 9 = false → t.arr = s.arr
  pans : M.testBit 10 = false → t.pans = s.pans
  balances : M.testBit 11 = false → t.balances = s.balances
  mem : M.testBit 12 = false → t.mem = s.mem
  seq : M.testBit 13 = false → t.seq = s.seq
  cmt : M.testBit 14 = false → t.cmt = s.cmt
  flt : M.testBit 15 = false → t.flt = s.flt
  mdl : M.testBit 16 = false → t.mdl = s.mdl
  lnk : M.testBit 17 = false → t.lnk = s.lnk
  pmc : M.testBit 18 = false → t.pmc = s.pmc
  fw : M.testBit 19 = false → t.fw = s.fw
  pwr : M.testBit 20 = false → t.pwr = s.pwr
  canonical : Canonical s → Canonical t

namespace Within

theorem refl (M : Nat) (s : State) : Within M s s :=
  ⟨fun _ => rfl, fun _ => rfl, fun _ => rfl, fun _ => rfl, fun _ => rfl, fun _ => rfl, fun _ => rfl, fun _ => rfl, fun _ => rfl, fun _ => rfl, fun _ => rfl,
   fun _ => rfl, fun _ => rfl, fun _ => rfl, fun _ => rfl, fun _ => rfl, fun _ => rfl, fun _ => rfl, fun _ => rfl, fun _ => rfl, fun _ => rfl, id⟩

theorem bit_of_or {M G : Nat} (e : M ||| G = M) {i : Nat} (h : M.testBit i = false) : G.testBit i = false := by
  have := congrArg (Nat.testBit · i) e
  simp only [Nat.testBit_or, h, Bool.false_or] at this
  exact this

/-- A further change of fields that M has. -/
theorem step {M G : Nat} {s t u : State} (h : Within M s t) (k : Within G t u) (e : M ||| G = M) : Within M s u where
  pending b := (k.pending (bit_of_or e b)).trans (h.pending b)
  tick b := (k.tick (bit_of_or e b)).trans (h.tick b)
  cd0ResetAt b := (k.cd0ResetAt (bit_of_or e b)).trans (h.cd0ResetAt b)
  free b := (k.free (bit_of_or e b)).trans (h.free b)
  regs b := (k.regs (bit_of_or e b)).trans (h.regs b)
  acc b := (k.acc (bit_of_or e b)).trans (h.acc b)
  host b := (k.host (bit_of_or e b)).trans (h.host b)
  ctxs b := (k.ctxs (bit_of_or e b)).trans (h.ctxs b)
  cmds b := (k.cmds (bit_of_or e b)).trans (h.cmds b)
  arr b := (k.arr (bit_of_or e b)).trans (h.arr b)
  pans b := (k.pans (bit_of_or e b)).trans (h.pans b)
  balances b := (k.balances (bit_of_or e b)).trans (h.balances b)
  mem b := (k.mem (bit_of_or e b)).trans (h.mem b)
  seq b := (k.seq (bit_of_or e b)).trans (h.seq b)
  cmt b := (k.cmt (bit_of_or e b)).trans (h.cmt b)
  flt b := (k.flt (bit_of_or e b)).trans (h.flt b)
  mdl b := (k.mdl (bit_of_or e b)).trans (h.mdl b)
  lnk b := (k.lnk (bit_of_or e b)).trans (h.lnk b)
  pmc b := (k.pmc (bit_of_or e b)).trans (h.pmc b)
  fw b := (k.fw (bit_of_or e b)).trans (h.fw b)
  pwr b := (k.pwr (bit_of_or e b)).trans (h.pwr b)
  canonical c := k.canonical (h.canonical c)

/-- A fold of changes. -/
theorem foldl {α : Type} {M : Nat} {g : State → α → State} (h : ∀ s x, Within M s (g s x)) (l : List α) (s : State) : Within M s (l.foldl g s) := by
  induction l generalizing s with
  | nil => exact refl M s
  | cons x l ih => exact (h s x).step (ih _) (Nat.or_self M)

/-- A fold of changes that carries a value along. -/
theorem foldl_snd {α β : Type} {M : Nat} {g : β × State → α → β × State} (h : ∀ p x, Within M p.2 (g p x).2) (l : List α) (p : β × State) :
    Within M p.2 (l.foldl g p).2 := by
  induction l generalizing p with
  | nil => exact refl M _
  | cons x l ih => exact (h p x).step (ih _) (Nat.or_self M)

/-- The same, the state first. -/
theorem foldl_fst {α β : Type} {M : Nat} {g : State × β → α → State × β} (h : ∀ p x, Within M p.1 (g p x).1) (l : List α) (p : State × β) :
    Within M p.1 (l.foldl g p).1 := by
  induction l generalizing p with
  | nil => exact refl M _
  | cons x l ih => exact (h p x).step (ih _) (Nat.or_self M)

/-- The same, for the rows of a build. -/
theorem foldl_st {α : Type} {M : Nat} {g : Build → α → Build} (h : ∀ b x, Within M b.st (g b x).st) (l : List α) (b : Build) :
    Within M b.st (l.foldl g b).st := by
  induction l generalizing b with
  | nil => exact refl M _
  | cons x l ih => exact (h b x).step (ih _) (Nat.or_self M)

/-- A choice of changes. -/
theorem foldlM {α : Type} {M : Nat} {g : State → α → Option State} (h : ∀ {s x t}, g s x = some t → Within M s t) :
    ∀ (l : List α) {s t : State}, l.foldlM g s = some t → Within M s t
  | [], s, t, e => by cases e; exact refl M s
  | x :: l, s, t, e => by
    simp only [List.foldlM_cons, Option.bind_eq_bind, Option.bind_eq_some_iff] at e
    obtain ⟨u, hu, e⟩ := e
    exact (h hu).step (foldlM h l e) (Nat.or_self M)

theorem ite {M : Nat} {s t u : State} {c : Prop} [Decidable c] (ht : Within M s t) (hu : Within M s u) : Within M s (if c then t else u) := by
  split <;> assumption

theorem onHost {s : State} {f : HostPort → HostPort} (k : Memory.wf s.host.mem = true → Memory.wf (f s.host).mem = true) : Within 64 s (s.onHost f) :=
  ⟨fun _ => rfl, fun _ => rfl, fun _ => rfl, fun _ => rfl, fun _ => rfl, fun _ => rfl, (fun h => nomatch h), fun _ => rfl, fun _ => rfl, fun _ => rfl, fun _ => rfl, fun _ => rfl, fun _ => rfl, fun _ => rfl, fun _ => rfl, fun _ => rfl, fun _ => rfl, fun _ => rfl, fun _ => rfl, fun _ => rfl, fun _ => rfl,
   fun c => { c with host := k c.host }⟩

theorem onCtxs {s : State} {f : Tab Ctx → Tab Ctx} : Within 128 s (s.onCtxs f) :=
  ⟨fun _ => rfl, fun _ => rfl, fun _ => rfl, fun _ => rfl, fun _ => rfl, fun _ => rfl, fun _ => rfl, (fun h => nomatch h), fun _ => rfl, fun _ => rfl, fun _ => rfl, fun _ => rfl, fun _ => rfl, fun _ => rfl, fun _ => rfl, fun _ => rfl, fun _ => rfl, fun _ => rfl, fun _ => rfl, fun _ => rfl, fun _ => rfl,
   fun c => ⟨c.regs, c.acc, c.host, c.tiers, c.entries, c.dies, c.hists⟩⟩

theorem onCmds {s : State} {f : List Cmd → List Cmd} : Within 256 s (s.onCmds f) :=
  ⟨fun _ => rfl, fun _ => rfl, fun _ => rfl, fun _ => rfl, fun _ => rfl, fun _ => rfl, fun _ => rfl, fun _ => rfl, (fun h => nomatch h), fun _ => rfl, fun _ => rfl, fun _ => rfl, fun _ => rfl, fun _ => rfl, fun _ => rfl, fun _ => rfl, fun _ => rfl, fun _ => rfl, fun _ => rfl, fun _ => rfl, fun _ => rfl,
   fun c => ⟨c.regs, c.acc, c.host, c.tiers, c.entries, c.dies, c.hists⟩⟩

theorem onArr {s : State} {f : Arr → Arr} (k : twf Die.fresh s.arr.dies = true → twf Die.fresh (f s.arr).dies = true) : Within 512 s (s.onArr f) :=
  ⟨fun _ => rfl, fun _ => rfl, fun _ => rfl, fun _ => rfl, fun _ => rfl, fun _ => rfl, fun _ => rfl, fun _ => rfl, fun _ => rfl, (fun h => nomatch h), fun _ => rfl, fun _ => rfl, fun _ => rfl, fun _ => rfl, fun _ => rfl, fun _ => rfl, fun _ => rfl, fun _ => rfl, fun _ => rfl, fun _ => rfl, fun _ => rfl,
   fun c => { c with dies := k c.dies }⟩

theorem onPans {s : State} {f : Tab (Option Pan) → Tab (Option Pan)} : Within 1024 s (s.onPans f) :=
  ⟨fun _ => rfl, fun _ => rfl, fun _ => rfl, fun _ => rfl, fun _ => rfl, fun _ => rfl, fun _ => rfl, fun _ => rfl, fun _ => rfl, fun _ => rfl, (fun h => nomatch h), fun _ => rfl, fun _ => rfl, fun _ => rfl, fun _ => rfl, fun _ => rfl, fun _ => rfl, fun _ => rfl, fun _ => rfl, fun _ => rfl, fun _ => rfl,
   fun c => ⟨c.regs, c.acc, c.host, c.tiers, c.entries, c.dies, c.hists⟩⟩

theorem onBalances {s : State} {f : List BalanceSet → List BalanceSet} : Within 2048 s (s.onBalances f) :=
  ⟨fun _ => rfl, fun _ => rfl, fun _ => rfl, fun _ => rfl, fun _ => rfl, fun _ => rfl, fun _ => rfl, fun _ => rfl, fun _ => rfl, fun _ => rfl, fun _ => rfl, (fun h => nomatch h), fun _ => rfl, fun _ => rfl, fun _ => rfl, fun _ => rfl, fun _ => rfl, fun _ => rfl, fun _ => rfl, fun _ => rfl, fun _ => rfl,
   fun c => ⟨c.regs, c.acc, c.host, c.tiers, c.entries, c.dies, c.hists⟩⟩

theorem onMem {s : State} {f : MemState → MemState} (k : Memory.wf s.mem.bytes = true → Memory.wf (f s.mem).bytes = true) : Within 4096 s (s.onMem f) :=
  ⟨fun _ => rfl, fun _ => rfl, fun _ => rfl, fun _ => rfl, fun _ => rfl, fun _ => rfl, fun _ => rfl, fun _ => rfl, fun _ => rfl, fun _ => rfl, fun _ => rfl, fun _ => rfl, (fun h => nomatch h), fun _ => rfl, fun _ => rfl, fun _ => rfl, fun _ => rfl, fun _ => rfl, fun _ => rfl, fun _ => rfl, fun _ => rfl,
   fun c => { c with tiers := k c.tiers }⟩

theorem onSeq {s : State} {f : ServeState → ServeState} (k : twf none s.seq.entries = true → twf none (f s.seq).entries = true) : Within 8192 s (s.onSeq f) :=
  ⟨fun _ => rfl, fun _ => rfl, fun _ => rfl, fun _ => rfl, fun _ => rfl, fun _ => rfl, fun _ => rfl, fun _ => rfl, fun _ => rfl, fun _ => rfl, fun _ => rfl, fun _ => rfl, fun _ => rfl, (fun h => nomatch h), fun _ => rfl, fun _ => rfl, fun _ => rfl, fun _ => rfl, fun _ => rfl, fun _ => rfl, fun _ => rfl,
   fun c => { c with entries := k c.entries }⟩

theorem onCmt {s : State} {f : CommitState → CommitState} : Within 16384 s (s.onCmt f) :=
  ⟨fun _ => rfl, fun _ => rfl, fun _ => rfl, fun _ => rfl, fun _ => rfl, fun _ => rfl, fun _ => rfl, fun _ => rfl, fun _ => rfl, fun _ => rfl, fun _ => rfl, fun _ => rfl, fun _ => rfl, fun _ => rfl, (fun h => nomatch h), fun _ => rfl, fun _ => rfl, fun _ => rfl, fun _ => rfl, fun _ => rfl, fun _ => rfl,
   fun c => ⟨c.regs, c.acc, c.host, c.tiers, c.entries, c.dies, c.hists⟩⟩

theorem onFlt {s : State} {f : FltState → FltState} : Within 32768 s (s.onFlt f) :=
  ⟨fun _ => rfl, fun _ => rfl, fun _ => rfl, fun _ => rfl, fun _ => rfl, fun _ => rfl, fun _ => rfl, fun _ => rfl, fun _ => rfl, fun _ => rfl, fun _ => rfl, fun _ => rfl, fun _ => rfl, fun _ => rfl, fun _ => rfl, (fun h => nomatch h), fun _ => rfl, fun _ => rfl, fun _ => rfl, fun _ => rfl, fun _ => rfl,
   fun c => ⟨c.regs, c.acc, c.host, c.tiers, c.entries, c.dies, c.hists⟩⟩

theorem onMdl {s : State} {f : ModelState → ModelState} : Within 65536 s (s.onMdl f) :=
  ⟨fun _ => rfl, fun _ => rfl, fun _ => rfl, fun _ => rfl, fun _ => rfl, fun _ => rfl, fun _ => rfl, fun _ => rfl, fun _ => rfl, fun _ => rfl, fun _ => rfl, fun _ => rfl, fun _ => rfl, fun _ => rfl, fun _ => rfl, fun _ => rfl, (fun h => nomatch h), fun _ => rfl, fun _ => rfl, fun _ => rfl, fun _ => rfl,
   fun c => ⟨c.regs, c.acc, c.host, c.tiers, c.entries, c.dies, c.hists⟩⟩

theorem onLnk {s : State} {f : LinkState → LinkState} : Within 131072 s (s.onLnk f) :=
  ⟨fun _ => rfl, fun _ => rfl, fun _ => rfl, fun _ => rfl, fun _ => rfl, fun _ => rfl, fun _ => rfl, fun _ => rfl, fun _ => rfl, fun _ => rfl, fun _ => rfl, fun _ => rfl, fun _ => rfl, fun _ => rfl, fun _ => rfl, fun _ => rfl, fun _ => rfl, (fun h => nomatch h), fun _ => rfl, fun _ => rfl, fun _ => rfl,
   fun c => ⟨c.regs, c.acc, c.host, c.tiers, c.entries, c.dies, c.hists⟩⟩

theorem onPmc {s : State} {f : PmcState → PmcState} (k : twf PanHist.fresh s.pmc.hists = true → twf PanHist.fresh (f s.pmc).hists = true) : Within 262144 s (s.onPmc f) :=
  ⟨fun _ => rfl, fun _ => rfl, fun _ => rfl, fun _ => rfl, fun _ => rfl, fun _ => rfl, fun _ => rfl, fun _ => rfl, fun _ => rfl, fun _ => rfl, fun _ => rfl, fun _ => rfl, fun _ => rfl, fun _ => rfl, fun _ => rfl, fun _ => rfl, fun _ => rfl, fun _ => rfl, (fun h => nomatch h), fun _ => rfl, fun _ => rfl,
   fun c => { c with hists := k c.hists }⟩

theorem onFw {s : State} {f : FwState → FwState} : Within 524288 s (s.onFw f) :=
  ⟨fun _ => rfl, fun _ => rfl, fun _ => rfl, fun _ => rfl, fun _ => rfl, fun _ => rfl, fun _ => rfl, fun _ => rfl, fun _ => rfl, fun _ => rfl, fun _ => rfl, fun _ => rfl, fun _ => rfl, fun _ => rfl, fun _ => rfl, fun _ => rfl, fun _ => rfl, fun _ => rfl, fun _ => rfl, (fun h => nomatch h), fun _ => rfl,
   fun c => ⟨c.regs, c.acc, c.host, c.tiers, c.entries, c.dies, c.hists⟩⟩

theorem onPwr {s : State} {f : PowerState → PowerState} : Within 1048576 s (s.onPwr f) :=
  ⟨fun _ => rfl, fun _ => rfl, fun _ => rfl, fun _ => rfl, fun _ => rfl, fun _ => rfl, fun _ => rfl, fun _ => rfl, fun _ => rfl, fun _ => rfl, fun _ => rfl, fun _ => rfl, fun _ => rfl, fun _ => rfl, fun _ => rfl, fun _ => rfl, fun _ => rfl, fun _ => rfl, fun _ => rfl, fun _ => rfl, (fun h => nomatch h),
   fun c => ⟨c.regs, c.acc, c.host, c.tiers, c.entries, c.dies, c.hists⟩⟩

theorem onAcc {s : State} {f : Tab Nat → Tab Nat} (k : twf 0 s.acc = true → twf 0 (f s.acc) = true) : Within 32 s (s.onAcc f) :=
  ⟨fun _ => rfl, fun _ => rfl, fun _ => rfl, fun _ => rfl, fun _ => rfl, (fun h => nomatch h), fun _ => rfl, fun _ => rfl, fun _ => rfl, fun _ => rfl, fun _ => rfl, fun _ => rfl, fun _ => rfl, fun _ => rfl, fun _ => rfl, fun _ => rfl, fun _ => rfl, fun _ => rfl, fun _ => rfl, fun _ => rfl, fun _ => rfl,
   fun c => { c with acc := k c.acc }⟩

theorem onRegs {s : State} {f : Tab Word → Tab Word} (k : twf (0 : Word) s.regs = true → twf (0 : Word) (f s.regs) = true) : Within 16 s (s.onRegs f) :=
  ⟨fun _ => rfl, fun _ => rfl, fun _ => rfl, fun _ => rfl, (fun h => nomatch h), fun _ => rfl, fun _ => rfl, fun _ => rfl, fun _ => rfl, fun _ => rfl, fun _ => rfl, fun _ => rfl, fun _ => rfl, fun _ => rfl, fun _ => rfl, fun _ => rfl, fun _ => rfl, fun _ => rfl, fun _ => rfl, fun _ => rfl, fun _ => rfl,
   fun c => { c with regs := k c.regs }⟩

theorem set_pending {s : State} {v : List Instr} : Within 1 s { s with pending := v } :=
  ⟨(fun h => nomatch h), fun _ => rfl, fun _ => rfl, fun _ => rfl, fun _ => rfl, fun _ => rfl, fun _ => rfl, fun _ => rfl, fun _ => rfl, fun _ => rfl, fun _ => rfl, fun _ => rfl, fun _ => rfl, fun _ => rfl, fun _ => rfl, fun _ => rfl, fun _ => rfl, fun _ => rfl, fun _ => rfl, fun _ => rfl, fun _ => rfl,
   fun c => ⟨c.regs, c.acc, c.host, c.tiers, c.entries, c.dies, c.hists⟩⟩

theorem set_tick {s : State} {v : Nat} : Within 2 s { s with tick := v } :=
  ⟨fun _ => rfl, (fun h => nomatch h), fun _ => rfl, fun _ => rfl, fun _ => rfl, fun _ => rfl, fun _ => rfl, fun _ => rfl, fun _ => rfl, fun _ => rfl, fun _ => rfl, fun _ => rfl, fun _ => rfl, fun _ => rfl, fun _ => rfl, fun _ => rfl, fun _ => rfl, fun _ => rfl, fun _ => rfl, fun _ => rfl, fun _ => rfl,
   fun c => ⟨c.regs, c.acc, c.host, c.tiers, c.entries, c.dies, c.hists⟩⟩

theorem set_cd0ResetAt {s : State} {v : Nat} : Within 4 s { s with cd0ResetAt := v } :=
  ⟨fun _ => rfl, fun _ => rfl, (fun h => nomatch h), fun _ => rfl, fun _ => rfl, fun _ => rfl, fun _ => rfl, fun _ => rfl, fun _ => rfl, fun _ => rfl, fun _ => rfl, fun _ => rfl, fun _ => rfl, fun _ => rfl, fun _ => rfl, fun _ => rfl, fun _ => rfl, fun _ => rfl, fun _ => rfl, fun _ => rfl, fun _ => rfl,
   fun c => ⟨c.regs, c.acc, c.host, c.tiers, c.entries, c.dies, c.hists⟩⟩

theorem set_free {s : State} {v : Nat} : Within 8 s { s with free := v } :=
  ⟨fun _ => rfl, fun _ => rfl, fun _ => rfl, (fun h => nomatch h), fun _ => rfl, fun _ => rfl, fun _ => rfl, fun _ => rfl, fun _ => rfl, fun _ => rfl, fun _ => rfl, fun _ => rfl, fun _ => rfl, fun _ => rfl, fun _ => rfl, fun _ => rfl, fun _ => rfl, fun _ => rfl, fun _ => rfl, fun _ => rfl, fun _ => rfl,
   fun c => ⟨c.regs, c.acc, c.host, c.tiers, c.entries, c.dies, c.hists⟩⟩

/-- What is shown of an intermediate state is at hand for what follows. -/
theorem cut {M : Nat} {s t u : State} (k : Within M s t) (h : Within M s t → Within M s u) : Within M s u := h k

/-- A change, and another after it. -/
theorem step' {M G : Nat} {s t u : State} (h : Within G s t) (k : Within M t u) (e : M ||| G = M) : Within M s u := ((refl M s).step h e).step k (Nat.or_self M)

end Within

/-- A mask within a mask within a mask. -/
theorem or_sub {M G H : Nat} (e : M ||| G = M) (f : G ||| H = G) : M ||| H = M := by
  rw [← e, Nat.or_assoc, f]

theorem draw_within {α : Type} {f : Nat → α} {s : State} : Within 8 s (draw f s).2 := Within.set_free

theorem Memory.wf_pokeObj {o : Obj} {off : Nat} {bs : List Byte} {m : Mem} (h : Memory.wf m = true) : Memory.wf (pokeObj o off bs m) = true := by
  induction bs generalizing off m with
  | nil => exact h
  | cons b bs ih =>
    rw [pokeObj]
    apply ih
    split
    · exact twf_tput h _ _
    · exact h

theorem Memory.wf_memMove {a b n : Nat} {m : Mem} (h : Memory.wf m = true) : Memory.wf (memMove a b n m) = true := by
  unfold memMove
  dsimp only
  have h0 := Memory.wf_memZero h b n
  generalize memZero m b n = m0 at h0
  generalize (List.filterMap (fun p : Nat × Byte => if a ≤ p.1 ∧ p.1 < a + n then some (p.1 - a + b, p.2) else none) m) = l
  induction l generalizing m0 with
  | nil => exact h0
  | cons x l ih => exact ih _ (twf_tput h0 _ _)

theorem Memory.wf_archivePagesOut {fs : List Nat} {fp8 : Bool} {l : List ((Nat × KvPage) × Nat)} {m : Mem} (h : Memory.wf m = true) :
    Memory.wf (archivePagesOut fs fp8 l m).2 = true := by
  induction l generalizing m with
  | nil => exact h
  | cons x l ih =>
    obtain ⟨⟨i, p⟩, k⟩ := x
    unfold archivePagesOut
    exact ih (Memory.wf_memWrite h _ _)

theorem Memory.wf_foldl {α : Type} {g : Mem → α → Mem} (hg : ∀ m x, Memory.wf m = true → Memory.wf (g m x) = true) {l : List α} {m : Mem}
    (h : Memory.wf m = true) : Memory.wf (l.foldl g m) = true := by
  induction l generalizing m with
  | nil => exact h
  | cons x l ih => exact ih (hg _ _ h)

theorem Memory.wf_pokeInput {e : SeqEntry} {k : Nat} {l : List Word} {m : Mem} (h : Memory.wf m = true) : Memory.wf (pokeInput e k l m) = true := by
  induction l generalizing k m with
  | nil => unfold pokeInput; exact h
  | cons x l ih => unfold pokeInput; exact ih (Memory.wf_memWrite h _ _)

theorem Memory.wf_bringPages {a : Archive} {ps : List Nat} {m : Mem} (h : Memory.wf m = true) : Memory.wf (bringPages a ps m) = true := by
  unfold bringPages
  exact Memory.wf_foldl (fun m x k => Memory.wf_memMove k)
    (Memory.wf_foldl (fun m x k => by split <;> first | exact Memory.wf_memWrite k _ _ | exact Memory.wf_memMove k) h)

theorem Memory.wf_writeArchive {e : SeqEntry} {fp8 : Bool} {ps : List ((Nat × Nat) × Nat)} {ttl : Nat} {m : Mem} (h : Memory.wf m = true) :
    Memory.wf (writeArchive e fp8 ps ttl m).2 = true := by
  unfold writeArchive
  extract_lets fs inAt kv ins m1 off nodes m2 rec'
  have h1 : Memory.wf kv.2 = true := Memory.wf_archivePagesOut h
  clear_value kv
  have h2 : Memory.wf m1 = true := Memory.wf_foldl (fun m x k => Memory.wf_memMove k) h1
  clear_value m1
  have h3 : Memory.wf m2 = true := Memory.wf_foldl (fun m x k => Memory.wf_memWrite k _ _) h2
  clear_value m2
  dsimp -zeta only
  with_reducible exact Memory.wf_memWrite h3 _ _

end Sys2Proof.Machine
end

