-- ==== Sys2Proof/Laws/WithinArray.lean ====
section
/-! SUPPORT. What each operation may touch: the shared operations, memory, the tiles and the token ring. -/

namespace Sys2Proof.Machine

/-! ### Ops -/

theorem setReg_within {a : Nat} {v : Word} {s : State} : Within 16 s (setReg a v s) := Within.onRegs fun h => twf_tput h _ _

theorem setFld_within : ∀ {x0 x1 x2 x3 x4}, Within 16 x4 (setFld x0 x1 x2 x3 x4) := by
  intros
  unfold setFld
  repeat' first | with_reducible apply Within.refl | with_reducible apply Within.step ?_ setReg_within rfl

theorem bumpBy_within : ∀ {x0 x1 x2}, Within 48 x2 (bumpBy x0 x1 x2) := by
  intros
  unfold bumpBy
  repeat' first | with_reducible assumption | with_reducible apply Within.refl | ((first | intro x | (lift_lets; intro x)); refine Within.cut (t := x) ?_ ?_; rotate_left; intro hx; clear_value x; rotate_right; dsimp -zeta only [x]) | with_reducible apply Within.step ?_ setReg_within rfl | (with_reducible apply Within.step ?_ (Within.onAcc ?_) rfl; rotate_left; exact fun h => twf_tmod h _ _) | with_reducible apply Within.ite

theorem bump_within : ∀ {x0 x1}, Within 48 x1 (bump x0 x1) := by
  intros
  unfold bump
  repeat' first | with_reducible apply Within.refl | with_reducible apply Within.step ?_ bumpBy_within rfl

theorem setReg64_within : ∀ {x0 x1 x2 x3}, Within 16 x3 (setReg64 x0 x1 x2 x3) := by
  intros
  unfold setReg64
  repeat' first | with_reducible apply Within.refl | with_reducible apply Within.step ?_ setReg_within rfl

theorem resetRegs_within {lo hi : Nat} {s : State} : Within 48 s (resetRegs lo hi s) :=
  ((Within.refl _ _).step (Within.onRegs fun h => twf_filter h _) rfl).step (Within.onAcc fun h => twf_filter h _) rfl

theorem present_within : ∀ {x0 x1}, Within 32768 x1 (present x0 x1) := by
  intros
  unfold present
  repeat' first | with_reducible apply Within.refl | with_reducible apply Within.step ?_ Within.onFlt rfl

theorem lifeAdd_within : ∀ {x0 x1 x2 x3}, Within 32768 x3 (lifeAdd x0 x1 x2 x3) := by
  intros
  unfold lifeAdd
  repeat' first | with_reducible apply Within.refl | with_reducible apply Within.step ?_ Within.onFlt rfl

theorem restartCount_within : ∀ {x0 x1}, Within 1048576 x1 (restartCount x0 x1) := by
  intros
  unfold restartCount
  repeat' first | with_reducible assumption | with_reducible apply Within.refl | with_reducible apply Within.step ?_ Within.onPwr rfl

theorem modCtx_within : ∀ {x0 x1 x2}, Within 128 x2 (modCtx x0 x1 x2) := by
  intros
  unfold modCtx
  repeat' first | with_reducible apply Within.refl | with_reducible apply Within.step ?_ Within.onCtxs rfl

theorem modQueue_within : ∀ {x0 x1 x2 x3}, Within 128 x3 (modQueue x0 x1 x2 x3) := by
  intros
  unfold modQueue
  repeat' first | with_reducible apply Within.refl | with_reducible apply Within.step ?_ modCtx_within rfl

theorem raiseIrq_within : ∀ {x0 x1 x2}, Within 64 x2 (raiseIrq x0 x1 x2) := by
  intros
  unfold raiseIrq
  repeat' first | with_reducible apply Within.refl | (with_reducible apply Within.step ?_ (Within.onHost ?_) rfl; rotate_left; exact fun h => h)

theorem dmaWrite_within : ∀ {x0 x1 x2 x3}, Within 64 x3 (dmaWrite x0 x1 x2 x3) := by
  intros
  unfold dmaWrite
  repeat' first | with_reducible apply Within.refl | (with_reducible apply Within.step ?_ (Within.onHost ?_) rfl; rotate_left; exact fun h => Memory.wf_memWrite h _ _)

theorem modCmd_within : ∀ {x0 x1 x2}, Within 256 x2 (modCmd x0 x1 x2) := by
  intros
  unfold modCmd
  repeat' first | with_reducible apply Within.refl | with_reducible apply Within.step ?_ Within.onCmds rfl

theorem journal_within : ∀ {x0 x1 x2 x3 x4 x5}, Within 16384 x5 (journal x0 x1 x2 x3 x4 x5) := by
  intros
  unfold journal
  repeat' first | with_reducible apply Within.refl | ((first | intro x | (lift_lets; intro x)); clear_value x) | with_reducible apply Within.step ?_ Within.onCmt rfl | with_reducible apply Within.ite

theorem endWith_within : ∀ {x0 x1 x2 x3 x4 x5}, Within 16688 x5 (endWith x0 x1 x2 x3 x4 x5) := by
  intros
  unfold endWith
  repeat' first | with_reducible assumption | with_reducible apply Within.refl | ((first | intro x | (lift_lets; intro x)); refine Within.cut (t := x) ?_ ?_; rotate_left; intro hx; clear_value x; rotate_right; dsimp -zeta only [x]) | ((first | intro x | (lift_lets; intro x)); clear_value x) | with_reducible apply Within.step ?_ bump_within rfl | with_reducible apply Within.step ?_ journal_within rfl | with_reducible apply Within.step ?_ modCmd_within rfl | with_reducible apply Within.ite

theorem endOk_within : ∀ {x0 x1 x2 x3}, Within 16688 x3 (endOk x0 x1 x2 x3) := by
  intros
  unfold endOk
  repeat' first | with_reducible apply Within.refl | with_reducible apply Within.step ?_ endWith_within rfl

theorem endFail_within : ∀ {x0 x1 x2}, Within 16688 x2 (endFail x0 x1 x2) := by
  intros
  unfold endFail
  repeat' first | with_reducible apply Within.refl | with_reducible apply Within.step ?_ endWith_within rfl

/-! ### MemOps -/

theorem takeBlocks_within : ∀ {x0 x1 x2}, Within 4096 x2 (takeBlocks x0 x1 x2) := by
  intros
  unfold takeBlocks
  repeat' first | with_reducible apply Within.refl | (with_reducible apply Within.step ?_ (Within.onMem ?_) rfl; rotate_left; exact fun h => Memory.wf_memZero h _ _)

theorem takeEach_within {M : Nat} {f : State → Option (Nat × State)} (hf : ∀ s y t, f s = some (y, t) → Within M s t) :
    ∀ {n s} {y t}, takeEach f n s = some (y, t) → Within M s t := by
  intro n
  induction n with
  | zero => intro s y t h; unfold takeEach at h; cases h; exact Within.refl _ _
  | succ n ih =>
    intro s y t h
    unfold takeEach at h
    split at h
    · cases h
    · rename_i p hp
      obtain ⟨⟨a, b⟩, h1, h2⟩ := Option.map_eq_some_iff.1 h
      cases h2
      exact (hf _ _ _ hp).step (ih h1) (Nat.or_self M)

theorem retireBlock_within : ∀ {x0 x1 x2}, Within 36880 x2 (retireBlock x0 x1 x2) := by
  intros
  unfold retireBlock
  repeat' first | with_reducible assumption | with_reducible apply Within.refl | ((first | intro x | (lift_lets; intro x)); refine Within.cut (t := x) ?_ ?_; rotate_left; intro hx; clear_value x; rotate_right; dsimp -zeta only [x]) | ((first | intro x | (lift_lets; intro x)); clear_value x) | with_reducible apply Within.step ?_ present_within rfl | with_reducible apply Within.step ?_ setFld_within rfl | (with_reducible apply Within.step ?_ (Within.onMem ?_) rfl; rotate_left; first | exact fun h => h | exact fun h => Memory.wf_memWrite h _ _ | exact fun h => Memory.wf_memZero h _ _ | exact fun h => Memory.wf_pokeObj h | exact fun h => Memory.wf_memMove h) | with_reducible apply Within.step ?_ Within.onFlt rfl | with_reducible apply Within.ite

theorem freeBlocks_within : ∀ {x0 x1}, Within 36880 x1 (freeBlocks x0 x1) := by
  intros
  unfold freeBlocks
  repeat' first | with_reducible assumption | with_reducible apply Within.refl | ((first | intro x | (lift_lets; intro x)); clear_value x) | with_reducible apply Within.step ?_ retireBlock_within rfl | (with_reducible apply Within.step ?_ (Within.onMem ?_) rfl; rotate_left; first | exact fun h => h | exact fun h => Memory.wf_memWrite h _ _ | exact fun h => Memory.wf_memZero h _ _ | exact fun h => Memory.wf_pokeObj h | exact fun h => Memory.wf_memMove h) | (with_reducible apply Within.step ?_ (Within.foldl (M := 36880) ?_ _ _) rfl; rotate_left; intro _ _) | (with_reducible apply Within.step ?_ (Within.foldl_snd (M := 36880) ?_ _ _) rfl; rotate_left; intro _ _)

theorem takeFrame_within : ∀ {x0 x1}, Within 4096 x1 (takeFrame x0 x1) := by
  intros
  unfold takeFrame
  repeat' first | with_reducible apply Within.refl | (with_reducible apply Within.step ?_ (Within.onMem ?_) rfl; rotate_left; exact fun h => Memory.wf_memZero h _ _)

theorem freeFrames_within : ∀ {x0 x1}, Within 4096 x1 (freeFrames x0 x1) := by
  intros
  unfold freeFrames
  repeat' first | with_reducible apply Within.refl | (with_reducible apply Within.step ?_ (Within.onMem ?_) rfl; rotate_left; exact fun h => h)

theorem takeFrames_within : ∀ {x0 x1} {y t}, takeFrames x0 x1 = some (y, t) → Within 4096 x1 t := by
  intro n
  induction n with
  | zero => intro s y t h; simp only [takeFrames] at h; cases h; exact Within.refl _ _
  | succ n ih =>
    intro s y t h
    unfold takeFrames at h
    split at h
    · cases h
    · simp only [Option.map_eq_some_iff] at h
      obtain ⟨⟨a, b⟩, h1, h2⟩ := h
      cases h2
      exact takeFrame_within.step (ih h1) rfl

theorem selfRefresh_within : ∀ {x0 x1}, Within 16 x1 (selfRefresh x0 x1) := by
  intros
  unfold selfRefresh
  repeat' first | with_reducible assumption | with_reducible apply Within.refl | with_reducible apply Within.step ?_ setFld_within rfl | (with_reducible apply Within.step ?_ (Within.foldl (M := 16) ?_ _ _) rfl; rotate_left; intro _ _) | (with_reducible apply Within.step ?_ (Within.foldl_snd (M := 16) ?_ _ _) rfl; rotate_left; intro _ _)

theorem modObj_within : ∀ {x0 x1 x2 x3}, Within 128 x3 (modObj x0 x1 x2 x3) := by
  intros
  unfold modObj
  repeat' first | with_reducible apply Within.refl | with_reducible apply Within.step ?_ modCtx_within rfl

theorem fillZeros_within : ∀ {x0 x1 x2 x3}, Within 4224 x3 (fillZeros x0 x1 x2 x3).2 := by
  intro c i l
  induction l with
  | nil => intro s; exact Within.refl _ _
  | cons p ps ih =>
    intro s
    unfold fillZeros
    dsimp only
    split
    · split
      · exact Within.refl _ _
      · exact ((Within.refl 4224 _).step takeFrame_within rfl).step (modObj_within.step' ih rfl) rfl
    · exact ih

theorem writeObj_within : ∀ {x0 x1 x2 x3 x4}, Within 4224 x4 (writeObj x0 x1 x2 x3 x4).2 := by
  intros
  unfold writeObj
  repeat' first | with_reducible assumption | with_reducible apply Within.refl | ((first | intro x | (lift_lets; intro x)); refine Within.cut (t := x.2) ?_ ?_; rotate_left; intro hx; clear_value x; rotate_right; dsimp -zeta only [x]) | ((first | intro x | (lift_lets; intro x)); clear_value x) | with_reducible apply Within.step ?_ fillZeros_within rfl | with_reducible apply Within.step ?_ modCtx_within rfl | with_reducible apply Within.step ?_ modObj_within rfl | (with_reducible apply Within.step ?_ (Within.onMem ?_) rfl; rotate_left; exact fun h => Memory.wf_pokeObj h) | with_reducible apply Within.ite | split

theorem charge_within : ∀ {x0 x1 x2 x3}, Within 128 x3 (charge x0 x1 x2 x3) := by
  intros
  unfold charge
  repeat' first | with_reducible apply Within.refl | with_reducible apply Within.step ?_ modCtx_within rfl

theorem discharge_within : ∀ {x0 x1 x2 x3}, Within 128 x3 (discharge x0 x1 x2 x3) := by
  intros
  unfold discharge
  repeat' first | with_reducible apply Within.refl | with_reducible apply Within.step ?_ modCtx_within rfl

theorem freePlace_within : ∀ {x0 x1 x2}, Within 36880 x2 (freePlace x0 x1 x2) := by
  intros
  unfold freePlace
  repeat' first | with_reducible assumption | with_reducible apply Within.refl | with_reducible apply Within.step ?_ freeBlocks_within rfl | with_reducible apply Within.step ?_ freeFrames_within rfl

theorem dropObj_within : ∀ {x0 x1 x2}, Within 37008 x2 (dropObj x0 x1 x2) := by
  intros
  unfold dropObj
  repeat' first | with_reducible assumption | with_reducible apply Within.refl | ((first | intro x | (lift_lets; intro x)); refine Within.cut (t := x) ?_ ?_; rotate_left; intro hx; clear_value x; rotate_right; dsimp -zeta only [x]) | ((first | intro x | (lift_lets; intro x)); clear_value x) | with_reducible apply Within.step ?_ discharge_within rfl | with_reducible apply Within.step ?_ freePlace_within rfl | with_reducible apply Within.step ?_ modObj_within rfl | with_reducible apply Within.ite | split

theorem placeTable_within : ∀ {x0 x1}, Within 4224 x1 (placeTable x0 x1).2 := by
  intros
  unfold placeTable
  repeat' first | with_reducible assumption | with_reducible apply Within.refl | ((first | intro x | (lift_lets; intro x)); clear_value x) | with_reducible apply Within.step ?_ modCtx_within rfl | with_reducible apply Within.step ?_ takeBlocks_within rfl | with_reducible apply Within.ite | split

theorem freeTable_within : ∀ {x0 x1}, Within 37008 x1 (freeTable x0 x1) := by
  intros
  unfold freeTable
  repeat' first | with_reducible assumption | with_reducible apply Within.refl | ((first | intro x | (lift_lets; intro x)); clear_value x) | with_reducible apply Within.step ?_ freeBlocks_within rfl | with_reducible apply Within.step ?_ modCtx_within rfl | with_reducible apply Within.ite

theorem dropAlias_within : ∀ {x0 x1 x2}, Within 37008 x2 (dropAlias x0 x1 x2) := by
  intros
  unfold dropAlias
  repeat' first | with_reducible assumption | with_reducible apply Within.refl | ((first | intro x | (lift_lets; intro x)); refine Within.cut (t := x) ?_ ?_; rotate_left; intro hx; clear_value x; rotate_right; dsimp -zeta only [x]) | with_reducible apply Within.step ?_ dropObj_within rfl | with_reducible apply Within.step ?_ modObj_within rfl | with_reducible apply Within.ite

theorem reapOld_within : ∀ {x0}, Within 37008 x0 (reapOld x0) := by
  intros
  unfold reapOld
  repeat' first | with_reducible assumption | with_reducible apply Within.refl | ((first | intro x | (lift_lets; intro x)); clear_value x) | with_reducible apply Within.step ?_ discharge_within rfl | with_reducible apply Within.step ?_ freePlace_within rfl | with_reducible apply Within.step ?_ modObj_within rfl | (with_reducible apply Within.step ?_ (Within.foldl (M := 37008) ?_ _ _) rfl; rotate_left; intro _ _) | with_reducible apply Within.ite | split

theorem putObj_within : ∀ {x0 x1 x2 x3}, Within 128 x3 (putObj x0 x1 x2 x3) := by
  intros
  unfold putObj
  repeat' first | with_reducible apply Within.refl | ((first | intro x | (lift_lets; intro x)); clear_value x) | with_reducible apply Within.step ?_ modCtx_within rfl

/-! ### PanOps -/

theorem modPan_within : ∀ {x0 x1 x2}, Within 1024 x2 (modPan x0 x1 x2) := by
  intros
  unfold modPan
  repeat' first | with_reducible apply Within.refl | with_reducible apply Within.step ?_ Within.onPans rfl

/-! ### ArrayOps -/

theorem modDie_within : ∀ {x0 x1 x2}, Within 512 x2 (modDie x0 x1 x2) := by
  intros
  unfold modDie
  repeat' first | with_reducible apply Within.refl | (with_reducible apply Within.step ?_ (Within.onArr ?_) rfl; rotate_left; exact fun h => twf_tmod h _ _)

theorem modTile_within : ∀ {x0 x1 x2 x3 x4}, Within 512 x4 (modTile x0 x1 x2 x3 x4) := by
  intros
  unfold modTile
  repeat' first | with_reducible apply Within.refl | with_reducible apply Within.step ?_ modDie_within rfl

theorem noteSpill_within : ∀ {x0 x1}, Within 16 x1 (noteSpill x0 x1) := by
  intros
  unfold noteSpill
  repeat' first | with_reducible assumption | with_reducible apply Within.refl | ((first | intro x | (lift_lets; intro x)); clear_value x) | with_reducible apply Within.step ?_ setFld_within rfl | with_reducible apply Within.ite

theorem enqueue_within : ∀ {x0 x1 x2 x3 x4 x5}, Within 528 x5 (enqueue x0 x1 x2 x3 x4 x5) := by
  intros
  unfold enqueue
  repeat' first | with_reducible assumption | with_reducible apply Within.refl | with_reducible apply Within.step ?_ modDie_within rfl | with_reducible apply Within.step ?_ modTile_within rfl | with_reducible apply Within.step ?_ noteSpill_within rfl | with_reducible apply Within.ite | split

theorem tokenError_within : ∀ {x0 x1 x2 x3 x4 x5}, Within 33296 x5 (tokenError x0 x1 x2 x3 x4 x5) := by
  intros
  unfold tokenError
  repeat' first | with_reducible assumption | with_reducible apply Within.refl | ((first | intro x | (lift_lets; intro x)); refine Within.cut (t := x) ?_ ?_; rotate_left; intro hx; clear_value x; rotate_right; dsimp -zeta only [x]) | ((first | intro x | (lift_lets; intro x)); clear_value x) | with_reducible apply Within.step ?_ modTile_within rfl | with_reducible apply Within.step ?_ present_within rfl | with_reducible apply Within.step ?_ setReg_within rfl | with_reducible apply Within.ite

theorem tileFault_within : ∀ {x0 x1 x2 x3 x4 x5 x6}, Within 33280 x6 (tileFault x0 x1 x2 x3 x4 x5 x6) := by
  intros
  unfold tileFault
  repeat' first | with_reducible apply Within.refl | with_reducible apply Within.step ?_ modTile_within rfl | with_reducible apply Within.step ?_ present_within rfl

/-! ### ModelTab -/

theorem modModel_within : ∀ {x0 x1 x2}, Within 65536 x2 (modModel x0 x1 x2) := by
  intros
  unfold modModel
  repeat' first | with_reducible apply Within.refl | with_reducible apply Within.step ?_ Within.onMdl rfl

theorem modSlot_within : ∀ {x0 x1 x2}, Within 65536 x2 (modSlot x0 x1 x2) := by
  intros
  unfold modSlot
  repeat' first | with_reducible apply Within.refl | with_reducible apply Within.step ?_ Within.onMdl rfl

theorem modEmb_within : ∀ {x0 x1 x2}, Within 65536 x2 (modEmb x0 x1 x2) := by
  intros
  unfold modEmb
  repeat' first | with_reducible apply Within.refl | with_reducible apply Within.step ?_ Within.onMdl rfl

theorem refreshSlots_within : ∀ {x0 x1 x2 x3}, Within 65536 x3 (refreshSlots x0 x1 x2 x3) := by
  intros
  unfold refreshSlots
  repeat' first | with_reducible apply Within.refl | with_reducible apply Within.step ?_ Within.onMdl rfl

/-! ### EmbOps -/

theorem writeRow_within : ∀ {x0 x1 x2 x3 x4}, Within 4224 x4 (writeRow x0 x1 x2 x3 x4).2 := by
  intros
  unfold writeRow
  repeat' first | with_reducible assumption | with_reducible apply Within.refl | ((first | intro x | (lift_lets; intro x)); refine Within.cut (t := x.2) ?_ ?_; rotate_left; intro hx; clear_value x; rotate_right; dsimp -zeta only [x]) | with_reducible apply Within.step ?_ writeObj_within rfl | split

theorem deleteRow_within : ∀ {x0 x1 x2 x3}, Within 4224 x3 (deleteRow x0 x1 x2 x3) := by
  intros
  unfold deleteRow
  repeat' first | with_reducible apply Within.refl | ((first | intro x | (lift_lets; intro x)); clear_value x) | with_reducible apply Within.step ?_ writeObj_within rfl | with_reducible apply Within.ite

theorem addHot_within : ∀ {x0 x1 x2}, Within 560 x2 (addHot x0 x1 x2) := by
  intros
  unfold addHot
  repeat' first | with_reducible apply Within.refl | ((first | intro x | (lift_lets; intro x)); clear_value x) | with_reducible apply Within.step ?_ bump_within rfl | with_reducible apply Within.step ?_ modDie_within rfl | with_reducible apply Within.step ?_ showHot_within rfl | with_reducible apply Within.ite

theorem dropHot_within : ∀ {x0 x1 x2}, Within 528 x2 (dropHot x0 x1 x2) := by
  intros
  unfold dropHot
  repeat' first | with_reducible apply Within.refl | with_reducible apply Within.step ?_ modDie_within rfl

theorem readHot_within : ∀ {x0 x1 x2 x3}, Within 512 x3 (readHot x0 x1 x2 x3) := by
  intros
  unfold readHot
  repeat' first | with_reducible assumption | with_reducible apply Within.refl | with_reducible apply Within.step ?_ modDie_within rfl

theorem dropStale_within : ∀ {x0 x1}, Within 528 x0 (dropStale x0 x1) := by
  intros
  unfold dropStale
  repeat' first | with_reducible assumption | with_reducible apply Within.refl | with_reducible apply Within.step ?_ dropHot_within rfl | with_reducible apply Within.ite

/-! ### TileFns -/

theorem takeEvents_within : ∀ {x0 x1 x2 x3 x4}, Within 568 x4 (takeEvents x0 x1 x2 x3 x4) := by
  intros
  unfold takeEvents
  repeat' first | with_reducible assumption | with_reducible apply Within.refl | ((first | intro x | (lift_lets; intro x)); refine Within.cut (t := x) ?_ ?_; rotate_left; intro hx; clear_value x; rotate_right; dsimp -zeta only [x]) | with_reducible apply Within.step ?_ bumpBy_within rfl | with_reducible apply Within.step ?_ modTile_within rfl | with_reducible apply Within.step ?_ Within.set_free rfl

/-! ### Network -/

theorem pushPacket_within : ∀ {x0 x1 x2 x3}, Within 512 x3 (pushPacket x0 x1 x2 x3) := by
  intros
  unfold pushPacket
  repeat' first | with_reducible assumption | with_reducible apply Within.refl | (with_reducible apply Within.step ?_ (Within.onArr ?_) rfl; rotate_left; first | exact fun h => h | exact fun h => twf_tput h _ _ | exact fun h => twf_tmod h _ _)

theorem sendFromPort_within : ∀ {x0 x1 x2 x3}, Within 512 x3 (sendFromPort x0 x1 x2 x3) := by
  intros
  unfold sendFromPort
  repeat' first | with_reducible assumption | with_reducible apply Within.refl | with_reducible apply Within.step ?_ pushPacket_within rfl

theorem sendFromDie_within : ∀ {x0 x1 x2 x3}, Within 512 x3 (sendFromDie x0 x1 x2 x3) := by
  intros
  unfold sendFromDie
  repeat' first | with_reducible assumption | with_reducible apply Within.refl | ((first | intro x | (lift_lets; intro x)); clear_value x) | with_reducible apply Within.step ?_ pushPacket_within rfl

theorem enterX_within : ∀ {x0 x1 x2 x3 x4 x5}, Within 512 x5 (enterX x0 x1 x2 x3 x4 x5) := by
  intros
  unfold enterX
  repeat' first | with_reducible assumption | with_reducible apply Within.refl | with_reducible apply Within.step ?_ modTile_within rfl

theorem sendX_within : ∀ {x0 x1 x2}, Within 512 x2 (sendX x0 x1 x2) := by
  intros
  unfold sendX
  repeat' first | with_reducible assumption | with_reducible apply Within.refl | with_reducible apply Within.step ?_ enterX_within rfl | (with_reducible apply Within.step ?_ (Within.foldl (M := 512) ?_ _ _) rfl; rotate_left; intro _ _) | (with_reducible apply Within.step ?_ (Within.foldl_snd (M := 512) ?_ _ _) rfl; rotate_left; intro _ _)

theorem deliverX_within : ∀ {x0 x1 x2 x3 x4}, Within 512 x4 (deliverX x0 x1 x2 x3 x4) := by
  intros
  unfold deliverX
  repeat' first | with_reducible assumption | with_reducible apply Within.refl | with_reducible apply Within.step ?_ enterX_within rfl

theorem modStream_within : ∀ {x0 x1 x2}, Within 4096 x2 (modStream x0 x1 x2) := by
  intros
  unfold modStream
  repeat' first | with_reducible assumption | with_reducible apply Within.refl | (with_reducible apply Within.step ?_ (Within.onMem ?_) rfl; rotate_left; first | exact fun h => h | exact fun h => Memory.wf_memWrite h _ _ | exact fun h => Memory.wf_memZero h _ _ | exact fun h => Memory.wf_pokeObj h | exact fun h => Memory.wf_memMove h)

theorem noteLanded_within : ∀ {x0 x1 x2}, Within 4096 x2 (noteLanded x0 x1 x2) := by
  intros
  unfold noteLanded
  repeat' first | with_reducible assumption | with_reducible apply Within.refl | with_reducible apply Within.step ?_ modStream_within rfl

theorem landPacket_within : ∀ {x0 x1 x2}, Within 4608 x2 (landPacket x0 x1 x2) := by
  intros
  unfold landPacket
  repeat' first | with_reducible assumption | with_reducible apply Within.refl | ((first | intro x | (lift_lets; intro x)); refine Within.cut (t := x) ?_ ?_; rotate_left; intro hx; clear_value x; rotate_right; dsimp -zeta only [x]) | with_reducible apply Within.step ?_ deliverX_within rfl | with_reducible apply Within.step ?_ modDie_within rfl | with_reducible apply Within.step ?_ modTile_within rfl | with_reducible apply Within.step ?_ noteLanded_within rfl | with_reducible apply Within.step ?_ sendX_within rfl | (with_reducible apply Within.step ?_ (Within.onArr ?_) rfl; rotate_left; first | exact fun h => h | exact fun h => twf_tput h _ _ | exact fun h => twf_tmod h _ _) | with_reducible apply Within.ite | split

theorem leavePacket_within : ∀ {x0 x1}, Within 4608 x1 (leavePacket x0 x1) := by
  intros
  unfold leavePacket
  repeat' first | with_reducible assumption | with_reducible apply Within.refl | with_reducible apply Within.step ?_ modDie_within rfl | with_reducible apply Within.step ?_ modStream_within rfl | with_reducible apply Within.step ?_ noteLanded_within rfl | (with_reducible apply Within.step ?_ (Within.onArr ?_) rfl; rotate_left; first | exact fun h => h | exact fun h => twf_tput h _ _ | exact fun h => twf_tmod h _ _) | with_reducible apply Within.ite | split

theorem doHop_within : ∀ {x0 x1 x2}, Within 4608 x1 (doHop x0 x1 x2) := by
  intro r s h
  cases h with
  | link q k => exact (Within.refl 4608 s).step pushPacket_within rfl
  | land k => exact (Within.refl 4608 s).step landPacket_within rfl
  | out k => exact (Within.refl 4608 s).step leavePacket_within rfl
  | discard =>
    unfold doHop
    exact Within.step (G := 512) (Within.refl 4608 s) (Within.onArr fun h => h) rfl

theorem execRouterPacket_within : ∀ {x0 x1 x2}, ∀ {t}, (execRouterPacket x0 x1 x2) = .next t → Within 4608 x2 t := by
  intros
  rename_i h
  unfold execRouterPacket at h
  injection h with h
  subst h
  repeat' first | with_reducible assumption | with_reducible apply Within.refl | ((first | intro x | (lift_lets; intro x)); refine Within.cut (t := x) ?_ ?_; rotate_left; intro hx; clear_value x; rotate_right; dsimp -zeta only [x]) | with_reducible apply Within.step ?_ doHop_within rfl | (with_reducible apply Within.step ?_ (Within.onArr ?_) rfl; rotate_left; first | exact fun h => h | exact fun h => twf_tput h _ _ | exact fun h => twf_tmod h _ _) | (with_reducible apply Within.step ?_ (Within.foldl (M := 4608) ?_ _ _) rfl; rotate_left; intro _ _) | split

theorem sendCtrl_within : ∀ {x0 x1 x2 x3}, Within 512 x3 (sendCtrl x0 x1 x2 x3) := by
  intros
  unfold sendCtrl
  repeat' first | with_reducible assumption | with_reducible apply Within.refl | with_reducible apply Within.step ?_ sendFromDie_within rfl | with_reducible apply Within.ite | split

theorem sendMover_within : ∀ {x0 x1 x2 x3}, Within 512 x3 (sendMover x0 x1 x2 x3) := by
  intros
  unfold sendMover
  repeat' first | with_reducible assumption | with_reducible apply Within.refl | with_reducible apply Within.step ?_ sendFromDie_within rfl

theorem sendBetween_within : ∀ {x0 x1 x2 x3 x4}, Within 512 x4 (sendBetween x0 x1 x2 x3 x4) := by
  intros
  unfold sendBetween
  repeat' first | with_reducible assumption | with_reducible apply Within.refl | with_reducible apply Within.step ?_ sendFromDie_within rfl

theorem sendData_within : ∀ {x0 x1 x2 x3 x4 x5}, Within 512 x5 (sendData x0 x1 x2 x3 x4 x5) := by
  intros
  unfold sendData
  repeat' first | with_reducible assumption | with_reducible apply Within.refl | with_reducible apply Within.step ?_ sendFromPort_within rfl

theorem sendReq_within : ∀ {x0 x1 x2 x3 x4 x5}, Within 512 x5 (sendReq x0 x1 x2 x3 x4 x5) := by
  intros
  unfold sendReq
  repeat' first | with_reducible assumption | with_reducible apply Within.refl | with_reducible apply Within.step ?_ sendFromPort_within rfl

theorem sendToDie_within : ∀ {x0 x1 x2 x3 x4}, Within 512 x4 (sendToDie x0 x1 x2 x3 x4) := by
  intros
  unfold sendToDie
  repeat' first | with_reducible assumption | with_reducible apply Within.refl | with_reducible apply Within.step ?_ sendFromDie_within rfl | with_reducible apply Within.ite | split

theorem sendToRect_within : ∀ {x0 x1 x2 x3 x4 x5 x6 x7}, Within 512 x7 (sendToRect x0 x1 x2 x3 x4 x5 x6 x7) := by
  intros
  unfold sendToRect
  repeat' first | with_reducible assumption | with_reducible apply Within.refl | with_reducible apply Within.step ?_ sendFromDie_within rfl

theorem sendTunnel_within : ∀ {x0 x1 x2 x3 x4 x5 x6 x7}, Within 512 x7 (sendTunnel x0 x1 x2 x3 x4 x5 x6 x7) := by
  intros
  unfold sendTunnel
  repeat' first | with_reducible assumption | with_reducible apply Within.refl | with_reducible apply Within.step ?_ pushPacket_within rfl | with_reducible apply Within.ite | split

theorem dropPackets_within : ∀ {x0 x1}, Within 512 x1 (dropPackets x0 x1) := by
  intros
  unfold dropPackets
  repeat' first | with_reducible assumption | with_reducible apply Within.refl | (with_reducible apply Within.step ?_ (Within.onArr ?_) rfl; rotate_left; first | exact fun h => h | exact fun h => twf_tput h _ _ | exact fun h => twf_tmod h _ _)

/-! ### GTile -/

theorem follow_within : ∀ {x0 x1 x2 x3 x4 x5}, Within 512 x5 (follow x0 x1 x2 x3 x4 x5) := by
  intros
  unfold follow
  repeat' first | with_reducible apply Within.refl | with_reducible apply Within.step ?_ modTile_within rfl

theorem countNans_within : ∀ {x0 x1 x2}, Within 48 x2 (countNans x0 x1 x2) := by
  intros
  unfold countNans
  repeat' first | with_reducible assumption | with_reducible apply Within.refl | with_reducible apply Within.step ?_ bumpBy_within rfl

theorem moeEnd_within : ∀ {x0 x1 x2 x3 x4}, Within 33336 x4 (moeEnd x0 x1 x2 x3 x4) := by
  intros
  unfold moeEnd
  repeat' first | with_reducible assumption | with_reducible apply Within.refl | ((first | intro x | (lift_lets; intro x)); refine Within.cut (t := x.2) ?_ ?_; rotate_left; intro hx; clear_value x; rotate_right; dsimp -zeta only [x]) | ((first | intro x | (lift_lets; intro x)); clear_value x) | with_reducible apply Within.step ?_ bumpBy_within rfl | with_reducible apply Within.step ?_ countNans_within rfl | with_reducible apply Within.step ?_ draw_within rfl | with_reducible apply Within.step ?_ follow_within rfl | with_reducible apply Within.step ?_ modDie_within rfl | with_reducible apply Within.step ?_ modTile_within rfl | with_reducible apply Within.step ?_ tileFault_within rfl | (with_reducible apply Within.step ?_ (Within.foldl (M := 33336) ?_ _ _) rfl; rotate_left; intro _ _) | with_reducible apply Within.ite

theorem moePlace_within : ∀ {x0 x1 x2 x3 x4 x5}, Within 568 x5 (moePlace x0 x1 x2 x3 x4 x5) := by
  intros
  unfold moePlace
  repeat' first | with_reducible assumption | with_reducible apply Within.refl | ((first | intro x | (lift_lets; intro x)); have hf := fun a => x a; clear hf; subst x) | ((first | intro x | (lift_lets; intro x)); clear_value x) | with_reducible apply Within.step ?_ bumpBy_within rfl | with_reducible apply Within.step ?_ modTile_within rfl | with_reducible apply Within.step ?_ takeEvents_within rfl | with_reducible apply Within.ite

theorem moeClaim_within : ∀ {x0 x1}, Within 568 x1 (moeClaim x0 x1).2 := by
  intros
  unfold moeClaim
  repeat' first | with_reducible assumption | with_reducible apply Within.refl | ((first | intro x | (lift_lets; intro x)); refine Within.cut (t := x.2) ?_ ?_; rotate_left; intro hx; clear_value x; rotate_right; dsimp -zeta only [x]) | with_reducible apply Within.step ?_ bump_within rfl | with_reducible apply Within.step ?_ modDie_within rfl | with_reducible apply Within.step ?_ draw_within rfl | split

theorem moeCombine_within : ∀ {x0 x1 x2 x3 x4 x5 x6}, Within 568 x6 (moeCombine x0 x1 x2 x3 x4 x5 x6).2 := by
  intros
  unfold moeCombine
  repeat' first | with_reducible assumption | with_reducible apply Within.refl | ((first | intro x | (lift_lets; intro x)); clear_value x) | with_reducible apply Within.step ?_ modTile_within rfl | with_reducible apply Within.step ?_ takeEvents_within rfl | with_reducible apply Within.ite | split

theorem exitRow_within : ∀ {x0 x1 x2 x3}, Within 8240 x3 (exitRow x0 x1 x2 x3) := by
  intros
  unfold exitRow
  repeat' first | with_reducible assumption | with_reducible apply Within.refl | ((first | intro x | (lift_lets; intro x)); refine Within.cut (t := x) ?_ ?_; rotate_left; intro hx; clear_value x; rotate_right; dsimp -zeta only [x]) | ((first | intro x | (lift_lets; intro x)); clear_value x) | with_reducible apply Within.step ?_ bump_within rfl | (with_reducible apply Within.step ?_ (Within.onSeq ?_) rfl; rotate_left; first | exact fun h => h | exact fun h => twf_tput h _ _ | exact fun h => twf_tmod h _ _) | with_reducible apply Within.ite | split

theorem exitEnd_within : ∀ {x0 x1 x2 x3 x4 x5}, Within 8760 x5 (exitEnd x0 x1 x2 x3 x4 x5).2 := by
  intros
  unfold exitEnd
  repeat' first | with_reducible assumption | with_reducible apply Within.refl | ((first | intro x | (lift_lets; intro x)); refine Within.cut (t := x) ?_ ?_; rotate_left; intro hx; clear_value x; rotate_right; dsimp -zeta only [x]) | ((first | intro x | (lift_lets; intro x)); clear_value x) | with_reducible apply Within.step ?_ countNans_within rfl | with_reducible apply Within.step ?_ exitRow_within rfl | with_reducible apply Within.step ?_ modTile_within rfl | with_reducible apply Within.step ?_ takeEvents_within rfl | with_reducible apply Within.ite | split

theorem exitTest_within : ∀ {x0 x1 x2 x3 x4 x5 x6}, Within 8760 x6 (exitTest x0 x1 x2 x3 x4 x5 x6).2 := by
  intros
  unfold exitTest
  repeat' first | with_reducible assumption | with_reducible apply Within.refl | ((first | intro x | (lift_lets; intro x)); clear_value x) | with_reducible apply Within.step ?_ exitEnd_within rfl | with_reducible apply Within.step ?_ modTile_within rfl | with_reducible apply Within.ite | split

theorem countPairs_within : ∀ {x0 x1 x2 x3}, Within 48 x3 (countPairs x0 x1 x2 x3) := by
  intros
  unfold countPairs
  repeat' first | with_reducible apply Within.refl | ((first | intro x | (lift_lets; intro x)); clear_value x) | with_reducible apply Within.step ?_ bump_within rfl | with_reducible apply Within.step ?_ bumpBy_within rfl | (with_reducible apply Within.step ?_ (Within.foldl (M := 48) ?_ _ _) rfl; rotate_left; intro _ _) | split

theorem bagFlit_within : ∀ {x0 x1 x2 x3 x4 x5}, Within 33328 x5 (bagFlit x0 x1 x2 x3 x4 x5) := by
  intros
  unfold bagFlit
  repeat' first | with_reducible assumption | with_reducible apply Within.refl | ((first | intro x | (lift_lets; intro x)); refine Within.cut (t := x) ?_ ?_; rotate_left; intro hx; clear_value x; rotate_right; dsimp -zeta only [x]) | ((first | intro x | (lift_lets; intro x)); clear_value x) | with_reducible apply Within.step ?_ countPairs_within rfl | with_reducible apply Within.step ?_ modTile_within rfl | with_reducible apply Within.step ?_ tileFault_within rfl | with_reducible apply Within.ite

theorem poolBag_within : ∀ {x0 x1 x2 x3 x4 x5 x6 x7}, Within 568 x0 (poolBag x0 x1 x2 x3 x4 x5 x6 x7).2 := by
  intros
  unfold poolBag
  repeat' first | with_reducible assumption | with_reducible apply Within.refl | ((first | intro x | (lift_lets; intro x)); refine Within.cut (t := x) ?_ ?_; rotate_left; intro hx; clear_value x; rotate_right; dsimp -zeta only [x]) | ((first | intro x | (lift_lets; intro x)); clear_value x) | with_reducible apply Within.step ?_ bump_within rfl | with_reducible apply Within.step ?_ takeEvents_within rfl | with_reducible apply Within.ite | split

theorem gradRecords_within : ∀ {x0 x1 x2 x3}, Within 48 x3 (gradRecords x0 x1 x2 x3).2 := by
  intros
  unfold gradRecords
  repeat' first | with_reducible assumption | with_reducible apply Within.refl | ((first | intro x | (lift_lets; intro x)); clear_value x) | with_reducible apply Within.step ?_ countNans_within rfl | (with_reducible apply Within.step ?_ (Within.foldl_snd (M := 48) ?_ _ _) rfl; rotate_left; intro _ _)

theorem askRow_within : ∀ {x0 x1 x2 x3 x4}, Within 560 x3 (askRow x0 x1 x2 x3 x4) := by
  intros
  unfold askRow
  repeat' first | with_reducible assumption | with_reducible apply Within.refl | ((first | intro x | (lift_lets; intro x)); have hf := fun a => x a; clear hf; subst x) | ((first | intro x | (lift_lets; intro x)); clear_value x) | with_reducible apply Within.step ?_ bump_within rfl | with_reducible apply Within.step ?_ modDie_within rfl | with_reducible apply Within.step ?_ modTile_within rfl | with_reducible apply Within.step ?_ readHot_within rfl | with_reducible apply Within.step ?_ sendReq_within rfl | with_reducible apply Within.ite | split

theorem closeRound_within : ∀ {x0 x1 x2 x3}, Within 560 x3 (closeRound x0 x1 x2 x3) := by
  intros
  unfold closeRound
  repeat' first | with_reducible assumption | with_reducible apply Within.refl | ((first | intro x | (lift_lets; intro x)); refine Within.cut (t := x) ?_ ?_; rotate_left; intro hx; clear_value x; rotate_right; dsimp -zeta only [x]) | ((first | intro x | (lift_lets; intro x)); clear_value x) | with_reducible apply Within.step ?_ askRow_within rfl | with_reducible apply Within.step ?_ bumpBy_within rfl | with_reducible apply Within.step ?_ modDie_within rfl | with_reducible apply Within.step ?_ modTile_within rfl | (with_reducible apply Within.step ?_ (Within.foldl (M := 560) ?_ _ _) rfl; rotate_left; intro _ _) | with_reducible apply Within.ite

theorem finishRound_within : ∀ {x0 x1 x2 x3}, Within 568 x3 (finishRound x0 x1 x2 x3) := by
  intros
  unfold finishRound
  repeat' first | with_reducible assumption | with_reducible apply Within.refl | ((first | intro x | (lift_lets; intro x)); refine Within.cut (t := x.2) ?_ ?_; rotate_left; intro hx; clear_value x; rotate_right; dsimp -zeta only [x]) | ((first | intro x | (lift_lets; intro x)); clear_value x) | with_reducible apply Within.step ?_ bump_within rfl | with_reducible apply Within.step ?_ follow_within rfl | with_reducible apply Within.step ?_ gradRecords_within rfl | with_reducible apply Within.step ?_ modTile_within rfl | with_reducible apply Within.step ?_ poolBag_within rfl | (with_reducible apply Within.step ?_ (Within.foldl_snd (M := 568) ?_ _ _) rfl; rotate_left; intro _ _) | with_reducible apply Within.ite | split

theorem endBag_within : ∀ {x0 x1 x2 x3 x4}, Within 568 x4 (endBag x0 x1 x2 x3 x4) := by
  intros
  unfold endBag
  repeat' first | with_reducible apply Within.refl | ((first | intro x | (lift_lets; intro x)); clear_value x) | with_reducible apply Within.step ?_ closeRound_within rfl | with_reducible apply Within.step ?_ finishRound_within rfl | with_reducible apply Within.step ?_ modTile_within rfl | with_reducible apply Within.ite

theorem gLeave_within : ∀ {x0 x1 x2 x3}, Within 33336 x3 (gLeave x0 x1 x2 x3) := by
  intros
  unfold gLeave
  repeat' first | with_reducible apply Within.refl | ((first | intro x | (lift_lets; intro x)); clear_value x) | with_reducible apply Within.step ?_ closeRound_within rfl | with_reducible apply Within.step ?_ finishRound_within rfl | with_reducible apply Within.step ?_ moeEnd_within rfl | with_reducible apply Within.ite

theorem gToken_within : ∀ {x0 x1 x2 x3 x4 x5}, Within 33336 x5 (gToken x0 x1 x2 x3 x4 x5) := by
  intros
  unfold gToken
  repeat' first | with_reducible assumption | with_reducible apply Within.refl | ((first | intro x | (lift_lets; intro x)); refine Within.cut (t := x) ?_ ?_; rotate_left; intro hx; clear_value x; rotate_right; dsimp -zeta only [x]) | with_reducible apply Within.step ?_ endBag_within rfl | with_reducible apply Within.step ?_ gLeave_within rfl | with_reducible apply Within.ite

theorem gFire_within : ∀ {x0 x1 x2 x3 x4 x5 x6 x7}, Within 41528 x7 (gFire x0 x1 x2 x3 x4 x5 x6 x7).2 := by
  intros
  unfold gFire
  repeat' first | with_reducible assumption | with_reducible apply Within.refl | with_reducible apply Within.step ?_ bagFlit_within rfl | with_reducible apply Within.step ?_ exitTest_within rfl | with_reducible apply Within.step ?_ moeClaim_within rfl | with_reducible apply Within.step ?_ moeCombine_within rfl | with_reducible apply Within.step ?_ moePlace_within rfl | with_reducible apply Within.ite | split

/-! ### Tiles -/

theorem takeOut_within : ∀ {x0 x1 x2 x3 x4}, Within 528 x4 (takeOut x0 x1 x2 x3 x4) := by
  intros
  unfold takeOut
  repeat' first | with_reducible assumption | with_reducible apply Within.refl | ((first | intro x | (lift_lets; intro x)); refine Within.cut (t := x) ?_ ?_; rotate_left; intro hx; clear_value x; rotate_right; dsimp -zeta only [x]) | ((first | intro x | (lift_lets; intro x)); clear_value x) | with_reducible apply Within.step ?_ enqueue_within rfl | with_reducible apply Within.step ?_ modTile_within rfl | with_reducible apply Within.ite | split

theorem sendLink_within : ∀ {x0 x1 x2 x3 x4}, Within 528 x3 (sendLink x0 x1 x2 x3 x4) := by
  intros
  unfold sendLink
  repeat' first | with_reducible assumption | with_reducible apply Within.refl | ((first | intro x | (lift_lets; intro x)); refine Within.cut (t := x) ?_ ?_; rotate_left; intro hx; clear_value x; rotate_right; dsimp -zeta only [x]) | ((first | intro x | (lift_lets; intro x)); have hf := fun a => x a; clear hf; subst x) | ((first | intro x | (lift_lets; intro x)); clear_value x) | with_reducible apply Within.step ?_ modDie_within rfl | with_reducible apply Within.step ?_ modTile_within rfl | with_reducible apply Within.step ?_ sendTunnel_within rfl | with_reducible apply Within.step ?_ takeOut_within rfl | with_reducible apply Within.ite | split

theorem drainElastic_within : ∀ {x0 x1 x2 x3 x4}, Within 528 x3 (drainElastic x0 x1 x2 x3 x4) := by
  intros
  unfold drainElastic
  repeat' first | with_reducible assumption | with_reducible apply Within.refl | ((first | intro x | (lift_lets; intro x)); have hf := fun a => x a; clear hf; subst x) | ((first | intro x | (lift_lets; intro x)); clear_value x) | with_reducible apply Within.step ?_ enqueue_within rfl | with_reducible apply Within.step ?_ modTile_within rfl | with_reducible apply Within.ite | split

theorem swapTile_within : ∀ {x0 x1 x2 x3 x4 x5}, Within 4608 x5 (swapTile x0 x1 x2 x3 x4 x5) := by
  intros
  unfold swapTile
  repeat' first | with_reducible assumption | with_reducible apply Within.refl | ((first | intro x | (lift_lets; intro x)); clear_value x) | with_reducible apply Within.step ?_ modTile_within rfl | (with_reducible apply Within.step ?_ (Within.onMem ?_) rfl; rotate_left; first | exact fun h => h | exact fun h => Memory.wf_memWrite h _ _ | exact fun h => Memory.wf_memZero h _ _ | exact fun h => Memory.wf_pokeObj h | exact fun h => Memory.wf_memMove h) | with_reducible apply Within.ite | split

theorem modeTile_within : ∀ {x0 x1 x2 x3 x4}, Within 528 x4 (modeTile x0 x1 x2 x3 x4) := by
  intros
  unfold modeTile
  repeat' first | with_reducible apply Within.refl | ((first | intro x | (lift_lets; intro x)); clear_value x) | with_reducible apply Within.step ?_ modTile_within rfl | with_reducible apply Within.step ?_ setFld_within rfl

theorem popAll_within : ∀ {x0 x1 x2 x3 x4}, Within 512 x4 (popAll x0 x1 x2 x3 x4) := by
  intros
  unfold popAll
  repeat' first | with_reducible apply Within.refl | ((first | intro x | (lift_lets; intro x)); clear_value x) | with_reducible apply Within.step ?_ modTile_within rfl | (with_reducible apply Within.step ?_ (Within.foldl (M := 512) ?_ _ _) rfl; rotate_left; intro _ _)

theorem pushAll_within : ∀ {x0 x1 x2 x3 x4 x5}, Within 512 x5 (pushAll x0 x1 x2 x3 x4 x5) := by
  intros
  unfold pushAll
  repeat' first | with_reducible apply Within.refl | with_reducible apply Within.step ?_ modTile_within rfl

theorem noteFire_within : ∀ {x0 x1 x2 x3}, Within 512 x3 (noteFire x0 x1 x2 x3) := by
  intros
  unfold noteFire
  repeat' first | with_reducible apply Within.refl | with_reducible apply Within.step ?_ modDie_within rfl | with_reducible apply Within.step ?_ modTile_within rfl

theorem noteStarved_within : ∀ {x0 x1 x2 x3}, Within 512 x3 (noteStarved x0 x1 x2 x3) := by
  intros
  unfold noteStarved
  repeat' first | with_reducible apply Within.refl | with_reducible apply Within.step ?_ modTile_within rfl

theorem noteBlocked_within : ∀ {x0 x1 x2 x3}, Within 512 x3 (noteBlocked x0 x1 x2 x3) := by
  intros
  unfold noteBlocked
  repeat' first | with_reducible apply Within.refl | with_reducible apply Within.step ?_ modTile_within rfl

theorem noteBusy_within : ∀ {x0 x1 x2 x3}, Within 512 x3 (noteBusy x0 x1 x2 x3) := by
  intros
  unfold noteBusy
  repeat' first | with_reducible apply Within.refl | with_reducible apply Within.step ?_ modTile_within rfl

theorem noteIdle_within : ∀ {x0 x1 x2 x3}, Within 512 x3 (noteIdle x0 x1 x2 x3) := by
  intros
  unfold noteIdle
  repeat' first | with_reducible apply Within.refl | with_reducible apply Within.step ?_ modTile_within rfl

theorem applyFn_within : ∀ {x0 x1 x2 x3 x4 x5 x6 x7}, Within 41528 x7 (applyFn x0 x1 x2 x3 x4 x5 x6 x7).2 := by
  intros
  unfold applyFn
  repeat' first | with_reducible assumption | with_reducible apply Within.refl | ((first | intro x | (lift_lets; intro x)); clear_value x) | with_reducible apply Within.step ?_ gFire_within rfl | with_reducible apply Within.step ?_ modTile_within rfl | with_reducible apply Within.step ?_ takeEvents_within rfl | with_reducible apply Within.ite | split

theorem fireData_within : ∀ {x0 x1 x2 x3 x4 x5}, Within 41528 x5 (fireData x0 x1 x2 x3 x4 x5) := by
  intros
  unfold fireData
  repeat' first | with_reducible assumption | with_reducible apply Within.refl | ((first | intro x | (lift_lets; intro x)); refine Within.cut (t := x) ?_ ?_; rotate_left; intro hx; clear_value x; rotate_right; dsimp -zeta only [x]) | ((first | intro x | (lift_lets; intro x)); clear_value x) | with_reducible apply Within.step ?_ applyFn_within rfl | with_reducible apply Within.step ?_ follow_within rfl | with_reducible apply Within.step ?_ gLeave_within rfl | with_reducible apply Within.step ?_ modTile_within rfl | with_reducible apply Within.step ?_ noteFire_within rfl | with_reducible apply Within.step ?_ popAll_within rfl | with_reducible apply Within.step ?_ pushAll_within rfl | with_reducible apply Within.step ?_ tokenError_within rfl | with_reducible apply Within.ite | split

theorem tokenTail_within : ∀ {x0 x1 x2 x3 x4 x5} {t}, tokenTail x0 x1 x2 x3 x4 x5 = some t → Within 8760 x5 t := by
  intros
  rename_i h
  unfold tokenTail at h
  try dsimp only at h
  repeat' split at h
  all_goals (first | (cases h; done) | (obtain ⟨b, h1, h2⟩ := Option.map_eq_some_iff.1 h; subst h2; repeat' first | with_reducible assumption | with_reducible apply Within.refl | ((first | intro x | (lift_lets; intro x)); refine Within.cut (t := x) ?_ ?_; rotate_left; intro hx; clear_value x; rotate_right; dsimp -zeta only [x]) | ((first | intro x | (lift_lets; intro x)); refine Within.cut (t := x.2) ?_ ?_; rotate_left; intro hx; clear_value x; rotate_right; dsimp -zeta only [x]) | ((first | intro x | (lift_lets; intro x)); have hf := fun a => x a; clear hf; subst x) | ((first | intro x | (lift_lets; intro x)); clear_value x) | with_reducible apply Within.step ?_ exitEnd_within rfl | with_reducible apply Within.step ?_ follow_within rfl | with_reducible apply Within.step ?_ modTile_within rfl | with_reducible apply Within.step ?_ takeEvents_within rfl | with_reducible apply Within.ite | split | dsimp -zeta only | dsimp only) | (have h2 := Option.some.inj h; subst h2; repeat' first | with_reducible assumption | with_reducible apply Within.refl | ((first | intro x | (lift_lets; intro x)); refine Within.cut (t := x) ?_ ?_; rotate_left; intro hx; clear_value x; rotate_right; dsimp -zeta only [x]) | ((first | intro x | (lift_lets; intro x)); refine Within.cut (t := x.2) ?_ ?_; rotate_left; intro hx; clear_value x; rotate_right; dsimp -zeta only [x]) | ((first | intro x | (lift_lets; intro x)); have hf := fun a => x a; clear hf; subst x) | ((first | intro x | (lift_lets; intro x)); clear_value x) | with_reducible apply Within.step ?_ exitEnd_within rfl | with_reducible apply Within.step ?_ follow_within rfl | with_reducible apply Within.step ?_ modTile_within rfl | with_reducible apply Within.step ?_ takeEvents_within rfl | with_reducible apply Within.ite | split | dsimp -zeta only | dsimp only))

theorem actToken_within : ∀ {x0 x1 x2 x3 x4 x5 x6}, Within 37392 x6 (actToken x0 x1 x2 x3 x4 x5 x6) := by
  intros
  unfold actToken
  repeat' first | with_reducible assumption | with_reducible apply Within.refl | ((first | intro x | (lift_lets; intro x)); refine Within.cut (t := x) ?_ ?_; rotate_left; intro hx; clear_value x; rotate_right; dsimp -zeta only [x]) | ((first | intro x | (lift_lets; intro x)); clear_value x) | with_reducible apply Within.step ?_ modDie_within rfl | with_reducible apply Within.step ?_ modTile_within rfl | with_reducible apply Within.step ?_ modeTile_within rfl | with_reducible apply Within.step ?_ setFld_within rfl | with_reducible apply Within.step ?_ setReg64_within rfl | with_reducible apply Within.step ?_ swapTile_within rfl | with_reducible apply Within.step ?_ tokenError_within rfl | with_reducible apply Within.ite | split

theorem popRake_within : ∀ {x0 x1 x2 x3 x4 x5}, Within 560 x5 (popRake x0 x1 x2 x3 x4 x5) := by
  intros
  unfold popRake
  repeat' first | with_reducible assumption | with_reducible apply Within.refl | ((first | intro x | (lift_lets; intro x)); refine Within.cut (t := x) ?_ ?_; rotate_left; intro hx; clear_value x; rotate_right; dsimp -zeta only [x]) | ((first | intro x | (lift_lets; intro x)); clear_value x) | with_reducible apply Within.step ?_ bump_within rfl | with_reducible apply Within.step ?_ modDie_within rfl | with_reducible apply Within.step ?_ popAll_within rfl | split

theorem cleanKey_within : ∀ {x0 x1 x2 x3 x4 x5}, Within 33328 x5 (cleanKey x0 x1 x2 x3 x4 x5) := by
  intro p col row k n
  induction n with
  | zero => intro s; exact Within.refl _ _
  | succ n ih =>
    intro s
    unfold cleanKey
    dsimp only
    repeat' first | with_reducible apply Within.refl | (with_reducible apply Within.step ?_ ih rfl) | (with_reducible apply Within.step ?_ popRake_within rfl) | (with_reducible apply Within.step ?_ present_within rfl) | (with_reducible apply Within.step ?_ bump_within rfl) | (with_reducible apply Within.step ?_ popAll_within rfl) | (with_reducible apply Within.step ?_ tokenError_within rfl) | (with_reducible apply Within.step ?_ tileFault_within rfl) | split

theorem cleanHeads_within : ∀ {x0 x1 x2 x3}, Within 33328 x3 (cleanHeads x0 x1 x2 x3) := by
  intros
  unfold cleanHeads
  repeat' first | with_reducible assumption | with_reducible apply Within.refl | with_reducible apply Within.step ?_ cleanKey_within rfl | (with_reducible apply Within.step ?_ (Within.foldl (M := 33328) ?_ _ _) rfl; rotate_left; intro _ _) | (with_reducible apply Within.step ?_ (Within.foldl_snd (M := 33328) ?_ _ _) rfl; rotate_left; intro _ _)

theorem fireToken_within : ∀ {x0 x1 x2 x3 x4 x5 x6}, Within 37432 x6 (fireToken x0 x1 x2 x3 x4 x5 x6) := by
  intros
  unfold fireToken
  repeat' first | with_reducible assumption | with_reducible apply Within.refl | ((first | intro x | (lift_lets; intro x)); clear_value x) | with_reducible apply Within.step ?_ actToken_within rfl | with_reducible apply Within.step ?_ gToken_within rfl | with_reducible apply Within.step ?_ noteBlocked_within rfl | with_reducible apply Within.step ?_ noteFire_within rfl | with_reducible apply Within.step ?_ popAll_within rfl | with_reducible apply Within.step ?_ pushAll_within rfl | with_reducible apply Within.step ?_ tokenError_within rfl | with_reducible apply Within.ite | split

theorem evaluate_within : ∀ {x0 x1 x2 x3}, Within 45624 x3 (evaluate x0 x1 x2 x3) := by
  intros
  unfold evaluate
  repeat' first | with_reducible assumption | with_reducible apply Within.refl | ((first | intro x | (lift_lets; intro x)); clear_value x) | with_reducible apply Within.step ?_ fireData_within rfl | with_reducible apply Within.step ?_ fireToken_within rfl | with_reducible apply Within.step ?_ noteBlocked_within rfl | with_reducible apply Within.step ?_ noteBusy_within rfl | with_reducible apply Within.step ?_ noteIdle_within rfl | with_reducible apply Within.step ?_ noteStarved_within rfl | with_reducible apply Within.step ?_ tokenError_within rfl | with_reducible apply Within.step ?_ (tokenTail_within (by with_reducible assumption)) rfl | with_reducible apply Within.ite | split

theorem dieCycle_within : ∀ {x0 x1}, Within 512 x1 (dieCycle x0 x1) := by
  intros
  unfold dieCycle
  repeat' first | with_reducible apply Within.refl | ((first | intro x | (lift_lets; intro x)); clear_value x) | with_reducible apply Within.step ?_ modDie_within rfl

theorem busyCycle_within : ∀ {x0 x1 x2 x3}, ∀ {t}, (busyCycle x0 x1 x2 x3) = some t → Within 512 x3 t := by
  intros
  rename_i h
  unfold busyCycle at h
  try dsimp only at h
  repeat' split at h
  all_goals (first | (cases h; done) | (have h2 := Option.some.inj h; subst h2; repeat' first | with_reducible apply Within.refl | with_reducible apply Within.step ?_ modTile_within rfl | with_reducible apply Within.step ?_ noteBlocked_within rfl | with_reducible apply Within.step ?_ noteBusy_within rfl | with_reducible apply Within.step ?_ pushAll_within rfl))

theorem execTileCycle_within : ∀ {x0 x1}, ∀ {t}, (execTileCycle x0 x1) = .next t → Within 45624 x1 t := by
  intros
  rename_i h
  unfold execTileCycle at h
  injection h with h
  subst h
  repeat' first | with_reducible assumption | with_reducible apply Within.refl | ((first | intro x | (lift_lets; intro x)); refine Within.cut (t := x) ?_ ?_; rotate_left; intro hx; clear_value x; rotate_right; dsimp -zeta only [x]) | with_reducible apply Within.step ?_ (busyCycle_within (by with_reducible assumption)) rfl | with_reducible apply Within.step ?_ cleanHeads_within rfl | with_reducible apply Within.step ?_ dieCycle_within rfl | with_reducible apply Within.step ?_ drainElastic_within rfl | with_reducible apply Within.step ?_ evaluate_within rfl | with_reducible apply Within.step ?_ modTile_within rfl | with_reducible apply Within.step ?_ sendLink_within rfl | (with_reducible apply Within.step ?_ (Within.foldl (M := 45624) ?_ _ _) rfl; rotate_left; intro _ _) | with_reducible apply Within.ite | split

theorem execFlitArrival_within : ∀ {x0 x1 x2 x3}, ∀ {t}, (execFlitArrival x0 x1 x2 x3) = .next t → Within 33296 x3 t := by
  intros
  rename_i h
  unfold execFlitArrival at h
  injection h with h
  subst h
  repeat' first | with_reducible assumption | with_reducible apply Within.refl | ((first | intro x | (lift_lets; intro x)); refine Within.cut (t := x) ?_ ?_; rotate_left; intro hx; clear_value x; rotate_right; dsimp -zeta only [x]) | ((first | intro x | (lift_lets; intro x)); clear_value x) | with_reducible apply Within.step ?_ enqueue_within rfl | with_reducible apply Within.step ?_ modTile_within rfl | with_reducible apply Within.step ?_ tokenError_within rfl | with_reducible apply Within.ite | split

theorem execCreditReturn_within : ∀ {x0 x1 x2 x3}, ∀ {t}, (execCreditReturn x0 x1 x2 x3) = .next t → Within 512 x3 t := by
  intros
  rename_i h
  unfold execCreditReturn at h
  injection h with h
  subst h
  repeat' first | with_reducible apply Within.refl | with_reducible apply Within.step ?_ modTile_within rfl

theorem execWeightFillDone_within : ∀ {x0 x1}, ∀ {t}, (execWeightFillDone x0 x1) = .next t → Within 512 x1 t := by
  intros
  rename_i h
  unfold execWeightFillDone at h
  injection h with h
  subst h
  repeat' first | with_reducible apply Within.refl | with_reducible apply Within.step ?_ modTile_within rfl | split

theorem execFp32FlushSecondPush_within : ∀ {x0 x1}, ∀ {t}, (execFp32FlushSecondPush x0 x1) = .next t → Within 512 x1 t := by
  intros
  rename_i h
  unfold execFp32FlushSecondPush at h
  injection h with h
  subst h
  repeat' first | with_reducible apply Within.refl | with_reducible apply Within.step ?_ modTile_within rfl | with_reducible apply Within.step ?_ pushAll_within rfl | with_reducible apply Within.ite | split

theorem clearArith_within : ∀ {x0 x1}, Within 16 x1 (clearArith x0 x1) := by
  intros
  unfold clearArith
  repeat' first | with_reducible apply Within.refl | with_reducible apply Within.step ?_ setReg_within rfl

theorem execArrArithClr_within : ∀ {x0 x1 x2}, ∀ {t}, (execArrArithClr x0 x1 x2) = .next t → Within 16 x2 t := by
  intros
  rename_i h
  unfold execArrArithClr at h
  injection h with h
  subst h
  repeat' first | with_reducible apply Within.refl | with_reducible apply Within.step ?_ clearArith_within rfl | with_reducible apply Within.ite

/-! ### Tokens -/

theorem raiseTok_within : ∀ {x0 x1}, Within 192 x1 (raiseTok x0 x1) := by
  intros
  unfold raiseTok
  repeat' first | with_reducible apply Within.refl | with_reducible apply Within.step ?_ modCtx_within rfl | with_reducible apply Within.step ?_ raiseIrq_within rfl

theorem tokWrite_within : ∀ {x0 x1 x2}, Within 192 x2 (tokWrite x0 x1 x2) := by
  intros
  unfold tokWrite
  repeat' first | with_reducible assumption | with_reducible apply Within.refl | ((first | intro x | (lift_lets; intro x)); refine Within.cut (t := x) ?_ ?_; rotate_left; intro hx; clear_value x; rotate_right; dsimp -zeta only [x]) | ((first | intro x | (lift_lets; intro x)); clear_value x) | with_reducible apply Within.step ?_ dmaWrite_within rfl | with_reducible apply Within.step ?_ modCtx_within rfl | with_reducible apply Within.step ?_ raiseTok_within rfl | with_reducible apply Within.ite

theorem modEntry_within : ∀ {x0 x1 x2}, Within 8192 x2 (modEntry x0 x1 x2) := by
  intros
  unfold modEntry
  repeat' first | with_reducible apply Within.refl | (with_reducible apply Within.step ?_ (Within.onSeq ?_) rfl; rotate_left; exact fun h => twf_tmod h _ _)

theorem releaseHeld_within : ∀ {x0 x1 x2}, Within 8384 x2 (releaseHeld x0 x1 x2) := by
  intro c n
  induction n with
  | zero => intro s; exact Within.refl _ _
  | succ n ih =>
    intro s
    unfold releaseHeld
    repeat' first | with_reducible apply Within.refl | split | dsimp only | (with_reducible apply Within.step ?_ ih rfl) | (with_reducible apply Within.step ?_ modEntry_within rfl) | (with_reducible apply Within.step ?_ tokWrite_within rfl) | (with_reducible apply Within.step ?_ modCtx_within rfl)

theorem retryRelease_within : ∀ {x0 x1}, Within 8384 x1 (retryRelease x0 x1) := by
  intros
  unfold retryRelease
  repeat' first | with_reducible apply Within.refl | with_reducible apply Within.step ?_ releaseHeld_within rfl

theorem releaseToken_within : ∀ {x0 x1 x2}, Within 8384 x2 (releaseToken x0 x1 x2) := by
  intros
  unfold releaseToken
  repeat' first | with_reducible apply Within.refl | with_reducible apply Within.step ?_ modEntry_within rfl | with_reducible apply Within.step ?_ tokWrite_within rfl | with_reducible apply Within.ite | split

end Sys2Proof.Machine
end

