-- ==== Sys2Proof/Laws/WithinServe.lean ====
section
/-! SUPPORT. What each operation may touch: the host queues, serving, frames, steps and counters. -/

namespace Sys2Proof.Machine

/-! ### HostQueue -/

theorem raiseQueue_within : ∀ {x0 x1 x2}, Within 64 x2 (raiseQueue x0 x1 x2) := by
  intros
  unfold raiseQueue
  repeat' first | with_reducible apply Within.refl | with_reducible apply Within.step ?_ raiseIrq_within rfl

theorem cplWrite_within : ∀ {x0 x1 x2 x3}, Within 192 x3 (cplWrite x0 x1 x2 x3) := by
  intros
  unfold cplWrite
  repeat' first | with_reducible assumption | with_reducible apply Within.refl | ((first | intro x | (lift_lets; intro x)); refine Within.cut (t := x) ?_ ?_; rotate_left; intro hx; clear_value x; rotate_right; dsimp -zeta only [x]) | ((first | intro x | (lift_lets; intro x)); clear_value x) | with_reducible apply Within.step ?_ dmaWrite_within rfl | with_reducible apply Within.step ?_ modQueue_within rfl | with_reducible apply Within.step ?_ raiseQueue_within rfl | with_reducible apply Within.ite

theorem deliverKept_within : ∀ {x0 x1 x2 x3}, Within 192 x3 (deliverKept x0 x1 x2 x3) := by
  intro c q n
  induction n with
  | zero => intro s; exact Within.refl _ _
  | succ n ih =>
    intro s
    unfold deliverKept
    repeat' first | with_reducible apply Within.refl | split | dsimp only | (with_reducible apply Within.step ?_ ih rfl) | (with_reducible apply Within.step ?_ cplWrite_within rfl) | (with_reducible apply Within.step ?_ modQueue_within rfl)

theorem stopQueue_within : ∀ {x0 x1 x2 x3}, Within 192 x3 (stopQueue x0 x1 x2 x3) := by
  intros
  unfold stopQueue
  repeat' first | with_reducible apply Within.refl | with_reducible apply Within.step ?_ modCtx_within rfl | with_reducible apply Within.step ?_ raiseQueue_within rfl

theorem sqTail_within : ∀ {x0 x1 x2 x3}, Within 192 x3 (sqTail x0 x1 x2 x3) := by
  intros
  unfold sqTail
  repeat' first | with_reducible apply Within.refl | ((first | intro x | (lift_lets; intro x)); clear_value x) | with_reducible apply Within.step ?_ modCtx_within rfl | with_reducible apply Within.step ?_ stopQueue_within rfl | with_reducible apply Within.ite

theorem execCmdDbSqTail_within : ∀ {x0 x1 x2 x3}, ∀ {t}, (execCmdDbSqTail x0 x1 x2 x3) = .next t → Within 192 x3 t := by
  intros
  rename_i h
  unfold execCmdDbSqTail at h
  injection h with h
  subst h
  repeat' first | with_reducible apply Within.refl | with_reducible apply Within.step ?_ modQueue_within rfl | with_reducible apply Within.step ?_ sqTail_within rfl | with_reducible apply Within.ite

theorem execCmdDbCqHead_within : ∀ {x0 x1 x2 x3}, ∀ {t}, (execCmdDbCqHead x0 x1 x2 x3) = .next t → Within 192 x3 t := by
  intros
  rename_i h
  unfold execCmdDbCqHead at h
  injection h with h
  subst h
  repeat' first | with_reducible apply Within.refl | with_reducible apply Within.step ?_ deliverKept_within rfl | with_reducible apply Within.step ?_ modQueue_within rfl | with_reducible apply Within.ite

theorem execCmdDbTokHead_within : ∀ {x0 x1 x2}, ∀ {t}, (execCmdDbTokHead x0 x1 x2) = .next t → Within 8384 x2 t := by
  intros
  rename_i h
  unfold execCmdDbTokHead at h
  injection h with h
  subst h
  repeat' first | with_reducible apply Within.refl | with_reducible apply Within.step ?_ modCtx_within rfl | with_reducible apply Within.step ?_ retryRelease_within rfl | with_reducible apply Within.ite

theorem execTokenIrqHoldoff_within : ∀ {x0 x1}, ∀ {t}, (execTokenIrqHoldoff x0 x1) = .next t → Within 192 x1 t := by
  intros
  rename_i h
  unfold execTokenIrqHoldoff at h
  injection h with h
  subst h
  repeat' first | with_reducible apply Within.refl | with_reducible apply Within.step ?_ raiseTok_within rfl | with_reducible apply Within.ite | split

theorem qCfgWrite_within : ∀ {x0 x1 x2 x3}, Within 208 x3 (qCfgWrite x0 x1 x2 x3) := by
  intros
  unfold qCfgWrite
  repeat' first | with_reducible assumption | with_reducible apply Within.refl | ((first | intro x | (lift_lets; intro x)); refine Within.cut (t := x) ?_ ?_; rotate_left; intro hx; clear_value x; rotate_right; dsimp -zeta only [x]) | ((first | intro x | (lift_lets; intro x)); clear_value x) | with_reducible apply Within.step ?_ deliverKept_within rfl | with_reducible apply Within.step ?_ modCtx_within rfl | with_reducible apply Within.step ?_ modQueue_within rfl | with_reducible apply Within.step ?_ setReg_within rfl | with_reducible apply Within.step ?_ stopQueue_within rfl | with_reducible apply Within.ite

theorem execQueueEnable_within : ∀ {x0 x1 x2 x3}, ∀ {t}, (execQueueEnable x0 x1 x2 x3) = .next t → Within 208 x3 t := by
  intros
  rename_i h
  unfold execQueueEnable at h
  injection h with h
  subst h
  repeat' first | with_reducible apply Within.refl | with_reducible apply Within.step ?_ qCfgWrite_within rfl

theorem execQueueDisable_within : ∀ {x0 x1 x2 x3}, ∀ {t}, (execQueueDisable x0 x1 x2 x3) = .next t → Within 208 x3 t := by
  intros
  rename_i h
  unfold execQueueDisable at h
  injection h with h
  subst h
  repeat' first | with_reducible apply Within.refl | with_reducible apply Within.step ?_ qCfgWrite_within rfl

theorem tokCfgWrite_within : ∀ {x0 x1 x2}, Within 8400 x2 (tokCfgWrite x0 x1 x2) := by
  intros
  unfold tokCfgWrite
  repeat' first | with_reducible assumption | with_reducible apply Within.refl | ((first | intro x | (lift_lets; intro x)); refine Within.cut (t := x) ?_ ?_; rotate_left; intro hx; clear_value x; rotate_right; dsimp -zeta only [x]) | ((first | intro x | (lift_lets; intro x)); clear_value x) | with_reducible apply Within.step ?_ modCtx_within rfl | with_reducible apply Within.step ?_ retryRelease_within rfl | with_reducible apply Within.step ?_ setReg_within rfl | with_reducible apply Within.ite

theorem execTokenRingCfg_within : ∀ {x0 x1 x2}, ∀ {t}, (execTokenRingCfg x0 x1 x2) = .next t → Within 8400 x2 t := by
  intros
  rename_i h
  unfold execTokenRingCfg at h
  injection h with h
  subst h
  repeat' first | with_reducible apply Within.refl | with_reducible apply Within.step ?_ tokCfgWrite_within rfl

theorem vfAllot_within : ∀ {x0 x1 x2}, Within 16 x2 (vfAllot x0 x1 x2) := by
  intros
  unfold vfAllot
  repeat' first | with_reducible apply Within.refl | ((first | intro x | (lift_lets; intro x)); clear_value x) | with_reducible apply Within.step ?_ setReg_within rfl | with_reducible apply Within.ite

theorem execCmdVfAllotWrite_within : ∀ {x0 x1 x2}, ∀ {t}, (execCmdVfAllotWrite x0 x1 x2) = .next t → Within 16 x2 t := by
  intros
  rename_i h
  unfold execCmdVfAllotWrite at h
  injection h with h
  subst h
  repeat' first | with_reducible apply Within.refl | with_reducible apply Within.step ?_ vfAllot_within rfl

theorem execVfEnable_within : ∀ {x0 x1}, ∀ {t}, (execVfEnable x0 x1) = .next t → Within 64 x1 t := by
  intros
  rename_i h
  unfold execVfEnable at h
  injection h with h
  subst h
  repeat' first | with_reducible apply Within.refl | (with_reducible apply Within.step ?_ (Within.onHost ?_) rfl; rotate_left; exact fun h => h)

theorem execSlotFetch_within : ∀ {x0 x1 x2 x3}, ∀ {t}, (execSlotFetch x0 x1 x2 x3) = .next t → Within 448 x3 t := by
  intros
  rename_i h
  unfold execSlotFetch at h
  injection h with h
  subst h
  repeat' first | with_reducible assumption | with_reducible apply Within.refl | ((first | intro x | (lift_lets; intro x)); refine Within.cut (t := x) ?_ ?_; rotate_left; intro hx; clear_value x; rotate_right; dsimp -zeta only [x]) | ((first | intro x | (lift_lets; intro x)); clear_value x) | with_reducible apply Within.step ?_ modCtx_within rfl | with_reducible apply Within.step ?_ Within.onCmds rfl | (with_reducible apply Within.step ?_ (Within.onHost ?_) rfl; rotate_left; exact fun h => h) | with_reducible apply Within.ite

theorem markStarted_within : ∀ {x0 x1}, Within 256 x1 (markStarted x0 x1) := by
  intros
  unfold markStarted
  repeat' first | with_reducible apply Within.refl | with_reducible apply Within.step ?_ modCmd_within rfl

theorem startHeld_within {M : Nat} {op : Nat} {c : CmdRef} {s : State} {held : Cmd → Bool} {body : Cmd → State → State}
    (h : ∀ m s, Within M s (body m s)) (e : M ||| 16688 = M := by rfl) : Within M s (startHeld op c s held body) := by
  unfold startHeld
  repeat' first
    | with_reducible apply Within.refl
    | split
    | (with_reducible apply Within.step ?_ (h _ _) (Nat.or_self _))
    | (with_reducible apply Within.step ?_ markStarted_within ?_; rotate_left; exact or_sub e rfl)
    | (with_reducible apply Within.step ?_ endFail_within ?_; rotate_left; exact or_sub e rfl)

theorem startCmd_within {M : Nat} {op : Nat} {c : CmdRef} {s : State} {body : Cmd → State → State}
    (h : ∀ m s, Within M s (body m s)) (e : M ||| 16688 = M := by rfl) : Within M s (startCmd op c s body) := startHeld_within h e

theorem whileRunning_within {M : Nat} {op : Nat} {c : CmdRef} {s : State} {f : Cmd → State → State}
    (h : ∀ m s, Within M s (f m s)) : Within M s (whileRunning op c s f) := by
  unfold whileRunning
  repeat' first | with_reducible apply Within.refl | split | exact h _ _

theorem execFence_within : ∀ {x0 x1}, ∀ {t}, (execFence x0 x1) = .next t → Within 16688 x1 t := by
  intros
  rename_i h
  unfold execFence at h
  injection h with h
  subst h
  repeat' first | with_reducible apply Within.refl | (with_reducible apply Within.step ?_ (startCmd_within (M := 16688) ?_ rfl) rfl; rotate_left; intro _ _) | (with_reducible apply Within.step ?_ (whileRunning_within (M := 16688) ?_) rfl; rotate_left; intro _ _) | with_reducible apply Within.step ?_ endOk_within rfl | with_reducible apply Within.ite | split

theorem execCommandDeadlineExpiry_within : ∀ {x0 x1}, ∀ {t}, (execCommandDeadlineExpiry x0 x1) = .next t → Within 16688 x1 t := by
  intros
  rename_i h
  unfold execCommandDeadlineExpiry at h
  injection h with h
  subst h
  repeat' first | with_reducible apply Within.refl | with_reducible apply Within.step ?_ endFail_within rfl | with_reducible apply Within.ite | split

theorem settleDependents_within : ∀ {x0 x1 x2 x3}, Within 256 x3 (settleDependents x0 x1 x2 x3) := by
  intros
  unfold settleDependents
  repeat' first | with_reducible apply Within.refl | with_reducible apply Within.step ?_ Within.onCmds rfl

theorem retireCmd_within : ∀ {x0 x1 x2 x3}, Within 384 x3 (retireCmd x0 x1 x2 x3) := by
  intros
  unfold retireCmd
  repeat' first | with_reducible assumption | with_reducible apply Within.refl | ((first | intro x | (lift_lets; intro x)); refine Within.cut (t := x) ?_ ?_; rotate_left; intro hx; clear_value x; rotate_right; dsimp -zeta only [x]) | ((first | intro x | (lift_lets; intro x)); clear_value x) | with_reducible apply Within.step ?_ modCtx_within rfl | with_reducible apply Within.step ?_ settleDependents_within rfl | with_reducible apply Within.step ?_ Within.onCmds rfl

theorem execCompletionWrite_within : ∀ {x0 x1}, ∀ {t}, (execCompletionWrite x0 x1) = .next t → Within 37328 x1 t := by
  intros
  rename_i h
  unfold execCompletionWrite at h
  injection h with h
  subst h
  repeat' first | with_reducible assumption | with_reducible apply Within.refl | ((first | intro x | (lift_lets; intro x)); refine Within.cut (t := x) ?_ ?_; rotate_left; intro hx; clear_value x; rotate_right; dsimp -zeta only [x]) | ((first | intro x | (lift_lets; intro x)); clear_value x) | with_reducible apply Within.step ?_ cplWrite_within rfl | with_reducible apply Within.step ?_ modCtx_within rfl | with_reducible apply Within.step ?_ modQueue_within rfl | with_reducible apply Within.step ?_ reapOld_within rfl | with_reducible apply Within.step ?_ retireCmd_within rfl | with_reducible apply Within.ite | split

/-! ### KvMap -/

theorem addNode_within : ∀ {x0 x1 x2 t}, addNode x0 x1 x2 = some t → Within 8192 x1 t := by
  intro i s k t h
  unfold addNode at h
  generalize List.range 30720 = l at h
  repeat' split at h
  all_goals (first | (cases h; done) | (cases h; exact Within.refl _ _) | (cases h; exact modEntry_within))

theorem growNodes_within {i : Nat} {l : List Nat} {s t : State} (h : growNodes i l s = some t) : Within 8192 s t :=
  Within.foldlM addNode_within l h


/-! ### Serve -/

theorem takeKv_within : ∀ {x0 x1 x2} {y t}, takeKv x0 x1 x2 = some (y, t) → Within 128 x2 t := by
  intro c n
  induction n with
  | zero => intro s y t h; simp only [takeKv] at h; cases h; exact Within.refl _ _
  | succ n ih =>
    intro s y t h
    unfold takeKv at h
    split at h
    · cases h
    · simp only [Option.map_eq_some_iff] at h
      obtain ⟨⟨a, b⟩, h1, h2⟩ := h
      cases h2
      exact modCtx_within.step (ih h1) rfl

theorem giveKv_within : ∀ {x0 x1 x2}, Within 128 x2 (giveKv x0 x1 x2) := by
  intros
  unfold giveKv
  repeat' first | with_reducible apply Within.refl | with_reducible apply Within.step ?_ modCtx_within rfl

theorem putEntry_within : ∀ {x0 x1 x2}, Within 8192 x2 (putEntry x0 x1 x2) := by
  intros
  unfold putEntry
  repeat' first | with_reducible apply Within.refl | (with_reducible apply Within.step ?_ (Within.onSeq ?_) rfl; rotate_left; exact fun h => twf_tput h _ _)

theorem holdEntry_within : ∀ {x0 x1 x2}, Within 8192 x2 (holdEntry x0 x1 x2) := by
  intros
  unfold holdEntry
  repeat' first | with_reducible assumption | with_reducible apply Within.refl | with_reducible apply Within.step ?_ putEntry_within rfl | (with_reducible apply Within.step ?_ (Within.onSeq ?_) rfl; rotate_left; first | exact fun h => h | exact fun h => twf_tput h _ _ | exact fun h => twf_tmod h _ _)

theorem grantAdmission_within : ∀ {x0 x1 x2}, Within 12464 x2 (grantAdmission x0 x1 x2) := by
  intros
  unfold grantAdmission
  repeat' first | with_reducible assumption | with_reducible apply Within.refl | ((first | intro x | (lift_lets; intro x)); clear_value x) | with_reducible apply Within.step ?_ bump_within rfl | with_reducible apply Within.step ?_ putEntry_within rfl | with_reducible apply Within.step ?_ (takeKv_within (by with_reducible assumption)) rfl | (with_reducible apply Within.step ?_ (Within.onMem ?_) rfl; rotate_left; first | exact fun h => h | exact fun h => Memory.wf_memWrite h _ _ | exact fun h => Memory.wf_memZero h _ _ | exact fun h => Memory.wf_pokeObj h | exact fun h => Memory.wf_memMove h | exact fun h => Memory.wf_pokeInput h | exact fun h => Memory.wf_pokeInput (Memory.wf_bringPages h) | exact fun h => Memory.wf_writeArchive h | exact fun h => Memory.wf_foldl (fun m x k => Memory.wf_memZero k _ _) h | exact fun h => Memory.wf_foldl (fun m x k => Memory.wf_memWrite k _ _) h) | with_reducible apply Within.ite | split

theorem execSeqAdmit_within : ∀ {x0 x1 x2}, ∀ {t}, (execSeqAdmit x0 x1 x2) = .next t → Within 29104 x2 t := by
  intros
  rename_i h
  unfold execSeqAdmit at h
  injection h with h
  subst h
  repeat' first | with_reducible assumption | with_reducible apply Within.refl | ((first | intro x | (lift_lets; intro x)); clear_value x) | with_reducible apply Within.step ?_ bump_within rfl | with_reducible apply Within.step ?_ endFail_within rfl | with_reducible apply Within.step ?_ endOk_within rfl | with_reducible apply Within.step ?_ grantAdmission_within rfl | with_reducible apply Within.step ?_ holdEntry_within rfl | (with_reducible apply Within.step ?_ (startCmd_within (M := 29104) ?_ rfl) rfl; rotate_left; intro _ _) | with_reducible apply Within.ite | split

theorem withhold_within : ∀ {x0 x1}, Within 8192 x1 (withhold x0 x1) := by
  intros
  unfold withhold
  repeat' first | with_reducible apply Within.refl | (with_reducible apply Within.step ?_ (Within.onSeq ?_) rfl; rotate_left; exact fun h => h)

theorem dropDrafts_within : ∀ {x0 x1}, Within 8240 x1 (dropDrafts x0 x1) := by
  intros
  unfold dropDrafts
  repeat' first | with_reducible apply Within.refl | with_reducible apply Within.step ?_ bumpBy_within rfl | with_reducible apply Within.step ?_ modEntry_within rfl | with_reducible apply Within.ite | split

theorem endTurn_within : ∀ {x0 x1 x2}, Within 8432 x2 (endTurn x0 x1 x2) := by
  intros
  unfold endTurn
  repeat' first | with_reducible assumption | with_reducible apply Within.refl | ((first | intro x | (lift_lets; intro x)); refine Within.cut (t := x) ?_ ?_; rotate_left; intro hx; clear_value x; rotate_right; dsimp -zeta only [x]) | with_reducible apply Within.step ?_ dropDrafts_within rfl | with_reducible apply Within.step ?_ giveKv_within rfl | with_reducible apply Within.step ?_ modEntry_within rfl | with_reducible apply Within.step ?_ releaseToken_within rfl | with_reducible apply Within.step ?_ withhold_within rfl | split

theorem freeSeq_within : ∀ {x0 x1}, Within 8320 x1 (freeSeq x0 x1) := by
  intros
  unfold freeSeq
  repeat' first | with_reducible apply Within.refl | with_reducible apply Within.step ?_ giveKv_within rfl | (with_reducible apply Within.step ?_ (Within.onSeq ?_) rfl; rotate_left; exact fun h => twf_tput h _ _) | split

theorem reapEnding_within : ∀ {x0}, Within 25008 x0 (reapEnding x0) := by
  intros
  unfold reapEnding
  repeat' first | with_reducible assumption | with_reducible apply Within.refl | ((first | intro x | (lift_lets; intro x)); refine Within.cut (t := x) ?_ ?_; rotate_left; intro hx; clear_value x; rotate_right; dsimp -zeta only [x]) | with_reducible apply Within.step ?_ endOk_within rfl | with_reducible apply Within.step ?_ freeSeq_within rfl | (with_reducible apply Within.step ?_ (Within.foldl (M := 25008) ?_ _ _) rfl; rotate_left; intro _ _) | with_reducible apply Within.ite | split

theorem endSession_within : ∀ {x0 x1}, Within 25008 x1 (endSession x0 x1) := by
  intros
  unfold endSession
  repeat' first | with_reducible apply Within.refl | with_reducible apply Within.step ?_ dropDrafts_within rfl | with_reducible apply Within.step ?_ modEntry_within rfl | with_reducible apply Within.step ?_ reapEnding_within rfl | with_reducible apply Within.step ?_ withhold_within rfl

theorem endWaiting_within : ∀ {x0 x1 x2}, Within 16688 x2 (endWaiting x0 x1 x2) := by
  intros
  unfold endWaiting
  repeat' first | with_reducible apply Within.refl | with_reducible apply Within.step ?_ endFail_within rfl | split

theorem clearArchPages_within : ∀ {x0 x1 x2}, Within 128 x2 (clearArchPages x0 x1 x2) := by
  intros
  unfold clearArchPages
  repeat' first | with_reducible assumption | with_reducible apply Within.refl | with_reducible apply Within.step ?_ modObj_within rfl | (with_reducible apply Within.step ?_ (Within.foldl (M := 128) ?_ _ _) rfl; rotate_left; intro _ _) | (with_reducible apply Within.step ?_ (Within.foldl_snd (M := 128) ?_ _ _) rfl; rotate_left; intro _ _)

theorem freeArchive_within : ∀ {x0 x1}, Within 12416 x1 (freeArchive x0 x1) := by
  intros
  unfold freeArchive
  repeat' first | with_reducible assumption | with_reducible apply Within.refl | ((first | intro x | (lift_lets; intro x)); refine Within.cut (t := x) ?_ ?_; rotate_left; intro hx; clear_value x; rotate_right; dsimp -zeta only [x]) | with_reducible apply Within.step ?_ clearArchPages_within rfl | with_reducible apply Within.step ?_ freeFrames_within rfl | with_reducible apply Within.step ?_ modCtx_within rfl | (with_reducible apply Within.step ?_ (Within.onSeq ?_) rfl; rotate_left; first | exact fun h => h | exact fun h => twf_tput h _ _ | exact fun h => twf_tmod h _ _)

theorem startOrContinue_within {M : Nat} {op : Nat} {c : CmdRef} {s : State} {f : Cmd → State → State}
    (h : ∀ m s, Within M s (f m s)) (e : M ||| 16688 = M := by rfl) : Within M s (startOrContinue op c s f) := by
  unfold startOrContinue
  repeat' first | with_reducible apply Within.refl | split | exact whileRunning_within h | exact startCmd_within h e

theorem addInput_within : ∀ {x0 x1 x2 x3}, ∀ {t}, (addInput x0 x1 x2 x3) = some t → Within 12416 x3 t := by
  intro i e toks s t h
  unfold addInput at h
  dsimp only at h
  repeat' split at h
  all_goals first | (cases h; done) | (
    obtain ⟨⟨a, b⟩, h1, h2⟩ := Option.map_eq_some_iff.1 h
    subst h2
    exact (((Within.refl _ _).step (takeKv_within h1) rfl).step (Within.onMem fun h => Memory.wf_pokeInput h) rfl).step putEntry_within rfl)

theorem execSeqAppend_within : ∀ {x0 x1 x2}, ∀ {t}, (execSeqAppend x0 x1 x2) = .next t → Within 29168 x2 t := by
  intros
  rename_i h
  unfold execSeqAppend at h
  injection h with h
  subst h
  repeat' first | with_reducible assumption | with_reducible apply Within.refl | ((first | intro x | (lift_lets; intro x)); have hf := fun a => x a; clear hf; subst x) | ((first | intro x | (lift_lets; intro x)); clear_value x) | with_reducible apply Within.step ?_ (addInput_within (by with_reducible assumption)) rfl | with_reducible apply Within.step ?_ endFail_within rfl | with_reducible apply Within.step ?_ endOk_within rfl | with_reducible apply Within.step ?_ endTurn_within rfl | with_reducible apply Within.step ?_ endWith_within rfl | with_reducible apply Within.step ?_ modEntry_within rfl | (with_reducible apply Within.step ?_ (startOrContinue_within (M := 29168) ?_ rfl) rfl; rotate_left; intro _ _) | with_reducible apply Within.ite | split | dsimp -zeta only

theorem holdArchive_within : ∀ {x0 x1 x2 x3}, Within 8192 x3 (holdArchive x0 x1 x2 x3) := by
  intros
  unfold holdArchive
  repeat' first | with_reducible assumption | with_reducible apply Within.refl | (with_reducible apply Within.step ?_ (Within.onSeq ?_) rfl; rotate_left; first | exact fun h => h | exact fun h => twf_tput h _ _ | exact fun h => twf_tmod h _ _)

theorem execSeqPause_within : ∀ {x0 x1}, ∀ {t}, (execSeqPause x0 x1) = .next t → Within 25008 x1 t := by
  intro c s t h
  unfold execSeqPause at h
  have h := Host.Outcome.next.inj h
  subst h
  refine startCmd_within (fun m s => ?_) rfl
  rename_i h
  clear h
  repeat' first
    | with_reducible apply Within.refl
    | with_reducible apply Within.step ?_ endFail_within rfl
    | with_reducible apply Within.step ?_ endOk_within rfl
    | with_reducible apply Within.step ?_ modEntry_within rfl
    | with_reducible apply Within.step ?_ dropDrafts_within rfl
    | with_reducible apply Within.step ?_ freeSeq_within rfl
    | with_reducible apply Within.step ?_ holdArchive_within rfl
    | with_reducible apply Within.step ?_ endWaiting_within rfl
    | with_reducible apply Within.ite
    | (split <;> try (exact (Within.refl _ _).step endFail_within rfl))
    | with_reducible assumption
    | ((first | intro x | (lift_lets; intro x)); refine Within.cut (t := x) ?_ ?_; rotate_left; intro hx; clear_value x; rotate_right; dsimp -zeta only [x])


theorem grantResume_within : ∀ {x0 x1 x2}, Within 8240 x2 (grantResume x0 x1 x2) := by
  intros
  unfold grantResume
  repeat' first | with_reducible assumption | with_reducible apply Within.refl | with_reducible apply Within.step ?_ bump_within rfl | with_reducible apply Within.step ?_ holdArchive_within rfl | with_reducible apply Within.step ?_ putEntry_within rfl

theorem execSeqResume_within : ∀ {x0 x1}, ∀ {t}, (execSeqResume x0 x1) = .next t → Within 24880 x1 t := by
  intros
  rename_i h
  unfold execSeqResume at h
  injection h with h
  subst h
  repeat' first | with_reducible assumption | with_reducible apply Within.refl | ((first | intro x | (lift_lets; intro x)); clear_value x) | with_reducible apply Within.step ?_ bump_within rfl | with_reducible apply Within.step ?_ endFail_within rfl | with_reducible apply Within.step ?_ grantResume_within rfl | with_reducible apply Within.step ?_ holdArchive_within rfl | with_reducible apply Within.step ?_ holdEntry_within rfl | (with_reducible apply Within.step ?_ (startCmd_within (M := 24880) ?_ rfl) rfl; rotate_left; intro _ _) | with_reducible apply Within.ite | split

theorem execSeqCancel_within : ∀ {x0 x1}, ∀ {t}, (execSeqCancel x0 x1) = .next t → Within 29168 x1 t := by
  intros
  rename_i h
  unfold execSeqCancel at h
  injection h with h
  subst h
  repeat' first | with_reducible assumption | with_reducible apply Within.refl | ((first | intro x | (lift_lets; intro x)); refine Within.cut (t := x) ?_ ?_; rotate_left; intro hx; clear_value x; rotate_right; dsimp -zeta only [x]) | ((first | intro x | (lift_lets; intro x)); have hf := fun a => x a; clear hf; subst x) | ((first | intro x | (lift_lets; intro x)); clear_value x) | (with_reducible apply Within.step ?_ (startCmd_within (M := 29168) ?_ rfl) rfl; rotate_left; intro _ _) | with_reducible apply Within.step ?_ endFail_within rfl | with_reducible apply Within.step ?_ endSession_within rfl | with_reducible apply Within.step ?_ endTurn_within rfl | with_reducible apply Within.step ?_ endWaiting_within rfl | with_reducible apply Within.step ?_ endWith_within rfl | with_reducible apply Within.step ?_ freeArchive_within rfl | with_reducible apply Within.step ?_ freeSeq_within rfl | with_reducible apply Within.ite | split

theorem execSeqRetire_within : ∀ {x0 x1}, ∀ {t}, (execSeqRetire x0 x1) = .next t → Within 29104 x1 t := by
  intros
  rename_i h
  unfold execSeqRetire at h
  injection h with h
  subst h
  repeat' first | with_reducible assumption | with_reducible apply Within.refl | ((first | intro x | (lift_lets; intro x)); refine Within.cut (t := x) ?_ ?_; rotate_left; intro hx; clear_value x; rotate_right; dsimp -zeta only [x]) | ((first | intro x | (lift_lets; intro x)); clear_value x) | (with_reducible apply Within.step ?_ (startCmd_within (M := 29104) ?_ rfl) rfl; rotate_left; intro _ _) | with_reducible apply Within.step ?_ endFail_within rfl | with_reducible apply Within.step ?_ endOk_within rfl | with_reducible apply Within.step ?_ endWaiting_within rfl | with_reducible apply Within.step ?_ freeArchive_within rfl | with_reducible apply Within.step ?_ modEntry_within rfl | with_reducible apply Within.step ?_ reapEnding_within rfl | with_reducible apply Within.ite | split

theorem retryHeld_within : ∀ {x0 x1}, Within 29104 x1.1 (retryHeld x0 x1).1 := by
  intros
  unfold retryHeld
  repeat' first | with_reducible assumption | with_reducible apply Within.refl | ((first | intro x | (lift_lets; intro x)); refine Within.cut (t := x) ?_ ?_; rotate_left; intro hx; clear_value x; rotate_right; dsimp -zeta only [x]) | ((first | intro x | (lift_lets; intro x)); clear_value x) | with_reducible apply Within.step ?_ endOk_within rfl | with_reducible apply Within.step ?_ grantAdmission_within rfl | with_reducible apply Within.step ?_ grantResume_within rfl | with_reducible apply Within.ite | split

theorem execHeldAdmissionRetry_within : ∀ {x0}, ∀ {t}, (execHeldAdmissionRetry x0) = .next t → Within 29104 x0 t := by
  intros
  rename_i h
  unfold execHeldAdmissionRetry at h
  injection h with h
  subst h
  repeat' first | with_reducible assumption | with_reducible apply Within.refl | with_reducible apply Within.step ?_ retryHeld_within rfl | (with_reducible apply Within.step ?_ (Within.foldl_fst (M := 29104) ?_ _ _) rfl; rotate_left; intro _ _)

theorem execHoldExpiry_within : ∀ {x0 x1}, ∀ {t}, (execHoldExpiry x0 x1) = .next t → Within 25008 x1 t := by
  intros
  rename_i h
  unfold execHoldExpiry at h
  injection h with h
  subst h
  repeat' first | with_reducible assumption | with_reducible apply Within.refl | with_reducible apply Within.step ?_ bump_within rfl | with_reducible apply Within.step ?_ endWaiting_within rfl | with_reducible apply Within.step ?_ freeSeq_within rfl | with_reducible apply Within.step ?_ holdArchive_within rfl | with_reducible apply Within.ite | split

theorem failPause_within : ∀ {x0 x1 x2 x3}, Within 24880 x3 (failPause x0 x1 x2 x3) := by
  intros
  unfold failPause
  repeat' first | with_reducible apply Within.refl | with_reducible apply Within.step ?_ endWaiting_within rfl | with_reducible apply Within.step ?_ modEntry_within rfl

theorem execPauseArchiveStart_within : ∀ {x0 x1}, ∀ {t}, (execPauseArchiveStart x0 x1) = .next t → Within 25072 x1 t := by
  intro x0 s t h
  unfold execPauseArchiveStart at h
  have h := Host.Outcome.next.inj h
  subst h
  split
  · exact Within.refl _ _
  · with_reducible apply Within.ite
    · exact Within.refl _ _
    · split
      · exact (Within.refl _ _).step failPause_within rfl
      · with_reducible apply Within.step ?_ modEntry_within rfl
        split
        · exact (Within.refl _ _).step releaseToken_within rfl
        · exact Within.refl _ _


theorem takeArchive_within : ∀ {x0 x1 x2} {y t}, takeArchive x0 x1 x2 = some (y, t) → Within 4224 x2 t := by
  intro c n
  induction n with
  | zero => intro s y t h; have h := (Prod.mk.inj (Option.some.inj h)).2; subst h; exact Within.refl _ _
  | succ n ih =>
    intro s y t h
    unfold takeArchive at h
    dsimp only at h
    split at h
    · obtain ⟨⟨a, b⟩, h1, h2⟩ := Option.map_eq_some_iff.1 h
      have h2 := (Prod.mk.inj h2).2
      subst h2
      exact (((Within.refl _ _).step takeFrame_within rfl).step modObj_within rfl).step (ih h1) rfl
    · cases h

theorem execPauseArchiveDone_within : ∀ {x0 x1}, ∀ {t}, (execPauseArchiveDone x0 x1) = .next t → Within 29104 x1 t := by
  intros
  rename_i h
  unfold execPauseArchiveDone at h
  injection h with h
  subst h
  repeat' first | with_reducible assumption | with_reducible apply Within.refl | ((first | intro x | (lift_lets; intro x)); refine Within.cut (t := x) ?_ ?_; rotate_left; intro hx; clear_value x; rotate_right; dsimp -zeta only [x]) | ((first | intro x | (lift_lets; intro x)); have hf : _ × Mem := x; clear hf) | ((first | intro x | (lift_lets; intro x)); clear_value x) | with_reducible apply Within.step ?_ endOk_within rfl | with_reducible apply Within.step ?_ failPause_within rfl | with_reducible apply Within.step ?_ freeSeq_within rfl | with_reducible apply Within.step ?_ journal_within rfl | with_reducible apply Within.step ?_ modCtx_within rfl | with_reducible apply Within.step ?_ modEntry_within rfl | with_reducible apply Within.step ?_ (takeArchive_within (by with_reducible assumption)) rfl | (with_reducible apply Within.step ?_ (Within.onMem ?_) rfl; rotate_left; first | exact fun h => h | exact fun h => Memory.wf_memWrite h _ _ | exact fun h => Memory.wf_memZero h _ _ | exact fun h => Memory.wf_pokeObj h | exact fun h => Memory.wf_memMove h | exact fun h => Memory.wf_pokeInput h | exact fun h => Memory.wf_pokeInput (Memory.wf_bringPages h) | exact fun h => Memory.wf_writeArchive h | exact fun h => Memory.wf_foldl (fun m x k => Memory.wf_memZero k _ _) h | exact fun h => Memory.wf_foldl (fun m x k => Memory.wf_memWrite k _ _) h) | (with_reducible apply Within.step ?_ (Within.onSeq ?_) rfl; rotate_left; first | exact fun h => h | exact fun h => twf_tput h _ _ | exact fun h => twf_tmod h _ _) | with_reducible apply Within.ite | split

theorem loseSeq_within : ∀ {x0 x1}, Within 25008 x1 (loseSeq x0 x1) := by
  intros
  unfold loseSeq
  repeat' first | with_reducible assumption | with_reducible apply Within.refl | ((first | intro x | (lift_lets; intro x)); refine Within.cut (t := x) ?_ ?_; rotate_left; intro hx; clear_value x; rotate_right; dsimp -zeta only [x]) | with_reducible apply Within.step ?_ bump_within rfl | with_reducible apply Within.step ?_ endWaiting_within rfl | with_reducible apply Within.step ?_ freeSeq_within rfl | with_reducible apply Within.step ?_ modCtx_within rfl | split

theorem execResumePagesDone_within : ∀ {x0 x1 x2}, ∀ {t}, (execResumePagesDone x0 x1 x2) = .next t → Within 61872 x2 t := by
  intros
  rename_i h
  unfold execResumePagesDone at h
  injection h with h
  subst h
  repeat' first | with_reducible assumption | with_reducible apply Within.refl | ((first | intro x | (lift_lets; intro x)); refine Within.cut (t := x) ?_ ?_; rotate_left; intro hx; clear_value x; rotate_right; dsimp -zeta only [x]) | ((first | intro x | (lift_lets; intro x)); clear_value x) | with_reducible apply Within.step ?_ endOk_within rfl | with_reducible apply Within.step ?_ freeArchive_within rfl | with_reducible apply Within.step ?_ (growNodes_within (by with_reducible assumption)) rfl | with_reducible apply Within.step ?_ loseSeq_within rfl | with_reducible apply Within.step ?_ modEntry_within rfl | with_reducible apply Within.step ?_ present_within rfl | with_reducible apply Within.step ?_ putEntry_within rfl | with_reducible apply Within.step ?_ (takeKv_within (by with_reducible assumption)) rfl | (with_reducible apply Within.step ?_ (Within.onMem ?_) rfl; rotate_left; first | exact fun h => h | exact fun h => Memory.wf_memWrite h _ _ | exact fun h => Memory.wf_memZero h _ _ | exact fun h => Memory.wf_pokeObj h | exact fun h => Memory.wf_memMove h | exact fun h => Memory.wf_pokeInput h | exact fun h => Memory.wf_pokeInput (Memory.wf_bringPages h) | exact fun h => Memory.wf_writeArchive h | exact fun h => Memory.wf_foldl (fun m x k => Memory.wf_memZero k _ _) h | exact fun h => Memory.wf_foldl (fun m x k => Memory.wf_memWrite k _ _) h) | with_reducible apply Within.ite | split

theorem execTtlSweep_within : ∀ {x0}, ∀ {t}, (execTtlSweep x0) = .next t → Within 28848 x0 t := by
  intros
  rename_i h
  unfold execTtlSweep at h
  injection h with h
  subst h
  repeat' first | with_reducible assumption | with_reducible apply Within.refl | with_reducible apply Within.step ?_ bump_within rfl | with_reducible apply Within.step ?_ freeArchive_within rfl | with_reducible apply Within.step ?_ journal_within rfl | with_reducible apply Within.step ?_ modCtx_within rfl | (with_reducible apply Within.step ?_ (Within.foldl (M := 28848) ?_ _ _) rfl; rotate_left; intro _ _) | (with_reducible apply Within.step ?_ (Within.foldl_snd (M := 28848) ?_ _ _) rfl; rotate_left; intro _ _)

theorem ttlWrite_within : ∀ {x0}, Within 24592 x0 (ttlWrite x0) := by
  intros
  unfold ttlWrite
  repeat' first | with_reducible assumption | with_reducible apply Within.refl | with_reducible apply Within.step ?_ journal_within rfl | with_reducible apply Within.step ?_ setReg_within rfl | (with_reducible apply Within.step ?_ (Within.onSeq ?_) rfl; rotate_left; exact fun h => h)

theorem execTtlCheckpoint_within : ∀ {x0}, ∀ {t}, (execTtlCheckpoint x0) = .next t → Within 24592 x0 t := by
  intros
  rename_i h
  unfold execTtlCheckpoint at h
  injection h with h
  subst h
  repeat' first | with_reducible assumption | with_reducible apply Within.refl | with_reducible apply Within.step ?_ ttlWrite_within rfl | with_reducible apply Within.ite

theorem execStepPolicy_within : ∀ {x0 x1}, ∀ {t}, (execStepPolicy x0 x1) = .next t → Within 18864 x1 t := by
  intros
  rename_i h
  unfold execStepPolicy at h
  injection h with h
  subst h
  repeat' first | with_reducible assumption | with_reducible apply Within.refl | ((first | intro x | (lift_lets; intro x)); refine Within.cut (t := x) ?_ ?_; rotate_left; intro hx; clear_value x; rotate_right; dsimp -zeta only [x]) | ((first | intro x | (lift_lets; intro x)); clear_value x) | (with_reducible apply Within.step ?_ (startCmd_within (M := 18864) ?_ rfl) rfl; rotate_left; intro _ _) | with_reducible apply Within.step ?_ endFail_within rfl | with_reducible apply Within.step ?_ endOk_within rfl | with_reducible apply Within.step ?_ modCtx_within rfl | with_reducible apply Within.step ?_ setReg_within rfl | with_reducible apply Within.step ?_ Within.onBalances rfl | with_reducible apply Within.ite

/-! ### FabricOps -/

theorem seeGen_within : ∀ {x0 x1 x2}, Within 131072 x2 (seeGen x0 x1 x2) := by
  intros
  unfold seeGen
  repeat' first | with_reducible apply Within.refl | with_reducible apply Within.step ?_ Within.onLnk rfl | with_reducible apply Within.ite

theorem modLink_within : ∀ {x0 x1 x2}, Within 131072 x2 (modLink x0 x1 x2) := by
  intros
  unfold modLink
  repeat' first | with_reducible apply Within.refl | with_reducible apply Within.step ?_ Within.onLnk rfl

theorem setLink_within : ∀ {x0 x1 x2 x3}, Within 16 x3 (setLink x0 x1 x2 x3) := by
  intros
  unfold setLink
  repeat' first | with_reducible apply Within.refl | with_reducible apply Within.step ?_ setFld_within rfl

theorem pumpLink_within : ∀ {x0 x1}, Within 131072 x1 (pumpLink x0 x1) := by
  intros
  unfold pumpLink
  repeat' first | with_reducible apply Within.refl | with_reducible apply Within.step ?_ modLink_within rfl | with_reducible apply Within.ite

theorem sendOn_within : ∀ {x0 x1 x2}, Within 131072 x2 (sendOn x0 x1 x2) := by
  intros
  unfold sendOn
  repeat' first | with_reducible apply Within.refl | with_reducible apply Within.step ?_ modLink_within rfl | with_reducible apply Within.step ?_ pumpLink_within rfl

theorem routeFrame_within : ∀ {x0 x1}, Within 8 x1 (routeFrame x0 x1).2 := by
  intros
  unfold routeFrame
  repeat' first | with_reducible assumption | with_reducible apply Within.refl | ((first | intro x | (lift_lets; intro x)); refine Within.cut (t := x.2) ?_ ?_; rotate_left; intro hx; clear_value x; rotate_right; dsimp -zeta only [x]) | ((first | intro x | (lift_lets; intro x)); clear_value x) | with_reducible apply Within.step ?_ draw_within rfl | split

theorem sendFrame_within : ∀ {x0 x1}, Within 131080 x1 (sendFrame x0 x1) := by
  intros
  unfold sendFrame
  repeat' first | with_reducible assumption | with_reducible apply Within.refl | ((first | intro x | (lift_lets; intro x)); refine Within.cut (t := x.2) ?_ ?_; rotate_left; intro hx; clear_value x; rotate_right; dsimp -zeta only [x]) | with_reducible apply Within.step ?_ routeFrame_within rfl | with_reducible apply Within.step ?_ sendOn_within rfl | with_reducible apply Within.step ?_ Within.onLnk rfl | with_reducible apply Within.ite | split

theorem newFlow_within : ∀ {x0}, Within 131072 x0 (newFlow x0).2 := by
  intros
  unfold newFlow
  repeat' first | with_reducible apply Within.refl | with_reducible apply Within.step ?_ Within.onLnk rfl

theorem showUnreach_within : ∀ {x0}, Within 16 x0 (showUnreach x0) := by
  intros
  unfold showUnreach
  repeat' first | with_reducible apply Within.refl | with_reducible apply Within.step ?_ setReg_within rfl

theorem retryFrames_within : ∀ {x0}, Within 131096 x0 (retryFrames x0) := by
  intros
  unfold retryFrames
  repeat' first | with_reducible apply Within.refl | with_reducible apply Within.step ?_ sendFrame_within rfl | with_reducible apply Within.step ?_ showUnreach_within rfl | with_reducible apply Within.step ?_ Within.onLnk rfl | (with_reducible apply Within.step ?_ (Within.foldl (M := 131096) ?_ _ _) rfl; rotate_left; intro _ _)

theorem moveFrames_within : ∀ {x0 x1}, Within 131080 x1 (moveFrames x0 x1) := by
  intros
  unfold moveFrames
  repeat' first | with_reducible assumption | with_reducible apply Within.refl | ((first | intro x | (lift_lets; intro x)); refine Within.cut (t := x) ?_ ?_; rotate_left; intro hx; clear_value x; rotate_right; dsimp -zeta only [x]) | ((first | intro x | (lift_lets; intro x)); clear_value x) | with_reducible apply Within.step ?_ modLink_within rfl | with_reducible apply Within.step ?_ sendFrame_within rfl | with_reducible apply Within.step ?_ sendOn_within rfl | (with_reducible apply Within.step ?_ (Within.foldl (M := 131080) ?_ _ _) rfl; rotate_left; intro _ _) | split

theorem takeId_within : ∀ {x0}, Within 131088 x0 (takeId x0) := by
  intros
  unfold takeId
  repeat' first | with_reducible assumption | with_reducible apply Within.refl | ((first | intro x | (lift_lets; intro x)); refine Within.cut (t := x) ?_ ?_; rotate_left; intro hx; clear_value x; rotate_right; dsimp -zeta only [x]) | ((first | intro x | (lift_lets; intro x)); clear_value x) | with_reducible apply Within.step ?_ seeGen_within rfl | with_reducible apply Within.step ?_ setFld_within rfl | with_reducible apply Within.step ?_ setReg_within rfl | with_reducible apply Within.step ?_ Within.onLnk rfl | with_reducible apply Within.ite

theorem showFabric_within : ∀ {x0}, Within 16 x0 (showFabric x0) := by
  intros
  unfold showFabric
  repeat' first | with_reducible assumption | with_reducible apply Within.refl | ((first | intro x | (lift_lets; intro x)); refine Within.cut (t := x) ?_ ?_; rotate_left; intro hx; clear_value x; rotate_right; dsimp -zeta only [x]) | with_reducible apply Within.step ?_ setFld_within rfl | (with_reducible apply Within.step ?_ (Within.foldl (M := 16) ?_ _ _) rfl; rotate_left; intro _ _)

theorem settleLink_within : ∀ {x0 x1}, Within 131096 x0 (settleLink x0 x1) := by
  intros
  unfold settleLink
  repeat' first | with_reducible assumption | with_reducible apply Within.refl | ((first | intro x | (lift_lets; intro x)); refine Within.cut (t := x) ?_ ?_; rotate_left; intro hx; clear_value x; rotate_right; dsimp -zeta only [x]) | ((first | intro x | (lift_lets; intro x)); clear_value x) | with_reducible apply Within.step ?_ moveFrames_within rfl | with_reducible apply Within.step ?_ pumpLink_within rfl | with_reducible apply Within.step ?_ setLink_within rfl | with_reducible apply Within.ite | split

theorem settleAll_within : ∀ {x0}, Within 131096 x0 (settleAll x0) := by
  intros
  unfold settleAll
  repeat' first | with_reducible assumption | with_reducible apply Within.refl | ((first | intro x | (lift_lets; intro x)); refine Within.cut (t := x) ?_ ?_; rotate_left; intro hx; clear_value x; rotate_right; dsimp -zeta only [x]) | with_reducible apply Within.step ?_ retryFrames_within rfl | with_reducible apply Within.step ?_ settleLink_within rfl | with_reducible apply Within.step ?_ showFabric_within rfl | with_reducible apply Within.step ?_ takeId_within rfl | (with_reducible apply Within.step ?_ (Within.foldl (M := 131096) ?_ _ _) rfl; rotate_left; intro _ _)

theorem goDown_within : ∀ {x0 x1 x2}, Within 163888 x2 (goDown x0 x1 x2) := by
  intros
  unfold goDown
  repeat' first | with_reducible assumption | with_reducible apply Within.refl | ((first | intro x | (lift_lets; intro x)); refine Within.cut (t := x) ?_ ?_; rotate_left; intro hx; clear_value x; rotate_right; dsimp -zeta only [x]) | with_reducible apply Within.step ?_ bump_within rfl | with_reducible apply Within.step ?_ lifeAdd_within rfl | with_reducible apply Within.step ?_ modLink_within rfl | with_reducible apply Within.step ?_ present_within rfl | with_reducible apply Within.step ?_ setReg_within rfl

theorem endPairing_within : ∀ {x0}, Within 16400 x0 (endPairing x0) := by
  intros
  unfold endPairing
  repeat' first | with_reducible apply Within.refl | with_reducible apply Within.step ?_ setFld_within rfl | with_reducible apply Within.step ?_ Within.onCmt rfl

/-! ### StepHooks -/

theorem groupCounts_within : ∀ {x0 x1 x2}, Within 65552 x2 (groupCounts x0 x1 x2) := by
  intros
  unfold groupCounts
  repeat' first | with_reducible assumption | with_reducible apply Within.refl | ((first | intro x | (lift_lets; intro x)); refine Within.cut (t := x) ?_ ?_; rotate_left; intro hx; clear_value x; rotate_right; dsimp -zeta only [x]) | ((first | intro x | (lift_lets; intro x)); clear_value x) | with_reducible apply Within.step ?_ modSlot_within rfl | with_reducible apply Within.step ?_ setReg_within rfl | (with_reducible apply Within.step ?_ (Within.foldl (M := 65552) ?_ _ _) rfl; rotate_left; intro _ _)

theorem settleSlots_within : ∀ {x0}, Within 82224 x0 (settleSlots x0) := by
  intros
  unfold settleSlots
  repeat' first | with_reducible apply Within.refl | ((first | intro x | (lift_lets; intro x)); clear_value x) | with_reducible apply Within.step ?_ endOk_within rfl | with_reducible apply Within.step ?_ modSlot_within rfl | (with_reducible apply Within.step ?_ (Within.foldl (M := 82224) ?_ _ _) rfl; rotate_left; intro _ _) | with_reducible apply Within.ite | split

theorem acceptEpoch_within : ∀ {x0 x1 x2 x3}, Within 512 x3 (acceptEpoch x0 x1 x2 x3) := by
  intros
  unfold acceptEpoch
  repeat' first | with_reducible assumption | with_reducible apply Within.refl | with_reducible apply Within.step ?_ modDie_within rfl

theorem clearAccept_within : ∀ {x0 x1 x2}, Within 512 x2 (clearAccept x0 x1 x2) := by
  intros
  unfold clearAccept
  repeat' first | with_reducible apply Within.refl | with_reducible apply Within.step ?_ modDie_within rfl | (with_reducible apply Within.step ?_ (Within.foldl (M := 512) ?_ _ _) rfl; rotate_left; intro _ _) | with_reducible apply Within.ite | split

theorem releasePins_within : ∀ {x0 x1}, Within 528 x1 (releasePins x0 x1) := by
  intros
  unfold releasePins
  repeat' first | with_reducible assumption | with_reducible apply Within.refl | with_reducible apply Within.step ?_ dropHot_within rfl | (with_reducible apply Within.step ?_ (Within.foldl (M := 528) ?_ _ _) rfl; rotate_left; intro _ _) | split

theorem modHist_within : ∀ {x0 x1 x2}, Within 262144 x2 (modHist x0 x1 x2) := by
  intros
  unfold modHist
  repeat' first | with_reducible apply Within.refl | (with_reducible apply Within.step ?_ (Within.onPmc ?_) rfl; rotate_left; exact fun h => twf_tmod h _ _)

theorem stepHist_within : ∀ {x0 x1}, Within 381872 x1 (stepHist x0 x1) := by
  intros
  unfold stepHist
  repeat' first | with_reducible assumption | with_reducible apply Within.refl | ((first | intro x | (lift_lets; intro x)); clear_value x) | with_reducible apply Within.step ?_ clearAccept_within rfl | with_reducible apply Within.step ?_ modHist_within rfl | with_reducible apply Within.step ?_ reapOld_within rfl | with_reducible apply Within.step ?_ settleSlots_within rfl

theorem abandonedHist_within : ∀ {x0 x1}, Within 381872 x1 (abandonedHist x0 x1) := by
  intros
  unfold abandonedHist
  repeat' first | with_reducible assumption | with_reducible apply Within.refl | with_reducible apply Within.step ?_ clearAccept_within rfl | with_reducible apply Within.step ?_ modHist_within rfl | with_reducible apply Within.step ?_ reapOld_within rfl | with_reducible apply Within.step ?_ settleSlots_within rfl

/-! ### Steps -/

theorem kvPagesFor_within : ∀ {x0 x1 x2 x3 x4 x5}, ∀ {t}, (kvPagesFor x0 x1 x2 x3 x4 x5) = some t → Within 12416 x5 t := by
  intro i e ct upto draft s t h
  unfold kvPagesFor at h
  generalize nodesFor = g at h
  generalize (if draft then (if (tget KvPage.absent e.kvMap 0xFFFFFF).loc = 0 then 1 else 0)
    else ceilDiv upto (max 1 ct.tpp) * ct.lg - e.kvPages) = need at h
  by_cases h0 : need = 0
  · simp only [h0, if_true] at h
    cases h
    repeat' first | with_reducible apply Within.refl | (with_reducible apply Within.step ?_ modEntry_within rfl) | (with_reducible apply Within.step ?_ (Within.onMem ?_) rfl; rotate_left; exact fun h => Memory.wf_memZero h _ _) | with_reducible apply Within.ite
  · rw [if_neg h0] at h
    by_cases h1 : e.kvReserved + freeKv s e.ctx i < need ∨ (!mirrorRoom s need) = true
    · rw [if_pos h1] at h; cases h
    · rw [if_neg h1] at h
      cases hr : takeKv e.ctx need s with
      | none => rw [hr] at h; cases h
      | some r =>
        rw [hr] at h
        refine (Within.step (Within.refl _ _) (takeKv_within (y := r.1) (t := r.2) hr) rfl).step (G := 12288) ?_ rfl
        cases draft
        · exact (Within.refl _ _).step (modEntry_within.step' (growNodes_within h) rfl) rfl
        · exact ((Within.refl _ _).step (Within.onMem fun h => Memory.wf_foldl (fun m x k => Memory.wf_memZero k _ _) h) rfl).step (modEntry_within.step' (growNodes_within h) rfl) rfl


theorem skipRow_within : ∀ {x0 x1 x2}, Within 8240 x2 (skipRow x0 x1 x2) := by
  intros
  unfold skipRow
  repeat' first | with_reducible assumption | with_reducible apply Within.refl | ((first | intro x | (lift_lets; intro x)); refine Within.cut (t := x) ?_ ?_; rotate_left; intro hx; clear_value x; rotate_right; dsimp -zeta only [x]) | with_reducible apply Within.step ?_ bump_within rfl | with_reducible apply Within.step ?_ dropDrafts_within rfl | with_reducible apply Within.step ?_ modEntry_within rfl | with_reducible apply Within.ite

theorem tryRow_within : ∀ {x0 x1 x2 x3 x4 x5 x6}, Within 12464 x6.st (tryRow x0 x1 x2 x3 x4 x5 x6).st := by
  intros
  unfold tryRow
  repeat' first | with_reducible assumption | with_reducible apply Within.refl | ((first | intro x | (lift_lets; intro x)); refine Within.cut (t := x) ?_ ?_; rotate_left; intro hx; clear_value x; rotate_right; dsimp -zeta only [x]) | ((first | intro x | (lift_lets; intro x)); clear_value x) | with_reducible apply Within.step ?_ bump_within rfl | with_reducible apply Within.step ?_ dropDrafts_within rfl | with_reducible apply Within.step ?_ (kvPagesFor_within (by with_reducible assumption)) rfl | with_reducible apply Within.step ?_ modEntry_within rfl | with_reducible apply Within.step ?_ skipRow_within rfl | with_reducible apply Within.ite | split

theorem buildRows_within : ∀ {x0 x1 x2 x3}, Within 12464 x3 (buildRows x0 x1 x2 x3).st := by
  intros
  unfold buildRows
  repeat' first | with_reducible assumption | with_reducible apply Within.refl | ((first | intro x | (lift_lets; intro x)); refine Within.cut (t := x.st) ?_ ?_; rotate_left; intro hx; clear_value x; rotate_right; dsimp -zeta only [x]) | ((first | intro x | (lift_lets; intro x)); clear_value x) | with_reducible apply Within.step ?_ tryRow_within rfl | (with_reducible apply Within.step ?_ (Within.foldl_st (M := 12464) ?_ _ _) rfl; rotate_left; intro _ _)

theorem noteDemand_within : ∀ {x0 x1 x2 x3 x4}, Within 2048 x4 (noteDemand x0 x1 x2 x3 x4) := by
  intros
  unfold noteDemand
  repeat' first | with_reducible assumption | with_reducible apply Within.refl | with_reducible apply Within.step ?_ Within.onBalances rfl

theorem sendWorkList_within : ∀ {x0 x1 x2}, Within 512 x2 (sendWorkList x0 x1 x2) := by
  intros
  unfold sendWorkList
  repeat' first | with_reducible assumption | with_reducible apply Within.refl | ((first | intro x | (lift_lets; intro x)); clear_value x) | with_reducible apply Within.step ?_ sendCtrl_within rfl | (with_reducible apply Within.step ?_ (Within.foldl (M := 512) ?_ _ _) rfl; rotate_left; intro _ _) | (with_reducible apply Within.step ?_ (Within.foldl_snd (M := 512) ?_ _ _) rfl; rotate_left; intro _ _)

theorem enterStep_within : ∀ {x0 x1 x2 x3}, Within 77360 x3.st (enterStep x0 x1 x2 x3) := by
  intros
  unfold enterStep
  repeat' first | with_reducible assumption | with_reducible apply Within.refl | ((first | intro x | (lift_lets; intro x)); refine Within.cut (t := x) ?_ ?_; rotate_left; intro hx; clear_value x; rotate_right; dsimp -zeta only [x]) | with_reducible apply Within.step ?_ bump_within rfl | with_reducible apply Within.step ?_ groupCounts_within rfl | with_reducible apply Within.step ?_ modEntry_within rfl | with_reducible apply Within.step ?_ modPan_within rfl | with_reducible apply Within.step ?_ noteDemand_within rfl | with_reducible apply Within.step ?_ sendWorkList_within rfl | with_reducible apply Within.step ?_ setReg_within rfl | (with_reducible apply Within.step ?_ (Within.onSeq ?_) rfl; rotate_left; first | exact fun h => h | exact fun h => twf_tput h _ _ | exact fun h => twf_tmod h _ _) | (with_reducible apply Within.step ?_ (Within.foldl (M := 77360) ?_ _ _) rfl; rotate_left; intro _ _) | with_reducible apply Within.ite

theorem execStepBuild_within : ∀ {x0 x1}, ∀ {t}, (execStepBuild x0 x1) = .next t → Within 81584 x1 t := by
  intros
  rename_i h
  unfold execStepBuild at h
  injection h with h
  subst h
  repeat' first | with_reducible assumption | with_reducible apply Within.refl | ((first | intro x | (lift_lets; intro x)); refine Within.cut (t := x.st) ?_ ?_; rotate_left; intro hx; clear_value x; rotate_right; dsimp -zeta only [x]) | with_reducible apply Within.step ?_ buildRows_within rfl | with_reducible apply Within.step ?_ bumpBy_within rfl | with_reducible apply Within.step ?_ enterStep_within rfl | with_reducible apply Within.ite | split

theorem modStep_within : ∀ {x0 x1 x2}, Within 8192 x2 (modStep x0 x1 x2) := by
  intros
  unfold modStep
  repeat' first | with_reducible apply Within.refl | (with_reducible apply Within.step ?_ (Within.onSeq ?_) rfl; rotate_left; exact fun h => h)

theorem rowCounts_within : ∀ {x0 x1 x2 x3 x4}, Within 48 x4 (rowCounts x0 x1 x2 x3 x4) := by
  intros
  unfold rowCounts
  repeat' first | with_reducible assumption | with_reducible apply Within.refl | ((first | intro x | (lift_lets; intro x)); refine Within.cut (t := x) ?_ ?_; rotate_left; intro hx; clear_value x; rotate_right; dsimp -zeta only [x]) | ((first | intro x | (lift_lets; intro x)); clear_value x) | with_reducible apply Within.step ?_ bump_within rfl | with_reducible apply Within.step ?_ bumpBy_within rfl | with_reducible apply Within.ite

theorem commitRow_within : ∀ {x0 x1 x2}, Within 12528 x1 (commitRow x0 x1 x2) := by
  intros
  unfold commitRow
  repeat' first | with_reducible assumption | with_reducible apply Within.refl | ((first | intro x | (lift_lets; intro x)); refine Within.cut (t := x) ?_ ?_; rotate_left; intro hx; clear_value x; rotate_right; dsimp -zeta only [x]) | ((first | intro x | (lift_lets; intro x)); clear_value x) | with_reducible apply Within.step ?_ freeArchive_within rfl | with_reducible apply Within.step ?_ giveKv_within rfl | with_reducible apply Within.step ?_ modEntry_within rfl | with_reducible apply Within.step ?_ releaseToken_within rfl | with_reducible apply Within.step ?_ rowCounts_within rfl | (with_reducible apply Within.step ?_ (Within.foldl (M := 12528) ?_ _ _) rfl; rotate_left; intro _ _) | with_reducible apply Within.ite | split

theorem arrive_within : ∀ {x0 x1 x2}, Within 8192 x1 (arrive x0 x1 x2) := by
  intros
  unfold arrive
  repeat' first | with_reducible apply Within.refl | with_reducible apply Within.step ?_ modEntry_within rfl | with_reducible apply Within.ite | split

theorem execStepEnd_within : ∀ {x0 x1 x2}, ∀ {t}, (execStepEnd x0 x1 x2) = .next t → Within 26128 x2 t := by
  intros
  rename_i h
  unfold execStepEnd at h
  injection h with h
  subst h
  repeat' first | with_reducible assumption | with_reducible apply Within.refl | ((first | intro x | (lift_lets; intro x)); refine Within.cut (t := x) ?_ ?_; rotate_left; intro hx; clear_value x; rotate_right; dsimp -zeta only [x]) | ((first | intro x | (lift_lets; intro x)); clear_value x) | with_reducible apply Within.step ?_ arrive_within rfl | with_reducible apply Within.step ?_ journal_within rfl | with_reducible apply Within.step ?_ modPan_within rfl | with_reducible apply Within.step ?_ modStep_within rfl | with_reducible apply Within.step ?_ releasePins_within rfl | (with_reducible apply Within.step ?_ (Within.foldl (M := 26128) ?_ _ _) rfl; rotate_left; intro _ _) | with_reducible apply Within.ite | split

theorem execCommitRecordSend_within : ∀ {x0 x1}, ∀ {t}, (execCommitRecordSend x0 x1) = .next t → Within 24576 x1 t := by
  intros
  rename_i h
  unfold execCommitRecordSend at h
  injection h with h
  subst h
  repeat' first | with_reducible apply Within.refl | with_reducible apply Within.step ?_ journal_within rfl | with_reducible apply Within.step ?_ modStep_within rfl | with_reducible apply Within.ite | split

theorem execStepCommit_within : ∀ {x0 x1}, ∀ {t}, (execStepCommit x0 x1) = .next t → Within 390128 x1 t := by
  intros
  rename_i h
  unfold execStepCommit at h
  injection h with h
  subst h
  repeat' first | with_reducible assumption | with_reducible apply Within.refl | ((first | intro x | (lift_lets; intro x)); refine Within.cut (t := x) ?_ ?_; rotate_left; intro hx; clear_value x; rotate_right; dsimp -zeta only [x]) | with_reducible apply Within.step ?_ bump_within rfl | with_reducible apply Within.step ?_ commitRow_within rfl | with_reducible apply Within.step ?_ reapEnding_within rfl | with_reducible apply Within.step ?_ setReg_within rfl | with_reducible apply Within.step ?_ stepHist_within rfl | (with_reducible apply Within.step ?_ (Within.onSeq ?_) rfl; rotate_left; first | exact fun h => h | exact fun h => twf_tput h _ _ | exact fun h => twf_tmod h _ _) | (with_reducible apply Within.step ?_ (Within.foldl (M := 390128) ?_ _ _) rfl; rotate_left; intro _ _) | with_reducible apply Within.ite | split

theorem abandonOne_within : ∀ {x0 x1}, Within 391088 x1 (abandonOne x0 x1) := by
  intros
  unfold abandonOne
  repeat' first | with_reducible assumption | with_reducible apply Within.refl | ((first | intro x | (lift_lets; intro x)); refine Within.cut (t := x) ?_ ?_; rotate_left; intro hx; clear_value x; rotate_right; dsimp -zeta only [x]) | with_reducible apply Within.step ?_ abandonedHist_within rfl | with_reducible apply Within.step ?_ bump_within rfl | with_reducible apply Within.step ?_ journal_within rfl | with_reducible apply Within.step ?_ modEntry_within rfl | with_reducible apply Within.step ?_ modPan_within rfl | (with_reducible apply Within.step ?_ (Within.onSeq ?_) rfl; rotate_left; first | exact fun h => h | exact fun h => twf_tput h _ _ | exact fun h => twf_tmod h _ _) | (with_reducible apply Within.step ?_ (Within.foldl (M := 391088) ?_ _ _) rfl; rotate_left; intro _ _) | (with_reducible apply Within.step ?_ (Within.foldl_snd (M := 391088) ?_ _ _) rfl; rotate_left; intro _ _)

theorem abandonAll_within : ∀ {x0 x1}, Within 391088 x1 (abandonAll x0 x1) := by
  intros
  unfold abandonAll
  repeat' first | with_reducible assumption | with_reducible apply Within.refl | ((first | intro x | (lift_lets; intro x)); clear_value x) | with_reducible apply Within.step ?_ abandonOne_within rfl | with_reducible apply Within.step ?_ reapEnding_within rfl | (with_reducible apply Within.step ?_ (Within.foldl (M := 391088) ?_ _ _) rfl; rotate_left; intro _ _) | (with_reducible apply Within.step ?_ (Within.foldl_snd (M := 391088) ?_ _ _) rfl; rotate_left; intro _ _)

theorem execSpecPolicy_within : ∀ {x0 x1}, ∀ {t}, (execSpecPolicy x0 x1) = .next t → Within 24880 x1 t := by
  intros
  rename_i h
  unfold execSpecPolicy at h
  injection h with h
  subst h
  repeat' first | with_reducible apply Within.refl | ((first | intro x | (lift_lets; intro x)); have hf := fun a => x a; clear hf; subst x) | ((first | intro x | (lift_lets; intro x)); clear_value x) | (with_reducible apply Within.step ?_ (startCmd_within (M := 24880) ?_ rfl) rfl; rotate_left; intro _ _) | with_reducible apply Within.step ?_ dropDrafts_within rfl | with_reducible apply Within.step ?_ endFail_within rfl | with_reducible apply Within.step ?_ endOk_within rfl | with_reducible apply Within.step ?_ modEntry_within rfl | (with_reducible apply Within.step ?_ (Within.foldl (M := 24880) ?_ _ _) rfl; rotate_left; intro _ _) | with_reducible apply Within.ite | split

/-! ### PmcOps -/

theorem clearHwm_within : ∀ {x0 x1}, Within 512 x1 (clearHwm x0 x1) := by
  intros
  unfold clearHwm
  repeat' first | with_reducible apply Within.refl | with_reducible apply Within.step ?_ modDie_within rfl

theorem openWindow_within : ∀ {x0 x1 x2 x3}, Within 512 x3 (openWindow x0 x1 x2 x3) := by
  intros
  unfold openWindow
  repeat' first | with_reducible apply Within.refl | ((first | intro x | (lift_lets; intro x)); clear_value x) | with_reducible apply Within.step ?_ clearHwm_within rfl | with_reducible apply Within.step ?_ modDie_within rfl

theorem modSample_within : ∀ {x0 x1 x2}, Within 262144 x2 (modSample x0 x1 x2) := by
  intros
  unfold modSample
  repeat' first | with_reducible apply Within.refl | (with_reducible apply Within.step ?_ (Within.onPmc ?_) rfl; rotate_left; exact fun h => h)

theorem finishSample_within : ∀ {x0 x1}, Within 278896 x1 (finishSample x0 x1) := by
  intros
  unfold finishSample
  repeat' first | with_reducible assumption | with_reducible apply Within.refl | ((first | intro x | (lift_lets; intro x)); refine Within.cut (t := x) ?_ ?_; rotate_left; intro hx; clear_value x; rotate_right; dsimp -zeta only [x]) | ((first | intro x | (lift_lets; intro x)); clear_value x) | with_reducible apply Within.step ?_ dmaWrite_within rfl | with_reducible apply Within.step ?_ endOk_within rfl | (with_reducible apply Within.step ?_ (Within.onPmc ?_) rfl; rotate_left; exact fun h => h) | with_reducible apply Within.ite | split

theorem closeWindow_within : ∀ {x0 x1 x2 x3}, Within 279408 x3 (closeWindow x0 x1 x2 x3) := by
  intros
  unfold closeWindow
  repeat' first | with_reducible apply Within.refl | ((first | intro x | (lift_lets; intro x)); clear_value x) | with_reducible apply Within.step ?_ finishSample_within rfl | with_reducible apply Within.step ?_ modDie_within rfl | with_reducible apply Within.step ?_ modSample_within rfl | split

theorem cutSamples_within : ∀ {x0 x1}, Within 279408 x1 (cutSamples x0 x1) := by
  intros
  unfold cutSamples
  repeat' first | with_reducible assumption | with_reducible apply Within.refl | ((first | intro x | (lift_lets; intro x)); refine Within.cut (t := x) ?_ ?_; rotate_left; intro hx; clear_value x; rotate_right; dsimp -zeta only [x]) | with_reducible apply Within.step ?_ closeWindow_within rfl | with_reducible apply Within.step ?_ modSample_within rfl | with_reducible apply Within.step ?_ openWindow_within rfl | (with_reducible apply Within.step ?_ (Within.foldl (M := 279408) ?_ _ _) rfl; rotate_left; intro _ _)

end Sys2Proof.Machine
end

