-- ==== Sys2Proof/Laws/WithinPans.lean ====
section
/-! SUPPORT. What each operation may touch: pans and waves, links, the lifetime record, the package reset and fault collection. -/

namespace Sys2Proof.Machine

/-! ### Waves -/

theorem freeSpill_within : ∀ {x0 x1 x2 x3}, Within 37008 x3 (freeSpill x0 x1 x2 x3) := by
  intros
  unfold freeSpill
  repeat' first | with_reducible assumption | with_reducible apply Within.refl | with_reducible apply Within.step ?_ freeBlocks_within rfl | with_reducible apply Within.step ?_ modCtx_within rfl | (with_reducible apply Within.step ?_ (Within.foldl (M := 37008) ?_ _ _) rfl; rotate_left; intro _ _) | (with_reducible apply Within.step ?_ (Within.foldl_snd (M := 37008) ?_ _ _) rfl; rotate_left; intro _ _)

theorem showSpill_within : ∀ {x0 x1 x2 x3}, Within 16 x3 (showSpill x0 x1 x2 x3) := by
  intros
  unfold showSpill
  repeat' first | with_reducible assumption | with_reducible apply Within.refl | with_reducible apply Within.step ?_ setReg_within rfl | with_reducible apply Within.step ?_ setReg64_within rfl | (with_reducible apply Within.step ?_ (Within.foldl (M := 16) ?_ _ _) rfl; rotate_left; intro _ _) | (with_reducible apply Within.step ?_ (Within.foldl_snd (M := 16) ?_ _ _) rfl; rotate_left; intro _ _)

theorem showActiveSpill_within : ∀ {x0 x1}, Within 16 x1 (showActiveSpill x0 x1) := by
  intros
  unfold showActiveSpill
  repeat' first | with_reducible assumption | with_reducible apply Within.refl | with_reducible apply Within.step ?_ showSpill_within rfl | split

theorem takeSpill_within {mib n : Nat} {s t : State} {y : List Nat} (h : takeSpill mib n s = some (y, t)) : Within 4096 s t := by
  unfold takeSpill at h
  refine takeEach_within (fun s y t h => ?_) h
  obtain ⟨b, h1, h2⟩ := Option.map_eq_some_iff.1 h
  cases h2
  exact takeBlocks_within


theorem takeSpill_if_within {c : Prop} [Decidable c] {mib n : Nat} {s : State} {y : List Nat} {t : State}
    (h : (if c then some ([], s) else takeSpill mib n s) = some (y, t)) : Within 4096 s t := by
  split at h
  · cases h; exact Within.refl _ _
  · exact takeSpill_within h

theorem clearDie_within : ∀ {x0 x1}, Within 512 x1 (clearDie x0 x1) := by
  intros
  unfold clearDie
  repeat' first | with_reducible apply Within.refl | with_reducible apply Within.step ?_ modDie_within rfl

theorem createPan_within : ∀ {x0 x1 x2}, Within 1560 x2 (createPan x0 x1 x2) := by
  intros
  unfold createPan
  repeat' first | with_reducible assumption | with_reducible apply Within.refl | ((first | intro x | (lift_lets; intro x)); refine Within.cut (t := x) ?_ ?_; rotate_left; intro hx; clear_value x; rotate_right; dsimp -zeta only [x]) | ((first | intro x | (lift_lets; intro x)); clear_value x) | with_reducible apply Within.step ?_ clearDie_within rfl | with_reducible apply Within.step ?_ modDie_within rfl | with_reducible apply Within.step ?_ setReg_within rfl | with_reducible apply Within.step ?_ setReg64_within rfl | with_reducible apply Within.step ?_ Within.onPans rfl | (with_reducible apply Within.step ?_ (Within.foldl (M := 1560) ?_ _ _) rfl; rotate_left; intro _ _) | with_reducible apply Within.step ?_ (Within.set_free) rfl

theorem execPanCreate_within : ∀ {x0 x1}, ∀ {t}, (execPanCreate x0 x1) = .next t → Within 280376 x1 t := by
  intros
  rename_i h
  unfold execPanCreate at h
  injection h with h
  subst h
  repeat' first | with_reducible apply Within.refl | ((first | intro x | (lift_lets; intro x)); clear_value x) | (with_reducible apply Within.step ?_ (startCmd_within (M := 280376) ?_ rfl) rfl; rotate_left; intro _ _) | with_reducible apply Within.step ?_ createPan_within rfl | with_reducible apply Within.step ?_ endFail_within rfl | with_reducible apply Within.step ?_ endOk_within rfl | with_reducible apply Within.step ?_ modHist_within rfl | with_reducible apply Within.ite | split

theorem execPanRelease_within : ∀ {x0 x1}, ∀ {t}, (execPanRelease x0 x1) = .next t → Within 17712 x1 t := by
  intros
  rename_i h
  unfold execPanRelease at h
  injection h with h
  subst h
  repeat' first | with_reducible apply Within.refl | (with_reducible apply Within.step ?_ (startCmd_within (M := 17712) ?_ rfl) rfl; rotate_left; intro _ _) | with_reducible apply Within.step ?_ endFail_within rfl | with_reducible apply Within.step ?_ modPan_within rfl | split

theorem settleSwitch_within : ∀ {x0 x1}, Within 82224 x1 (settleSwitch x0 x1) := by
  intros
  unfold settleSwitch
  repeat' first | with_reducible assumption | with_reducible apply Within.refl | ((first | intro x | (lift_lets; intro x)); refine Within.cut (t := x) ?_ ?_; rotate_left; intro hx; clear_value x; rotate_right; dsimp -zeta only [x]) | with_reducible apply Within.step ?_ bump_within rfl | with_reducible apply Within.step ?_ endOk_within rfl | with_reducible apply Within.step ?_ modModel_within rfl | with_reducible apply Within.ite | split

theorem leaveSwitch_within : ∀ {x0 x1}, Within 82224 x1 (leaveSwitch x0 x1) := by
  intros
  unfold leaveSwitch
  repeat' first | with_reducible apply Within.refl | with_reducible apply Within.step ?_ modModel_within rfl | with_reducible apply Within.step ?_ settleSwitch_within rfl | (with_reducible apply Within.step ?_ (Within.foldl (M := 82224) ?_ _ _) rfl; rotate_left; intro _ _)

theorem failSwitch_within : ∀ {x0 x1 x2}, Within 120240 x2 (failSwitch x0 x1 x2) := by
  intros
  unfold failSwitch
  repeat' first | with_reducible assumption | with_reducible apply Within.refl | ((first | intro x | (lift_lets; intro x)); refine Within.cut (t := x) ?_ ?_; rotate_left; intro hx; clear_value x; rotate_right; dsimp -zeta only [x]) | with_reducible apply Within.step ?_ endFail_within rfl | with_reducible apply Within.step ?_ freeSpill_within rfl | with_reducible apply Within.step ?_ modModel_within rfl | with_reducible apply Within.step ?_ modPan_within rfl | with_reducible apply Within.step ?_ showActiveSpill_within rfl | (with_reducible apply Within.step ?_ (Within.foldl (M := 120240) ?_ _ _) rfl; rotate_left; intro _ _) | with_reducible apply Within.ite | split

theorem startLoad_within : ∀ {x0 x1 x2 x3 x4 x5 x6 x7 x8} {t}, startLoad x0 x1 x2 x3 x4 x5 x6 x7 x8 = .inr t → Within 38544 x8 t := by
  intros
  rename_i h
  unfold startLoad at h
  try dsimp only at h
  repeat' split at h
  all_goals (first | (cases h; done) | (have h2 := Sum.inr.inj h; subst h2; repeat' first | with_reducible assumption | with_reducible apply Within.refl | ((first | intro x | (lift_lets; intro x)); refine Within.cut (t := x) ?_ ?_; rotate_left; intro hx; clear_value x; rotate_right; dsimp -zeta only [x]) | ((first | intro x | (lift_lets; intro x)); refine Within.cut (t := x.2) ?_ ?_; rotate_left; intro hx; clear_value x; rotate_right; dsimp -zeta only [x]) | ((first | intro x | (lift_lets; intro x)); clear_value x) | with_reducible apply Within.step ?_ (takeSpill_if_within (by with_reducible assumption)) rfl | with_reducible apply Within.step ?_ freeSpill_within rfl | with_reducible apply Within.step ?_ modCtx_within rfl | with_reducible apply Within.step ?_ modDie_within rfl | with_reducible apply Within.step ?_ modPan_within rfl | with_reducible apply Within.step ?_ showSpill_within rfl | with_reducible apply Within.step ?_ (takeSpill_within (by with_reducible assumption)) rfl | (with_reducible apply Within.step ?_ (Within.foldl (M := 38544) ?_ _ _) rfl; rotate_left; intro _ _) | (with_reducible apply Within.step ?_ (Within.foldl_snd (M := 38544) ?_ _ _) rfl; rotate_left; intro _ _) | with_reducible apply Within.ite | split | dsimp -zeta only | dsimp only))

theorem startLoad_if_within {c : Prop} [Decidable c] {st : Status} {n : Nat} {cmd : Option CmdRef} {entry : Option Nat} {image : List Byte}
    {size mib : Nat} {sw bal : Bool} {s t : State}
    (h : (if c then .inl st else startLoad n cmd entry image size mib sw bal s) = .inr t) : Within 38544 s t := by
  split at h
  · cases h
  · exact startLoad_within h

theorem execCfgLoad_within : ∀ {x0 x1}, ∀ {t}, (execCfgLoad x0 x1) = .next t → Within 55216 x1 t := by
  intros
  rename_i h
  unfold execCfgLoad at h
  injection h with h
  subst h
  repeat' first | with_reducible assumption | with_reducible apply Within.refl | ((first | intro x | (lift_lets; intro x)); clear_value x) | with_reducible apply Within.step ?_ endFail_within rfl | (with_reducible apply Within.step ?_ (startHeld_within (M := 55216) ?_ rfl) rfl; rotate_left; intro _ _) | with_reducible apply Within.step ?_ (startLoad_within (by with_reducible assumption)) rfl | split

theorem writeShadow_within : ∀ {x0 x1 x2 x3}, Within 512 x3 (writeShadow x0 x1 x2 x3) := by
  intros
  unfold writeShadow
  repeat' first | with_reducible apply Within.refl | ((first | intro x | (lift_lets; intro x)); clear_value x) | with_reducible apply Within.step ?_ modDie_within rfl | (with_reducible apply Within.step ?_ (Within.foldl (M := 512) ?_ _ _) rfl; rotate_left; intro _ _)

theorem execCfgShadowWritten_within : ∀ {x0 x1}, ∀ {t}, (execCfgShadowWritten x0 x1) = .next t → Within 120752 x1 t := by
  intros
  rename_i h
  unfold execCfgShadowWritten at h
  injection h with h
  subst h
  repeat' first | with_reducible assumption | with_reducible apply Within.refl | ((first | intro x | (lift_lets; intro x)); refine Within.cut (t := x) ?_ ?_; rotate_left; intro hx; clear_value x; rotate_right; dsimp -zeta only [x]) | ((first | intro x | (lift_lets; intro x)); have hf := fun a => x a; clear hf; subst x) | with_reducible apply Within.step ?_ endFail_within rfl | with_reducible apply Within.step ?_ endOk_within rfl | with_reducible apply Within.step ?_ failSwitch_within rfl | with_reducible apply Within.step ?_ freeSpill_within rfl | with_reducible apply Within.step ?_ modPan_within rfl | with_reducible apply Within.step ?_ showActiveSpill_within rfl | with_reducible apply Within.step ?_ writeShadow_within rfl | with_reducible apply Within.ite | split | dsimp -zeta only

theorem passBystanders_within : ∀ {x0 x1 x2 x3}, Within 4624 x3 (passBystanders x0 x1 x2 x3) := by
  intros
  unfold passBystanders
  repeat' first | with_reducible assumption | with_reducible apply Within.refl | with_reducible apply Within.step ?_ modeTile_within rfl | with_reducible apply Within.step ?_ swapTile_within rfl | (with_reducible apply Within.step ?_ (Within.foldl (M := 4624) ?_ _ _) rfl; rotate_left; intro _ _) | with_reducible apply Within.ite

theorem sendTokens_within : ∀ {x0 x1 x2}, Within 512 x2 (sendTokens x0 x1 x2) := by
  intros
  unfold sendTokens
  repeat' first | with_reducible assumption | with_reducible apply Within.refl | with_reducible apply Within.step ?_ sendCtrl_within rfl | (with_reducible apply Within.step ?_ (Within.foldl (M := 512) ?_ _ _) rfl; rotate_left; intro _ _) | (with_reducible apply Within.step ?_ (Within.foldl_snd (M := 512) ?_ _ _) rfl; rotate_left; intro _ _)

theorem openWave_within : ∀ {x0 x1 x2 x3}, Within 5648 x3 (openWave x0 x1 x2 x3) := by
  intros
  unfold openWave
  repeat' first | with_reducible assumption | with_reducible apply Within.refl | ((first | intro x | (lift_lets; intro x)); refine Within.cut (t := x) ?_ ?_; rotate_left; intro hx; clear_value x; rotate_right; dsimp -zeta only [x]) | ((first | intro x | (lift_lets; intro x)); clear_value x) | with_reducible apply Within.step ?_ modDie_within rfl | with_reducible apply Within.step ?_ modPan_within rfl | with_reducible apply Within.step ?_ passBystanders_within rfl | with_reducible apply Within.step ?_ setFld_within rfl | with_reducible apply Within.step ?_ setReg_within rfl | (with_reducible apply Within.step ?_ (Within.foldl (M := 5648) ?_ _ _) rfl; rotate_left; intro _ _) | with_reducible apply Within.ite | split

theorem startWave_within : ∀ {x0 x1 x2 x3}, Within 5648 x3 (startWave x0 x1 x2 x3) := by
  intros
  unfold startWave
  repeat' first | with_reducible assumption | with_reducible apply Within.refl | with_reducible apply Within.step ?_ openWave_within rfl | with_reducible apply Within.step ?_ sendTokens_within rfl | split

theorem endWaveCmd_within : ∀ {x0 x1}, Within 16688 x1 (endWaveCmd x0 x1) := by
  intros
  unfold endWaveCmd
  repeat' first | with_reducible apply Within.refl | with_reducible apply Within.step ?_ endOk_within rfl | with_reducible apply Within.ite | split

theorem showShare_within : ∀ {x0 x1}, Within 16 x1 (showShare x0 x1) := by
  intros
  unfold showShare
  repeat' first | with_reducible assumption | with_reducible apply Within.refl | with_reducible apply Within.step ?_ setFld_within rfl | split

theorem routeCommit_within : ∀ {x0 x1 x2 x3}, Within 120752 x3 (routeCommit x0 x1 x2 x3) := by
  intros
  unfold routeCommit
  repeat' first | with_reducible assumption | with_reducible apply Within.refl | ((first | intro x | (lift_lets; intro x)); refine Within.cut (t := x) ?_ ?_; rotate_left; intro hx; clear_value x; rotate_right; dsimp -zeta only [x]) | with_reducible apply Within.step ?_ bump_within rfl | with_reducible apply Within.step ?_ endWaveCmd_within rfl | with_reducible apply Within.step ?_ freeSpill_within rfl | with_reducible apply Within.step ?_ leaveSwitch_within rfl | with_reducible apply Within.step ?_ modDie_within rfl | with_reducible apply Within.step ?_ modPan_within rfl | with_reducible apply Within.step ?_ showActiveSpill_within rfl | with_reducible apply Within.step ?_ showShare_within rfl | (with_reducible apply Within.step ?_ (Within.foldl (M := 120752) ?_ _ _) rfl; rotate_left; intro _ _) | with_reducible apply Within.ite | split

theorem finishWave_within : ∀ {x0 x1 x2 x3}, Within 120752 x3 (finishWave x0 x1 x2 x3) := by
  intros
  unfold finishWave
  repeat' first | with_reducible assumption | with_reducible apply Within.refl | with_reducible apply Within.step ?_ modPan_within rfl | with_reducible apply Within.step ?_ routeCommit_within rfl | with_reducible apply Within.ite

theorem execConfigSwitchWave_within : ∀ {x0 x1}, ∀ {t}, (execConfigSwitchWave x0 x1) = .next t → Within 5648 x1 t := by
  intros
  rename_i h
  unfold execConfigSwitchWave at h
  injection h with h
  subst h
  repeat' first | with_reducible assumption | with_reducible apply Within.refl | with_reducible apply Within.step ?_ startWave_within rfl | with_reducible apply Within.ite | split

theorem execWaveDieDone_within : ∀ {x0 x1}, ∀ {t}, (execWaveDieDone x0 x1) = .next t → Within 120752 x1 t := by
  intros
  rename_i h
  unfold execWaveDieDone at h
  injection h with h
  subst h
  repeat' first | with_reducible assumption | with_reducible apply Within.refl | ((first | intro x | (lift_lets; intro x)); refine Within.cut (t := x) ?_ ?_; rotate_left; intro hx; clear_value x; rotate_right; dsimp -zeta only [x]) | ((first | intro x | (lift_lets; intro x)); clear_value x) | with_reducible apply Within.step ?_ finishWave_within rfl | with_reducible apply Within.step ?_ modDie_within rfl | with_reducible apply Within.ite | split

theorem execRouteCommit_within : ∀ {x0 x1}, ∀ {t}, (execRouteCommit x0 x1) = .next t → Within 120752 x1 t := by
  intros
  rename_i h
  unfold execRouteCommit at h
  injection h with h
  subst h
  repeat' first | with_reducible assumption | with_reducible apply Within.refl | with_reducible apply Within.step ?_ finishWave_within rfl | with_reducible apply Within.ite | split

theorem execModeWave_within : ∀ {x0 x1}, ∀ {t}, (execModeWave x0 x1) = .next t → Within 5648 x1 t := by
  intros
  rename_i h
  unfold execModeWave at h
  injection h with h
  subst h
  repeat' first | with_reducible assumption | with_reducible apply Within.refl | ((first | intro x | (lift_lets; intro x)); clear_value x) | with_reducible apply Within.step ?_ modPan_within rfl | with_reducible apply Within.step ?_ startWave_within rfl | with_reducible apply Within.ite | split

theorem execPreemptSwap_within : ∀ {x0 x1}, ∀ {t}, (execPreemptSwap x0 x1) = .next t → Within 5680 x1 t := by
  intros
  rename_i h
  unfold execPreemptSwap at h
  injection h with h
  subst h
  repeat' first | with_reducible assumption | with_reducible apply Within.refl | ((first | intro x | (lift_lets; intro x)); clear_value x) | with_reducible apply Within.step ?_ bump_within rfl | with_reducible apply Within.step ?_ startWave_within rfl | with_reducible apply Within.ite | split

theorem execPreemptReturn_within : ∀ {x0 x1}, ∀ {t}, (execPreemptReturn x0 x1) = .next t → Within 5680 x1 t := by
  intros
  rename_i h
  unfold execPreemptReturn at h
  injection h with h
  subst h
  repeat' first | with_reducible assumption | with_reducible apply Within.refl | with_reducible apply Within.step ?_ bump_within rfl | with_reducible apply Within.step ?_ startWave_within rfl | with_reducible apply Within.ite | split

theorem releasePan_within : ∀ {x0 x1 x2}, Within 382960 x2 (releasePan x0 x1 x2) := by
  intros
  unfold releasePan
  repeat' first | with_reducible assumption | with_reducible apply Within.refl | ((first | intro x | (lift_lets; intro x)); refine Within.cut (t := x) ?_ ?_; rotate_left; intro hx; clear_value x; rotate_right; dsimp -zeta only [x]) | with_reducible apply Within.step ?_ clearDie_within rfl | with_reducible apply Within.step ?_ cutSamples_within rfl | with_reducible apply Within.step ?_ dropPackets_within rfl | with_reducible apply Within.step ?_ endOk_within rfl | with_reducible apply Within.step ?_ freeSpill_within rfl | with_reducible apply Within.step ?_ leaveSwitch_within rfl | with_reducible apply Within.step ?_ setReg_within rfl | with_reducible apply Within.step ?_ Within.onPans rfl | (with_reducible apply Within.step ?_ (Within.foldl (M := 382960) ?_ _ _) rfl; rotate_left; intro _ _) | with_reducible apply Within.ite | split | dsimp -zeta only

theorem execStepBoundaryDrain_within : ∀ {x0 x1}, ∀ {t}, (execStepBoundaryDrain x0 x1) = .next t → Within 382960 x1 t := by
  intros
  rename_i h
  unfold execStepBoundaryDrain at h
  injection h with h
  subst h
  repeat' first | with_reducible assumption | with_reducible apply Within.refl | with_reducible apply Within.step ?_ releasePan_within rfl | with_reducible apply Within.ite | split

theorem abortDie_within : ∀ {x0 x1}, Within 560 x1 (abortDie x0 x1) := by
  intros
  unfold abortDie
  repeat' first | with_reducible apply Within.refl | ((first | intro x | (lift_lets; intro x)); clear_value x) | with_reducible apply Within.step ?_ bumpBy_within rfl | with_reducible apply Within.step ?_ modDie_within rfl

theorem completeWave_within : ∀ {x0 x1 x2}, Within 4624 x2 (completeWave x0 x1 x2) := by
  intros
  unfold completeWave
  repeat' first | with_reducible assumption | with_reducible apply Within.refl | with_reducible apply Within.step ?_ modeTile_within rfl | with_reducible apply Within.step ?_ swapTile_within rfl | (with_reducible apply Within.step ?_ (Within.foldl (M := 4624) ?_ _ _) rfl; rotate_left; intro _ _) | with_reducible apply Within.ite

theorem setWaiting_within : ∀ {x0 x1 x2}, Within 16 x2 (setWaiting x0 x1 x2) := by
  intros
  unfold setWaiting
  repeat' first | with_reducible apply Within.refl | with_reducible apply Within.step ?_ setFld_within rfl | with_reducible apply Within.ite

theorem endPanStreams_within : ∀ {x0 x1}, Within 4112 x1 (endPanStreams x0 x1) := by
  intros
  unfold endPanStreams
  repeat' first | with_reducible apply Within.refl | with_reducible apply Within.step ?_ setWaiting_within rfl | (with_reducible apply Within.step ?_ (Within.onMem ?_) rfl; rotate_left; exact fun h => h)

theorem abortPanWith_within : ∀ {x0 x1 x2}, Within 391088 x2 (abortPanWith x0 x1 x2) := by
  intros
  unfold abortPanWith
  repeat' first | with_reducible assumption | with_reducible apply Within.refl | ((first | intro x | (lift_lets; intro x)); refine Within.cut (t := x) ?_ ?_; rotate_left; intro hx; clear_value x; rotate_right; dsimp -zeta only [x]) | ((first | intro x | (lift_lets; intro x)); clear_value x) | with_reducible apply Within.step ?_ abandonAll_within rfl | with_reducible apply Within.step ?_ abortDie_within rfl | with_reducible apply Within.step ?_ completeWave_within rfl | with_reducible apply Within.step ?_ dropPackets_within rfl | with_reducible apply Within.step ?_ endPanStreams_within rfl | with_reducible apply Within.step ?_ endWith_within rfl | with_reducible apply Within.step ?_ finishWave_within rfl | with_reducible apply Within.step ?_ modPan_within rfl | (with_reducible apply Within.step ?_ (Within.foldl (M := 391088) ?_ _ _) rfl; rotate_left; intro _ _) | with_reducible apply Within.ite | split

theorem abortPan_within : ∀ {x0 x1}, Within 391088 x1 (abortPan x0 x1) := by
  intros
  unfold abortPan
  repeat' first | with_reducible assumption | with_reducible apply Within.refl | with_reducible apply Within.step ?_ abortPanWith_within rfl

theorem execBalanceEval_within : ∀ {x0 x1}, ∀ {t}, (execBalanceEval x0 x1) = .next t → Within 40592 x1 t := by
  intros
  rename_i h
  unfold execBalanceEval at h
  injection h with h
  subst h
  repeat' first | with_reducible assumption | with_reducible apply Within.refl | ((first | intro x | (lift_lets; intro x)); refine Within.cut (t := x) ?_ ?_; rotate_left; intro hx; clear_value x; rotate_right; dsimp -zeta only [x]) | ((first | intro x | (lift_lets; intro x)); have hf := fun a => x a; clear hf; subst x) | ((first | intro x | (lift_lets; intro x)); clear_value x) | with_reducible apply Within.step ?_ (startLoad_if_within (by with_reducible assumption)) rfl | with_reducible apply Within.step ?_ (startLoad_within (by with_reducible assumption)) rfl | with_reducible apply Within.step ?_ Within.onBalances rfl | with_reducible apply Within.ite | split

/-! ### Links -/

theorem toDetect_within : ∀ {x0 x1}, Within 16 x1 (toDetect x0 x1) := by
  intros
  unfold toDetect
  repeat' first | with_reducible apply Within.refl | with_reducible apply Within.step ?_ setReg_within rfl

theorem linkOn_within : ∀ {x0 x1}, Within 131096 x1 (linkOn x0 x1) := by
  intros
  unfold linkOn
  repeat' first | with_reducible apply Within.refl | with_reducible apply Within.step ?_ settleAll_within rfl | with_reducible apply Within.step ?_ toDetect_within rfl | with_reducible apply Within.ite

theorem linkOff_within : ∀ {x0 x1}, Within 131096 x1 (linkOff x0 x1) := by
  intros
  unfold linkOff
  repeat' first | with_reducible apply Within.refl | with_reducible apply Within.step ?_ modLink_within rfl | with_reducible apply Within.step ?_ moveFrames_within rfl | with_reducible apply Within.step ?_ setReg_within rfl | with_reducible apply Within.step ?_ settleAll_within rfl

theorem execLinkEnable_within : ∀ {x0 x1}, ∀ {t}, (execLinkEnable x0 x1) = .next t → Within 131096 x1 t := by
  intros
  rename_i h
  unfold execLinkEnable at h
  injection h with h
  subst h
  repeat' first | with_reducible apply Within.refl | with_reducible apply Within.step ?_ linkOn_within rfl | with_reducible apply Within.step ?_ setFld_within rfl

theorem execLinkSignalDetect_within : ∀ {x0 x1}, ∀ {t}, (execLinkSignalDetect x0 x1) = .next t → Within 16 x1 t := by
  intros
  rename_i h
  unfold execLinkSignalDetect at h
  injection h with h
  subst h
  repeat' first | with_reducible apply Within.refl | with_reducible apply Within.step ?_ setReg_within rfl | with_reducible apply Within.ite

theorem execLinkTraining_within : ∀ {x0 x1 x2}, ∀ {t}, (execLinkTraining x0 x1 x2) = .next t → Within 163896 x2 t := by
  intros
  rename_i h
  unfold execLinkTraining at h
  injection h with h
  subst h
  repeat' first | with_reducible apply Within.refl | with_reducible apply Within.step ?_ goDown_within rfl | with_reducible apply Within.step ?_ modLink_within rfl | with_reducible apply Within.step ?_ setReg_within rfl | with_reducible apply Within.step ?_ settleAll_within rfl | with_reducible apply Within.step ?_ showFabric_within rfl | with_reducible apply Within.ite | split

theorem sendRecord_within : ∀ {x0 x1}, Within 131072 x1 (sendRecord x0 x1) := by
  intros
  unfold sendRecord
  repeat' first | with_reducible apply Within.refl | with_reducible apply Within.step ?_ modLink_within rfl | with_reducible apply Within.step ?_ sendOn_within rfl

theorem execDiscoveryRecordSend_within : ∀ {x0 x1}, ∀ {t}, (execDiscoveryRecordSend x0 x1) = .next t → Within 131072 x1 t := by
  intros
  rename_i h
  unfold execDiscoveryRecordSend at h
  injection h with h
  subst h
  repeat' first | with_reducible apply Within.refl | with_reducible apply Within.step ?_ sendRecord_within rfl | with_reducible apply Within.ite

theorem yieldChip_within : ∀ {x0}, Within 522168 x0 (yieldChip x0) := by
  intros
  unfold yieldChip
  repeat' first | with_reducible assumption | with_reducible apply Within.refl | ((first | intro x | (lift_lets; intro x)); refine Within.cut (t := x) ?_ ?_; rotate_left; intro hx; clear_value x; rotate_right; dsimp -zeta only [x]) | with_reducible apply Within.step ?_ abortPan_within rfl | with_reducible apply Within.step ?_ present_within rfl | with_reducible apply Within.step ?_ settleAll_within rfl | with_reducible apply Within.step ?_ Within.onLnk rfl | (with_reducible apply Within.step ?_ (Within.foldl (M := 522168) ?_ _ _) rfl; rotate_left; intro _ _)

theorem seeChip_within : ∀ {x0 x1 x2}, Within 522168 x2 (seeChip x0 x1 x2) := by
  intros
  unfold seeChip
  repeat' first | with_reducible assumption | with_reducible apply Within.refl | ((first | intro x | (lift_lets; intro x)); refine Within.cut (t := x) ?_ ?_; rotate_left; intro hx; clear_value x; rotate_right; dsimp -zeta only [x]) | with_reducible apply Within.step ?_ seeGen_within rfl | with_reducible apply Within.step ?_ yieldChip_within rfl | with_reducible apply Within.ite

theorem showPartner_within : ∀ {x0 x1 x2}, Within 16 x2 (showPartner x0 x1 x2) := by
  intros
  unfold showPartner
  repeat' first | with_reducible assumption | with_reducible apply Within.refl | ((first | intro x | (lift_lets; intro x)); refine Within.cut (t := x) ?_ ?_; rotate_left; intro hx; clear_value x; rotate_right; dsimp -zeta only [x]) | ((first | intro x | (lift_lets; intro x)); clear_value x) | with_reducible apply Within.step ?_ setFld_within rfl | with_reducible apply Within.step ?_ setReg_within rfl

theorem execDiscoveryRecordReceive_within : ∀ {x0 x1 x2}, ∀ {t}, (execDiscoveryRecordReceive x0 x1 x2) = .next t → Within 522168 x2 t := by
  intros
  rename_i h
  unfold execDiscoveryRecordReceive at h
  injection h with h
  subst h
  repeat' first | with_reducible assumption | with_reducible apply Within.refl | ((first | intro x | (lift_lets; intro x)); refine Within.cut (t := x) ?_ ?_; rotate_left; intro hx; clear_value x; rotate_right; dsimp -zeta only [x]) | with_reducible apply Within.step ?_ goDown_within rfl | with_reducible apply Within.step ?_ modLink_within rfl | with_reducible apply Within.step ?_ seeChip_within rfl | with_reducible apply Within.step ?_ setLink_within rfl | with_reducible apply Within.step ?_ settleAll_within rfl | with_reducible apply Within.step ?_ showPartner_within rfl | with_reducible apply Within.ite

theorem replayAll_within : ∀ {x0 x1}, Within 163888 x1 (replayAll x0 x1) := by
  intros
  unfold replayAll
  repeat' first | with_reducible assumption | with_reducible apply Within.refl | ((first | intro x | (lift_lets; intro x)); refine Within.cut (t := x) ?_ ?_; rotate_left; intro hx; clear_value x; rotate_right; dsimp -zeta only [x]) | ((first | intro x | (lift_lets; intro x)); clear_value x) | with_reducible apply Within.step ?_ bumpBy_within rfl | with_reducible apply Within.step ?_ lifeAdd_within rfl | with_reducible apply Within.step ?_ modLink_within rfl

theorem execAckTimeout_within : ∀ {x0 x1 x2}, ∀ {t}, (execAckTimeout x0 x1 x2) = .next t → Within 163896 x2 t := by
  intros
  rename_i h
  unfold execAckTimeout at h
  injection h with h
  subst h
  repeat' first | with_reducible assumption | with_reducible apply Within.refl | ((first | intro x | (lift_lets; intro x)); refine Within.cut (t := x) ?_ ?_; rotate_left; intro hx; clear_value x; rotate_right; dsimp -zeta only [x]) | with_reducible apply Within.step ?_ bump_within rfl | with_reducible apply Within.step ?_ goDown_within rfl | with_reducible apply Within.step ?_ lifeAdd_within rfl | with_reducible apply Within.step ?_ modLink_within rfl | with_reducible apply Within.step ?_ replayAll_within rfl | with_reducible apply Within.step ?_ settleAll_within rfl | with_reducible apply Within.ite

theorem execLinkDown_within : ∀ {x0 x1}, ∀ {t}, (execLinkDown x0 x1) = .next t → Within 131096 x1 t := by
  intros
  rename_i h
  unfold execLinkDown at h
  injection h with h
  subst h
  repeat' first | with_reducible apply Within.refl | with_reducible apply Within.step ?_ moveFrames_within rfl | with_reducible apply Within.step ?_ settleAll_within rfl | with_reducible apply Within.ite

theorem execLinkDownRetry_within : ∀ {x0 x1}, ∀ {t}, (execLinkDownRetry x0 x1) = .next t → Within 131096 x1 t := by
  intros
  rename_i h
  unfold execLinkDownRetry at h
  injection h with h
  subst h
  repeat' first | with_reducible apply Within.refl | with_reducible apply Within.step ?_ settleAll_within rfl | with_reducible apply Within.step ?_ toDetect_within rfl | with_reducible apply Within.ite

theorem execModuleInsert_within : ∀ {x0 x1}, ∀ {t}, (execModuleInsert x0 x1) = .next t → Within 131096 x1 t := by
  intros
  rename_i h
  unfold execModuleInsert at h
  injection h with h
  subst h
  repeat' first | with_reducible assumption | with_reducible apply Within.refl | ((first | intro x | (lift_lets; intro x)); refine Within.cut (t := x) ?_ ?_; rotate_left; intro hx; clear_value x; rotate_right; dsimp -zeta only [x]) | with_reducible apply Within.step ?_ setFld_within rfl | with_reducible apply Within.step ?_ settleAll_within rfl | with_reducible apply Within.step ?_ toDetect_within rfl | with_reducible apply Within.ite

theorem execModuleRemove_within : ∀ {x0 x1}, ∀ {t}, (execModuleRemove x0 x1) = .next t → Within 163896 x1 t := by
  intros
  rename_i h
  unfold execModuleRemove at h
  injection h with h
  subst h
  repeat' first | with_reducible assumption | with_reducible apply Within.refl | ((first | intro x | (lift_lets; intro x)); refine Within.cut (t := x) ?_ ?_; rotate_left; intro hx; clear_value x; rotate_right; dsimp -zeta only [x]) | with_reducible apply Within.step ?_ goDown_within rfl | with_reducible apply Within.step ?_ setReg_within rfl | with_reducible apply Within.step ?_ settleAll_within rfl | with_reducible apply Within.step ?_ toDetect_within rfl | with_reducible apply Within.ite

theorem execCmisPoll_within : ∀ {x0 x1 x2}, ∀ {t}, (execCmisPoll x0 x1 x2) = .next t → Within 163896 x2 t := by
  intros
  rename_i h
  unfold execCmisPoll at h
  injection h with h
  subst h
  repeat' first | with_reducible assumption | with_reducible apply Within.refl | ((first | intro x | (lift_lets; intro x)); refine Within.cut (t := x) ?_ ?_; rotate_left; intro hx; clear_value x; rotate_right; dsimp -zeta only [x]) | with_reducible apply Within.step ?_ goDown_within rfl | with_reducible apply Within.step ?_ modLink_within rfl | with_reducible apply Within.step ?_ present_within rfl | with_reducible apply Within.step ?_ setFld_within rfl | with_reducible apply Within.step ?_ setReg_within rfl | with_reducible apply Within.step ?_ settleAll_within rfl | with_reducible apply Within.ite

theorem execNoRouteTimeout_within : ∀ {x0 x1}, ∀ {t}, (execNoRouteTimeout x0 x1) = .next t → Within 131120 x1 t := by
  intros
  rename_i h
  unfold execNoRouteTimeout at h
  injection h with h
  subst h
  repeat' first | with_reducible apply Within.refl | with_reducible apply Within.step ?_ bumpBy_within rfl | with_reducible apply Within.step ?_ showUnreach_within rfl | with_reducible apply Within.step ?_ Within.onLnk rfl | with_reducible apply Within.ite

/-! ### Life -/

theorem showHist_within : ∀ {x0}, Within 16 x0 (showHist x0) := by
  intros
  unfold showHist
  repeat' first | with_reducible apply Within.refl | with_reducible apply Within.step ?_ setFld_within rfl

theorem record_within : ∀ {x0 x1}, Within 32816 x1 (record x0 x1) := by
  intros
  unfold record
  repeat' first | with_reducible apply Within.refl | with_reducible apply Within.step ?_ bump_within rfl | with_reducible apply Within.step ?_ showHist_within rfl | with_reducible apply Within.step ?_ Within.onFlt rfl | with_reducible apply Within.ite | split

theorem logEntry_within : ∀ {x0 x1}, Within 32768 x1 (logEntry x0 x1) := by
  intros
  unfold logEntry
  repeat' first | with_reducible apply Within.refl | with_reducible apply Within.step ?_ Within.onFlt rfl

theorem beginLifeWrite_within : ∀ {x0}, Within 32784 x0 (beginLifeWrite x0) := by
  intros
  unfold beginLifeWrite
  repeat' first | with_reducible assumption | with_reducible apply Within.refl | ((first | intro x | (lift_lets; intro x)); refine Within.cut (t := x) ?_ ?_; rotate_left; intro hx; clear_value x; rotate_right; dsimp -zeta only [x]) | ((first | intro x | (lift_lets; intro x)); clear_value x) | with_reducible apply Within.step ?_ setFld_within rfl | with_reducible apply Within.step ?_ setReg_within rfl | with_reducible apply Within.step ?_ Within.onFlt rfl | with_reducible apply Within.ite

theorem endLifeWrite_within : ∀ {x0 x1}, Within 32784 x1 (endLifeWrite x0 x1) := by
  intros
  unfold endLifeWrite
  repeat' first | with_reducible assumption | with_reducible apply Within.refl | ((first | intro x | (lift_lets; intro x)); refine Within.cut (t := x) ?_ ?_; rotate_left; intro hx; clear_value x; rotate_right; dsimp -zeta only [x]) | with_reducible apply Within.step ?_ setFld_within rfl | with_reducible apply Within.step ?_ Within.onFlt rfl | with_reducible apply Within.ite | split

theorem dropLifeWrite_within : ∀ {x0}, Within 32784 x0 (dropLifeWrite x0) := by
  intros
  unfold dropLifeWrite
  repeat' first | with_reducible apply Within.refl | with_reducible apply Within.step ?_ setFld_within rfl | with_reducible apply Within.step ?_ Within.onFlt rfl | split

theorem readBacc_within : ∀ {x0 x1 x2}, Within 32768 x2 (readBacc x0 x1 x2) := by
  intros
  unfold readBacc
  repeat' first | with_reducible apply Within.refl | ((first | intro x | (lift_lets; intro x)); clear_value x) | with_reducible apply Within.step ?_ lifeAdd_within rfl | with_reducible apply Within.step ?_ Within.onFlt rfl | with_reducible apply Within.ite

theorem readAllBacc_within : ∀ {x0}, Within 32768 x0 (readAllBacc x0) := by
  intros
  unfold readAllBacc
  repeat' first | with_reducible apply Within.refl | with_reducible apply Within.step ?_ readBacc_within rfl | with_reducible apply Within.step ?_ Within.onFlt rfl | (with_reducible apply Within.step ?_ (Within.foldl (M := 32768) ?_ _ _) rfl; rotate_left; intro _ _)

theorem minuteSample_within : ∀ {x0}, Within 32768 x0 (minuteSample x0) := by
  intros
  unfold minuteSample
  repeat' first | with_reducible assumption | with_reducible apply Within.refl | ((first | intro x | (lift_lets; intro x)); refine Within.cut (t := x) ?_ ?_; rotate_left; intro hx; clear_value x; rotate_right; dsimp -zeta only [x]) | with_reducible apply Within.step ?_ lifeAdd_within rfl | with_reducible apply Within.step ?_ Within.onFlt rfl | (with_reducible apply Within.step ?_ (Within.foldl (M := 32768) ?_ _ _) rfl; rotate_left; intro _ _) | with_reducible apply Within.ite

theorem reapply_within : ∀ {x0 x1}, Within 4112 x1 (reapply x0 x1) := by
  intros
  unfold reapply
  repeat' first | with_reducible assumption | with_reducible apply Within.refl | ((first | intro x | (lift_lets; intro x)); refine Within.cut (t := x) ?_ ?_; rotate_left; intro hx; clear_value x; rotate_right; dsimp -zeta only [x]) | ((first | intro x | (lift_lets; intro x)); clear_value x) | with_reducible apply Within.step ?_ setFld_within rfl | with_reducible apply Within.step ?_ setReg_within rfl | (with_reducible apply Within.step ?_ (Within.onMem ?_) rfl; rotate_left; exact fun h => h) | (with_reducible apply Within.step ?_ (Within.foldl (M := 4112) ?_ _ _) rfl; rotate_left; intro _ _)

theorem loadLife_within : ∀ {x0}, Within 36880 x0 (loadLife x0) := by
  intros
  unfold loadLife
  repeat' first | with_reducible assumption | with_reducible apply Within.refl | ((first | intro x | (lift_lets; intro x)); refine Within.cut (t := x) ?_ ?_; rotate_left; intro hx; clear_value x; rotate_right; dsimp -zeta only [x]) | with_reducible apply Within.step ?_ lifeAdd_within rfl | with_reducible apply Within.step ?_ logEntry_within rfl | with_reducible apply Within.step ?_ reapply_within rfl | with_reducible apply Within.step ?_ setFld_within rfl | with_reducible apply Within.step ?_ setReg_within rfl | with_reducible apply Within.step ?_ Within.onFlt rfl | (with_reducible apply Within.step ?_ (Within.foldl (M := 36880) ?_ _ _) rfl; rotate_left; intro _ _) | split

/-! ### Boot -/

theorem extend_within : ∀ {x0 x1 x2}, Within 524288 x2 (extend x0 x1 x2) := by
  intros
  unfold extend
  repeat' first | with_reducible apply Within.refl | with_reducible apply Within.step ?_ Within.onFw rfl

theorem resetPackage_within : ∀ {x0}, Within 2097140 x0 (resetPackage x0) := by
  intro s
  unfold resetPackage
  dsimp only
  repeat' first | (with_reducible apply Within.step ?_ setFld_within rfl) | (with_reducible apply Within.step ?_ showHist_within rfl) | (with_reducible apply Within.step ?_ setReg_within rfl)
  constructor
  all_goals first | (intro h; exact absurd h (by decide)) | (intro _; rfl) | skip
  intro c
  exact ⟨rfl, rfl, c.host, rfl, rfl, rfl, rfl⟩

theorem showFw_within : ∀ {x0}, Within 16 x0 (showFw x0) := by
  intros
  unfold showFw
  repeat' first | with_reducible apply Within.refl | ((first | intro x | (lift_lets; intro x)); clear_value x) | with_reducible apply Within.step ?_ setReg_within rfl

theorem startImage_within : ∀ {x0 x1 x2}, Within 1609752 x2 (startImage x0 x1 x2) := by
  intros
  unfold startImage
  repeat' first | with_reducible assumption | with_reducible apply Within.refl | ((first | intro x | (lift_lets; intro x)); refine Within.cut (t := x) ?_ ?_; rotate_left; intro hx; clear_value x; rotate_right; dsimp -zeta only [x]) | with_reducible apply Within.step ?_ extend_within rfl | with_reducible apply Within.step ?_ loadLife_within rfl | with_reducible apply Within.step ?_ present_within rfl | with_reducible apply Within.step ?_ setReg64_within rfl | with_reducible apply Within.step ?_ showFw_within rfl | with_reducible apply Within.step ?_ Within.onFlt rfl | with_reducible apply Within.step ?_ Within.onFw rfl | with_reducible apply Within.step ?_ Within.onPwr rfl | with_reducible apply Within.ite | with_reducible apply Within.step ?_ (Within.set_free) rfl

theorem romBoot_within : ∀ {x0}, Within 1609752 x0 (romBoot x0) := by
  intros
  unfold romBoot
  repeat' first | with_reducible assumption | with_reducible apply Within.refl | ((first | intro x | (lift_lets; intro x)); refine Within.cut (t := x) ?_ ?_; rotate_left; intro hx; clear_value x; rotate_right; dsimp -zeta only [x]) | with_reducible apply Within.step ?_ extend_within rfl | with_reducible apply Within.step ?_ setReg_within rfl | with_reducible apply Within.step ?_ startImage_within rfl | with_reducible apply Within.step ?_ Within.onFw rfl | with_reducible apply Within.step ?_ Within.onPwr rfl | with_reducible apply Within.ite

theorem chipReset_within : ∀ {x0}, Within 2097148 x0 (chipReset x0) := by
  intros
  unfold chipReset
  repeat' first | with_reducible apply Within.refl | with_reducible apply Within.step ?_ resetPackage_within rfl | with_reducible apply Within.step ?_ romBoot_within rfl | with_reducible apply Within.step ?_ setFld_within rfl | (with_reducible apply Within.step ?_ (Within.onHost ?_) rfl; rotate_left; exact fun h => h)

/-! ### Collect -/

theorem modSrc_within : ∀ {x0 x1 x2}, Within 32768 x2 (modSrc x0 x1 x2) := by
  intros
  unfold modSrc
  repeat' first | with_reducible apply Within.refl | with_reducible apply Within.step ?_ Within.onFlt rfl

theorem replayCmd_within : ∀ {x0 x1 x2 x3}, Within 16688 x2 (replayCmd x0 x1 x2 x3) := by
  intros
  unfold replayCmd
  repeat' first | with_reducible assumption | with_reducible apply Within.refl | ((first | intro x | (lift_lets; intro x)); refine Within.cut (t := x) ?_ ?_; rotate_left; intro hx; clear_value x; rotate_right; dsimp -zeta only [x]) | ((first | intro x | (lift_lets; intro x)); clear_value x) | with_reducible apply Within.step ?_ bump_within rfl | with_reducible apply Within.step ?_ journal_within rfl | with_reducible apply Within.step ?_ modCmd_within rfl | with_reducible apply Within.ite | split

theorem crashWork_within : ∀ {x0 x1}, Within 391088 x1 (crashWork x0 x1) := by
  intros
  unfold crashWork
  repeat' first | with_reducible assumption | with_reducible apply Within.refl | ((first | intro x | (lift_lets; intro x)); refine Within.cut (t := x) ?_ ?_; rotate_left; intro hx; clear_value x; rotate_right; dsimp -zeta only [x]) | ((first | intro x | (lift_lets; intro x)); clear_value x) | with_reducible apply Within.step ?_ abandonAll_within rfl | with_reducible apply Within.step ?_ replayCmd_within rfl | with_reducible apply Within.step ?_ Within.onCmt rfl | (with_reducible apply Within.step ?_ (Within.foldl (M := 391088) ?_ _ _) rfl; rotate_left; intro _ _) | (with_reducible apply Within.step ?_ (Within.foldl_snd (M := 391088) ?_ _ _) rfl; rotate_left; intro _ _)

theorem beginShutdown_within : ∀ {x0}, Within 1073168 x0 (beginShutdown x0) := by
  intros
  unfold beginShutdown
  repeat' first | with_reducible assumption | with_reducible apply Within.refl | with_reducible apply Within.step ?_ setFld_within rfl | with_reducible apply Within.step ?_ ttlWrite_within rfl | with_reducible apply Within.step ?_ Within.onPwr rfl

theorem resumeShutdown_within : ∀ {x0}, Within 1073168 x0 (resumeShutdown x0) := by
  intros
  unfold resumeShutdown
  repeat' first | with_reducible assumption | with_reducible apply Within.refl | with_reducible apply Within.step ?_ beginShutdown_within rfl | with_reducible apply Within.ite

theorem dropUpdate_within : ∀ {x0}, Within 1597808 x0 (dropUpdate x0) := by
  intros
  unfold dropUpdate
  repeat' first | with_reducible assumption | with_reducible apply Within.refl | ((first | intro x | (lift_lets; intro x)); refine Within.cut (t := x) ?_ ?_; rotate_left; intro hx; clear_value x; rotate_right; dsimp -zeta only [x]) | with_reducible apply Within.step ?_ endFail_within rfl | with_reducible apply Within.step ?_ resumeShutdown_within rfl | with_reducible apply Within.step ?_ setFld_within rfl | (with_reducible apply Within.step ?_ (Within.onHost ?_) rfl; rotate_left; first | exact fun h => h | exact fun h => Memory.wf_memWrite h _ _) | with_reducible apply Within.step ?_ Within.onFw rfl | split

theorem crashCore_within : ∀ {x0 x1}, Within 1964016 x1 (crashCore x0 x1) := by
  intros
  unfold crashCore
  repeat' first | with_reducible assumption | with_reducible apply Within.refl | ((first | intro x | (lift_lets; intro x)); refine Within.cut (t := x) ?_ ?_; rotate_left; intro hx; clear_value x; rotate_right; dsimp -zeta only [x]) | ((first | intro x | (lift_lets; intro x)); clear_value x) | with_reducible apply Within.step ?_ crashWork_within rfl | with_reducible apply Within.step ?_ dropUpdate_within rfl | with_reducible apply Within.step ?_ setFld_within rfl | with_reducible apply Within.step ?_ Within.onFw rfl

theorem setUnavail_within : ∀ {x0 x1 x2}, Within 16 x2 (setUnavail x0 x1 x2) := by
  intros
  unfold setUnavail
  repeat' first | with_reducible apply Within.refl | with_reducible apply Within.step ?_ setFld_within rfl

theorem showTunnels_within : ∀ {x0}, Within 16 x0 (showTunnels x0) := by
  intros
  unfold showTunnels
  repeat' first | with_reducible apply Within.refl | ((first | intro x | (lift_lets; intro x)); clear_value x) | with_reducible apply Within.step ?_ setReg_within rfl

theorem resetDieRegs_within : ∀ {x0 x1}, Within 48 x1 (resetDieRegs x0 x1) := by
  intros
  unfold resetDieRegs
  repeat' first | with_reducible apply Within.refl | with_reducible apply Within.step ?_ resetRegs_within rfl | (with_reducible apply Within.step ?_ (Within.foldl (M := 48) ?_ _ _) rfl; rotate_left; intro _ _)

theorem islandPower_within : ∀ {x0 x1 x2}, Within 1049136 x2 (islandPower x0 x1 x2) := by
  intros
  unfold islandPower
  repeat' first | with_reducible assumption | with_reducible apply Within.refl | ((first | intro x | (lift_lets; intro x)); refine Within.cut (t := x) ?_ ?_; rotate_left; intro hx; clear_value x; rotate_right; dsimp -zeta only [x]) | ((first | intro x | (lift_lets; intro x)); clear_value x) | with_reducible apply Within.step ?_ modDie_within rfl | with_reducible apply Within.step ?_ resetDieRegs_within rfl | with_reducible apply Within.step ?_ restartCount_within rfl | with_reducible apply Within.step ?_ setReg_within rfl | with_reducible apply Within.ite

theorem failEdge_within : ∀ {x0 x1 x2}, Within 528 x2 (failEdge x0 x1 x2) := by
  intros
  unfold failEdge
  repeat' first | with_reducible assumption | with_reducible apply Within.refl | ((first | intro x | (lift_lets; intro x)); clear_value x) | with_reducible apply Within.step ?_ showTunnels_within rfl | (with_reducible apply Within.step ?_ (Within.onArr ?_) rfl; rotate_left; first | exact fun h => h | exact fun h => twf_tput h _ _ | exact fun h => twf_tmod h _ _) | with_reducible apply Within.ite | split

theorem recreatePan_within : ∀ {x0 x1}, Within 38552 x0 (recreatePan x0 x1) := by
  intros
  unfold recreatePan
  repeat' first | with_reducible assumption | with_reducible apply Within.refl | ((first | intro x | (lift_lets; intro x)); refine Within.cut (t := x) ?_ ?_; rotate_left; intro hx; clear_value x; rotate_right; dsimp -zeta only [x]) | with_reducible apply Within.step ?_ createPan_within rfl | with_reducible apply Within.step ?_ (startLoad_within (by with_reducible assumption)) rfl | with_reducible apply Within.ite | split | dsimp -zeta only | dsimp only

theorem trySpare_within : ∀ {x0 x1}, Within 1049136 x1 (trySpare x0 x1) := by
  intros
  unfold trySpare
  repeat' first | with_reducible apply Within.refl | with_reducible apply Within.step ?_ islandPower_within rfl | with_reducible apply Within.step ?_ Within.onPwr rfl | split

theorem swapDie_within : ∀ {x0 x1}, Within 1431536 x1 (swapDie x0 x1) := by
  intros
  unfold swapDie
  repeat' first | with_reducible assumption | with_reducible apply Within.refl | ((first | intro x | (lift_lets; intro x)); refine Within.cut (t := x) ?_ ?_; rotate_left; intro hx; clear_value x; rotate_right; dsimp -zeta only [x]) | ((first | intro x | (lift_lets; intro x)); clear_value x) | with_reducible apply Within.step ?_ islandPower_within rfl | with_reducible apply Within.step ?_ lifeAdd_within rfl | with_reducible apply Within.step ?_ modDie_within rfl | with_reducible apply Within.step ?_ readAllBacc_within rfl | with_reducible apply Within.step ?_ releasePan_within rfl | with_reducible apply Within.step ?_ setFld_within rfl | with_reducible apply Within.step ?_ setUnavail_within rfl | with_reducible apply Within.step ?_ showTunnels_within rfl | with_reducible apply Within.step ?_ trySpare_within rfl | with_reducible apply Within.step ?_ Within.onPwr rfl | (with_reducible apply Within.step ?_ (Within.foldl (M := 1431536) ?_ _ _) rfl; rotate_left; intro _ _) | with_reducible apply Within.ite | split

theorem takeTurns_within : ∀ {x0 x1}, Within 1431536 x1 (takeTurns x0 x1) := by
  intro n
  induction n with
  | zero => intro s; exact Within.refl _ _
  | succ n ih =>
    intro s
    unfold takeTurns
    dsimp only
    repeat' first | with_reducible apply Within.refl | (with_reducible apply Within.step ?_ ih rfl) | (with_reducible apply Within.step ?_ swapDie_within rfl) | (with_reducible apply Within.step ?_ Within.onPwr rfl) | with_reducible apply Within.ite | split

theorem nextSwap_within : ∀ {x0}, Within 1431536 x0 (nextSwap x0) := by
  intros
  unfold nextSwap
  repeat' first | with_reducible assumption | with_reducible apply Within.refl | with_reducible apply Within.step ?_ takeTurns_within rfl

theorem moveWindows_within : ∀ {x0 x1 x2}, Within 512 x2 (moveWindows x0 x1 x2) := by
  intros
  unfold moveWindows
  repeat' first | with_reducible apply Within.refl | ((first | intro x | (lift_lets; intro x)); clear_value x) | with_reducible apply Within.step ?_ modDie_within rfl

theorem execSpareSelfTestDone_within : ∀ {x0 x1 x2}, ∀ {t}, (execSpareSelfTestDone x0 x1 x2) = .next t → Within 1431544 x2 t := by
  intros
  rename_i h
  unfold execSpareSelfTestDone at h
  injection h with h
  subst h
  repeat' first | with_reducible assumption | with_reducible apply Within.refl | ((first | intro x | (lift_lets; intro x)); refine Within.cut (t := x) ?_ ?_; rotate_left; intro hx; clear_value x; rotate_right; dsimp -zeta only [x]) | with_reducible apply Within.step ?_ islandPower_within rfl | with_reducible apply Within.step ?_ moveWindows_within rfl | with_reducible apply Within.step ?_ nextSwap_within rfl | with_reducible apply Within.step ?_ recreatePan_within rfl | with_reducible apply Within.step ?_ setFld_within rfl | with_reducible apply Within.step ?_ setReg_within rfl | with_reducible apply Within.step ?_ setUnavail_within rfl | with_reducible apply Within.step ?_ showTunnels_within rfl | with_reducible apply Within.step ?_ trySpare_within rfl | with_reducible apply Within.step ?_ Within.onPwr rfl | (with_reducible apply Within.step ?_ (Within.foldl (M := 1431544) ?_ _ _) rfl; rotate_left; intro _ _) | with_reducible apply Within.ite | split

theorem loseTier2_within : ∀ {x0}, Within 12464 x0 (loseTier2 x0) := by
  intros
  unfold loseTier2
  repeat' first | with_reducible assumption | with_reducible apply Within.refl | ((first | intro x | (lift_lets; intro x)); refine Within.cut (t := x) ?_ ?_; rotate_left; intro hx; clear_value x; rotate_right; dsimp -zeta only [x]) | with_reducible apply Within.step ?_ bump_within rfl | with_reducible apply Within.step ?_ modCtx_within rfl | with_reducible apply Within.step ?_ setReg_within rfl | (with_reducible apply Within.step ?_ (Within.onMem ?_) rfl; rotate_left; first | exact fun h => h | exact fun h => Memory.wf_memWrite h _ _ | exact fun h => Memory.wf_memZero h _ _ | exact fun h => Memory.wf_pokeObj h | exact fun h => Memory.wf_memMove h) | (with_reducible apply Within.step ?_ (Within.onSeq ?_) rfl; rotate_left; first | exact fun h => h | exact fun h => twf_tput h _ _ | exact fun h => twf_tmod h _ _) | (with_reducible apply Within.step ?_ (Within.foldl (M := 12464) ?_ _ _) rfl; rotate_left; intro _ _) | (with_reducible apply Within.step ?_ (Within.foldl_snd (M := 12464) ?_ _ _) rfl; rotate_left; intro _ _)

theorem resetTierDie_within : ∀ {x0 x1}, Within 1048624 x1 (resetTierDie x0 x1) := by
  intros
  unfold resetTierDie
  repeat' first | with_reducible assumption | with_reducible apply Within.refl | ((first | intro x | (lift_lets; intro x)); clear_value x) | with_reducible apply Within.step ?_ resetRegs_within rfl | with_reducible apply Within.step ?_ restartCount_within rfl | with_reducible apply Within.step ?_ setFld_within rfl | (with_reducible apply Within.step ?_ (Within.foldl (M := 1048624) ?_ _ _) rfl; rotate_left; intro _ _) | with_reducible apply Within.ite

theorem blockReset_within : ∀ {x0 x1}, Within 1570808 x1 (blockReset x0 x1) := by
  intros
  unfold blockReset
  repeat' first | with_reducible assumption | with_reducible apply Within.refl | ((first | intro x | (lift_lets; intro x)); refine Within.cut (t := x) ?_ ?_; rotate_left; intro hx; clear_value x; rotate_right; dsimp -zeta only [x]) | ((first | intro x | (lift_lets; intro x)); clear_value x) | with_reducible apply Within.step ?_ lifeAdd_within rfl | with_reducible apply Within.step ?_ linkOff_within rfl | with_reducible apply Within.step ?_ linkOn_within rfl | with_reducible apply Within.step ?_ loseTier2_within rfl | with_reducible apply Within.step ?_ readAllBacc_within rfl | with_reducible apply Within.step ?_ resetTierDie_within rfl | with_reducible apply Within.step ?_ setReg_within rfl | with_reducible apply Within.step ?_ swapDie_within rfl | with_reducible apply Within.step ?_ Within.onFlt rfl | with_reducible apply Within.step ?_ Within.onPwr rfl | with_reducible apply Within.ite

theorem dropTraffic_within : ∀ {x0}, Within 131072 x0 (dropTraffic x0) := by
  intros
  unfold dropTraffic
  repeat' first | with_reducible apply Within.refl | with_reducible apply Within.step ?_ Within.onLnk rfl

theorem dropSwap_within : ∀ {x0}, Within 1049136 x0 (dropSwap x0) := by
  intros
  unfold dropSwap
  repeat' first | with_reducible assumption | with_reducible apply Within.refl | ((first | intro x | (lift_lets; intro x)); refine Within.cut (t := x) ?_ ?_; rotate_left; intro hx; clear_value x; rotate_right; dsimp -zeta only [x]) | with_reducible apply Within.step ?_ islandPower_within rfl | with_reducible apply Within.step ?_ Within.onPwr rfl | with_reducible apply Within.ite | split

theorem leaveService_within : ∀ {x0}, Within 2095088 x0 (leaveService x0) := by
  intros
  unfold leaveService
  repeat' first | with_reducible assumption | with_reducible apply Within.refl | ((first | intro x | (lift_lets; intro x)); refine Within.cut (t := x) ?_ ?_; rotate_left; intro hx; clear_value x; rotate_right; dsimp -zeta only [x]) | with_reducible apply Within.step ?_ abandonAll_within rfl | with_reducible apply Within.step ?_ dropLifeWrite_within rfl | with_reducible apply Within.step ?_ dropSwap_within rfl | with_reducible apply Within.step ?_ dropTraffic_within rfl | with_reducible apply Within.step ?_ dropUpdate_within rfl | with_reducible apply Within.step ?_ setFld_within rfl | (with_reducible apply Within.step ?_ (Within.onHost ?_) rfl; rotate_left; first | exact fun h => h | exact fun h => Memory.wf_memWrite h _ _) | with_reducible apply Within.step ?_ Within.onFlt rfl | with_reducible apply Within.step ?_ Within.onFw rfl | with_reducible apply Within.step ?_ Within.onPwr rfl

theorem stopAlive_within : ∀ {x0 x1 x2}, Within 16 x2 (stopAlive x0 x1 x2) := by
  intros
  unfold stopAlive
  repeat' first | with_reducible apply Within.refl | with_reducible apply Within.step ?_ setReg_within rfl | with_reducible apply Within.ite

theorem mayInterrupt_within : ∀ {x0 x1}, Within 32768 x1 (mayInterrupt x0 x1).2 := by
  intros
  unfold mayInterrupt
  repeat' first | with_reducible apply Within.refl | ((first | intro x | (lift_lets; intro x)); clear_value x) | with_reducible apply Within.step ?_ modSrc_within rfl

theorem signal_within : ∀ {x0 x1 x2 x3}, Within 32832 x3 (signal x0 x1 x2 x3) := by
  intros
  unfold signal
  repeat' first | with_reducible assumption | with_reducible apply Within.refl | ((first | intro x | (lift_lets; intro x)); refine Within.cut (t := x) ?_ ?_; rotate_left; intro hx; clear_value x; rotate_right; dsimp -zeta only [x]) | ((first | intro x | (lift_lets; intro x)); have hf := fun a => x a; clear hf; subst x) | ((first | intro x | (lift_lets; intro x)); clear_value x) | with_reducible apply Within.step ?_ mayInterrupt_within rfl | with_reducible apply Within.step ?_ raiseIrq_within rfl | with_reducible apply Within.step ?_ Within.onFlt rfl | with_reducible apply Within.ite

theorem countSram_within : ∀ {x0 x1 x2}, Within 32768 x2 (countSram x0 x1 x2) := by
  intros
  unfold countSram
  repeat' first | with_reducible apply Within.refl | with_reducible apply Within.step ?_ lifeAdd_within rfl | with_reducible apply Within.ite

theorem contain_within : ∀ {x0 x1 x2 x3 x4}, Within 2095096 x4 (contain x0 x1 x2 x3 x4) := by
  intros
  unfold contain
  repeat' first | with_reducible assumption | with_reducible apply Within.refl | ((first | intro x | (lift_lets; intro x)); refine Within.cut (t := x) ?_ ?_; rotate_left; intro hx; clear_value x; rotate_right; dsimp -zeta only [x]) | with_reducible apply Within.step ?_ abortPan_within rfl | with_reducible apply Within.step ?_ blockReset_within rfl | with_reducible apply Within.step ?_ crashCore_within rfl | (with_reducible apply Within.step ?_ (Within.foldl (M := 2095096) ?_ _ _) rfl; rotate_left; intro _ _) | with_reducible apply Within.ite

theorem strike_within : ∀ {x0 x1 x2 x3}, Within 2097148 x3 (strike x0 x1 x2 x3) := by
  intros
  unfold strike
  repeat' first | with_reducible assumption | with_reducible apply Within.refl | ((first | intro x | (lift_lets; intro x)); refine Within.cut (t := x) ?_ ?_; rotate_left; intro hx; clear_value x; rotate_right; dsimp -zeta only [x]) | with_reducible apply Within.step ?_ blockReset_within rfl | with_reducible apply Within.step ?_ bump_within rfl | with_reducible apply Within.step ?_ chipReset_within rfl | with_reducible apply Within.step ?_ leaveService_within rfl | with_reducible apply Within.step ?_ setReg_within rfl | with_reducible apply Within.step ?_ stopAlive_within rfl | with_reducible apply Within.ite

theorem collect_within : ∀ {x0 x1 x2}, Within 2097148 x2 (collect x0 x1 x2) := by
  intros
  unfold collect
  repeat' first | with_reducible assumption | with_reducible apply Within.refl | ((first | intro x | (lift_lets; intro x)); refine Within.cut (t := x) ?_ ?_; rotate_left; intro hx; clear_value x; rotate_right; dsimp -zeta only [x]) | ((first | intro x | (lift_lets; intro x)); clear_value x) | with_reducible apply Within.step ?_ contain_within rfl | with_reducible apply Within.step ?_ countSram_within rfl | with_reducible apply Within.step ?_ logEntry_within rfl | with_reducible apply Within.step ?_ modSrc_within rfl | with_reducible apply Within.step ?_ record_within rfl | with_reducible apply Within.step ?_ signal_within rfl | with_reducible apply Within.step ?_ strike_within rfl | with_reducible apply Within.ite | split

theorem takeEvent_within : ∀ {x0 x1}, Within 32768 x1 (takeEvent x0 x1) := by
  intros
  unfold takeEvent
  repeat' first | with_reducible apply Within.refl | with_reducible apply Within.step ?_ Within.onFlt rfl

theorem execFaultEvent_within : ∀ {x0 x1}, ∀ {t}, (execFaultEvent x0 x1) = .next t → Within 2097148 x1 t := by
  intros
  rename_i h
  unfold execFaultEvent at h
  injection h with h
  subst h
  repeat' first | with_reducible assumption | with_reducible apply Within.refl | with_reducible apply Within.step ?_ collect_within rfl | with_reducible apply Within.step ?_ failEdge_within rfl | with_reducible apply Within.step ?_ takeEvent_within rfl | with_reducible apply Within.ite

end Sys2Proof.Machine
end

