-- ==== Sys2Proof/Laws/WithinModels.lean ====
section
/-! SUPPORT. What each operation may touch: objects, models, collectives, shards, streams and embedding tables. -/

namespace Sys2Proof.Machine

theorem Memory.wf_poke {s : State} {t : Stream} {k : Nat} {bs : List Byte} {m : Mem} (h : Memory.wf m = true) :
    Memory.wf (t.poke s k bs m) = true := by
  unfold Stream.poke
  exact Memory.wf_foldl (fun m x k => by split <;> first | exact twf_tput k _ _ | exact k) h

/-! ### Objects -/

theorem execObjCreate_within : ∀ {x0 x1}, ∀ {t}, (execObjCreate x0 x1) = .next t → Within 20912 x1 t := by
  intros
  rename_i h
  unfold execObjCreate at h
  injection h with h
  subst h
  repeat' first | with_reducible apply Within.refl | ((first | intro x | (lift_lets; intro x)); clear_value x) | (with_reducible apply Within.step ?_ (startCmd_within (M := 20912) ?_ rfl) rfl; rotate_left; intro _ _) | with_reducible apply Within.step ?_ charge_within rfl | with_reducible apply Within.step ?_ endFail_within rfl | with_reducible apply Within.step ?_ endOk_within rfl | with_reducible apply Within.step ?_ putObj_within rfl | with_reducible apply Within.step ?_ takeBlocks_within rfl | split | dsimp only

theorem execObjFree_within : ∀ {x0 x1}, ∀ {t}, (execObjFree x0 x1) = .next t → Within 16816 x1 t := by
  intros
  rename_i h
  unfold execObjFree at h
  injection h with h
  subst h
  repeat' first | with_reducible apply Within.refl | ((first | intro x | (lift_lets; intro x)); clear_value x) | (with_reducible apply Within.step ?_ (startCmd_within (M := 16816) ?_ rfl) rfl; rotate_left; intro _ _) | with_reducible apply Within.step ?_ endFail_within rfl | with_reducible apply Within.step ?_ modObj_within rfl | split

theorem execObjFreeRelease_within : ∀ {x0 x1 x2}, ∀ {t}, (execObjFreeRelease x0 x1 x2) = .next t → Within 53680 x2 t := by
  intros
  rename_i h
  unfold execObjFreeRelease at h
  injection h with h
  subst h
  repeat' first | with_reducible assumption | with_reducible apply Within.refl | ((first | intro x | (lift_lets; intro x)); refine Within.cut (t := x) ?_ ?_; rotate_left; intro hx; clear_value x; rotate_right; dsimp -zeta only [x]) | with_reducible apply Within.step ?_ dropAlias_within rfl | with_reducible apply Within.step ?_ dropObj_within rfl | with_reducible apply Within.step ?_ endOk_within rfl | with_reducible apply Within.step ?_ modObj_within rfl | with_reducible apply Within.ite | split

theorem execObjPlace_within : ∀ {x0 x1}, ∀ {t}, (execObjPlace x0 x1) = .next t → Within 20912 x1 t := by
  intros
  rename_i h
  unfold execObjPlace at h
  injection h with h
  subst h
  with_reducible apply Within.step ?_ (startHeld_within (M := 20912) ?_ rfl) rfl
  · with_reducible apply Within.refl
  intro m s
  dsimp only
  split
  · exact endFail_within.step' (Within.refl _ _) rfl
  · repeat' with_reducible apply Within.ite
    all_goals first | exact endFail_within.step' (Within.refl _ _) rfl | exact endWith_within.step' (Within.refl _ _) rfl | exact endOk_within.step' (Within.refl _ _) rfl | skip
    split
    · with_reducible apply Within.step ?_ modObj_within rfl
      with_reducible apply Within.step ?_ charge_within rfl
      with_reducible apply Within.step ?_ takeBlocks_within rfl
      exact (Within.refl _ _).step (takeFrames_within (by with_reducible assumption)) rfl
    · exact endFail_within.step' (Within.refl _ _) rfl

theorem moveKv_within : ∀ {x0 x1 x2 x3 x4}, Within 8320 x4 (moveKv x0 x1 x2 x3 x4) := by
  intros
  unfold moveKv
  repeat' first | with_reducible assumption | with_reducible apply Within.refl | ((first | intro x | (lift_lets; intro x)); have hf := fun a => x a; clear hf; subst x) | with_reducible apply Within.step ?_ modCtx_within rfl | with_reducible apply Within.step ?_ modEntry_within rfl | (with_reducible apply Within.step ?_ (Within.foldl (M := 8320) ?_ _ _) rfl; rotate_left; intro _ _) | (with_reducible apply Within.step ?_ (Within.foldl_snd (M := 8320) ?_ _ _) rfl; rotate_left; intro _ _)

theorem execObjMoveDone_within : ∀ {x0 x1 x2}, ∀ {t}, (execObjMoveDone x0 x1 x2) = .next t → Within 127408 x2 t := by
  intros
  rename_i h
  unfold execObjMoveDone at h
  injection h with h
  subst h
  repeat' first | with_reducible assumption | with_reducible apply Within.refl | ((first | intro x | (lift_lets; intro x)); refine Within.cut (t := x) ?_ ?_; rotate_left; intro hx; clear_value x; rotate_right; dsimp -zeta only [x]) | ((first | intro x | (lift_lets; intro x)); clear_value x) | with_reducible apply Within.step ?_ endOk_within rfl | with_reducible apply Within.step ?_ modObj_within rfl | with_reducible apply Within.step ?_ moveKv_within rfl | with_reducible apply Within.step ?_ reapOld_within rfl | with_reducible apply Within.step ?_ refreshSlots_within rfl | (with_reducible apply Within.step ?_ (Within.onMem ?_) rfl; rotate_left; first | exact fun h => h | exact fun h => Memory.wf_memWrite h _ _ | exact fun h => Memory.wf_memZero h _ _ | exact fun h => Memory.wf_pokeObj h | exact fun h => Memory.wf_memMove h | exact fun h => Memory.wf_pokeInput h | exact fun h => Memory.wf_pokeInput (Memory.wf_bringPages h) | exact fun h => Memory.wf_writeArchive h | exact fun h => Memory.wf_foldl (fun m x k => Memory.wf_memZero k _ _) h | exact fun h => Memory.wf_foldl (fun m x k => Memory.wf_memWrite k _ _) h) | with_reducible apply Within.ite | split

theorem execObjWriteHost_within : ∀ {x0 x1 x2}, ∀ {t}, (execObjWriteHost x0 x1 x2) = .next t → Within 20912 x2 t := by
  intros
  rename_i h
  unfold execObjWriteHost at h
  injection h with h
  subst h
  repeat' first | with_reducible assumption | with_reducible apply Within.refl | ((first | intro x | (lift_lets; intro x)); refine Within.cut (t := x.2) ?_ ?_; rotate_left; intro hx; clear_value x; rotate_right; dsimp -zeta only [x]) | ((first | intro x | (lift_lets; intro x)); clear_value x) | (with_reducible apply Within.step ?_ (startHeld_within (M := 20912) ?_ rfl) rfl; rotate_left; intro _ _) | with_reducible apply Within.step ?_ endFail_within rfl | with_reducible apply Within.step ?_ endOk_within rfl | with_reducible apply Within.step ?_ endWith_within rfl | with_reducible apply Within.step ?_ writeObj_within rfl | with_reducible apply Within.ite | split

theorem execObjReadHost_within : ∀ {x0 x1}, ∀ {t}, (execObjReadHost x0 x1) = .next t → Within 16752 x1 t := by
  intros
  rename_i h
  unfold execObjReadHost at h
  injection h with h
  subst h
  repeat' first | with_reducible apply Within.refl | ((first | intro x | (lift_lets; intro x)); clear_value x) | (with_reducible apply Within.step ?_ (startHeld_within (M := 16752) ?_ rfl) rfl; rotate_left; intro _ _) | with_reducible apply Within.step ?_ dmaWrite_within rfl | with_reducible apply Within.step ?_ endFail_within rfl | with_reducible apply Within.step ?_ endOk_within rfl | with_reducible apply Within.ite | split

theorem movedBefore_within : ∀ {x0 x1 x2}, ∀ {t}, (movedBefore x0 x1 x2) = some t → Within 4288 x2 t := by
  intros
  rename_i h
  unfold movedBefore at h
  try dsimp only at h
  repeat' split at h
  all_goals (first | (cases h; done) | (obtain ⟨b, h1, h2⟩ := Option.map_eq_some_iff.1 h; subst h2; repeat' first | with_reducible assumption | with_reducible apply Within.refl | ((first | intro x | (lift_lets; intro x)); refine Within.cut (t := x) ?_ ?_; rotate_left; intro hx; clear_value x; rotate_right; dsimp -zeta only [x]) | ((first | intro x | (lift_lets; intro x)); refine Within.cut (t := x.2) ?_ ?_; rotate_left; intro hx; clear_value x; rotate_right; dsimp -zeta only [x]) | ((first | intro x | (lift_lets; intro x)); have hf := fun a => x a; clear hf; subst x) | ((first | intro x | (lift_lets; intro x)); have hf : _ × Mem := x; clear hf) | ((first | intro x | (lift_lets; intro x)); have hf : Option State := x; clear hf) | ((first | intro x | (lift_lets; intro x)); have hf : Option (_ × State) := x; clear hf) | ((first | intro x | (lift_lets; intro x)); clear_value x) | with_reducible apply Within.step ?_ dmaWrite_within rfl | with_reducible apply Within.step ?_ writeObj_within rfl | with_reducible apply Within.ite | split | dsimp -zeta only | dsimp only | dsimp -zeta only at *) | (have h2 := Option.some.inj h; subst h2; repeat' first | with_reducible assumption | with_reducible apply Within.refl | ((first | intro x | (lift_lets; intro x)); refine Within.cut (t := x) ?_ ?_; rotate_left; intro hx; clear_value x; rotate_right; dsimp -zeta only [x]) | ((first | intro x | (lift_lets; intro x)); refine Within.cut (t := x.2) ?_ ?_; rotate_left; intro hx; clear_value x; rotate_right; dsimp -zeta only [x]) | ((first | intro x | (lift_lets; intro x)); have hf := fun a => x a; clear hf; subst x) | ((first | intro x | (lift_lets; intro x)); have hf : _ × Mem := x; clear hf) | ((first | intro x | (lift_lets; intro x)); have hf : Option State := x; clear hf) | ((first | intro x | (lift_lets; intro x)); have hf : Option (_ × State) := x; clear hf) | ((first | intro x | (lift_lets; intro x)); clear_value x) | with_reducible apply Within.step ?_ dmaWrite_within rfl | with_reducible apply Within.step ?_ writeObj_within rfl | with_reducible apply Within.ite | split | dsimp -zeta only | dsimp only | dsimp -zeta only at *))

theorem execDmaFault_within : ∀ {x0 x1}, ∀ {t}, (execDmaFault x0 x1) = .next t → Within 20976 x1 t := by
  intros
  rename_i h
  unfold execDmaFault at h
  injection h with h
  subst h
  repeat' first | with_reducible assumption | with_reducible apply Within.refl | with_reducible apply Within.step ?_ endFail_within rfl | with_reducible apply Within.step ?_ endWith_within rfl | with_reducible apply Within.step ?_ markStarted_within rfl | with_reducible apply Within.step ?_ modCtx_within rfl | with_reducible apply Within.step ?_ (movedBefore_within (by with_reducible assumption)) rfl | with_reducible apply Within.step ?_ stopQueue_within rfl | with_reducible apply Within.ite | split

theorem execObjCopy_within : ∀ {x0 x1}, ∀ {t}, (execObjCopy x0 x1) = .next t → Within 20784 x1 t := by
  intros
  rename_i h
  unfold execObjCopy at h
  injection h with h
  subst h
  repeat' first | with_reducible apply Within.refl | ((first | intro x | (lift_lets; intro x)); clear_value x) | (with_reducible apply Within.step ?_ (startHeld_within (M := 20784) ?_ rfl) rfl; rotate_left; intro _ _) | with_reducible apply Within.step ?_ endFail_within rfl | with_reducible apply Within.step ?_ endOk_within rfl | (with_reducible apply Within.step ?_ (Within.onMem ?_) rfl; rotate_left; exact fun h => h) | with_reducible apply Within.ite | split

theorem execObjShare_within : ∀ {x0 x1}, ∀ {t}, (execObjShare x0 x1) = .next t → Within 16816 x1 t := by
  intros
  rename_i h
  unfold execObjShare at h
  injection h with h
  subst h
  repeat' first | with_reducible assumption | with_reducible apply Within.refl | ((first | intro x | (lift_lets; intro x)); refine Within.cut (t := x) ?_ ?_; rotate_left; intro hx; clear_value x; rotate_right; dsimp -zeta only [x]) | ((first | intro x | (lift_lets; intro x)); clear_value x) | (with_reducible apply Within.step ?_ (startCmd_within (M := 16816) ?_ rfl) rfl; rotate_left; intro _ _) | with_reducible apply Within.step ?_ endFail_within rfl | with_reducible apply Within.step ?_ endOk_within rfl | with_reducible apply Within.step ?_ modObj_within rfl | with_reducible apply Within.step ?_ putObj_within rfl | with_reducible apply Within.ite | split

theorem execCtxSetQuota_within : ∀ {x0 x1}, ∀ {t}, (execCtxSetQuota x0 x1) = .next t → Within 53680 x1 t := by
  intros
  rename_i h
  unfold execCtxSetQuota at h
  injection h with h
  subst h
  repeat' first | with_reducible assumption | with_reducible apply Within.refl | ((first | intro x | (lift_lets; intro x)); refine Within.cut (t := x) ?_ ?_; rotate_left; intro hx; clear_value x; rotate_right; dsimp -zeta only [x]) | ((first | intro x | (lift_lets; intro x)); clear_value x) | with_reducible apply Within.step ?_ endFail_within rfl | with_reducible apply Within.step ?_ endOk_within rfl | with_reducible apply Within.step ?_ freeTable_within rfl | with_reducible apply Within.step ?_ modCtx_within rfl | with_reducible apply Within.step ?_ placeTable_within rfl | (with_reducible apply Within.step ?_ (startCmd_within (M := 53680) ?_ rfl) rfl; rotate_left; intro _ _) | with_reducible apply Within.ite

/-! ### Models -/

theorem enterImport_within : ∀ {x0 x1 x2 x3 x4}, ∀ {t}, (enterImport x0 x1 x2 x3 x4) = some t → Within 69760 x4 t := by
  intros
  rename_i h
  unfold enterImport at h
  try dsimp only at h
  repeat' split at h
  all_goals (first | (obtain ⟨b, h1, h2⟩ := Option.map_eq_some_iff.1 h; subst h2; repeat' first | with_reducible apply Within.refl | with_reducible apply Within.step ?_ modCtx_within rfl | with_reducible apply Within.step ?_ modModel_within rfl | with_reducible apply Within.step ?_ modObj_within rfl | with_reducible apply Within.step ?_ takeBlocks_within rfl | (with_reducible apply Within.step ?_ (Within.foldl (M := 69760) ?_ _ _) rfl; rotate_left; intro _ _) | with_reducible apply Within.ite) | (have h2 := Option.some.inj h; subst h2; repeat' first | with_reducible apply Within.refl | with_reducible apply Within.step ?_ modCtx_within rfl | with_reducible apply Within.step ?_ modModel_within rfl | with_reducible apply Within.step ?_ modObj_within rfl | with_reducible apply Within.step ?_ takeBlocks_within rfl | (with_reducible apply Within.step ?_ (Within.foldl (M := 69760) ?_ _ _) rfl; rotate_left; intro _ _) | with_reducible apply Within.ite))

theorem execModelImport_within : ∀ {x0 x1}, ∀ {t}, (execModelImport x0 x1) = .next t → Within 250296 x1 t := by
  intros
  rename_i h
  unfold execModelImport at h
  injection h with h
  subst h
  repeat' first | with_reducible apply Within.refl | ((first | intro x | (lift_lets; intro x)); clear_value x) | (with_reducible apply Within.step ?_ (startCmd_within (M := 250296) ?_ rfl) rfl; rotate_left; intro _ _) | with_reducible apply Within.step ?_ endFail_within rfl | with_reducible apply Within.step ?_ endOk_within rfl | with_reducible apply Within.step ?_ (enterImport_within (by with_reducible assumption)) rfl | with_reducible apply Within.step ?_ sendFrame_within rfl | with_reducible apply Within.step ?_ Within.onMdl rfl | with_reducible apply Within.ite | split | dsimp -zeta only | dsimp only

theorem switchLoads_within : ∀ {x0 x1 x2 x3 x4}, ∀ {t}, (switchLoads x0 x1 x2 x3 x4) = .inr t → Within 38544 x4 t := by
  intro c e b l
  induction l with
  | nil => intro s t h; cases h; exact Within.refl _ _
  | cons x l ih =>
    intro s t h
    obtain ⟨n, p, g⟩ := x
    unfold switchLoads at h
    dsimp only at h
    split at h
    · cases h
    · exact (startLoad_within (by assumption)).step' (ih h) rfl

theorem execModelSwitch_within : ∀ {x0 x1}, ∀ {t}, (execModelSwitch x0 x1) = .next t → Within 120752 x1 t := by
  intros
  rename_i h
  unfold execModelSwitch at h
  injection h with h
  subst h
  repeat' first | with_reducible assumption | with_reducible apply Within.refl | ((first | intro x | (lift_lets; intro x)); refine Within.cut (t := x) ?_ ?_; rotate_left; intro hx; clear_value x; rotate_right; dsimp -zeta only [x]) | ((first | intro x | (lift_lets; intro x)); clear_value x) | with_reducible apply Within.step ?_ endFail_within rfl | with_reducible apply Within.step ?_ modModel_within rfl | (with_reducible apply Within.step ?_ (startCmd_within (M := 120752) ?_ rfl) rfl; rotate_left; intro _ _) | with_reducible apply Within.step ?_ (switchLoads_within (by with_reducible assumption)) rfl | split

theorem execModelVersionFlip_within : ∀ {x0 x1}, ∀ {t}, (execModelVersionFlip x0 x1) = .next t → Within 94512 x1 t := by
  intros
  rename_i h
  unfold execModelVersionFlip at h
  injection h with h
  subst h
  repeat' first | with_reducible assumption | with_reducible apply Within.refl | ((first | intro x | (lift_lets; intro x)); refine Within.cut (t := x) ?_ ?_; rotate_left; intro hx; clear_value x; rotate_right; dsimp -zeta only [x]) | ((first | intro x | (lift_lets; intro x)); clear_value x) | with_reducible apply Within.step ?_ dropDrafts_within rfl | with_reducible apply Within.step ?_ modEntry_within rfl | with_reducible apply Within.step ?_ modModel_within rfl | with_reducible apply Within.step ?_ settleSwitch_within rfl | (with_reducible apply Within.step ?_ (Within.foldl (M := 94512) ?_ _ _) rfl; rotate_left; intro _ _) | with_reducible apply Within.ite | split

theorem execModelEvict_within : ∀ {x0 x1}, ∀ {t}, (execModelEvict x0 x1) = .next t → Within 82224 x1 t := by
  intros
  rename_i h
  unfold execModelEvict at h
  injection h with h
  subst h
  repeat' first | with_reducible apply Within.refl | ((first | intro x | (lift_lets; intro x)); clear_value x) | (with_reducible apply Within.step ?_ (startHeld_within (M := 82224) ?_ rfl) rfl; rotate_left; intro _ _) | with_reducible apply Within.step ?_ endFail_within rfl | with_reducible apply Within.step ?_ endOk_within rfl | with_reducible apply Within.step ?_ modModel_within rfl | with_reducible apply Within.ite

theorem execExitPolicy_within : ∀ {x0 x1}, ∀ {t}, (execExitPolicy x0 x1) = .next t → Within 90416 x1 t := by
  intros
  rename_i h
  unfold execExitPolicy at h
  injection h with h
  subst h
  repeat' first | with_reducible assumption | with_reducible apply Within.refl | ((first | intro x | (lift_lets; intro x)); refine Within.cut (t := x) ?_ ?_; rotate_left; intro hx; clear_value x; rotate_right; dsimp -zeta only [x]) | ((first | intro x | (lift_lets; intro x)); clear_value x) | (with_reducible apply Within.step ?_ (startCmd_within (M := 90416) ?_ rfl) rfl; rotate_left; intro _ _) | with_reducible apply Within.step ?_ endFail_within rfl | with_reducible apply Within.step ?_ endOk_within rfl | with_reducible apply Within.step ?_ modEntry_within rfl | with_reducible apply Within.step ?_ modModel_within rfl | with_reducible apply Within.ite | split

theorem execAdpLoad_within : ∀ {x0 x1}, ∀ {t}, (execAdpLoad x0 x1) = .next t → Within 82224 x1 t := by
  intros
  rename_i h
  unfold execAdpLoad at h
  injection h with h
  subst h
  repeat' first | with_reducible assumption | with_reducible apply Within.refl | ((first | intro x | (lift_lets; intro x)); refine Within.cut (t := x) ?_ ?_; rotate_left; intro hx; clear_value x; rotate_right; dsimp -zeta only [x]) | ((first | intro x | (lift_lets; intro x)); clear_value x) | (with_reducible apply Within.step ?_ (startHeld_within (M := 82224) ?_ rfl) rfl; rotate_left; intro _ _) | with_reducible apply Within.step ?_ bump_within rfl | with_reducible apply Within.step ?_ endFail_within rfl | with_reducible apply Within.step ?_ endOk_within rfl | with_reducible apply Within.step ?_ modSlot_within rfl | split

theorem execAdpUnload_within : ∀ {x0 x1}, ∀ {t}, (execAdpUnload x0 x1) = .next t → Within 82224 x1 t := by
  intros
  rename_i h
  unfold execAdpUnload at h
  injection h with h
  subst h
  repeat' first | with_reducible apply Within.refl | ((first | intro x | (lift_lets; intro x)); clear_value x) | (with_reducible apply Within.step ?_ (startHeld_within (M := 82224) ?_ rfl) rfl; rotate_left; intro _ _) | with_reducible apply Within.step ?_ endFail_within rfl | with_reducible apply Within.step ?_ modSlot_within rfl | with_reducible apply Within.step ?_ settleSlots_within rfl | with_reducible apply Within.ite

theorem execAdpBind_within : ∀ {x0 x1}, ∀ {t}, (execAdpBind x0 x1) = .next t → Within 24880 x1 t := by
  intros
  rename_i h
  unfold execAdpBind at h
  injection h with h
  subst h
  repeat' first | with_reducible apply Within.refl | ((first | intro x | (lift_lets; intro x)); clear_value x) | (with_reducible apply Within.step ?_ (startCmd_within (M := 24880) ?_ rfl) rfl; rotate_left; intro _ _) | with_reducible apply Within.step ?_ endFail_within rfl | with_reducible apply Within.step ?_ endOk_within rfl | with_reducible apply Within.step ?_ modEntry_within rfl | with_reducible apply Within.ite | split

theorem execSteerSet_within : ∀ {x0 x1 x2}, ∀ {t}, (execSteerSet x0 x1 x2) = .next t → Within 86320 x2 t := by
  intros
  rename_i h
  unfold execSteerSet at h
  injection h with h
  subst h
  repeat' first | with_reducible assumption | with_reducible apply Within.refl | ((first | intro x | (lift_lets; intro x)); refine Within.cut (t := x) ?_ ?_; rotate_left; intro hx; clear_value x; rotate_right; dsimp -zeta only [x]) | ((first | intro x | (lift_lets; intro x)); clear_value x) | with_reducible apply Within.step ?_ bump_within rfl | with_reducible apply Within.step ?_ endFail_within rfl | with_reducible apply Within.step ?_ endOk_within rfl | with_reducible apply Within.step ?_ modModel_within rfl | (with_reducible apply Within.step ?_ (startHeld_within (M := 86320) ?_ rfl) rfl; rotate_left; intro _ _) | (with_reducible apply Within.step ?_ (Within.onMem ?_) rfl; rotate_left; first | exact fun h => h | exact fun h => Memory.wf_memWrite h _ _ | exact fun h => Memory.wf_memZero h _ _ | exact fun h => Memory.wf_pokeObj h | exact fun h => Memory.wf_memMove h | exact fun h => Memory.wf_pokeInput h | exact fun h => Memory.wf_pokeInput (Memory.wf_bringPages h) | exact fun h => Memory.wf_writeArchive h | exact fun h => Memory.wf_foldl (fun m x k => Memory.wf_memZero k _ _) h | exact fun h => Memory.wf_foldl (fun m x k => Memory.wf_memWrite k _ _) h) | with_reducible apply Within.ite

/-! ### Collective -/

theorem sendMsg_within : ∀ {x0 x1 x2 x3 x4 x5}, Within 131080 x5 (sendMsg x0 x1 x2 x3 x4 x5) := by
  intros
  unfold sendMsg
  repeat' first | with_reducible assumption | with_reducible apply Within.refl | ((first | intro x | (lift_lets; intro x)); refine Within.cut (t := x.2) ?_ ?_; rotate_left; intro hx; clear_value x; rotate_right; dsimp -zeta only [x]) | ((first | intro x | (lift_lets; intro x)); clear_value x) | with_reducible apply Within.step ?_ newFlow_within rfl | with_reducible apply Within.step ?_ sendFrame_within rfl | (with_reducible apply Within.step ?_ (Within.foldl (M := 131080) ?_ _ _) rfl; rotate_left; intro _ _)

theorem keepMsg_within : ∀ {x0 x1 x2 x3 x4}, Within 131072 x4 (keepMsg x0 x1 x2 x3 x4) := by
  intros
  unfold keepMsg
  repeat' first | with_reducible apply Within.refl | ((first | intro x | (lift_lets; intro x)); clear_value x) | with_reducible apply Within.step ?_ Within.onLnk rfl

theorem takeMsg_within : ∀ {x0 x1}, Within 131072 x1 (takeMsg x0 x1) := by
  intros
  unfold takeMsg
  repeat' first | with_reducible apply Within.refl | with_reducible apply Within.step ?_ Within.onLnk rfl

theorem Coll.put_within : ∀ {x0 x1 x2 x3}, Within 4224 x3 (Coll.put x0 x1 x2 x3).2 := by
  intros
  unfold Coll.put
  repeat' first | with_reducible assumption | with_reducible apply Within.refl | with_reducible apply Within.step ?_ writeObj_within rfl

theorem Coll_put_within : ∀ {x0 x1 x2 x3}, Within 4224 x3 (Coll.put x0 x1 x2 x3).2 := by
  intros
  unfold Coll.put
  repeat' first | with_reducible apply Within.refl | with_reducible apply Within.step ?_ writeObj_within rfl

theorem ringPart_within : ∀ {x0 x1 x2}, ∀ {y t}, (ringPart x0 x1 x2) = some (y, t) → Within 131080 x2 t := by
  intros
  rename_i h
  unfold ringPart at h
  try dsimp only at h
  repeat' split at h
  all_goals (obtain ⟨b, h1, h2⟩ := Option.map_eq_some_iff.1 h; have h3 := congrArg Prod.snd h2; dsimp only at h3; subst h3; repeat' first | with_reducible apply Within.refl | with_reducible apply Within.step ?_ keepMsg_within rfl | with_reducible apply Within.step ?_ sendMsg_within rfl)

theorem treePart_within : ∀ {x0 x1 x2}, ∀ {y t}, (treePart x0 x1 x2) = some (y, t) → Within 135304 x2 t := by
  intros
  rename_i h
  unfold treePart at h
  try dsimp only at h
  repeat' split at h
  all_goals (first | (cases h; done) | (have h2 := congrArg Prod.snd (Option.some.inj h); dsimp only at h2; subst h2; repeat' first | with_reducible apply Within.refl | with_reducible apply Within.step ?_ Coll_put_within rfl | with_reducible apply Within.step ?_ keepMsg_within rfl | with_reducible apply Within.step ?_ sendMsg_within rfl))

theorem gatherPart_within : ∀ {x0 x1 x2}, ∀ {y t}, (gatherPart x0 x1 x2) = some (y, t) → Within 135304 x2 t := by
  intros
  rename_i h
  unfold gatherPart at h
  try dsimp only at h
  repeat' split at h
  all_goals (obtain ⟨b, h1, h2⟩ := Option.map_eq_some_iff.1 h; have h3 := congrArg Prod.snd h2; dsimp only at h3; subst h3; repeat' first | with_reducible apply Within.refl | with_reducible apply Within.step ?_ Coll_put_within rfl | with_reducible apply Within.step ?_ sendMsg_within rfl | (with_reducible apply Within.step ?_ (Within.foldl (M := 135304) ?_ _ _) rfl; rotate_left; intro _ _))

theorem blocksOut_within : ∀ {x0 x1}, Within 135304 x1 (blocksOut x0 x1).2 := by
  intros
  unfold blocksOut
  repeat' first | with_reducible assumption | with_reducible apply Within.refl | ((first | intro x | (lift_lets; intro x)); refine Within.cut (t := x.2) ?_ ?_; rotate_left; intro hx; clear_value x; rotate_right; dsimp -zeta only [x]) | ((first | intro x | (lift_lets; intro x)); clear_value x) | with_reducible apply Within.step ?_ Coll_put_within rfl | with_reducible apply Within.step ?_ sendMsg_within rfl | (with_reducible apply Within.step ?_ (Within.foldl (M := 135304) ?_ _ _) rfl; rotate_left; intro _ _)

theorem blockIn_within : ∀ {x0 x1 x2}, ∀ {y t}, (blockIn x0 x1 x2) = some (y, t) → Within 4224 x2 t := by
  intros
  rename_i h
  unfold blockIn at h
  try dsimp only at h
  repeat' split at h
  all_goals (first | (cases h; done) | (have h2 := congrArg Prod.snd (Option.some.inj h); dsimp only at h2; subst h2; repeat' first | with_reducible apply Within.refl | with_reducible apply Within.step ?_ Coll_put_within rfl))

theorem castPart_within : ∀ {x0 x1}, ∀ {y t}, (castPart x0 x1) = some (y, t) → Within 135304 x1 t := by
  intros
  rename_i h
  unfold castPart at h
  try dsimp only at h
  repeat' split at h
  all_goals (obtain ⟨b, h1, h2⟩ := Option.map_eq_some_iff.1 h; have h3 := congrArg Prod.snd h2; dsimp only at h3; subst h3; repeat' first | with_reducible apply Within.refl | with_reducible apply Within.step ?_ Coll_put_within rfl | with_reducible apply Within.step ?_ sendMsg_within rfl | (with_reducible apply Within.step ?_ (Within.foldl (M := 135304) ?_ _ _) rfl; rotate_left; intro _ _))

theorem doPart_within : ∀ {x0 x1 x2}, ∀ {y t}, (doPart x0 x1 x2) = some (y, t) → Within 135304 x2 t := by
  intros
  rename_i h
  unfold doPart at h
  try dsimp only at h
  repeat' split at h
  all_goals (first | (exact Within.step (Within.refl _ _) (blockIn_within h) rfl) | (exact Within.step (Within.refl _ _) (castPart_within h) rfl) | (exact Within.step (Within.refl _ _) (gatherPart_within h) rfl) | (exact Within.step (Within.refl _ _) (ringPart_within h) rfl) | (exact Within.step (Within.refl _ _) (treePart_within h) rfl) | (have h2 := congrArg Prod.snd (Option.some.inj h); dsimp only at h2; subst h2; repeat' first | with_reducible apply Within.refl | with_reducible apply Within.step ?_ blocksOut_within rfl))

theorem runParts_within : ∀ {x0 x1 x2}, Within 135304 x2.2.2 (runParts x0 x1 x2).2.2 := by
  intro g l
  induction l with
  | nil => intro a; exact Within.refl _ _
  | cons x l ih =>
    intro a
    unfold runParts
    split
    · exact ih
    · split
      · exact (doPart_within (by assumption)).step' ih rfl
      · exact ih

theorem dropColl_within : ∀ {x0 x1}, Within 131072 x1 (dropColl x0 x1) := by
  intros
  unfold dropColl
  repeat' first | with_reducible apply Within.refl | with_reducible apply Within.step ?_ Within.onLnk rfl

theorem advanceColl_within : ∀ {x0 x1}, Within 151992 x1 (advanceColl x0 x1) := by
  intros
  unfold advanceColl
  repeat' first | with_reducible assumption | with_reducible apply Within.refl | ((first | intro x | (lift_lets; intro x)); refine Within.cut (t := x.2.2) ?_ ?_; rotate_left; intro hx; clear_value x; rotate_right; dsimp -zeta only [x]) | with_reducible apply Within.step ?_ dropColl_within rfl | with_reducible apply Within.step ?_ endOk_within rfl | with_reducible apply Within.step ?_ endWith_within rfl | with_reducible apply Within.step ?_ runParts_within rfl | with_reducible apply Within.step ?_ Within.onLnk rfl | with_reducible apply Within.ite | split

theorem collFrame_within : ∀ {x0 x1}, Within 151992 x1 (collFrame x0 x1) := by
  intros
  unfold collFrame
  repeat' first | with_reducible assumption | with_reducible apply Within.refl | ((first | intro x | (lift_lets; intro x)); refine Within.cut (t := x) ?_ ?_; rotate_left; intro hx; clear_value x; rotate_right; dsimp -zeta only [x]) | with_reducible apply Within.step ?_ advanceColl_within rfl | with_reducible apply Within.step ?_ takeMsg_within rfl | with_reducible apply Within.step ?_ Within.onLnk rfl | split

theorem execColl_within : ∀ {x0 x1}, ∀ {t}, (execColl x0 x1) = .next t → Within 151992 x1 t := by
  intros
  rename_i h
  unfold execColl at h
  injection h with h
  subst h
  repeat' first | with_reducible apply Within.refl | ((first | intro x | (lift_lets; intro x)); have hf := fun a => x a; clear hf; subst x) | ((first | intro x | (lift_lets; intro x)); clear_value x) | (with_reducible apply Within.step ?_ (startHeld_within (M := 151992) ?_ rfl) rfl; rotate_left; intro _ _) | with_reducible apply Within.step ?_ advanceColl_within rfl | with_reducible apply Within.step ?_ endFail_within rfl | with_reducible apply Within.step ?_ Within.onLnk rfl | with_reducible apply Within.ite | split | dsimp only

theorem execCollTimeout_within : ∀ {x0 x1}, ∀ {t}, (execCollTimeout x0 x1) = .next t → Within 147760 x1 t := by
  intros
  rename_i h
  unfold execCollTimeout at h
  injection h with h
  subst h
  repeat' first | with_reducible apply Within.refl | (with_reducible apply Within.step ?_ (whileRunning_within (M := 147760) ?_) rfl; rotate_left; intro _ _) | with_reducible apply Within.step ?_ dropColl_within rfl | with_reducible apply Within.step ?_ endWith_within rfl | with_reducible apply Within.ite | split

/-! ### Shards -/

theorem joinPass_within : ∀ {x0 x1 x2}, Within 131072 x2 (joinPass x0 x1 x2) := by
  intros
  unfold joinPass
  repeat' first | with_reducible apply Within.refl | with_reducible apply Within.step ?_ Within.onLnk rfl | with_reducible apply Within.ite | split

theorem execShardJoin_within : ∀ {x0 x1 x2}, ∀ {t}, (execShardJoin x0 x1 x2) = .next t → Within 131072 x2 t := by
  intros
  rename_i h
  unfold execShardJoin at h
  injection h with h
  subst h
  repeat' first | with_reducible apply Within.refl | with_reducible apply Within.step ?_ joinPass_within rfl

theorem sendShard_within : ∀ {x0 x1 x2 x3 x4 x5}, Within 131080 x5 (sendShard x0 x1 x2 x3 x4 x5) := by
  intros
  unfold sendShard
  repeat' first | with_reducible assumption | with_reducible apply Within.refl | ((first | intro x | (lift_lets; intro x)); refine Within.cut (t := x.2) ?_ ?_; rotate_left; intro hx; clear_value x; rotate_right; dsimp -zeta only [x]) | with_reducible apply Within.step ?_ newFlow_within rfl | with_reducible apply Within.step ?_ sendFrame_within rfl | (with_reducible apply Within.step ?_ (Within.foldl (M := 131080) ?_ _ _) rfl; rotate_left; intro _ _)

theorem execShardPassStart_within : ∀ {x0 x1}, ∀ {t}, (execShardPassStart x0 x1) = .next t → Within 131080 x1 t := by
  intros
  rename_i h
  unfold execShardPassStart at h
  injection h with h
  subst h
  repeat' first | with_reducible assumption | with_reducible apply Within.refl | ((first | intro x | (lift_lets; intro x)); refine Within.cut (t := x) ?_ ?_; rotate_left; intro hx; clear_value x; rotate_right; dsimp -zeta only [x]) | ((first | intro x | (lift_lets; intro x)); clear_value x) | with_reducible apply Within.step ?_ sendFrame_within rfl | with_reducible apply Within.step ?_ sendShard_within rfl | with_reducible apply Within.step ?_ Within.onLnk rfl | (with_reducible apply Within.step ?_ (Within.foldl (M := 131080) ?_ _ _) rfl; rotate_left; intro _ _) | (with_reducible apply Within.step ?_ (Within.foldl_snd (M := 131080) ?_ _ _) rfl; rotate_left; intro _ _) | with_reducible apply Within.ite | split | dsimp -zeta only | dsimp only

theorem modImport_within : ∀ {x0 x1 x2}, Within 65536 x2 (modImport x0 x1 x2) := by
  intros
  unfold modImport
  repeat' first | with_reducible apply Within.refl | with_reducible apply Within.step ?_ Within.onMdl rfl

theorem modShard_within : ∀ {x0 x1 x2 x3}, Within 65536 x3 (modShard x0 x1 x2 x3) := by
  intros
  unfold modShard
  repeat' first | with_reducible apply Within.refl | with_reducible apply Within.step ?_ modImport_within rfl

theorem dropImport_within : ∀ {x0 x1}, Within 65536 x1 (dropImport x0 x1) := by
  intros
  unfold dropImport
  repeat' first | with_reducible apply Within.refl | with_reducible apply Within.step ?_ Within.onMdl rfl

theorem finishImport_within : ∀ {x0 x1}, Within 86448 x1 (finishImport x0 x1) := by
  intros
  unfold finishImport
  repeat' first | with_reducible assumption | with_reducible apply Within.refl | ((first | intro x | (lift_lets; intro x)); refine Within.cut (t := x) ?_ ?_; rotate_left; intro hx; clear_value x; rotate_right; dsimp -zeta only [x]) | ((first | intro x | (lift_lets; intro x)); have hf := fun a => x a; clear hf; subst x) | ((first | intro x | (lift_lets; intro x)); clear_value x) | with_reducible apply Within.step ?_ dropImport_within rfl | with_reducible apply Within.step ?_ endFail_within rfl | with_reducible apply Within.step ?_ endOk_within rfl | with_reducible apply Within.step ?_ (enterImport_within (by with_reducible assumption)) rfl | with_reducible apply Within.ite | split

theorem landShard_within : ∀ {x0 x1 x2 x3 x4}, Within 86448 x4 (landShard x0 x1 x2 x3 x4) := by
  intros
  unfold landShard
  repeat' first | with_reducible assumption | with_reducible apply Within.refl | ((first | intro x | (lift_lets; intro x)); refine Within.cut (t := x) ?_ ?_; rotate_left; intro hx; clear_value x; rotate_right; dsimp -zeta only [x]) | with_reducible apply Within.step ?_ finishImport_within rfl | with_reducible apply Within.step ?_ modImport_within rfl | with_reducible apply Within.step ?_ modShard_within rfl | with_reducible apply Within.step ?_ writeObj_within rfl | with_reducible apply Within.ite | split

theorem execShardTimeout_within : ∀ {x0 x1 x2 x3}, ∀ {t}, (execShardTimeout x0 x1 x2 x3) = .next t → Within 217528 x3 t := by
  intros
  rename_i h
  unfold execShardTimeout at h
  injection h with h
  subst h
  repeat' first | with_reducible apply Within.refl | ((first | intro x | (lift_lets; intro x)); clear_value x) | with_reducible apply Within.step ?_ bump_within rfl | with_reducible apply Within.step ?_ dropImport_within rfl | with_reducible apply Within.step ?_ endWith_within rfl | with_reducible apply Within.step ?_ landShard_within rfl | with_reducible apply Within.step ?_ modModel_within rfl | with_reducible apply Within.step ?_ modShard_within rfl | with_reducible apply Within.step ?_ sendFrame_within rfl | with_reducible apply Within.ite | split | dsimp only

theorem shardFrame_within : ∀ {x0 x1}, Within 217528 x1 (shardFrame x0 x1) := by
  intros
  unfold shardFrame
  repeat' first | with_reducible assumption | with_reducible apply Within.refl | ((first | intro x | (lift_lets; intro x)); refine Within.cut (t := x) ?_ ?_; rotate_left; intro hx; clear_value x; rotate_right; dsimp -zeta only [x]) | ((first | intro x | (lift_lets; intro x)); have hf := fun a => x a; clear hf; subst x) | ((first | intro x | (lift_lets; intro x)); clear_value x) | with_reducible apply Within.step ?_ joinPass_within rfl | with_reducible apply Within.step ?_ landShard_within rfl | with_reducible apply Within.step ?_ modImport_within rfl | with_reducible apply Within.step ?_ modShard_within rfl | with_reducible apply Within.step ?_ sendFrame_within rfl | with_reducible apply Within.step ?_ sendShard_within rfl | (with_reducible apply Within.step ?_ (Within.foldl (M := 217528) ?_ _ _) rfl; rotate_left; intro _ _) | with_reducible apply Within.ite | split

/-! ### Streams -/

theorem addStream_within : ∀ {x0 x1}, Within 4096 x1 (addStream x0 x1) := by
  intros
  unfold addStream
  repeat' first | with_reducible apply Within.refl | (with_reducible apply Within.step ?_ (Within.onMem ?_) rfl; rotate_left; exact fun h => h)

theorem sendStep_within : ∀ {x0 x1 x2}, Within 5648 x2 (sendStep x0 x1 x2) := by
  intros
  unfold sendStep
  repeat' first | with_reducible assumption | with_reducible apply Within.refl | ((first | intro x | (lift_lets; intro x)); clear_value x) | with_reducible apply Within.step ?_ modPan_within rfl | with_reducible apply Within.step ?_ openWave_within rfl | with_reducible apply Within.step ?_ sendTokens_within rfl | with_reducible apply Within.ite | split

theorem runVersions_within : ∀ {x0 x1}, Within 512 x1 (runVersions x0 x1) := by
  intros
  unfold runVersions
  repeat' first | with_reducible assumption | with_reducible apply Within.refl | with_reducible apply Within.step ?_ modDie_within rfl | (with_reducible apply Within.step ?_ (Within.foldl (M := 512) ?_ _ _) rfl; rotate_left; intro _ _) | split

theorem execRun_within : ∀ {x0 x1}, ∀ {t}, (execRun x0 x1) = .next t → Within 30512 x1 t := by
  intros
  rename_i h
  unfold execRun at h
  injection h with h
  subst h
  repeat' first | with_reducible assumption | with_reducible apply Within.refl | ((first | intro x | (lift_lets; intro x)); refine Within.cut (t := x) ?_ ?_; rotate_left; intro hx; clear_value x; rotate_right; dsimp -zeta only [x]) | ((first | intro x | (lift_lets; intro x)); clear_value x) | with_reducible apply Within.step ?_ addStream_within rfl | with_reducible apply Within.step ?_ endFail_within rfl | with_reducible apply Within.step ?_ modPan_within rfl | with_reducible apply Within.step ?_ runVersions_within rfl | with_reducible apply Within.step ?_ sendStep_within rfl | (with_reducible apply Within.step ?_ (startHeld_within (M := 30512) ?_ rfl) rfl; rotate_left; intro _ _) | (with_reducible apply Within.step ?_ (Within.onSeq ?_) rfl; rotate_left; first | exact fun h => h | exact fun h => twf_tput h _ _ | exact fun h => twf_tmod h _ _) | (with_reducible apply Within.step ?_ (Within.foldl (M := 30512) ?_ _ _) rfl; rotate_left; intro _ _) | split

theorem readAdapters_within : ∀ {x0 x1 x2 x3}, Within 568 x3 (readAdapters x0 x1 x2 x3) := by
  intros
  unfold readAdapters
  repeat' first | with_reducible assumption | with_reducible apply Within.refl | ((first | intro x | (lift_lets; intro x)); refine Within.cut (t := x) ?_ ?_; rotate_left; intro hx; clear_value x; rotate_right; dsimp -zeta only [x]) | ((first | intro x | (lift_lets; intro x)); clear_value x) | with_reducible apply Within.step ?_ bumpBy_within rfl | with_reducible apply Within.step ?_ modDie_within rfl | with_reducible apply Within.ite | with_reducible apply Within.step ?_ (Within.set_free) rfl

theorem addKvStreams_within : ∀ {x0 x1 x2 x3 x4}, Within 4096 x4 (addKvStreams x0 x1 x2 x3 x4) := by
  intros
  unfold addKvStreams
  repeat' first | with_reducible assumption | with_reducible apply Within.refl | with_reducible apply Within.step ?_ addStream_within rfl | (with_reducible apply Within.step ?_ (Within.foldl (M := 4096) ?_ _ _) rfl; rotate_left; intro _ _) | with_reducible apply Within.ite

theorem addWeightStreams_within : ∀ {x0 x1 x2}, Within 4096 x2 (addWeightStreams x0 x1 x2) := by
  intros
  unfold addWeightStreams
  repeat' first | with_reducible assumption | with_reducible apply Within.refl | ((first | intro x | (lift_lets; intro x)); clear_value x) | with_reducible apply Within.step ?_ addStream_within rfl | (with_reducible apply Within.step ?_ (Within.foldl (M := 4096) ?_ _ _) rfl; rotate_left; intro _ _) | (with_reducible apply Within.step ?_ (Within.foldl_snd (M := 4096) ?_ _ _) rfl; rotate_left; intro _ _)

theorem execWorkListDelivery_within : ∀ {x0 x1}, ∀ {t}, (execWorkListDelivery x0 x1) = .next t → Within 13880 x1 t := by
  intros
  rename_i h
  unfold execWorkListDelivery at h
  injection h with h
  subst h
  repeat' first | with_reducible assumption | with_reducible apply Within.refl | ((first | intro x | (lift_lets; intro x)); refine Within.cut (t := x) ?_ ?_; rotate_left; intro hx; clear_value x; rotate_right; dsimp -zeta only [x]) | with_reducible apply Within.step ?_ acceptEpoch_within rfl | with_reducible apply Within.step ?_ addKvStreams_within rfl | with_reducible apply Within.step ?_ addWeightStreams_within rfl | with_reducible apply Within.step ?_ modStep_within rfl | with_reducible apply Within.step ?_ readAdapters_within rfl | with_reducible apply Within.step ?_ sendStep_within rfl | (with_reducible apply Within.step ?_ (Within.foldl (M := 13880) ?_ _ _) rfl; rotate_left; intro _ _) | with_reducible apply Within.ite | split

theorem saveDesc_within : ∀ {x0 x1 x2 x3}, Within 4096 x3 (saveDesc x0 x1 x2 x3) := by
  intros
  unfold saveDesc
  repeat' first | with_reducible apply Within.refl | (with_reducible apply Within.step ?_ (Within.onMem ?_) rfl; rotate_left; exact fun h => Memory.wf_pokeObj h) | with_reducible apply Within.ite | split

theorem settleRun_within : ∀ {x0 x1 x2}, Within 21808 x2 (settleRun x0 x1 x2) := by
  intros
  unfold settleRun
  repeat' first | with_reducible assumption | with_reducible apply Within.refl | ((first | intro x | (lift_lets; intro x)); refine Within.cut (t := x) ?_ ?_; rotate_left; intro hx; clear_value x; rotate_right; dsimp -zeta only [x]) | ((first | intro x | (lift_lets; intro x)); clear_value x) | with_reducible apply Within.step ?_ endOk_within rfl | with_reducible apply Within.step ?_ endWith_within rfl | with_reducible apply Within.step ?_ modPan_within rfl | (with_reducible apply Within.step ?_ (Within.onMem ?_) rfl; rotate_left; exact fun h => h) | with_reducible apply Within.ite | split

theorem endStream_within : ∀ {x0 x1}, Within 54704 x1 (endStream x0 x1) := by
  intros
  unfold endStream
  repeat' first | with_reducible assumption | with_reducible apply Within.refl | ((first | intro x | (lift_lets; intro x)); refine Within.cut (t := x) ?_ ?_; rotate_left; intro hx; clear_value x; rotate_right; dsimp -zeta only [x]) | ((first | intro x | (lift_lets; intro x)); clear_value x) | with_reducible apply Within.step ?_ bump_within rfl | with_reducible apply Within.step ?_ endOk_within rfl | with_reducible apply Within.step ?_ modStream_within rfl | with_reducible apply Within.step ?_ reapOld_within rfl | with_reducible apply Within.step ?_ saveDesc_within rfl | with_reducible apply Within.step ?_ settleRun_within rfl | (with_reducible apply Within.step ?_ (Within.onMem ?_) rfl; rotate_left; first | exact fun h => h | exact fun h => Memory.wf_memWrite h _ _ | exact fun h => Memory.wf_memZero h _ _ | exact fun h => Memory.wf_pokeObj h | exact fun h => Memory.wf_memMove h | exact fun h => Memory.wf_pokeInput h | exact fun h => Memory.wf_pokeInput (Memory.wf_bringPages h) | exact fun h => Memory.wf_writeArchive h | exact fun h => Memory.wf_foldl (fun m x k => Memory.wf_memZero k _ _) h | exact fun h => Memory.wf_foldl (fun m x k => Memory.wf_memWrite k _ _) h) | with_reducible apply Within.ite | split

theorem failCopy_within : ∀ {x0 x1 x2 x3}, Within 20784 x3 (failCopy x0 x1 x2 x3) := by
  intros
  unfold failCopy
  repeat' first | with_reducible assumption | with_reducible apply Within.refl | ((first | intro x | (lift_lets; intro x)); refine Within.cut (t := x) ?_ ?_; rotate_left; intro hx; clear_value x; rotate_right; dsimp -zeta only [x]) | with_reducible apply Within.step ?_ endWith_within rfl | (with_reducible apply Within.step ?_ (Within.onMem ?_) rfl; rotate_left; exact fun h => h) | split

theorem failStream_within : ∀ {x0 x1 x2 x3}, Within 391088 x3 (failStream x0 x1 x2 x3) := by
  intros
  unfold failStream
  repeat' first | with_reducible assumption | with_reducible apply Within.refl | with_reducible apply Within.step ?_ abortPanWith_within rfl | with_reducible apply Within.step ?_ failCopy_within rfl | with_reducible apply Within.ite

theorem noteFault_within : ∀ {x0 x1 x2 x3 x4 x5 x6}, Within 16 x6 (noteFault x0 x1 x2 x3 x4 x5 x6) := by
  intros
  unfold noteFault
  repeat' first | with_reducible assumption | with_reducible apply Within.refl | ((first | intro x | (lift_lets; intro x)); clear_value x) | with_reducible apply Within.step ?_ setReg_within rfl | with_reducible apply Within.ite

theorem translate_within : ∀ {x0 x1 x2 x3}, Within 4144 x3 (translate x0 x1 x2 x3) := by
  intros
  unfold translate
  repeat' first | with_reducible apply Within.refl | ((first | intro x | (lift_lets; intro x)); clear_value x) | with_reducible apply Within.step ?_ bump_within rfl | (with_reducible apply Within.step ?_ (Within.onMem ?_) rfl; rotate_left; exact fun h => h) | with_reducible apply Within.ite

theorem issueBlock_within : ∀ {x0 x1 x2}, Within 4608 x2 (issueBlock x0 x1 x2) := by
  intros
  unfold issueBlock
  repeat' first | with_reducible assumption | with_reducible apply Within.refl | ((first | intro x | (lift_lets; intro x)); refine Within.cut (t := x) ?_ ?_; rotate_left; intro hx; clear_value x; rotate_right; dsimp -zeta only [x]) | ((first | intro x | (lift_lets; intro x)); clear_value x) | with_reducible apply Within.step ?_ modStream_within rfl | with_reducible apply Within.step ?_ sendData_within rfl | with_reducible apply Within.step ?_ sendMover_within rfl | with_reducible apply Within.step ?_ sendReq_within rfl | (with_reducible apply Within.step ?_ (Within.foldl (M := 4608) ?_ _ _) rfl; rotate_left; intro _ _) | with_reducible apply Within.ite

theorem execStreamBlockIssue_within : ∀ {x0 x1}, ∀ {t}, (execStreamBlockIssue x0 x1) = .next t → Within 4656 x1 t := by
  intros
  rename_i h
  unfold execStreamBlockIssue at h
  injection h with h
  subst h
  repeat' first | with_reducible assumption | with_reducible apply Within.refl | ((first | intro x | (lift_lets; intro x)); clear_value x) | with_reducible apply Within.step ?_ issueBlock_within rfl | with_reducible apply Within.step ?_ modStream_within rfl | with_reducible apply Within.step ?_ noteFault_within rfl | with_reducible apply Within.step ?_ saveDesc_within rfl | with_reducible apply Within.step ?_ translate_within rfl | with_reducible apply Within.ite | split

theorem sendBlock_within : ∀ {x0 x1 x2 x3}, Within 4608 x3 (sendBlock x0 x1 x2 x3) := by
  intros
  unfold sendBlock
  repeat' first | with_reducible assumption | with_reducible apply Within.refl | ((first | intro x | (lift_lets; intro x)); refine Within.cut (t := x) ?_ ?_; rotate_left; intro hx; clear_value x; rotate_right; dsimp -zeta only [x]) | ((first | intro x | (lift_lets; intro x)); clear_value x) | with_reducible apply Within.step ?_ modStream_within rfl | with_reducible apply Within.step ?_ sendBetween_within rfl | with_reducible apply Within.step ?_ sendToDie_within rfl | with_reducible apply Within.step ?_ sendToRect_within rfl | (with_reducible apply Within.step ?_ (Within.foldl (M := 4608) ?_ _ _) rfl; rotate_left; intro _ _) | with_reducible apply Within.ite

theorem finishStream_within : ∀ {x0 x1}, Within 54704 x1 (finishStream x0 x1) := by
  intros
  unfold finishStream
  repeat' first | with_reducible assumption | with_reducible apply Within.refl | with_reducible apply Within.step ?_ endStream_within rfl | with_reducible apply Within.ite | split

theorem writeBlock_within : ∀ {x0 x1 x2 x3}, Within 54704 x3 (writeBlock x0 x1 x2 x3) := by
  intros
  unfold writeBlock
  repeat' first | with_reducible assumption | with_reducible apply Within.refl | ((first | intro x | (lift_lets; intro x)); refine Within.cut (t := x.2) ?_ ?_; rotate_left; intro hx; clear_value x; rotate_right; dsimp -zeta only [x]) | ((first | intro x | (lift_lets; intro x)); clear_value x) | with_reducible apply Within.step ?_ failCopy_within rfl | with_reducible apply Within.step ?_ finishStream_within rfl | with_reducible apply Within.step ?_ modCtx_within rfl | with_reducible apply Within.step ?_ modStream_within rfl | with_reducible apply Within.step ?_ writeObj_within rfl | (with_reducible apply Within.step ?_ (Within.onMem ?_) rfl; rotate_left; first | exact fun h => h | exact fun h => Memory.wf_memWrite h _ _ | exact fun h => Memory.wf_memZero h _ _ | exact fun h => Memory.wf_pokeObj h | exact fun h => Memory.wf_memMove h | exact fun h => Memory.wf_pokeInput h | exact fun h => Memory.wf_pokeInput (Memory.wf_bringPages h) | exact fun h => Memory.wf_writeArchive h | exact fun h => Memory.wf_foldl (fun m x k => Memory.wf_memZero k _ _) h | exact fun h => Memory.wf_foldl (fun m x k => Memory.wf_memWrite k _ _) h | exact fun h => Memory.wf_poke h) | with_reducible apply Within.ite

theorem execStreamBlockDone_within : ∀ {x0 x1}, ∀ {t}, (execStreamBlockDone x0 x1) = .next t → Within 55216 x1 t := by
  intros
  rename_i h
  unfold execStreamBlockDone at h
  injection h with h
  subst h
  repeat' first | with_reducible assumption | with_reducible apply Within.refl | with_reducible apply Within.step ?_ sendBlock_within rfl | with_reducible apply Within.step ?_ writeBlock_within rfl | with_reducible apply Within.ite | split

theorem popX_within : ∀ {x0 x1 x2}, Within 512 x2 (popX x0 x1 x2) := by
  intros
  unfold popX
  repeat' first | with_reducible apply Within.refl | with_reducible apply Within.step ?_ modDie_within rfl

theorem stepAtX_within : ∀ {x0 x1 x2 x3}, Within 54704 x3 (stepAtX x0 x1 x2 x3) := by
  intros
  unfold stepAtX
  repeat' first | with_reducible assumption | with_reducible apply Within.refl | with_reducible apply Within.step ?_ endStream_within rfl | with_reducible apply Within.step ?_ modStream_within rfl | with_reducible apply Within.ite

theorem dataAtX_within : ∀ {x0 x1 x2 x3 x4 x5}, Within 37424 x5 (dataAtX x0 x1 x2 x3 x4 x5) := by
  intros
  unfold dataAtX
  repeat' first | with_reducible assumption | with_reducible apply Within.refl | ((first | intro x | (lift_lets; intro x)); clear_value x) | with_reducible apply Within.step ?_ bump_within rfl | with_reducible apply Within.step ?_ modStream_within rfl | with_reducible apply Within.step ?_ popX_within rfl | with_reducible apply Within.step ?_ present_within rfl | with_reducible apply Within.ite | split

theorem execPortxFlit_within : ∀ {x0 x1 x2 x3}, ∀ {t}, (execPortxFlit x0 x1 x2 x3) = .next t → Within 55216 x3 t := by
  intros
  rename_i h
  unfold execPortxFlit at h
  injection h with h
  subst h
  repeat' first | with_reducible assumption | with_reducible apply Within.refl | with_reducible apply Within.step ?_ bump_within rfl | with_reducible apply Within.step ?_ dataAtX_within rfl | with_reducible apply Within.step ?_ popX_within rfl | with_reducible apply Within.step ?_ stepAtX_within rfl | with_reducible apply Within.ite | split

theorem showPageIns_within : ∀ {x0}, Within 16 x0 (showPageIns x0) := by
  intros
  unfold showPageIns
  repeat' first | with_reducible apply Within.refl | with_reducible apply Within.step ?_ setFld_within rfl

theorem execPageInRequest_within : ∀ {x0 x1}, ∀ {t}, (execPageInRequest x0 x1) = .next t → Within 4112 x1 t := by
  intros
  rename_i h
  unfold execPageInRequest at h
  injection h with h
  subst h
  repeat' first | with_reducible assumption | with_reducible apply Within.refl | ((first | intro x | (lift_lets; intro x)); refine Within.cut (t := x) ?_ ?_; rotate_left; intro hx; clear_value x; rotate_right; dsimp -zeta only [x]) | with_reducible apply Within.step ?_ setWaiting_within rfl | with_reducible apply Within.step ?_ showPageIns_within rfl | (with_reducible apply Within.step ?_ (Within.onMem ?_) rfl; rotate_left; first | exact fun h => h | exact fun h => Memory.wf_memWrite h _ _ | exact fun h => Memory.wf_memZero h _ _ | exact fun h => Memory.wf_pokeObj h | exact fun h => Memory.wf_memMove h) | with_reducible apply Within.ite | split | dsimp -zeta only | dsimp only

theorem resumeStreams_within : ∀ {x0 x1}, Within 4096 x1 (resumeStreams x0 x1) := by
  intros
  unfold resumeStreams
  repeat' first | with_reducible apply Within.refl | with_reducible apply Within.step ?_ modStream_within rfl | (with_reducible apply Within.step ?_ (Within.foldl (M := 4096) ?_ _ _) rfl; rotate_left; intro _ _)

theorem settleWaiting_within : ∀ {x0 x1}, Within 528 x1 (settleWaiting x0 x1) := by
  intros
  unfold settleWaiting
  repeat' first | with_reducible assumption | with_reducible apply Within.refl | ((first | intro x | (lift_lets; intro x)); refine Within.cut (t := x) ?_ ?_; rotate_left; intro hx; clear_value x; rotate_right; dsimp -zeta only [x]) | with_reducible apply Within.step ?_ modDie_within rfl | with_reducible apply Within.step ?_ setWaiting_within rfl | (with_reducible apply Within.step ?_ (Within.foldl (M := 528) ?_ _ _) rfl; rotate_left; intro _ _) | with_reducible apply Within.ite | split

theorem dropFault_within : ∀ {x0 x1}, Within 16 x1 (dropFault x0 x1) := by
  intros
  unfold dropFault
  repeat' first | with_reducible assumption | with_reducible apply Within.refl | ((first | intro x | (lift_lets; intro x)); refine Within.cut (t := x) ?_ ?_; rotate_left; intro hx; clear_value x; rotate_right; dsimp -zeta only [x]) | with_reducible apply Within.step ?_ noteFault_within rfl | with_reducible apply Within.step ?_ setFld_within rfl | (with_reducible apply Within.step ?_ (Within.foldl (M := 16) ?_ _ _) rfl; rotate_left; intro _ _) | with_reducible apply Within.ite | split

theorem closePageIn_within : ∀ {x0 x1 x2}, Within 4656 x2 (closePageIn x0 x1 x2) := by
  intros
  unfold closePageIn
  repeat' first | with_reducible assumption | with_reducible apply Within.refl | ((first | intro x | (lift_lets; intro x)); refine Within.cut (t := x) ?_ ?_; rotate_left; intro hx; clear_value x; rotate_right; dsimp -zeta only [x]) | ((first | intro x | (lift_lets; intro x)); clear_value x) | with_reducible apply Within.step ?_ bump_within rfl | with_reducible apply Within.step ?_ dropFault_within rfl | with_reducible apply Within.step ?_ resumeStreams_within rfl | with_reducible apply Within.step ?_ settleWaiting_within rfl | with_reducible apply Within.step ?_ showPageIns_within rfl | (with_reducible apply Within.step ?_ (Within.onMem ?_) rfl; rotate_left; first | exact fun h => h | exact fun h => Memory.wf_memWrite h _ _ | exact fun h => Memory.wf_memZero h _ _ | exact fun h => Memory.wf_pokeObj h | exact fun h => Memory.wf_memMove h) | (with_reducible apply Within.step ?_ (Within.foldl (M := 4656) ?_ _ _) rfl; rotate_left; intro _ _) | (with_reducible apply Within.step ?_ (Within.foldl_snd (M := 4656) ?_ _ _) rfl; rotate_left; intro _ _)

theorem failPageIn_within : ∀ {x0 x1 x2 x3}, Within 391088 x3 (failPageIn x0 x1 x2 x3) := by
  intros
  unfold failPageIn
  repeat' first | with_reducible assumption | with_reducible apply Within.refl | with_reducible apply Within.step ?_ dropFault_within rfl | with_reducible apply Within.step ?_ failStream_within rfl | with_reducible apply Within.step ?_ showPageIns_within rfl | (with_reducible apply Within.step ?_ (Within.onMem ?_) rfl; rotate_left; first | exact fun h => h | exact fun h => Memory.wf_memWrite h _ _ | exact fun h => Memory.wf_memZero h _ _ | exact fun h => Memory.wf_pokeObj h | exact fun h => Memory.wf_memMove h | exact fun h => Memory.wf_pokeInput h | exact fun h => Memory.wf_pokeInput (Memory.wf_bringPages h) | exact fun h => Memory.wf_writeArchive h | exact fun h => Memory.wf_foldl (fun m x k => Memory.wf_memZero k _ _) h | exact fun h => Memory.wf_foldl (fun m x k => Memory.wf_memWrite k _ _) h) | (with_reducible apply Within.step ?_ (Within.foldl (M := 391088) ?_ _ _) rfl; rotate_left; intro _ _) | split

theorem execPageInDone_within : ∀ {x0 x1}, ∀ {t}, (execPageInDone x0 x1) = .next t → Within 391088 x1 t := by
  intros
  rename_i h
  unfold execPageInDone at h
  injection h with h
  subst h
  repeat' first | with_reducible assumption | with_reducible apply Within.refl | ((first | intro x | (lift_lets; intro x)); clear_value x) | with_reducible apply Within.step ?_ closePageIn_within rfl | with_reducible apply Within.step ?_ failPageIn_within rfl | with_reducible apply Within.step ?_ modObj_within rfl | with_reducible apply Within.step ?_ takeFrame_within rfl | with_reducible apply Within.ite | split

theorem execPageInTimeout_within : ∀ {x0 x1}, ∀ {t}, (execPageInTimeout x0 x1) = .next t → Within 53552 x1 t := by
  intros
  rename_i h
  unfold execPageInTimeout at h
  injection h with h
  subst h
  repeat' first | with_reducible assumption | with_reducible apply Within.refl | ((first | intro x | (lift_lets; intro x)); refine Within.cut (t := x) ?_ ?_; rotate_left; intro hx; clear_value x; rotate_right; dsimp -zeta only [x]) | with_reducible apply Within.step ?_ failCopy_within rfl | with_reducible apply Within.step ?_ present_within rfl | (with_reducible apply Within.step ?_ (Within.onMem ?_) rfl; rotate_left; exact fun h => h) | (with_reducible apply Within.step ?_ (Within.foldl (M := 53552) ?_ _ _) rfl; rotate_left; intro _ _) | with_reducible apply Within.ite | split

/-! ### Embed -/

theorem execExchangePacket_within : ∀ {x0 x1 x2 x3 x4 x5}, ∀ {t}, (execExchangePacket x0 x1 x2 x3 x4 x5) = .next t → Within 33328 x5 t := by
  intros
  rename_i h
  unfold execExchangePacket at h
  injection h with h
  subst h
  repeat' first | with_reducible assumption | with_reducible apply Within.refl | ((first | intro x | (lift_lets; intro x)); refine Within.cut (t := x) ?_ ?_; rotate_left; intro hx; clear_value x; rotate_right; dsimp -zeta only [x]) | ((first | intro x | (lift_lets; intro x)); clear_value x) | with_reducible apply Within.step ?_ bump_within rfl | with_reducible apply Within.step ?_ deliverX_within rfl | with_reducible apply Within.step ?_ modDie_within rfl | with_reducible apply Within.step ?_ present_within rfl | with_reducible apply Within.ite

theorem pumpDie_within : ∀ {x0 x1}, Within 33336 x1 (pumpDie x0 x1) := by
  intros
  unfold pumpDie
  repeat' first | with_reducible apply Within.refl | ((first | intro x | (lift_lets; intro x)); clear_value x) | with_reducible apply Within.step ?_ askRow_within rfl | with_reducible apply Within.step ?_ finishRound_within rfl | with_reducible apply Within.step ?_ gLeave_within rfl | (with_reducible apply Within.step ?_ (Within.foldl (M := 33336) ?_ _ _) rfl; rotate_left; intro _ _) | with_reducible apply Within.ite

theorem sendRow_within : ∀ {x0 x1 x2 x3 x4}, Within 512 x4 (sendRow x0 x1 x2 x3 x4) := by
  intros
  unfold sendRow
  repeat' first | with_reducible assumption | with_reducible apply Within.refl | ((first | intro x | (lift_lets; intro x)); clear_value x) | with_reducible apply Within.step ?_ modDie_within rfl | with_reducible apply Within.step ?_ sendToDie_within rfl | (with_reducible apply Within.step ?_ (Within.foldl (M := 512) ?_ _ _) rfl; rotate_left; intro _ _) | (with_reducible apply Within.step ?_ (Within.foldl_snd (M := 512) ?_ _ _) rfl; rotate_left; intro _ _)

theorem execRowFetchDone_within : ∀ {x0 x1 x2 x3}, ∀ {t}, (execRowFetchDone x0 x1 x2 x3) = .next t → Within 33336 x3 t := by
  intros
  rename_i h
  unfold execRowFetchDone at h
  injection h with h
  subst h
  repeat' first | with_reducible assumption | with_reducible apply Within.refl | ((first | intro x | (lift_lets; intro x)); refine Within.cut (t := x) ?_ ?_; rotate_left; intro hx; clear_value x; rotate_right; dsimp -zeta only [x]) | ((first | intro x | (lift_lets; intro x)); clear_value x) | with_reducible apply Within.step ?_ addHot_within rfl | with_reducible apply Within.step ?_ modDie_within rfl | with_reducible apply Within.step ?_ modTile_within rfl | with_reducible apply Within.step ?_ pumpDie_within rfl | with_reducible apply Within.step ?_ sendRow_within rfl | (with_reducible apply Within.step ?_ (Within.foldl (M := 33336) ?_ _ _) rfl; rotate_left; intro _ _) | with_reducible apply Within.ite | split

theorem execHotRowReplicate_within : ∀ {x0 x1 x2}, ∀ {t}, (execHotRowReplicate x0 x1 x2) = .next t → Within 560 x2 t := by
  intros
  rename_i h
  unfold execHotRowReplicate at h
  injection h with h
  subst h
  repeat' first | with_reducible assumption | with_reducible apply Within.refl | ((first | intro x | (lift_lets; intro x)); refine Within.cut (t := x) ?_ ?_; rotate_left; intro hx; clear_value x; rotate_right; dsimp -zeta only [x]) | ((first | intro x | (lift_lets; intro x)); have hf := fun a => x a; clear hf; subst x) | ((first | intro x | (lift_lets; intro x)); clear_value x) | with_reducible apply Within.step ?_ addHot_within rfl | with_reducible apply Within.step ?_ bumpBy_within rfl | with_reducible apply Within.step ?_ modDie_within rfl | (with_reducible apply Within.step ?_ (Within.foldl (M := 560) ?_ _ _) rfl; rotate_left; intro _ _) | with_reducible apply Within.ite

theorem execHotCopyEvict_within : ∀ {x0 x1 x2 x3}, ∀ {t}, (execHotCopyEvict x0 x1 x2 x3) = .next t → Within 528 x3 t := by
  intros
  rename_i h
  unfold execHotCopyEvict at h
  injection h with h
  subst h
  repeat' first | with_reducible apply Within.refl | with_reducible apply Within.step ?_ dropHot_within rfl | with_reducible apply Within.ite

theorem execEmbTableCreate_within : ∀ {x0 x1}, ∀ {t}, (execEmbTableCreate x0 x1) = .next t → Within 82224 x1 t := by
  intros
  rename_i h
  unfold execEmbTableCreate at h
  injection h with h
  subst h
  repeat' first | with_reducible apply Within.refl | ((first | intro x | (lift_lets; intro x)); clear_value x) | (with_reducible apply Within.step ?_ (startCmd_within (M := 82224) ?_ rfl) rfl; rotate_left; intro _ _) | with_reducible apply Within.step ?_ endFail_within rfl | with_reducible apply Within.step ?_ endOk_within rfl | with_reducible apply Within.step ?_ modEmb_within rfl | with_reducible apply Within.step ?_ showTables_within rfl | with_reducible apply Within.ite | split

theorem execEmbVersionSwitch_within : ∀ {x0 x1}, ∀ {t}, (execEmbVersionSwitch x0 x1) = .next t → Within 82736 x1 t := by
  intros
  rename_i h
  unfold execEmbVersionSwitch at h
  injection h with h
  subst h
  repeat' first | with_reducible assumption | with_reducible apply Within.refl | ((first | intro x | (lift_lets; intro x)); refine Within.cut (t := x) ?_ ?_; rotate_left; intro hx; clear_value x; rotate_right; dsimp -zeta only [x]) | ((first | intro x | (lift_lets; intro x)); clear_value x) | with_reducible apply Within.step ?_ bump_within rfl | with_reducible apply Within.step ?_ dropStale_within rfl | with_reducible apply Within.step ?_ endFail_within rfl | with_reducible apply Within.step ?_ endOk_within rfl | with_reducible apply Within.step ?_ modEmb_within rfl | (with_reducible apply Within.step ?_ (startHeld_within (M := 82736) ?_ rfl) rfl; rotate_left; intro _ _) | (with_reducible apply Within.step ?_ (Within.foldl (M := 82736) ?_ _ _) rfl; rotate_left; intro _ _) | with_reducible apply Within.ite | split

theorem dropTable_within : ∀ {x0 x1}, Within 528 x1 (dropTable x0 x1) := by
  intros
  unfold dropTable
  repeat' first | with_reducible apply Within.refl | with_reducible apply Within.step ?_ dropHot_within rfl | (with_reducible apply Within.step ?_ (Within.foldl (M := 528) ?_ _ _) rfl; rotate_left; intro _ _) | with_reducible apply Within.ite

theorem execEmbMaintChange_within : ∀ {x0 x1}, ∀ {t}, (execEmbMaintChange x0 x1) = .next t → Within 82736 x1 t := by
  intros
  rename_i h
  unfold execEmbMaintChange at h
  injection h with h
  subst h
  repeat' first | with_reducible apply Within.refl | ((first | intro x | (lift_lets; intro x)); clear_value x) | (with_reducible apply Within.step ?_ (startHeld_within (M := 82736) ?_ rfl) rfl; rotate_left; intro _ _) | (with_reducible apply Within.step ?_ (whileRunning_within (M := 82736) ?_) rfl; rotate_left; intro _ _) | with_reducible apply Within.step ?_ dropTable_within rfl | with_reducible apply Within.step ?_ endFail_within rfl | with_reducible apply Within.step ?_ endOk_within rfl | with_reducible apply Within.step ?_ modEmb_within rfl | with_reducible apply Within.ite | split

theorem applyUpdates_within : ∀ {x0 x1 x2 x3 x4 x5 x6 x7}, Within 4272 x7 (applyUpdates x0 x1 x2 x3 x4 x5 x6 x7).2 := by
  intro s0 x r o n
  induction n with
  | zero => intro k q s; exact Within.refl _ _
  | succ n ih =>
    intro k q s
    unfold applyUpdates
    dsimp only
    split
    · exact bump_within.step' ih rfl
    · split
      · exact deleteRow_within.step' ih rfl
      · split
        · exact writeRow_within.step' (bump_within.step' ih rfl) rfl
        · exact writeRow_within.step' (Within.refl _ _) rfl

theorem execEmbRowUpdate_within : ∀ {x0 x1}, ∀ {t}, (execEmbRowUpdate x0 x1) = .next t → Within 20912 x1 t := by
  intros
  rename_i h
  unfold execEmbRowUpdate at h
  injection h with h
  subst h
  repeat' first | with_reducible assumption | with_reducible apply Within.refl | ((first | intro x | (lift_lets; intro x)); refine Within.cut (t := x.2) ?_ ?_; rotate_left; intro hx; clear_value x; rotate_right; dsimp -zeta only [x]) | ((first | intro x | (lift_lets; intro x)); clear_value x) | (with_reducible apply Within.step ?_ (startHeld_within (M := 20912) ?_ rfl) rfl; rotate_left; intro _ _) | with_reducible apply Within.step ?_ applyUpdates_within rfl | with_reducible apply Within.step ?_ endFail_within rfl | with_reducible apply Within.step ?_ endOk_within rfl | with_reducible apply Within.step ?_ endWith_within rfl | with_reducible apply Within.ite | split

theorem lookupFetch_within : ∀ {x0 x1 x2 x3 x4}, Within 560 x4 (lookupFetch x0 x1 x2 x3 x4).2 := by
  intros
  unfold lookupFetch
  repeat' first | with_reducible assumption | with_reducible apply Within.refl | ((first | intro x | (lift_lets; intro x)); refine Within.cut (t := x) ?_ ?_; rotate_left; intro hx; clear_value x; rotate_right; dsimp -zeta only [x]) | ((first | intro x | (lift_lets; intro x)); clear_value x) | with_reducible apply Within.step ?_ addHot_within rfl | with_reducible apply Within.step ?_ bump_within rfl | with_reducible apply Within.step ?_ modDie_within rfl | with_reducible apply Within.step ?_ readHot_within rfl | with_reducible apply Within.ite | split

theorem lookupRow_within : ∀ {x0 x1 x2 x3}, Within 560 x3 (lookupRow x0 x1 x2 x3).2 := by
  intros
  unfold lookupRow
  repeat' first | with_reducible assumption | with_reducible apply Within.refl | ((first | intro x | (lift_lets; intro x)); refine Within.cut (t := x.2) ?_ ?_; rotate_left; intro hx; clear_value x; rotate_right; dsimp -zeta only [x]) | ((first | intro x | (lift_lets; intro x)); clear_value x) | with_reducible apply Within.step ?_ bump_within rfl | with_reducible apply Within.step ?_ bumpBy_within rfl | with_reducible apply Within.step ?_ countPairs_within rfl | with_reducible apply Within.step ?_ lookupFetch_within rfl | (with_reducible apply Within.step ?_ (Within.foldl_snd (M := 560) ?_ _ _) rfl; rotate_left; intro _ _) | with_reducible apply Within.ite

theorem lookupBags_within : ∀ {x0 x1 x2 x3 x4 x5 x6 x7}, Within 4784 x7 (lookupBags x0 x1 x2 x3 x4 x5 x6 x7).2 := by
  intro s0 o m p e n l
  induction l with
  | nil => intro s; exact Within.refl _ _
  | cons b l ih =>
    intro s
    unfold lookupBags
    dsimp only
    split
    · exact lookupRow_within.step' (writeObj_within.step' ih rfl) rfl
    · exact lookupRow_within.step' (writeObj_within.step' (Within.refl _ _) rfl) rfl

theorem execEmbLookup_within : ∀ {x0 x1}, ∀ {t}, (execEmbLookup x0 x1) = .next t → Within 54192 x1 t := by
  intros
  rename_i h
  unfold execEmbLookup at h
  injection h with h
  subst h
  repeat' first | with_reducible assumption | with_reducible apply Within.refl | ((first | intro x | (lift_lets; intro x)); refine Within.cut (t := x) ?_ ?_; rotate_left; intro hx; clear_value x; rotate_right; dsimp -zeta only [x]) | ((first | intro x | (lift_lets; intro x)); clear_value x) | with_reducible apply Within.step ?_ dropHot_within rfl | with_reducible apply Within.step ?_ endFail_within rfl | with_reducible apply Within.step ?_ endOk_within rfl | with_reducible apply Within.step ?_ endWith_within rfl | with_reducible apply Within.step ?_ lookupBags_within rfl | with_reducible apply Within.step ?_ modDie_within rfl | with_reducible apply Within.step ?_ present_within rfl | (with_reducible apply Within.step ?_ (startHeld_within (M := 54192) ?_ rfl) rfl; rotate_left; intro _ _) | with_reducible apply Within.ite | split | dsimp -zeta only | dsimp only

theorem sendGradRow_within : ∀ {x0 x1 x2 x3 x4 x5}, Within 131080 x5 (sendGradRow x0 x1 x2 x3 x4 x5) := by
  intros
  unfold sendGradRow
  repeat' first | with_reducible apply Within.refl | with_reducible apply Within.step ?_ sendFrame_within rfl | (with_reducible apply Within.step ?_ (Within.foldl (M := 131080) ?_ _ _) rfl; rotate_left; intro _ _)

theorem sendGrads_within : ∀ {x0 x1 x2 x3 x4}, Within 131080 x4 (sendGrads x0 x1 x2 x3 x4) := by
  intros
  unfold sendGrads
  repeat' first | with_reducible assumption | with_reducible apply Within.refl | ((first | intro x | (lift_lets; intro x)); refine Within.cut (t := x.2) ?_ ?_; rotate_left; intro hx; clear_value x; rotate_right; dsimp -zeta only [x]) | with_reducible apply Within.step ?_ newFlow_within rfl | with_reducible apply Within.step ?_ sendFrame_within rfl | with_reducible apply Within.step ?_ sendGradRow_within rfl | (with_reducible apply Within.step ?_ (Within.foldl (M := 131080) ?_ _ _) rfl; rotate_left; intro _ _)

theorem gradArrive_within : ∀ {x0 x1}, Within 65584 x1 (gradArrive x0 x1) := by
  intros
  unfold gradArrive
  repeat' first | with_reducible apply Within.refl | ((first | intro x | (lift_lets; intro x)); clear_value x) | with_reducible apply Within.step ?_ bump_within rfl | with_reducible apply Within.step ?_ Within.onMdl rfl | with_reducible apply Within.ite

theorem applyGrads_within : ∀ {x0 x1 x2}, Within 86448 x2 (applyGrads x0 x1 x2) := by
  intros
  unfold applyGrads
  repeat' first | with_reducible assumption | with_reducible apply Within.refl | ((first | intro x | (lift_lets; intro x)); refine Within.cut (t := x.2) ?_ ?_; rotate_left; intro hx; clear_value x; rotate_right; dsimp -zeta only [x]) | ((first | intro x | (lift_lets; intro x)); clear_value x) | with_reducible apply Within.step ?_ bump_within rfl | with_reducible apply Within.step ?_ bumpBy_within rfl | with_reducible apply Within.step ?_ endOk_within rfl | with_reducible apply Within.step ?_ modEmb_within rfl | with_reducible apply Within.step ?_ writeRow_within rfl | with_reducible apply Within.step ?_ Within.onMdl rfl | (with_reducible apply Within.step ?_ (Within.foldl_snd (M := 86448) ?_ _ _) rfl; rotate_left; intro _ _)

theorem execEmbApplyGrad_within : ∀ {x0 x1}, ∀ {t}, (execEmbApplyGrad x0 x1) = .next t → Within 217528 x1 t := by
  intros
  rename_i h
  unfold execEmbApplyGrad at h
  injection h with h
  subst h
  repeat' first | with_reducible assumption | with_reducible apply Within.refl | ((first | intro x | (lift_lets; intro x)); refine Within.cut (t := x) ?_ ?_; rotate_left; intro hx; clear_value x; rotate_right; dsimp -zeta only [x]) | ((first | intro x | (lift_lets; intro x)); clear_value x) | (with_reducible apply Within.step ?_ (startHeld_within (M := 217528) ?_ rfl) rfl; rotate_left; intro _ _) | (with_reducible apply Within.step ?_ (whileRunning_within (M := 217528) ?_) rfl; rotate_left; intro _ _) | with_reducible apply Within.step ?_ applyGrads_within rfl | with_reducible apply Within.step ?_ bumpBy_within rfl | with_reducible apply Within.step ?_ endFail_within rfl | with_reducible apply Within.step ?_ endOk_within rfl | with_reducible apply Within.step ?_ sendGrads_within rfl | with_reducible apply Within.step ?_ Within.onMdl rfl | with_reducible apply Within.ite | split

theorem execGradWaitTimeout_within : ∀ {x0 x1}, ∀ {t}, (execGradWaitTimeout x0 x1) = .next t → Within 82224 x1 t := by
  intros
  rename_i h
  unfold execGradWaitTimeout at h
  injection h with h
  subst h
  repeat' first | with_reducible assumption | with_reducible apply Within.refl | ((first | intro x | (lift_lets; intro x)); refine Within.cut (t := x) ?_ ?_; rotate_left; intro hx; clear_value x; rotate_right; dsimp -zeta only [x]) | with_reducible apply Within.step ?_ endWith_within rfl | with_reducible apply Within.step ?_ Within.onMdl rfl | with_reducible apply Within.ite | split

end Sys2Proof.Machine
end

