-- ==== Sys2Proof/Laws/WithinFabric.lean ====
section
/-! SUPPORT. What each operation may touch: frames, faults, commit and takeover, control cores, firmware, counters, power and rakes. -/

namespace Sys2Proof.Machine

/-! ### Fabric -/

theorem askReplay_within : ∀ {x0 x1}, Within 131072 x1 (askReplay x0 x1) := by
  intros
  unfold askReplay
  repeat' first | with_reducible apply Within.refl | with_reducible apply Within.step ?_ modLink_within rfl

theorem takeAck_within : ∀ {x0 x1 x2}, Within 163888 x2 (takeAck x0 x1 x2) := by
  intros
  unfold takeAck
  repeat' first | with_reducible assumption | with_reducible apply Within.refl | ((first | intro x | (lift_lets; intro x)); refine Within.cut (t := x) ?_ ?_; rotate_left; intro hx; clear_value x; rotate_right; dsimp -zeta only [x]) | ((first | intro x | (lift_lets; intro x)); clear_value x) | with_reducible apply Within.step ?_ modLink_within rfl | with_reducible apply Within.step ?_ pumpLink_within rfl | with_reducible apply Within.step ?_ replayAll_within rfl | with_reducible apply Within.ite

theorem takeFrame312_within : ∀ {x0 x1}, Within 217528 x1 (takeFrame312 x0 x1) := by
  intros
  unfold takeFrame312
  repeat' first | with_reducible assumption | with_reducible apply Within.refl | ((first | intro x | (lift_lets; intro x)); refine Within.cut (t := x) ?_ ?_; rotate_left; intro hx; clear_value x; rotate_right; dsimp -zeta only [x]) | with_reducible apply Within.step ?_ collFrame_within rfl | with_reducible apply Within.step ?_ gradArrive_within rfl | with_reducible apply Within.step ?_ shardFrame_within rfl | with_reducible apply Within.step ?_ Within.onLnk rfl | with_reducible apply Within.ite

theorem sortFrame_within : ∀ {x0 x1}, Within 522168 x1 (sortFrame x0 x1) := by
  intros
  unfold sortFrame
  repeat' first | with_reducible assumption | with_reducible apply Within.refl | ((first | intro x | (lift_lets; intro x)); refine Within.cut (t := x) ?_ ?_; rotate_left; intro hx; clear_value x; rotate_right; dsimp -zeta only [x]) | ((first | intro x | (lift_lets; intro x)); clear_value x) | with_reducible apply Within.step ?_ bump_within rfl | with_reducible apply Within.step ?_ seeChip_within rfl | with_reducible apply Within.step ?_ sendFrame_within rfl | with_reducible apply Within.step ?_ takeFrame312_within rfl | with_reducible apply Within.step ?_ Within.onLnk rfl | with_reducible apply Within.ite

theorem execElpFrameReceive_within : ∀ {x0 x1 x2 x3}, ∀ {t}, (execElpFrameReceive x0 x1 x2 x3) = .next t → Within 522168 x3 t := by
  intros
  rename_i h
  unfold execElpFrameReceive at h
  injection h with h
  subst h
  repeat' first | with_reducible assumption | with_reducible apply Within.refl | ((first | intro x | (lift_lets; intro x)); refine Within.cut (t := x) ?_ ?_; rotate_left; intro hx; clear_value x; rotate_right; dsimp -zeta only [x]) | with_reducible apply Within.step ?_ askReplay_within rfl | with_reducible apply Within.step ?_ bumpBy_within rfl | with_reducible apply Within.step ?_ lifeAdd_within rfl | with_reducible apply Within.step ?_ modLink_within rfl | with_reducible apply Within.step ?_ sortFrame_within rfl | with_reducible apply Within.step ?_ takeAck_within rfl | with_reducible apply Within.ite

theorem usePlan_within : ∀ {x0 x1}, Within 147480 x1 (usePlan x0 x1) := by
  intros
  unfold usePlan
  repeat' first | with_reducible assumption | with_reducible apply Within.refl | ((first | intro x | (lift_lets; intro x)); refine Within.cut (t := x) ?_ ?_; rotate_left; intro hx; clear_value x; rotate_right; dsimp -zeta only [x]) | ((first | intro x | (lift_lets; intro x)); clear_value x) | with_reducible apply Within.step ?_ endPairing_within rfl | with_reducible apply Within.step ?_ seeGen_within rfl | with_reducible apply Within.step ?_ setReg64_within rfl | with_reducible apply Within.step ?_ settleAll_within rfl | with_reducible apply Within.step ?_ Within.onCmt rfl | with_reducible apply Within.step ?_ Within.onLnk rfl | (with_reducible apply Within.step ?_ (Within.foldl (M := 147480) ?_ _ _) rfl; rotate_left; intro _ _) | with_reducible apply Within.ite

theorem execFabricPlan_within : ∀ {x0 x1 x2}, ∀ {t}, (execFabricPlan x0 x1 x2) = .next t → Within 672056 x2 t := by
  intros
  rename_i h
  unfold execFabricPlan at h
  injection h with h
  subst h
  repeat' first | with_reducible assumption | with_reducible apply Within.refl | ((first | intro x | (lift_lets; intro x)); refine Within.cut (t := x) ?_ ?_; rotate_left; intro hx; clear_value x; rotate_right; dsimp -zeta only [x]) | ((first | intro x | (lift_lets; intro x)); clear_value x) | with_reducible apply Within.step ?_ endFail_within rfl | with_reducible apply Within.step ?_ endWith_within rfl | with_reducible apply Within.step ?_ extend_within rfl | (with_reducible apply Within.step ?_ (startCmd_within (M := 672056) ?_ rfl) rfl; rotate_left; intro _ _) | with_reducible apply Within.step ?_ usePlan_within rfl | with_reducible apply Within.step ?_ Within.onLnk rfl | with_reducible apply Within.ite | split

theorem execFabricStatus_within : ∀ {x0 x1}, ∀ {t}, (execFabricStatus x0 x1) = .next t → Within 16752 x1 t := by
  intros
  rename_i h
  unfold execFabricStatus at h
  injection h with h
  subst h
  repeat' first | with_reducible apply Within.refl | ((first | intro x | (lift_lets; intro x)); clear_value x) | (with_reducible apply Within.step ?_ (startCmd_within (M := 16752) ?_ rfl) rfl; rotate_left; intro _ _) | with_reducible apply Within.step ?_ dmaWrite_within rfl | with_reducible apply Within.step ?_ endWith_within rfl

/-! ### Faults -/

theorem execFltRead_within : ∀ {x0 x1}, ∀ {t}, (execFltRead x0 x1) = .next t → Within 49520 x1 t := by
  intros
  rename_i h
  unfold execFltRead at h
  injection h with h
  subst h
  repeat' first | with_reducible assumption | with_reducible apply Within.refl | ((first | intro x | (lift_lets; intro x)); refine Within.cut (t := x) ?_ ?_; rotate_left; intro hx; clear_value x; rotate_right; dsimp -zeta only [x]) | ((first | intro x | (lift_lets; intro x)); clear_value x) | (with_reducible apply Within.step ?_ (startCmd_within (M := 49520) ?_ rfl) rfl; rotate_left; intro _ _) | with_reducible apply Within.step ?_ dmaWrite_within rfl | with_reducible apply Within.step ?_ endOk_within rfl | with_reducible apply Within.step ?_ showHist_within rfl | with_reducible apply Within.step ?_ Within.onFlt rfl | with_reducible apply Within.ite

theorem execFltConfig_within : ∀ {x0 x1}, ∀ {t}, (execFltConfig x0 x1) = .next t → Within 49456 x1 t := by
  intros
  rename_i h
  unfold execFltConfig at h
  injection h with h
  subst h
  repeat' first | with_reducible apply Within.refl | (with_reducible apply Within.step ?_ (startCmd_within (M := 49456) ?_ rfl) rfl; rotate_left; intro _ _) | with_reducible apply Within.step ?_ endFail_within rfl | with_reducible apply Within.step ?_ endOk_within rfl | with_reducible apply Within.step ?_ modSrc_within rfl | with_reducible apply Within.ite

theorem execLifeRead_within : ∀ {x0 x1}, ∀ {t}, (execLifeRead x0 x1) = .next t → Within 16752 x1 t := by
  intros
  rename_i h
  unfold execLifeRead at h
  injection h with h
  subst h
  repeat' first | with_reducible apply Within.refl | (with_reducible apply Within.step ?_ (startCmd_within (M := 16752) ?_ rfl) rfl; rotate_left; intro _ _) | with_reducible apply Within.step ?_ dmaWrite_within rfl | with_reducible apply Within.step ?_ endFail_within rfl | with_reducible apply Within.step ?_ endOk_within rfl | with_reducible apply Within.ite

theorem forceSource_within : ∀ {x0 x1 x2}, Within 32768 x2 (forceSource x0 x1 x2) := by
  intros
  unfold forceSource
  repeat' first | with_reducible apply Within.refl | with_reducible apply Within.step ?_ modSrc_within rfl

theorem execTestForce_within : ∀ {x0 x1}, ∀ {t}, (execTestForce x0 x1) = .next t → Within 49456 x1 t := by
  intros
  rename_i h
  unfold execTestForce at h
  injection h with h
  subst h
  repeat' first | with_reducible apply Within.refl | (with_reducible apply Within.step ?_ (startCmd_within (M := 49456) ?_ rfl) rfl; rotate_left; intro _ _) | with_reducible apply Within.step ?_ endFail_within rfl | with_reducible apply Within.step ?_ endOk_within rfl | with_reducible apply Within.step ?_ forceSource_within rfl | with_reducible apply Within.ite

theorem execTestPattern_within : ∀ {x0 x1 x2}, ∀ {t}, (execTestPattern x0 x1 x2) = .next t → Within 16688 x2 t := by
  intros
  rename_i h
  unfold execTestPattern at h
  injection h with h
  subst h
  repeat' first | with_reducible apply Within.refl | (with_reducible apply Within.step ?_ (startCmd_within (M := 16688) ?_ rfl) rfl; rotate_left; intro _ _) | with_reducible apply Within.step ?_ endFail_within rfl | with_reducible apply Within.step ?_ endOk_within rfl | with_reducible apply Within.ite

theorem execSrcForceSet_within : ∀ {x0 x1}, ∀ {t}, (execSrcForceSet x0 x1) = .next t → Within 32768 x1 t := by
  intros
  rename_i h
  unfold execSrcForceSet at h
  injection h with h
  subst h
  repeat' first | with_reducible apply Within.refl | with_reducible apply Within.step ?_ forceSource_within rfl | with_reducible apply Within.ite

theorem execForcedEvent_within : ∀ {x0 x1}, ∀ {t}, (execForcedEvent x0 x1) = .next t → Within 2097148 x1 t := by
  intros
  rename_i h
  unfold execForcedEvent at h
  injection h with h
  subst h
  repeat' first | with_reducible apply Within.refl | with_reducible apply Within.step ?_ collect_within rfl | with_reducible apply Within.step ?_ modSrc_within rfl | with_reducible apply Within.ite

theorem refreshAlive_within : ∀ {x0}, Within 32784 x0 (refreshAlive x0) := by
  intros
  unfold refreshAlive
  repeat' first | with_reducible assumption | with_reducible apply Within.refl | ((first | intro x | (lift_lets; intro x)); refine Within.cut (t := x) ?_ ?_; rotate_left; intro hx; clear_value x; rotate_right; dsimp -zeta only [x]) | with_reducible apply Within.step ?_ setFld_within rfl | with_reducible apply Within.step ?_ Within.onFlt rfl | with_reducible apply Within.ite

theorem execAliveKick_within : ∀ {x0 x1}, ∀ {t}, (execAliveKick x0 x1) = .next t → Within 32784 x1 t := by
  intros
  rename_i h
  unfold execAliveKick at h
  injection h with h
  subst h
  repeat' first | with_reducible apply Within.refl | with_reducible apply Within.step ?_ refreshAlive_within rfl | with_reducible apply Within.ite

theorem execAliveOutEdge_within : ∀ {x0}, ∀ {t}, (execAliveOutEdge x0) = .next t → Within 32784 x0 t := by
  intros
  rename_i h
  unfold execAliveOutEdge at h
  injection h with h
  subst h
  repeat' first | with_reducible apply Within.refl | with_reducible apply Within.step ?_ setFld_within rfl | with_reducible apply Within.step ?_ Within.onFlt rfl | with_reducible apply Within.ite

theorem execHeartbeatTimeout_within : ∀ {x0}, ∀ {t}, (execHeartbeatTimeout x0) = .next t → Within 2097148 x0 t := by
  intros
  rename_i h
  unfold execHeartbeatTimeout at h
  injection h with h
  subst h
  repeat' first | with_reducible apply Within.refl | with_reducible apply Within.step ?_ collect_within rfl | with_reducible apply Within.step ?_ stopAlive_within rfl | with_reducible apply Within.ite

theorem execBitternAccumulate_within : ∀ {x0}, ∀ {t}, (execBitternAccumulate x0) = .next t → Within 32768 x0 t := by
  intros
  rename_i h
  unfold execBitternAccumulate at h
  injection h with h
  subst h
  repeat' first | with_reducible apply Within.refl | with_reducible apply Within.step ?_ readAllBacc_within rfl | with_reducible apply Within.ite

theorem execLifetimeWrite_within : ∀ {x0}, ∀ {t}, (execLifetimeWrite x0) = .next t → Within 1081360 x0 t := by
  intros
  rename_i h
  unfold execLifetimeWrite at h
  injection h with h
  subst h
  repeat' first | with_reducible apply Within.refl | with_reducible apply Within.step ?_ beginLifeWrite_within rfl | with_reducible apply Within.step ?_ Within.onPwr rfl | with_reducible apply Within.ite

theorem answerShutdown_within : ∀ {x0}, Within 1048576 x0 (answerShutdown x0) := by
  intros
  unfold answerShutdown
  repeat' first | with_reducible apply Within.refl | with_reducible apply Within.step ?_ Within.onPwr rfl

theorem execLifetimeWriteDone_within : ∀ {x0 x1}, ∀ {t}, (execLifetimeWriteDone x0 x1) = .next t → Within 1081360 x1 t := by
  intros
  rename_i h
  unfold execLifetimeWriteDone at h
  injection h with h
  subst h
  repeat' first | with_reducible assumption | with_reducible apply Within.refl | ((first | intro x | (lift_lets; intro x)); refine Within.cut (t := x) ?_ ?_; rotate_left; intro hx; clear_value x; rotate_right; dsimp -zeta only [x]) | with_reducible apply Within.step ?_ answerShutdown_within rfl | with_reducible apply Within.step ?_ endLifeWrite_within rfl | with_reducible apply Within.ite

/-! ### Commit -/

theorem execJournalHeartbeat_within : ∀ {x0}, ∀ {t}, (execJournalHeartbeat x0) = .next t → Within 16384 x0 t := by
  intros
  rename_i h
  unfold execJournalHeartbeat at h
  injection h with h
  subst h
  repeat' first | with_reducible apply Within.refl | with_reducible apply Within.step ?_ journal_within rfl | with_reducible apply Within.ite

theorem endRerep_within : ∀ {x0}, Within 48 x0 (endRerep x0) := by
  intros
  unfold endRerep
  repeat' first | with_reducible apply Within.refl | with_reducible apply Within.step ?_ bump_within rfl | with_reducible apply Within.step ?_ setFld_within rfl | with_reducible apply Within.ite

theorem execJournalAckReceive_within : ∀ {x0 x1}, ∀ {t}, (execJournalAckReceive x0 x1) = .next t → Within 16432 x1 t := by
  intros
  rename_i h
  unfold execJournalAckReceive at h
  injection h with h
  subst h
  repeat' first | with_reducible assumption | with_reducible apply Within.refl | ((first | intro x | (lift_lets; intro x)); refine Within.cut (t := x) ?_ ?_; rotate_left; intro hx; clear_value x; rotate_right; dsimp -zeta only [x]) | ((first | intro x | (lift_lets; intro x)); clear_value x) | with_reducible apply Within.step ?_ endRerep_within rfl | with_reducible apply Within.step ?_ setFld_within rfl | with_reducible apply Within.step ?_ setReg64_within rfl | with_reducible apply Within.step ?_ Within.onCmt rfl | with_reducible apply Within.ite

theorem endWard_within : ∀ {x0}, Within 16400 x0 (endWard x0) := by
  intros
  unfold endWard
  repeat' first | with_reducible apply Within.refl | with_reducible apply Within.step ?_ setFld_within rfl | with_reducible apply Within.step ?_ Within.onCmt rfl

theorem execJournalRecordReceive_within : ∀ {x0 x1}, ∀ {t}, (execJournalRecordReceive x0 x1) = .next t → Within 16432 x1 t := by
  intros
  rename_i h
  unfold execJournalRecordReceive at h
  injection h with h
  subst h
  repeat' first | with_reducible assumption | with_reducible apply Within.refl | ((first | intro x | (lift_lets; intro x)); refine Within.cut (t := x) ?_ ?_; rotate_left; intro hx; clear_value x; rotate_right; dsimp -zeta only [x]) | with_reducible apply Within.step ?_ bump_within rfl | with_reducible apply Within.step ?_ endWard_within rfl | with_reducible apply Within.step ?_ setReg_within rfl | with_reducible apply Within.step ?_ Within.onCmt rfl | with_reducible apply Within.ite

theorem sendClaim_within : ∀ {x0}, Within 147456 x0 (sendClaim x0) := by
  intros
  unfold sendClaim
  repeat' first | with_reducible assumption | with_reducible apply Within.refl | ((first | intro x | (lift_lets; intro x)); refine Within.cut (t := x) ?_ ?_; rotate_left; intro hx; clear_value x; rotate_right; dsimp -zeta only [x]) | ((first | intro x | (lift_lets; intro x)); have hf := fun a => x a; clear hf; subst x) | ((first | intro x | (lift_lets; intro x)); clear_value x) | with_reducible apply Within.step ?_ sendOn_within rfl | with_reducible apply Within.step ?_ Within.onCmt rfl | split

theorem execWardLoss_within : ∀ {x0}, ∀ {t}, (execWardLoss x0) = .next t → Within 180272 x0 t := by
  intros
  rename_i h
  unfold execWardLoss at h
  injection h with h
  subst h
  repeat' first | with_reducible assumption | with_reducible apply Within.refl | with_reducible apply Within.step ?_ bump_within rfl | with_reducible apply Within.step ?_ present_within rfl | with_reducible apply Within.step ?_ sendClaim_within rfl | with_reducible apply Within.step ?_ setReg_within rfl | with_reducible apply Within.step ?_ Within.onCmt rfl | with_reducible apply Within.ite | split

theorem execClaimRetry_within : ∀ {x0}, ∀ {t}, (execClaimRetry x0) = .next t → Within 147472 x0 t := by
  intros
  rename_i h
  unfold execClaimRetry at h
  injection h with h
  subst h
  repeat' first | with_reducible apply Within.refl | with_reducible apply Within.step ?_ sendClaim_within rfl | with_reducible apply Within.step ?_ setFld_within rfl | with_reducible apply Within.ite | split

theorem loseRemote_within : ∀ {x0}, Within 29104 x0 (loseRemote x0) := by
  intros
  unfold loseRemote
  repeat' first | with_reducible assumption | with_reducible apply Within.refl | ((first | intro x | (lift_lets; intro x)); refine Within.cut (t := x) ?_ ?_; rotate_left; intro hx; clear_value x; rotate_right; dsimp -zeta only [x]) | with_reducible apply Within.step ?_ bump_within rfl | with_reducible apply Within.step ?_ freeArchive_within rfl | with_reducible apply Within.step ?_ loseSeq_within rfl | with_reducible apply Within.step ?_ modCtx_within rfl | (with_reducible apply Within.step ?_ (Within.foldl (M := 29104) ?_ _ _) rfl; rotate_left; intro _ _) | split

theorem rejournal_within : ∀ {x0}, Within 24576 x0 (rejournal x0) := by
  intros
  unfold rejournal
  repeat' first | with_reducible assumption | with_reducible apply Within.refl | ((first | intro x | (lift_lets; intro x)); refine Within.cut (t := x) ?_ ?_; rotate_left; intro hx; clear_value x; rotate_right; dsimp -zeta only [x]) | ((first | intro x | (lift_lets; intro x)); clear_value x) | with_reducible apply Within.step ?_ journal_within rfl | with_reducible apply Within.step ?_ modStep_within rfl | (with_reducible apply Within.step ?_ (Within.foldl (M := 24576) ?_ _ _) rfl; rotate_left; intro _ _) | with_reducible apply Within.ite

theorem recommand_within : ∀ {x0}, Within 16640 x0 (recommand x0) := by
  intros
  unfold recommand
  repeat' first | with_reducible apply Within.refl | with_reducible apply Within.step ?_ journal_within rfl | with_reducible apply Within.step ?_ modCmd_within rfl | (with_reducible apply Within.step ?_ (Within.foldl (M := 16640) ?_ _ _) rfl; rotate_left; intro _ _) | with_reducible apply Within.ite | split

theorem pairWard_within : ∀ {x0 x1}, Within 29104 x1 (pairWard x0 x1) := by
  intros
  unfold pairWard
  repeat' first | with_reducible assumption | with_reducible apply Within.refl | ((first | intro x | (lift_lets; intro x)); refine Within.cut (t := x) ?_ ?_; rotate_left; intro hx; clear_value x; rotate_right; dsimp -zeta only [x]) | ((first | intro x | (lift_lets; intro x)); clear_value x) | with_reducible apply Within.step ?_ journal_within rfl | with_reducible apply Within.step ?_ loseRemote_within rfl | with_reducible apply Within.step ?_ recommand_within rfl | with_reducible apply Within.step ?_ rejournal_within rfl | with_reducible apply Within.step ?_ setFld_within rfl | with_reducible apply Within.step ?_ setReg_within rfl | with_reducible apply Within.step ?_ setReg64_within rfl | with_reducible apply Within.step ?_ Within.onCmt rfl | with_reducible apply Within.ite

theorem pairBuddy_within : ∀ {x0 x1}, Within 16400 x1 (pairBuddy x0 x1) := by
  intros
  unfold pairBuddy
  repeat' first | with_reducible assumption | with_reducible apply Within.refl | ((first | intro x | (lift_lets; intro x)); refine Within.cut (t := x) ?_ ?_; rotate_left; intro hx; clear_value x; rotate_right; dsimp -zeta only [x]) | ((first | intro x | (lift_lets; intro x)); clear_value x) | with_reducible apply Within.step ?_ setFld_within rfl | with_reducible apply Within.step ?_ setReg_within rfl | with_reducible apply Within.step ?_ Within.onCmt rfl

theorem execPairing_within : ∀ {x0 x1}, ∀ {t}, (execPairing x0 x1) = .next t → Within 29104 x1 t := by
  intros
  rename_i h
  unfold execPairing at h
  injection h with h
  subst h
  repeat' first | with_reducible apply Within.refl | with_reducible apply Within.step ?_ endPairing_within rfl | with_reducible apply Within.step ?_ pairBuddy_within rfl | with_reducible apply Within.step ?_ pairWard_within rfl | with_reducible apply Within.step ?_ Within.onCmt rfl | with_reducible apply Within.ite

theorem execPairingRetry_within : ∀ {x0}, ∀ {t}, (execPairingRetry x0) = .next t → Within 16384 x0 t := by
  intros
  rename_i h
  unfold execPairingRetry at h
  injection h with h
  subst h
  repeat' first | with_reducible apply Within.refl | with_reducible apply Within.step ?_ Within.onCmt rfl | with_reducible apply Within.ite

theorem leaveHotSpare_within : ∀ {x0}, Within 1049104 x0 (leaveHotSpare x0) := by
  intros
  unfold leaveHotSpare
  repeat' first | with_reducible assumption | with_reducible apply Within.refl | ((first | intro x | (lift_lets; intro x)); refine Within.cut (t := x) ?_ ?_; rotate_left; intro hx; clear_value x; rotate_right; dsimp -zeta only [x]) | with_reducible apply Within.step ?_ modDie_within rfl | with_reducible apply Within.step ?_ selfRefresh_within rfl | with_reducible apply Within.step ?_ setFld_within rfl | with_reducible apply Within.step ?_ Within.onPwr rfl | (with_reducible apply Within.step ?_ (Within.foldl (M := 1049104) ?_ _ _) rfl; rotate_left; intro _ _) | with_reducible apply Within.ite

theorem placeMirrored_within : ∀ {x0 x1 x2}, Within 4224 x1 (placeMirrored x0 x1 x2) := by
  intros
  unfold placeMirrored
  repeat' first | with_reducible assumption | with_reducible apply Within.refl | ((first | intro x | (lift_lets; intro x)); refine Within.cut (t := x) ?_ ?_; rotate_left; intro hx; clear_value x; rotate_right; dsimp -zeta only [x]) | ((first | intro x | (lift_lets; intro x)); clear_value x) | with_reducible apply Within.step ?_ modObj_within rfl | with_reducible apply Within.step ?_ takeBlocks_within rfl | with_reducible apply Within.ite | split

theorem restoreCtx_within : ∀ {x0 x1}, Within 4224 x0 (restoreCtx x0 x1) := by
  intros
  unfold restoreCtx
  repeat' first | with_reducible assumption | with_reducible apply Within.refl | ((first | intro x | (lift_lets; intro x)); refine Within.cut (t := x) ?_ ?_; rotate_left; intro hx; clear_value x; rotate_right; dsimp -zeta only [x]) | ((first | intro x | (lift_lets; intro x)); clear_value x) | with_reducible apply Within.step ?_ modCtx_within rfl | with_reducible apply Within.step ?_ placeMirrored_within rfl | with_reducible apply Within.step ?_ placeTable_within rfl | (with_reducible apply Within.step ?_ (Within.foldl (M := 4224) ?_ _ _) rfl; rotate_left; intro _ _) | (with_reducible apply Within.step ?_ (Within.foldl_snd (M := 4224) ?_ _ _) rfl; rotate_left; intro _ _)

theorem restoreEntry_within {s : State} {q : Nat × SeqEntry} : Within 12736 s (restoreEntry s q) := by
  unfold restoreEntry
  extract_lets e in' out e1 s1 s2
  have h1 : Within 12736 s s1 := by
    refine Within.step (G := 8192) ?_ (Within.onSeq fun h => twf_tput h _ _) rfl
    cases hk : in' with
    | none => exact Within.refl _ _
    | some r => exact (Within.refl _ _).step (takeKv_within (y := r.1) (t := r.2) hk) rfl
  clear_value s1
  have h2 : Within 12736 s s2 := by
    cases hg : growNodes q.1 (nodesFor (tkeys e1.kvMap)) s1 with
    | none => simp only [s2, hg, Option.getD_none]; exact h1
    | some t => simp only [s2, hg, Option.getD_some]; exact h1.step (growNodes_within hg) rfl
  clear_value s2
  exact Within.ite h2 (h2.step (Within.onMem fun h => Memory.wf_pokeInput h) rfl)


theorem restoreArchive_within : ∀ {x0 x1}, Within 12416 x0 (restoreArchive x0 x1) := by
  intros
  unfold restoreArchive
  repeat' first | with_reducible apply Within.refl | ((first | intro x | (lift_lets; intro x)); clear_value x) | with_reducible apply Within.step ?_ modCtx_within rfl | with_reducible apply Within.step ?_ (takeFrames_within (by with_reducible assumption)) rfl | (with_reducible apply Within.step ?_ (Within.onSeq ?_) rfl; rotate_left; exact fun h => h) | split

theorem restoreModel_within : ∀ {x0 x1 x2}, Within 69632 x1 (restoreModel x0 x1 x2) := by
  intros
  unfold restoreModel
  repeat' first | with_reducible assumption | with_reducible apply Within.refl | ((first | intro x | (lift_lets; intro x)); refine Within.cut (t := x) ?_ ?_; rotate_left; intro hx; clear_value x; rotate_right; dsimp -zeta only [x]) | ((first | intro x | (lift_lets; intro x)); clear_value x) | with_reducible apply Within.step ?_ modModel_within rfl | with_reducible apply Within.step ?_ takeBlocks_within rfl | (with_reducible apply Within.step ?_ (Within.onMem ?_) rfl; rotate_left; exact fun h => Memory.wf_memWrite h _ _) | (with_reducible apply Within.step ?_ (Within.foldl (M := 69632) ?_ _ _) rfl; rotate_left; intro _ _) | split

theorem restorePan_within : ∀ {x0 x1 x2}, Within 38552 x0 (restorePan x0 x1 x2) := by
  intros
  unfold restorePan
  repeat' first | with_reducible assumption | with_reducible apply Within.refl | ((first | intro x | (lift_lets; intro x)); refine Within.cut (t := x) ?_ ?_; rotate_left; intro hx; clear_value x; rotate_right; dsimp -zeta only [x]) | ((first | intro x | (lift_lets; intro x)); clear_value x) | with_reducible apply Within.step ?_ createPan_within rfl | with_reducible apply Within.step ?_ (startLoad_within (by with_reducible assumption)) rfl | split

theorem restoreMirror_within : ∀ {x0 x1}, Within 112600 x1 (restoreMirror x0 x1) := by
  intros
  unfold restoreMirror
  repeat' first | with_reducible assumption | with_reducible apply Within.refl | ((first | intro x | (lift_lets; intro x)); refine Within.cut (t := x) ?_ ?_; rotate_left; intro hx; clear_value x; rotate_right; dsimp -zeta only [x]) | ((first | intro x | (lift_lets; intro x)); clear_value x) | with_reducible apply Within.step ?_ modEmb_within rfl | with_reducible apply Within.step ?_ modSlot_within rfl | with_reducible apply Within.step ?_ restoreArchive_within rfl | with_reducible apply Within.step ?_ restoreCtx_within rfl | with_reducible apply Within.step ?_ restoreEntry_within rfl | with_reducible apply Within.step ?_ restoreModel_within rfl | with_reducible apply Within.step ?_ restorePan_within rfl | with_reducible apply Within.step ?_ writeObj_within rfl | (with_reducible apply Within.step ?_ (Within.foldl (M := 112600) ?_ _ _) rfl; rotate_left; intro _ _) | with_reducible apply Within.ite | split

theorem execClaimReceive_within : ∀ {x0 x1 x2}, ∀ {t}, (execClaimReceive x0 x1 x2) = .next t → Within 1308664 x2 t := by
  intros
  rename_i h
  unfold execClaimReceive at h
  injection h with h
  subst h
  repeat' first | with_reducible assumption | with_reducible apply Within.refl | ((first | intro x | (lift_lets; intro x)); refine Within.cut (t := x) ?_ ?_; rotate_left; intro hx; clear_value x; rotate_right; dsimp -zeta only [x]) | ((first | intro x | (lift_lets; intro x)); clear_value x) | with_reducible apply Within.step ?_ bump_within rfl | with_reducible apply Within.step ?_ leaveHotSpare_within rfl | with_reducible apply Within.step ?_ restoreMirror_within rfl | with_reducible apply Within.step ?_ sendRecord_within rfl | with_reducible apply Within.step ?_ setFld_within rfl | with_reducible apply Within.step ?_ settleAll_within rfl | (with_reducible apply Within.step ?_ (Within.onSeq ?_) rfl; rotate_left; first | exact fun h => h | exact fun h => twf_tput h _ _ | exact fun h => twf_tmod h _ _) | with_reducible apply Within.step ?_ Within.onCmt rfl | with_reducible apply Within.step ?_ Within.onLnk rfl | (with_reducible apply Within.step ?_ (Within.foldl (M := 1308664) ?_ _ _) rfl; rotate_left; intro _ _) | with_reducible apply Within.ite

theorem execRemotePagePull_within : ∀ {x0 x1 x2 x3}, ∀ {t}, (execRemotePagePull x0 x1 x2 x3) = .next t → Within 12464 x3 t := by
  intros
  rename_i h
  unfold execRemotePagePull at h
  injection h with h
  subst h
  repeat' first | with_reducible assumption | with_reducible apply Within.refl | ((first | intro x | (lift_lets; intro x)); clear_value x) | (rename_i heq; obtain ⟨_, hx, hy⟩ := Option.map_eq_some_iff.1 heq; cases hy; clear hx heq) | with_reducible apply Within.step ?_ endRerep_within rfl | with_reducible apply Within.step ?_ modEntry_within rfl | with_reducible apply Within.step ?_ modObj_within rfl | with_reducible apply Within.step ?_ takeFrame_within rfl | with_reducible apply Within.step ?_ (takeKv_within (by with_reducible assumption)) rfl | (with_reducible apply Within.step ?_ (Within.onMem ?_) rfl; rotate_left; first | exact fun h => h | exact fun h => Memory.wf_memWrite h _ _ | exact fun h => Memory.wf_memZero h _ _ | exact fun h => Memory.wf_pokeObj h | exact fun h => Memory.wf_memMove h | exact fun h => Memory.wf_poke h | exact fun h => Memory.wf_pokeInput h | exact fun h => Memory.wf_pokeInput (Memory.wf_bringPages h) | exact fun h => Memory.wf_writeArchive h | exact fun h => Memory.wf_foldl (fun m x k => Memory.wf_memZero k _ _) h | exact fun h => Memory.wf_foldl (fun m x k => Memory.wf_memWrite k _ _) h) | (with_reducible apply Within.step ?_ (Within.onSeq ?_) rfl; rotate_left; first | exact fun h => h | exact fun h => twf_tput h _ _ | exact fun h => twf_tmod h _ _) | with_reducible apply Within.ite | split | dsimp -zeta only | dsimp only

/-! ### Cores -/

theorem execCoreKick_within : ∀ {x0 x1}, ∀ {t}, (execCoreKick x0 x1) = .next t → Within 32768 x1 t := by
  intros
  rename_i h
  unfold execCoreKick at h
  injection h with h
  subst h
  repeat' first | with_reducible apply Within.refl | with_reducible apply Within.step ?_ Within.onFlt rfl | with_reducible apply Within.ite

theorem execCoreWatchdogExpiry_within : ∀ {x0 x1}, ∀ {t}, (execCoreWatchdogExpiry x0 x1) = .next t → Within 1964016 x1 t := by
  intros
  rename_i h
  unfold execCoreWatchdogExpiry at h
  injection h with h
  subst h
  repeat' first | with_reducible assumption | with_reducible apply Within.refl | with_reducible apply Within.step ?_ crashCore_within rfl | with_reducible apply Within.step ?_ present_within rfl | with_reducible apply Within.ite

theorem execCoreRestart_within : ∀ {x0 x1}, ∀ {t}, (execCoreRestart x0 x1) = .next t → Within 557104 x1 t := by
  intros
  rename_i h
  unfold execCoreRestart at h
  injection h with h
  subst h
  repeat' first | with_reducible assumption | with_reducible apply Within.refl | ((first | intro x | (lift_lets; intro x)); refine Within.cut (t := x) ?_ ?_; rotate_left; intro hx; clear_value x; rotate_right; dsimp -zeta only [x]) | with_reducible apply Within.step ?_ bump_within rfl | with_reducible apply Within.step ?_ refreshAlive_within rfl | with_reducible apply Within.step ?_ Within.onFlt rfl | with_reducible apply Within.step ?_ Within.onFw rfl | with_reducible apply Within.ite

theorem execCoreRetire_within : ∀ {x0 x1}, ∀ {t}, (execCoreRetire x0 x1) = .next t → Within 524304 x1 t := by
  intros
  rename_i h
  unfold execCoreRetire at h
  injection h with h
  subst h
  repeat' first | with_reducible apply Within.refl | with_reducible apply Within.step ?_ setFld_within rfl | with_reducible apply Within.step ?_ Within.onFw rfl | with_reducible apply Within.ite | split

theorem execCd1Takeover_within : ∀ {x0}, ∀ {t}, (execCd1Takeover x0) = .next t → Within 1964016 x0 t := by
  intros
  rename_i h
  unfold execCd1Takeover at h
  injection h with h
  subst h
  repeat' first | with_reducible assumption | with_reducible apply Within.refl | ((first | intro x | (lift_lets; intro x)); refine Within.cut (t := x) ?_ ?_; rotate_left; intro hx; clear_value x; rotate_right; dsimp -zeta only [x]) | with_reducible apply Within.step ?_ crashWork_within rfl | with_reducible apply Within.step ?_ dropUpdate_within rfl | with_reducible apply Within.step ?_ refreshAlive_within rfl | with_reducible apply Within.step ?_ setFld_within rfl | with_reducible apply Within.step ?_ setReg_within rfl | with_reducible apply Within.step ?_ showFw_within rfl | with_reducible apply Within.step ?_ Within.onCmt rfl | with_reducible apply Within.step ?_ Within.onFlt rfl | with_reducible apply Within.step ?_ Within.onFw rfl | with_reducible apply Within.ite

theorem execControlLogApply_within : ∀ {x0}, ∀ {t}, (execControlLogApply x0) = .next t → Within 16384 x0 t := by
  intros
  rename_i h
  unfold execControlLogApply at h
  injection h with h
  subst h
  repeat' first | with_reducible apply Within.refl | with_reducible apply Within.step ?_ Within.onCmt rfl | with_reducible apply Within.ite | split

/-! ### Firmware -/

theorem writeFlash_within : ∀ {x0 x1 x2}, Within 524288 x2 (writeFlash x0 x1 x2) := by
  intros
  unfold writeFlash
  repeat' first | with_reducible apply Within.refl | ((first | intro x | (lift_lets; intro x)); clear_value x) | with_reducible apply Within.step ?_ Within.onFw rfl

theorem execFwStage_within : ∀ {x0 x1 x2}, ∀ {t}, (execFwStage x0 x1 x2) = .next t → Within 540976 x2 t := by
  intros
  rename_i h
  unfold execFwStage at h
  injection h with h
  subst h
  repeat' first | with_reducible apply Within.refl | ((first | intro x | (lift_lets; intro x)); clear_value x) | (with_reducible apply Within.step ?_ (startHeld_within (M := 540976) ?_ rfl) rfl; rotate_left; intro _ _) | with_reducible apply Within.step ?_ endFail_within rfl | with_reducible apply Within.step ?_ endOk_within rfl | with_reducible apply Within.step ?_ writeFlash_within rfl | split

theorem beginPause_within : ∀ {x0 x1}, Within 524368 x1 (beginPause x0 x1) := by
  intros
  unfold beginPause
  repeat' first | with_reducible apply Within.refl | with_reducible apply Within.step ?_ setFld_within rfl | with_reducible apply Within.step ?_ Within.onFw rfl | (with_reducible apply Within.step ?_ (Within.onHost ?_) rfl; rotate_left; exact fun h => h)

theorem writeHandoff_within : ∀ {x0 x1}, Within 524296 x1 (writeHandoff x0 x1) := by
  intros
  unfold writeHandoff
  repeat' first | with_reducible assumption | with_reducible apply Within.refl | with_reducible apply Within.step ?_ Within.onFw rfl | with_reducible apply Within.step ?_ Within.set_free rfl

theorem stageImage_within : ∀ {x0 x1}, Within 4096 x1 (stageImage x0 x1) := by
  intros
  unfold stageImage
  repeat' first | with_reducible assumption | with_reducible apply Within.refl | (with_reducible apply Within.step ?_ (Within.onMem ?_) rfl; rotate_left; first | exact fun h => h | exact fun h => Memory.wf_memWrite h _ _ | exact fun h => Memory.wf_memZero h _ _ | exact fun h => Memory.wf_pokeObj h | exact fun h => Memory.wf_memMove h) | split

theorem adoptImage_within : ∀ {x0 x1 x2 x3}, Within 1630576 x3 (adoptImage x0 x1 x2 x3) := by
  intros
  unfold adoptImage
  repeat' first | with_reducible assumption | with_reducible apply Within.refl | ((first | intro x | (lift_lets; intro x)); refine Within.cut (t := x) ?_ ?_; rotate_left; intro hx; clear_value x; rotate_right; dsimp -zeta only [x]) | with_reducible apply Within.step ?_ endOk_within rfl | with_reducible apply Within.step ?_ extend_within rfl | with_reducible apply Within.step ?_ resumeShutdown_within rfl | with_reducible apply Within.step ?_ setFld_within rfl | with_reducible apply Within.step ?_ setReg_within rfl | with_reducible apply Within.step ?_ showFw_within rfl | (with_reducible apply Within.step ?_ (Within.onHost ?_) rfl; rotate_left; first | exact fun h => h | exact fun h => Memory.wf_memWrite h _ _) | with_reducible apply Within.step ?_ Within.onFlt rfl | with_reducible apply Within.step ?_ Within.onFw rfl

theorem goOnUpdate_within : ∀ {x0 x1}, Within 1964024 x1 (goOnUpdate x0 x1) := by
  intros
  unfold goOnUpdate
  repeat' first | with_reducible assumption | with_reducible apply Within.refl | ((first | intro x | (lift_lets; intro x)); refine Within.cut (t := x) ?_ ?_; rotate_left; intro hx; clear_value x; rotate_right; dsimp -zeta only [x]) | with_reducible apply Within.step ?_ abandonAll_within rfl | with_reducible apply Within.step ?_ adoptImage_within rfl | with_reducible apply Within.step ?_ beginLifeWrite_within rfl | with_reducible apply Within.step ?_ beginPause_within rfl | with_reducible apply Within.step ?_ dropUpdate_within rfl | with_reducible apply Within.step ?_ modCmd_within rfl | with_reducible apply Within.step ?_ writeHandoff_within rfl | with_reducible apply Within.ite | split

theorem execFwActivate_within : ∀ {x0 x1}, ∀ {t}, (execFwActivate x0 x1) = .next t → Within 1964024 x1 t := by
  intros
  rename_i h
  unfold execFwActivate at h
  injection h with h
  subst h
  repeat' first | with_reducible assumption | with_reducible apply Within.refl | with_reducible apply Within.step ?_ endFail_within rfl | with_reducible apply Within.step ?_ goOnUpdate_within rfl | with_reducible apply Within.step ?_ stageImage_within rfl | (with_reducible apply Within.step ?_ (startHeld_within (M := 1964024) ?_ rfl) rfl; rotate_left; intro _ _) | (with_reducible apply Within.step ?_ (whileRunning_within (M := 1964024) ?_) rfl; rotate_left; intro _ _) | with_reducible apply Within.step ?_ Within.onFw rfl | with_reducible apply Within.ite | split

theorem execFwPromotion_within : ∀ {x0}, ∀ {t}, (execFwPromotion x0) = .next t → Within 524304 x0 t := by
  intros
  rename_i h
  unfold execFwPromotion at h
  injection h with h
  subst h
  repeat' first | with_reducible assumption | with_reducible apply Within.refl | ((first | intro x | (lift_lets; intro x)); refine Within.cut (t := x) ?_ ?_; rotate_left; intro hx; clear_value x; rotate_right; dsimp -zeta only [x]) | ((first | intro x | (lift_lets; intro x)); clear_value x) | with_reducible apply Within.step ?_ setFld_within rfl | with_reducible apply Within.step ?_ showFw_within rfl | with_reducible apply Within.step ?_ writeFlash_within rfl | with_reducible apply Within.step ?_ Within.onFw rfl | with_reducible apply Within.ite | split

theorem setLock_within : ∀ {x0}, Within 524304 x0 (setLock x0) := by
  intros
  unfold setLock
  repeat' first | with_reducible apply Within.refl | with_reducible apply Within.step ?_ extend_within rfl | with_reducible apply Within.step ?_ setFld_within rfl | with_reducible apply Within.ite

theorem execFwLock_within : ∀ {x0 x1}, ∀ {t}, (execFwLock x0 x1) = .next t → Within 524304 x1 t := by
  intros
  rename_i h
  unfold execFwLock at h
  injection h with h
  subst h
  repeat' first | with_reducible apply Within.refl | with_reducible apply Within.step ?_ setLock_within rfl | with_reducible apply Within.ite

theorem svnAdvance_within : ∀ {x0 x1}, Within 524304 x1 (svnAdvance x0 x1) := by
  intros
  unfold svnAdvance
  repeat' first | with_reducible apply Within.refl | ((first | intro x | (lift_lets; intro x)); clear_value x) | with_reducible apply Within.step ?_ showFw_within rfl | with_reducible apply Within.step ?_ Within.onFw rfl | with_reducible apply Within.ite

theorem revokeKeys_within : ∀ {x0 x1}, Within 524304 x1 (revokeKeys x0 x1) := by
  intros
  unfold revokeKeys
  repeat' first | with_reducible apply Within.refl | ((first | intro x | (lift_lets; intro x)); clear_value x) | with_reducible apply Within.step ?_ showFw_within rfl | with_reducible apply Within.step ?_ Within.onFw rfl | with_reducible apply Within.ite

theorem execFwSvnAdvance_within : ∀ {x0 x1}, ∀ {t}, (execFwSvnAdvance x0 x1) = .next t → Within 524304 x1 t := by
  intros
  rename_i h
  unfold execFwSvnAdvance at h
  injection h with h
  subst h
  repeat' first | with_reducible apply Within.refl | with_reducible apply Within.step ?_ svnAdvance_within rfl

theorem execFwKeyRevoke_within : ∀ {x0 x1}, ∀ {t}, (execFwKeyRevoke x0 x1) = .next t → Within 524304 x1 t := by
  intros
  rename_i h
  unfold execFwKeyRevoke at h
  injection h with h
  subst h
  repeat' first | with_reducible apply Within.refl | with_reducible apply Within.step ?_ revokeKeys_within rfl

theorem execEntropyHealthFail_within : ∀ {x0 x1}, ∀ {t}, (execEntropyHealthFail x0 x1) = .next t → Within 524304 x1 t := by
  intros
  rename_i h
  unfold execEntropyHealthFail at h
  injection h with h
  subst h
  repeat' first | with_reducible apply Within.refl | with_reducible apply Within.step ?_ setFld_within rfl | with_reducible apply Within.step ?_ Within.onFw rfl | with_reducible apply Within.ite

theorem execAttest_within : ∀ {x0 x1}, ∀ {t}, (execAttest x0 x1) = .next t → Within 16752 x1 t := by
  intros
  rename_i h
  unfold execAttest at h
  injection h with h
  subst h
  repeat' first | with_reducible apply Within.refl | (with_reducible apply Within.step ?_ (startHeld_within (M := 16752) ?_ rfl) rfl; rotate_left; intro _ _) | with_reducible apply Within.step ?_ dmaWrite_within rfl | with_reducible apply Within.step ?_ endOk_within rfl

/-! ### Pmc -/

theorem execPmcSample_within : ∀ {x0 x1}, ∀ {t}, (execPmcSample x0 x1) = .next t → Within 278896 x1 t := by
  intros
  rename_i h
  unfold execPmcSample at h
  injection h with h
  subst h
  repeat' first | with_reducible apply Within.refl | ((first | intro x | (lift_lets; intro x)); clear_value x) | (with_reducible apply Within.step ?_ (startCmd_within (M := 278896) ?_ rfl) rfl; rotate_left; intro _ _) | with_reducible apply Within.step ?_ dmaWrite_within rfl | with_reducible apply Within.step ?_ endFail_within rfl | with_reducible apply Within.step ?_ endOk_within rfl | (with_reducible apply Within.step ?_ (Within.onPmc ?_) rfl; rotate_left; exact fun h => h) | with_reducible apply Within.ite | split

theorem execPmcWindowOpen_within : ∀ {x0 x1 x2}, ∀ {t}, (execPmcWindowOpen x0 x1 x2) = .next t → Within 262656 x2 t := by
  intros
  rename_i h
  unfold execPmcWindowOpen at h
  injection h with h
  subst h
  repeat' first | with_reducible apply Within.refl | with_reducible apply Within.step ?_ modSample_within rfl | with_reducible apply Within.step ?_ openWindow_within rfl | with_reducible apply Within.ite | split

theorem execPmcWindowClose_within : ∀ {x0 x1 x2}, ∀ {t}, (execPmcWindowClose x0 x1 x2) = .next t → Within 279408 x2 t := by
  intros
  rename_i h
  unfold execPmcWindowClose at h
  injection h with h
  subst h
  repeat' first | with_reducible apply Within.refl | with_reducible apply Within.step ?_ closeWindow_within rfl | with_reducible apply Within.ite | split

theorem clearMarks_within : ∀ {x0 x1}, Within 512 x1 (clearMarks x0 x1) := by
  intros
  unfold clearMarks
  repeat' first | with_reducible apply Within.refl | with_reducible apply Within.step ?_ clearHwm_within rfl | with_reducible apply Within.step ?_ modDie_within rfl

theorem execPmcHwmClr_within : ∀ {x0 x1 x2}, ∀ {t}, (execPmcHwmClr x0 x1 x2) = .next t → Within 512 x2 t := by
  intros
  rename_i h
  unfold execPmcHwmClr at h
  injection h with h
  subst h
  repeat' first | with_reducible apply Within.refl | with_reducible apply Within.step ?_ clearMarks_within rfl | with_reducible apply Within.ite

theorem execPmcPanClr_within : ∀ {x0 x1}, ∀ {t}, (execPmcPanClr x0 x1) = .next t → Within 262144 x1 t := by
  intros
  rename_i h
  unfold execPmcPanClr at h
  injection h with h
  subst h
  repeat' first | with_reducible apply Within.refl | with_reducible apply Within.step ?_ modHist_within rfl | with_reducible apply Within.ite

/-! ### Power -/

theorem noteCap_within : ∀ {x0 x1}, Within 48 x1 (noteCap x0 x1) := by
  intros
  unfold noteCap
  repeat' first | with_reducible apply Within.refl | with_reducible apply Within.step ?_ bump_within rfl | with_reducible apply Within.ite

theorem execMfrPowerCap_within : ∀ {x0 x1}, ∀ {t}, (execMfrPowerCap x0 x1) = .next t → Within 48 x1 t := by
  intros
  rename_i h
  unfold execMfrPowerCap at h
  injection h with h
  subst h
  repeat' first | with_reducible apply Within.refl | with_reducible apply Within.step ?_ noteCap_within rfl | with_reducible apply Within.step ?_ setFld_within rfl | with_reducible apply Within.ite

theorem execPowerSample_within : ∀ {x0 x1 x2}, ∀ {t}, (execPowerSample x0 x1 x2) = .next t → Within 1048592 x2 t := by
  intros
  rename_i h
  unfold execPowerSample at h
  injection h with h
  subst h
  repeat' first | with_reducible apply Within.refl | with_reducible apply Within.step ?_ setReg_within rfl | with_reducible apply Within.step ?_ Within.onPwr rfl | with_reducible apply Within.ite

theorem setClock_within : ∀ {x0 x1 x2}, Within 528 x2 (setClock x0 x1 x2) := by
  intros
  unfold setClock
  repeat' first | with_reducible apply Within.refl | with_reducible apply Within.step ?_ modDie_within rfl | with_reducible apply Within.step ?_ setFld_within rfl

theorem execGovernorTick_within : ∀ {x0 x1 x2 x3}, ∀ {t}, (execGovernorTick x0 x1 x2 x3) = .next t → Within 1049104 x3 t := by
  intros
  rename_i h
  unfold execGovernorTick at h
  injection h with h
  subst h
  repeat' first | with_reducible assumption | with_reducible apply Within.refl | ((first | intro x | (lift_lets; intro x)); refine Within.cut (t := x) ?_ ?_; rotate_left; intro hx; clear_value x; rotate_right; dsimp -zeta only [x]) | with_reducible apply Within.step ?_ modDie_within rfl | with_reducible apply Within.step ?_ setClock_within rfl | with_reducible apply Within.step ?_ setFld_within rfl | with_reducible apply Within.step ?_ setReg_within rfl | with_reducible apply Within.step ?_ Within.onPwr rfl | (with_reducible apply Within.step ?_ (Within.foldl (M := 1049104) ?_ _ _) rfl; rotate_left; intro _ _) | with_reducible apply Within.ite | split

theorem execDroopDetect_within : ∀ {x0 x1}, ∀ {t}, (execDroopDetect x0 x1) = .next t → Within 33328 x1 t := by
  intros
  rename_i h
  unfold execDroopDetect at h
  injection h with h
  subst h
  repeat' first | with_reducible assumption | with_reducible apply Within.refl | ((first | intro x | (lift_lets; intro x)); refine Within.cut (t := x) ?_ ?_; rotate_left; intro hx; clear_value x; rotate_right; dsimp -zeta only [x]) | with_reducible apply Within.step ?_ bump_within rfl | with_reducible apply Within.step ?_ lifeAdd_within rfl | with_reducible apply Within.step ?_ modDie_within rfl | with_reducible apply Within.step ?_ present_within rfl | with_reducible apply Within.step ?_ setClock_within rfl | with_reducible apply Within.ite

theorem execDroopRecover_within : ∀ {x0 x1}, ∀ {t}, (execDroopRecover x0 x1) = .next t → Within 528 x1 t := by
  intros
  rename_i h
  unfold execDroopRecover at h
  injection h with h
  subst h
  repeat' first | with_reducible apply Within.refl | with_reducible apply Within.step ?_ modDie_within rfl | with_reducible apply Within.step ?_ setClock_within rfl | with_reducible apply Within.ite

theorem enterThrottle_within : ∀ {x0 x1}, Within 32816 x1 (enterThrottle x0 x1) := by
  intros
  unfold enterThrottle
  repeat' first | with_reducible apply Within.refl | with_reducible apply Within.step ?_ bump_within rfl | with_reducible apply Within.step ?_ present_within rfl

theorem readTemp_within : ∀ {x0 x1}, Within 1081904 x0 (readTemp x0 x1) := by
  intros
  unfold readTemp
  repeat' first | with_reducible assumption | with_reducible apply Within.refl | ((first | intro x | (lift_lets; intro x)); refine Within.cut (t := x) ?_ ?_; rotate_left; intro hx; clear_value x; rotate_right; dsimp -zeta only [x]) | with_reducible apply Within.step ?_ enterThrottle_within rfl | with_reducible apply Within.step ?_ lifeAdd_within rfl | with_reducible apply Within.step ?_ modDie_within rfl | with_reducible apply Within.step ?_ setClock_within rfl | with_reducible apply Within.step ?_ Within.onPwr rfl | with_reducible apply Within.ite

theorem deviceTemp_within : ∀ {x0 x1}, Within 16 x0 (deviceTemp x0 x1) := by
  intros
  unfold deviceTemp
  repeat' first | with_reducible assumption | with_reducible apply Within.refl | ((first | intro x | (lift_lets; intro x)); clear_value x) | with_reducible apply Within.step ?_ setFld_within rfl | with_reducible apply Within.ite

theorem tripAt_within : ∀ {x0 x1}, Within 1081856 x1 (tripAt x0 x1) := by
  intros
  unfold tripAt
  repeat' first | with_reducible assumption | with_reducible apply Within.refl | ((first | intro x | (lift_lets; intro x)); refine Within.cut (t := x) ?_ ?_; rotate_left; intro hx; clear_value x; rotate_right; dsimp -zeta only [x]) | with_reducible apply Within.step ?_ modDie_within rfl | with_reducible apply Within.step ?_ present_within rfl | with_reducible apply Within.step ?_ Within.onPwr rfl | (with_reducible apply Within.step ?_ (Within.foldl (M := 1081856) ?_ _ _) rfl; rotate_left; intro _ _) | with_reducible apply Within.ite

theorem execThermalSample_within : ∀ {x0 x1}, ∀ {t}, (execThermalSample x0 x1) = .next t → Within 1081904 x1 t := by
  intros
  rename_i h
  unfold execThermalSample at h
  injection h with h
  subst h
  repeat' first | with_reducible assumption | with_reducible apply Within.refl | ((first | intro x | (lift_lets; intro x)); refine Within.cut (t := x) ?_ ?_; rotate_left; intro hx; clear_value x; rotate_right; dsimp -zeta only [x]) | with_reducible apply Within.step ?_ deviceTemp_within rfl | with_reducible apply Within.step ?_ readTemp_within rfl | with_reducible apply Within.step ?_ setFld_within rfl | with_reducible apply Within.step ?_ setReg_within rfl | with_reducible apply Within.step ?_ tripAt_within rfl | (with_reducible apply Within.step ?_ (Within.foldl (M := 1081904) ?_ _ _) rfl; rotate_left; intro _ _) | with_reducible apply Within.ite | split

theorem execRailFault_within : ∀ {x0 x1}, ∀ {t}, (execRailFault x0 x1) = .next t → Within 32784 x1 t := by
  intros
  rename_i h
  unfold execRailFault at h
  injection h with h
  subst h
  repeat' first | with_reducible apply Within.refl | with_reducible apply Within.step ?_ present_within rfl | with_reducible apply Within.step ?_ setFld_within rfl | with_reducible apply Within.ite

/-! ### Rake -/

theorem rakeOne_within : ∀ {x0 x1 x2 x3 x4}, Within 512 x3.2 (rakeOne x0 x1 x2 x3 x4).2 := by
  intros
  unfold rakeOne
  repeat' first | with_reducible assumption | with_reducible apply Within.refl | ((first | intro x | (lift_lets; intro x)); refine Within.cut (t := x) ?_ ?_; rotate_left; intro hx; clear_value x; rotate_right; dsimp -zeta only [x]) | ((first | intro x | (lift_lets; intro x)); clear_value x) | with_reducible apply Within.step ?_ modDie_within rfl | split

theorem rake_within : ∀ {x0 x1}, Within 33336 x1 (rake x0 x1).2 := by
  intros
  unfold rake
  repeat' first | with_reducible assumption | with_reducible apply Within.refl | ((first | intro x | (lift_lets; intro x)); refine Within.cut (t := x.2) ?_ ?_; rotate_left; intro hx; clear_value x; rotate_right; dsimp -zeta only [x]) | ((first | intro x | (lift_lets; intro x)); clear_value x) | with_reducible apply Within.step ?_ bump_within rfl | with_reducible apply Within.step ?_ lifeAdd_within rfl | with_reducible apply Within.step ?_ modDie_within rfl | with_reducible apply Within.step ?_ noteSpill_within rfl | with_reducible apply Within.step ?_ rakeOne_within rfl | with_reducible apply Within.step ?_ setFld_within rfl | with_reducible apply Within.step ?_ setReg_within rfl | with_reducible apply Within.step ?_ draw_within rfl | (with_reducible apply Within.step ?_ (Within.foldl_snd (M := 33336) ?_ _ _) rfl; rotate_left; intro _ _)

theorem execWatchdogExpiry_within : ∀ {x0 x1}, ∀ {t}, (execWatchdogExpiry x0 x1) = .next t → Within 41528 x1 t := by
  intros
  rename_i h
  unfold execWatchdogExpiry at h
  injection h with h
  subst h
  repeat' first | with_reducible assumption | with_reducible apply Within.refl | ((first | intro x | (lift_lets; intro x)); refine Within.cut (t := x) ?_ ?_; rotate_left; intro hx; clear_value x; rotate_right; dsimp -zeta only [x]) | with_reducible apply Within.step ?_ modStep_within rfl | with_reducible apply Within.step ?_ present_within rfl | with_reducible apply Within.step ?_ rake_within rfl | with_reducible apply Within.ite | split

theorem execOrphanTimeout_within : ∀ {x0 x1}, ∀ {t}, (execOrphanTimeout x0 x1) = .next t → Within 33296 x1 t := by
  intros
  rename_i h
  unfold execOrphanTimeout at h
  injection h with h
  subst h
  repeat' first | with_reducible assumption | with_reducible apply Within.refl | ((first | intro x | (lift_lets; intro x)); refine Within.cut (t := x) ?_ ?_; rotate_left; intro hx; clear_value x; rotate_right; dsimp -zeta only [x]) | with_reducible apply Within.step ?_ modDie_within rfl | with_reducible apply Within.step ?_ present_within rfl | with_reducible apply Within.step ?_ setFld_within rfl | with_reducible apply Within.ite

theorem modSegment_within : ∀ {x0 x1 x2 x3}, Within 512 x3 (modSegment x0 x1 x2 x3) := by
  intros
  unfold modSegment
  repeat' first | with_reducible apply Within.refl | with_reducible apply Within.step ?_ modDie_within rfl

theorem execSpillSegmentEmpty_within : ∀ {x0 x1 x2}, ∀ {t}, (execSpillSegmentEmpty x0 x1 x2) = .next t → Within 512 x2 t := by
  intros
  rename_i h
  unfold execSpillSegmentEmpty at h
  injection h with h
  subst h
  repeat' first | with_reducible apply Within.refl | ((first | intro x | (lift_lets; intro x)); clear_value x) | with_reducible apply Within.step ?_ modSegment_within rfl | with_reducible apply Within.step ?_ modTile_within rfl | with_reducible apply Within.ite | split

theorem execSpillRefill_within : ∀ {x0 x1 x2}, ∀ {t}, (execSpillRefill x0 x1 x2) = .next t → Within 560 x2 t := by
  intros
  rename_i h
  unfold execSpillRefill at h
  injection h with h
  subst h
  repeat' first | with_reducible apply Within.refl | with_reducible apply Within.step ?_ bumpBy_within rfl | with_reducible apply Within.step ?_ modDie_within rfl | with_reducible apply Within.step ?_ modSegment_within rfl | with_reducible apply Within.step ?_ modTile_within rfl | with_reducible apply Within.ite | split

theorem clearSpillHwm_within : ∀ {x0 x1}, Within 16 x1 (clearSpillHwm x0 x1) := by
  intros
  unfold clearSpillHwm
  repeat' first | with_reducible apply Within.refl | with_reducible apply Within.step ?_ setFld_within rfl

theorem execSpillHwmClear_within : ∀ {x0 x1 x2}, ∀ {t}, (execSpillHwmClear x0 x1 x2) = .next t → Within 16 x2 t := by
  intros
  rename_i h
  unfold execSpillHwmClear at h
  injection h with h
  subst h
  repeat' first | with_reducible apply Within.refl | with_reducible apply Within.step ?_ clearSpillHwm_within rfl | with_reducible apply Within.ite

end Sys2Proof.Machine
end

