-- ==== Sys2Proof/Laws/WithinPlatform.lean ====
section
/-! SUPPORT. What each operation may touch: routers, contexts, management, register writes, tiers and start-up. -/

namespace Sys2Proof.Machine

/-! ### Contexts -/

theorem execCtxOpen_within : ∀ {x0 x1}, ∀ {t}, (execCtxOpen x0 x1) = .next t → Within 20920 x1 t := by
  intros
  rename_i h
  unfold execCtxOpen at h
  injection h with h
  subst h
  repeat' first | with_reducible assumption | with_reducible apply Within.refl | ((first | intro x | (lift_lets; intro x)); refine Within.cut (t := x.2) ?_ ?_; rotate_left; intro hx; clear_value x; rotate_right; dsimp -zeta only [x]) | ((first | intro x | (lift_lets; intro x)); clear_value x) | with_reducible apply Within.step ?_ draw_within rfl | with_reducible apply Within.step ?_ endFail_within rfl | with_reducible apply Within.step ?_ endOk_within rfl | with_reducible apply Within.step ?_ endWith_within rfl | with_reducible apply Within.step ?_ modCtx_within rfl | with_reducible apply Within.step ?_ placeTable_within rfl | (with_reducible apply Within.step ?_ (startCmd_within (M := 20920) ?_ rfl) rfl; rotate_left; intro _ _) | with_reducible apply Within.ite

theorem cancelWaiting_within : ∀ {x0 x1 x2}, Within 256 x2 (cancelWaiting x0 x1 x2) := by
  intros
  unfold cancelWaiting
  repeat' first | with_reducible apply Within.refl | with_reducible apply Within.step ?_ Within.onCmds rfl

theorem closeSeq_within : ∀ {x0 x1}, Within 25008 x0 (closeSeq x0 x1) := by
  intros
  unfold closeSeq
  repeat' first | with_reducible apply Within.refl | with_reducible apply Within.step ?_ endSession_within rfl | with_reducible apply Within.step ?_ endWaiting_within rfl | with_reducible apply Within.step ?_ freeSeq_within rfl | split

theorem beginClose_within : ∀ {x0 x1 x2}, Within 26032 x2 (beginClose x0 x1 x2) := by
  intros
  unfold beginClose
  repeat' first | with_reducible assumption | with_reducible apply Within.refl | ((first | intro x | (lift_lets; intro x)); refine Within.cut (t := x) ?_ ?_; rotate_left; intro hx; clear_value x; rotate_right; dsimp -zeta only [x]) | with_reducible apply Within.step ?_ cancelWaiting_within rfl | with_reducible apply Within.step ?_ closeSeq_within rfl | with_reducible apply Within.step ?_ modCtx_within rfl | with_reducible apply Within.step ?_ Within.onPans rfl | (with_reducible apply Within.step ?_ (Within.foldl (M := 26032) ?_ _ _) rfl; rotate_left; intro _ _)

theorem closeObj_within : ∀ {x0 x1 x2}, Within 37008 x1 (closeObj x0 x1 x2) := by
  intros
  unfold closeObj
  repeat' first | with_reducible assumption | with_reducible apply Within.refl | ((first | intro x | (lift_lets; intro x)); clear_value x) | with_reducible apply Within.step ?_ dropAlias_within rfl | with_reducible apply Within.step ?_ dropObj_within rfl | with_reducible apply Within.step ?_ modObj_within rfl | with_reducible apply Within.ite

theorem freeContext_within : ∀ {x0 x1}, Within 113296 x1 (freeContext x0 x1) := by
  intros
  unfold freeContext
  repeat' first | with_reducible assumption | with_reducible apply Within.refl | ((first | intro x | (lift_lets; intro x)); refine Within.cut (t := x) ?_ ?_; rotate_left; intro hx; clear_value x; rotate_right; dsimp -zeta only [x]) | with_reducible apply Within.step ?_ closeObj_within rfl | with_reducible apply Within.step ?_ dropHot_within rfl | with_reducible apply Within.step ?_ freeArchive_within rfl | with_reducible apply Within.step ?_ freeBlocks_within rfl | with_reducible apply Within.step ?_ freeTable_within rfl | with_reducible apply Within.step ?_ modCtx_within rfl | with_reducible apply Within.step ?_ modEmb_within rfl | with_reducible apply Within.step ?_ modModel_within rfl | with_reducible apply Within.step ?_ modSlot_within rfl | with_reducible apply Within.step ?_ Within.onBalances rfl | with_reducible apply Within.step ?_ Within.onMdl rfl | (with_reducible apply Within.step ?_ (Within.foldl (M := 113296) ?_ _ _) rfl; rotate_left; intro _ _) | with_reducible apply Within.ite

theorem execCtxClose_within : ∀ {x0 x1}, ∀ {t}, (execCtxClose x0 x1) = .next t → Within 130992 x1 t := by
  intros
  rename_i h
  unfold execCtxClose at h
  injection h with h
  subst h
  repeat' first | with_reducible assumption | with_reducible apply Within.refl | ((first | intro x | (lift_lets; intro x)); refine Within.cut (t := x) ?_ ?_; rotate_left; intro hx; clear_value x; rotate_right; dsimp -zeta only [x]) | ((first | intro x | (lift_lets; intro x)); clear_value x) | with_reducible apply Within.step ?_ beginClose_within rfl | with_reducible apply Within.step ?_ endOk_within rfl | with_reducible apply Within.step ?_ freeContext_within rfl | with_reducible apply Within.step ?_ modCmd_within rfl | (with_reducible apply Within.step ?_ (startCmd_within (M := 130992) ?_ rfl) rfl; rotate_left; intro _ _) | (with_reducible apply Within.step ?_ (whileRunning_within (M := 130992) ?_) rfl; rotate_left; intro _ _) | with_reducible apply Within.ite | split

theorem resetContext_within : ∀ {x0 x1}, Within 130992 x0 (resetContext x0 x1) := by
  intros
  unfold resetContext
  repeat' first | with_reducible assumption | with_reducible apply Within.refl | ((first | intro x | (lift_lets; intro x)); refine Within.cut (t := x) ?_ ?_; rotate_left; intro hx; clear_value x; rotate_right; dsimp -zeta only [x]) | ((first | intro x | (lift_lets; intro x)); clear_value x) | with_reducible apply Within.step ?_ beginClose_within rfl | with_reducible apply Within.step ?_ freeContext_within rfl | with_reducible apply Within.step ?_ modCtx_within rfl | with_reducible apply Within.step ?_ resetRegs_within rfl | with_reducible apply Within.ite

theorem execFunctionLevelReset_within : ∀ {x0 x1}, ∀ {t}, (execFunctionLevelReset x0 x1) = .next t → Within 130992 x1 t := by
  intros
  rename_i h
  unfold execFunctionLevelReset at h
  injection h with h
  subst h
  repeat' first | with_reducible assumption | with_reducible apply Within.refl | with_reducible apply Within.step ?_ resetContext_within rfl | (with_reducible apply Within.step ?_ (Within.foldl (M := 130992) ?_ _ _) rfl; rotate_left; intro _ _) | (with_reducible apply Within.step ?_ (Within.foldl_snd (M := 130992) ?_ _ _) rfl; rotate_left; intro _ _)

theorem execCtxQuery_within : ∀ {x0 x1}, ∀ {t}, (execCtxQuery x0 x1) = .next t → Within 16752 x1 t := by
  intros
  rename_i h
  unfold execCtxQuery at h
  injection h with h
  subst h
  repeat' first | with_reducible assumption | with_reducible apply Within.refl | ((first | intro x | (lift_lets; intro x)); refine Within.cut (t := x) ?_ ?_; rotate_left; intro hx; clear_value x; rotate_right; dsimp -zeta only [x]) | (with_reducible apply Within.step ?_ (startCmd_within (M := 16752) ?_ rfl) rfl; rotate_left; intro _ _) | with_reducible apply Within.step ?_ dmaWrite_within rfl | with_reducible apply Within.step ?_ endOk_within rfl | with_reducible apply Within.ite

theorem execCtxKeyImport_within : ∀ {x0 x1 x2}, ∀ {t}, (execCtxKeyImport x0 x1 x2) = .next t → Within 16816 x2 t := by
  intros
  rename_i h
  unfold execCtxKeyImport at h
  injection h with h
  subst h
  repeat' first | with_reducible apply Within.refl | (with_reducible apply Within.step ?_ (startCmd_within (M := 16816) ?_ rfl) rfl; rotate_left; intro _ _) | with_reducible apply Within.step ?_ endFail_within rfl | with_reducible apply Within.step ?_ endOk_within rfl | with_reducible apply Within.step ?_ modCtx_within rfl | with_reducible apply Within.ite | split

/-! ### Manage -/

theorem answer_within : ∀ {x0 x1}, Within 1048576 x1 (answer x0 x1) := by
  intros
  unfold answer
  repeat' first | with_reducible apply Within.refl | with_reducible apply Within.step ?_ Within.onPwr rfl

theorem execReadPin_within : ∀ {x0}, ∀ {t}, (execReadPin x0) = .next t → Within 1048576 x0 t := by
  intros
  rename_i h
  unfold execReadPin at h
  injection h with h
  subst h
  repeat' first | with_reducible apply Within.refl | with_reducible apply Within.step ?_ answer_within rfl | with_reducible apply Within.ite

theorem execReadTemperature1_within : ∀ {x0}, ∀ {t}, (execReadTemperature1 x0) = .next t → Within 1048576 x0 t := by
  intros
  rename_i h
  unfold execReadTemperature1 at h
  injection h with h
  subst h
  repeat' first | with_reducible apply Within.refl | with_reducible apply Within.step ?_ answer_within rfl | with_reducible apply Within.ite

theorem execStatusWord_within : ∀ {x0}, ∀ {t}, (execStatusWord x0) = .next t → Within 1048584 x0 t := by
  intros
  rename_i h
  unfold execStatusWord at h
  injection h with h
  subst h
  repeat' first | with_reducible assumption | with_reducible apply Within.refl | ((first | intro x | (lift_lets; intro x)); refine Within.cut (t := x.2) ?_ ?_; rotate_left; intro hx; clear_value x; rotate_right; dsimp -zeta only [x]) | with_reducible apply Within.step ?_ answer_within rfl | with_reducible apply Within.step ?_ draw_within rfl | with_reducible apply Within.ite

theorem execPldmSensorRead_within : ∀ {x0 x1}, ∀ {t}, (execPldmSensorRead x0 x1) = .next t → Within 1048576 x1 t := by
  intros
  rename_i h
  unfold execPldmSensorRead at h
  injection h with h
  subst h
  repeat' first | with_reducible apply Within.refl | with_reducible apply Within.step ?_ answer_within rfl | with_reducible apply Within.ite | split

theorem execMctpLifetimeRead_within : ∀ {x0 x1 x2}, ∀ {t}, (execMctpLifetimeRead x0 x1 x2) = .next t → Within 1048576 x2 t := by
  intros
  rename_i h
  unfold execMctpLifetimeRead at h
  injection h with h
  subst h
  repeat' first | with_reducible apply Within.refl | with_reducible apply Within.step ?_ answer_within rfl | with_reducible apply Within.ite

theorem execMctpStbyRead_within : ∀ {x0 x1}, ∀ {t}, (execMctpStbyRead x0 x1) = .next t → Within 1048576 x1 t := by
  intros
  rename_i h
  unfold execMctpStbyRead at h
  injection h with h
  subst h
  repeat' first | with_reducible apply Within.refl | with_reducible apply Within.step ?_ answer_within rfl | with_reducible apply Within.ite | split

theorem freeBits_within : ∀ {x0 x1}, Within 8 x1 (freeBits x0 x1).2 := by
  intro n
  induction n with
  | zero => intro s; exact Within.refl _ _
  | succ n ih => intro s; exact draw_within.step' ih rfl

theorem captureData_within : ∀ {x0}, Within 8 x0 (captureData x0).2 := by
  intros
  unfold captureData
  repeat' first | with_reducible apply Within.refl | with_reducible apply Within.step ?_ freeBits_within rfl | split

theorem tckRise_within : ∀ {x0 x1 x2}, Within 1048584 x2 (tckRise x0 x1 x2) := by
  intros
  unfold tckRise
  repeat' first | with_reducible assumption | with_reducible apply Within.refl | ((first | intro x | (lift_lets; intro x)); refine Within.cut (t := x.2) ?_ ?_; rotate_left; intro hx; clear_value x; rotate_right; dsimp -zeta only [x]) | with_reducible apply Within.step ?_ captureData_within rfl | with_reducible apply Within.step ?_ freeBits_within rfl | with_reducible apply Within.step ?_ Within.onPwr rfl | split

theorem tckFall_within : ∀ {x0}, Within 1048576 x0 (tckFall x0) := by
  intros
  unfold tckFall
  repeat' first | with_reducible apply Within.refl | with_reducible apply Within.step ?_ Within.onPwr rfl

theorem execBoundaryScan_within : ∀ {x0 x1 x2 x3 x4}, ∀ {t}, (execBoundaryScan x0 x1 x2 x3 x4) = .next t → Within 1048584 x4 t := by
  intros
  rename_i h
  unfold execBoundaryScan at h
  injection h with h
  subst h
  repeat' first | with_reducible apply Within.refl | with_reducible apply Within.step ?_ tckFall_within rfl | with_reducible apply Within.step ?_ tckRise_within rfl | with_reducible apply Within.step ?_ Within.onPwr rfl | with_reducible apply Within.ite

/-! ### RegWrite -/

theorem genericWrite_within : ∀ {x0 x1 x2}, Within 16 x2 (genericWrite x0 x1 x2) := by
  intros
  unfold genericWrite
  repeat' first | with_reducible apply Within.refl | with_reducible apply Within.step ?_ setReg_within rfl | with_reducible apply Within.ite | split

theorem writeCmd_within : ∀ {x0 x1 x2 x3}, Within 8400 x3 (writeCmd x0 x1 x2 x3) := by
  intros
  unfold writeCmd
  repeat' first | with_reducible apply Within.refl | ((first | intro x | (lift_lets; intro x)); clear_value x) | with_reducible apply Within.step ?_ genericWrite_within rfl | with_reducible apply Within.step ?_ qCfgWrite_within rfl | with_reducible apply Within.step ?_ tokCfgWrite_within rfl | with_reducible apply Within.step ?_ vfAllot_within rfl | with_reducible apply Within.ite

theorem writeSrcCfg_within : ∀ {x0 x1}, Within 32768 x1 (writeSrcCfg x0 x1) := by
  intros
  unfold writeSrcCfg
  repeat' first | with_reducible assumption | with_reducible apply Within.refl | ((first | intro x | (lift_lets; intro x)); refine Within.cut (t := x) ?_ ?_; rotate_left; intro hx; clear_value x; rotate_right; dsimp -zeta only [x]) | ((first | intro x | (lift_lets; intro x)); clear_value x) | with_reducible apply Within.step ?_ forceSource_within rfl | with_reducible apply Within.step ?_ modSrc_within rfl | with_reducible apply Within.ite

theorem writeLnkCtl_within : ∀ {x0 x1 x2 x3}, Within 131096 x3 (writeLnkCtl x0 x1 x2 x3) := by
  intros
  unfold writeLnkCtl
  repeat' first | with_reducible assumption | with_reducible apply Within.refl | ((first | intro x | (lift_lets; intro x)); refine Within.cut (t := x) ?_ ?_; rotate_left; intro hx; clear_value x; rotate_right; dsimp -zeta only [x]) | with_reducible apply Within.step ?_ genericWrite_within rfl | with_reducible apply Within.step ?_ linkOff_within rfl | with_reducible apply Within.step ?_ linkOn_within rfl | with_reducible apply Within.ite

theorem kickCores_within : ∀ {x0 x1}, Within 32768 x1 (kickCores x0 x1) := by
  intros
  unfold kickCores
  repeat' first | with_reducible apply Within.refl | with_reducible apply Within.step ?_ Within.onFlt rfl | (with_reducible apply Within.step ?_ (Within.foldl (M := 32768) ?_ _ _) rfl; rotate_left; intro _ _) | with_reducible apply Within.ite

theorem writeDie_within : ∀ {x0 x1 x2 x3 x4 x5}, Within 528 x5 (writeDie x0 x1 x2 x3 x4 x5) := by
  intros
  unfold writeDie
  repeat' first | with_reducible assumption | with_reducible apply Within.refl | ((first | intro x | (lift_lets; intro x)); refine Within.cut (t := x) ?_ ?_; rotate_left; intro hx; clear_value x; rotate_right; dsimp -zeta only [x]) | with_reducible apply Within.step ?_ clearArith_within rfl | with_reducible apply Within.step ?_ clearMarks_within rfl | with_reducible apply Within.step ?_ clearSpillHwm_within rfl | with_reducible apply Within.step ?_ genericWrite_within rfl | with_reducible apply Within.step ?_ modDie_within rfl | with_reducible apply Within.step ?_ setFld_within rfl | with_reducible apply Within.ite

theorem writePkg_within : ∀ {x0 x1 x2}, Within 950328 x2 (writePkg x0 x1 x2) := by
  intros
  unfold writePkg
  repeat' first | with_reducible apply Within.refl | ((first | intro x | (lift_lets; intro x)); clear_value x) | with_reducible apply Within.step ?_ genericWrite_within rfl | with_reducible apply Within.step ?_ kickCores_within rfl | with_reducible apply Within.step ?_ modHist_within rfl | with_reducible apply Within.step ?_ noteCap_within rfl | with_reducible apply Within.step ?_ refreshAlive_within rfl | with_reducible apply Within.step ?_ revokeKeys_within rfl | with_reducible apply Within.step ?_ setLock_within rfl | with_reducible apply Within.step ?_ showTunnels_within rfl | with_reducible apply Within.step ?_ svnAdvance_within rfl | with_reducible apply Within.step ?_ writeLnkCtl_within rfl | with_reducible apply Within.step ?_ writeSrcCfg_within rfl | with_reducible apply Within.ite

theorem execRegisterWrite_within : ∀ {x0 x1 x2 x3}, ∀ {t}, (execRegisterWrite x0 x1 x2 x3) = .next t → Within 959224 x3 t := by
  intros
  rename_i h
  unfold execRegisterWrite at h
  injection h with h
  subst h
  repeat' first | with_reducible apply Within.refl | with_reducible apply Within.step ?_ writeCmd_within rfl | with_reducible apply Within.step ?_ writeDie_within rfl | with_reducible apply Within.step ?_ writePkg_within rfl | with_reducible apply Within.ite | split

/-! ### Tiers -/

theorem markBlock_within : ∀ {x0 x1 x2}, Within 36880 x2 (markBlock x0 x1 x2) := by
  intros
  unfold markBlock
  repeat' first | with_reducible apply Within.refl | with_reducible apply Within.step ?_ retireBlock_within rfl | (with_reducible apply Within.step ?_ (Within.onMem ?_) rfl; rotate_left; exact fun h => h) | with_reducible apply Within.ite

theorem retireFrame_within : ∀ {x0 x1 x2}, Within 36880 x2 (retireFrame x0 x1 x2) := by
  intros
  unfold retireFrame
  repeat' first | with_reducible assumption | with_reducible apply Within.refl | ((first | intro x | (lift_lets; intro x)); refine Within.cut (t := x) ?_ ?_; rotate_left; intro hx; clear_value x; rotate_right; dsimp -zeta only [x]) | ((first | intro x | (lift_lets; intro x)); clear_value x) | with_reducible apply Within.step ?_ setFld_within rfl | with_reducible apply Within.step ?_ Within.onFlt rfl | (with_reducible apply Within.step ?_ (Within.onMem ?_) rfl; rotate_left; exact fun h => h) | with_reducible apply Within.ite

theorem loseAt_within : ∀ {x0 x1}, Within 12416 x1 (loseAt x0 x1) := by
  intros
  unfold loseAt
  repeat' first | with_reducible assumption | with_reducible apply Within.refl | ((first | intro x | (lift_lets; intro x)); clear_value x) | with_reducible apply Within.step ?_ freeFrames_within rfl | with_reducible apply Within.step ?_ giveKv_within rfl | with_reducible apply Within.step ?_ modEntry_within rfl | with_reducible apply Within.step ?_ modObj_within rfl | (with_reducible apply Within.step ?_ (Within.onSeq ?_) rfl; rotate_left; first | exact fun h => h | exact fun h => twf_tput h _ _ | exact fun h => twf_tmod h _ _) | (with_reducible apply Within.step ?_ (Within.foldl (M := 12416) ?_ _ _) rfl; rotate_left; intro _ _) | with_reducible apply Within.ite | split

theorem loseData_within : ∀ {x0 x1 x2 x3 x4}, Within 61872 x4 (loseData x0 x1 x2 x3 x4) := by
  intros
  unfold loseData
  repeat' first | with_reducible assumption | with_reducible apply Within.refl | ((first | intro x | (lift_lets; intro x)); refine Within.cut (t := x) ?_ ?_; rotate_left; intro hx; clear_value x; rotate_right; dsimp -zeta only [x]) | ((first | intro x | (lift_lets; intro x)); clear_value x) | with_reducible apply Within.step ?_ failCopy_within rfl | with_reducible apply Within.step ?_ loseAt_within rfl | with_reducible apply Within.step ?_ present_within rfl | (with_reducible apply Within.step ?_ (Within.onMem ?_) rfl; rotate_left; exact fun h => h) | (with_reducible apply Within.step ?_ (Within.foldl (M := 61872) ?_ _ _) rfl; rotate_left; intro _ _) | with_reducible apply Within.ite

theorem nearUncorrectable_within : ∀ {x0 x1 x2}, Within 61872 x2 (nearUncorrectable x0 x1 x2) := by
  intros
  unfold nearUncorrectable
  repeat' first | with_reducible apply Within.refl | ((first | intro x | (lift_lets; intro x)); clear_value x) | with_reducible apply Within.step ?_ bump_within rfl | with_reducible apply Within.step ?_ lifeAdd_within rfl | with_reducible apply Within.step ?_ loseData_within rfl | with_reducible apply Within.step ?_ markBlock_within rfl

theorem nearCorrected_within : ∀ {x0 x1 x2}, Within 36912 x2 (nearCorrected x0 x1 x2) := by
  intros
  unfold nearCorrected
  repeat' first | with_reducible assumption | with_reducible apply Within.refl | ((first | intro x | (lift_lets; intro x)); refine Within.cut (t := x) ?_ ?_; rotate_left; intro hx; clear_value x; rotate_right; dsimp -zeta only [x]) | ((first | intro x | (lift_lets; intro x)); clear_value x) | with_reducible apply Within.step ?_ bump_within rfl | with_reducible apply Within.step ?_ lifeAdd_within rfl | with_reducible apply Within.step ?_ markBlock_within rfl | with_reducible apply Within.step ?_ present_within rfl | (with_reducible apply Within.step ?_ (Within.onMem ?_) rfl; rotate_left; exact fun h => h) | with_reducible apply Within.ite

theorem nearRetries_within : ∀ {x0 x1 x2 x3}, Within 61872 x3 (nearRetries x0 x1 x2 x3).2 := by
  intros
  unfold nearRetries
  repeat' first | with_reducible apply Within.refl | ((first | intro x | (lift_lets; intro x)); clear_value x) | with_reducible apply Within.step ?_ bumpBy_within rfl | with_reducible apply Within.step ?_ lifeAdd_within rfl | with_reducible apply Within.step ?_ nearUncorrectable_within rfl | with_reducible apply Within.step ?_ present_within rfl | split

theorem noteOnDie_within : ∀ {x0 x1 x2 x3}, Within 4096 x3 (noteOnDie x0 x1 x2 x3) := by
  intros
  unfold noteOnDie
  repeat' first | with_reducible assumption | with_reducible apply Within.refl | (with_reducible apply Within.step ?_ (Within.onMem ?_) rfl; rotate_left; first | exact fun h => h | exact fun h => Memory.wf_memWrite h _ _ | exact fun h => Memory.wf_memZero h _ _ | exact fun h => Memory.wf_pokeObj h | exact fun h => Memory.wf_memMove h) | with_reducible apply Within.ite

theorem decodeUnit_within : ∀ {x0 x1 x2 x3}, Within 61880 x3 (decodeUnit x0 x1 x2 x3).2 := by
  intros
  unfold decodeUnit
  repeat' first | with_reducible assumption | with_reducible apply Within.refl | ((first | intro x | (lift_lets; intro x)); refine Within.cut (t := x.2) ?_ ?_; rotate_left; intro hx; clear_value x; rotate_right; dsimp -zeta only [x]) | ((first | intro x | (lift_lets; intro x)); clear_value x) | with_reducible apply Within.step ?_ draw_within rfl | with_reducible apply Within.step ?_ nearCorrected_within rfl | with_reducible apply Within.step ?_ nearUncorrectable_within rfl | with_reducible apply Within.ite | split

theorem nearRead_within : ∀ {x0 x1 x2 x3}, Within 61880 x3 (nearRead x0 x1 x2 x3).2 := by
  intros
  unfold nearRead
  repeat' first | with_reducible assumption | with_reducible apply Within.refl | ((first | intro x | (lift_lets; intro x)); refine Within.cut (t := x.2) ?_ ?_; rotate_left; intro hx; clear_value x; rotate_right; dsimp -zeta only [x]) | with_reducible apply Within.step ?_ decodeUnit_within rfl | with_reducible apply Within.step ?_ loseData_within rfl | with_reducible apply Within.step ?_ nearRetries_within rfl | with_reducible apply Within.step ?_ noteOnDie_within rfl | with_reducible apply Within.step ?_ present_within rfl | with_reducible apply Within.ite | split

theorem farPoison_within : ∀ {x0 x1 x2}, Within 61872 x2 (farPoison x0 x1 x2) := by
  intros
  unfold farPoison
  repeat' first | with_reducible apply Within.refl | with_reducible apply Within.step ?_ loseData_within rfl | with_reducible apply Within.step ?_ retireFrame_within rfl

theorem farRead_within : ∀ {x0 x1 x2 x3}, Within 61872 x3 (farRead x0 x1 x2 x3).2 := by
  intros
  unfold farRead
  repeat' first | with_reducible assumption | with_reducible apply Within.refl | with_reducible apply Within.step ?_ bump_within rfl | with_reducible apply Within.step ?_ farPoison_within rfl | with_reducible apply Within.step ?_ lifeAdd_within rfl | with_reducible apply Within.step ?_ loseData_within rfl | with_reducible apply Within.step ?_ present_within rfl | split

theorem sramRead_within : ∀ {x0 x1 x2 x3}, Within 61872 x3 (sramRead x0 x1 x2 x3).2 := by
  intros
  unfold sramRead
  repeat' first | with_reducible assumption | with_reducible apply Within.refl | with_reducible apply Within.step ?_ loseData_within rfl | with_reducible apply Within.step ?_ present_within rfl | split

theorem answerReq_within : ∀ {x0 x1}, Within 4096 x1 (answerReq x0 x1) := by
  intros
  unfold answerReq
  repeat' first | with_reducible assumption | with_reducible apply Within.refl | (with_reducible apply Within.step ?_ (Within.onMem ?_) rfl; rotate_left; first | exact fun h => h | exact fun h => Memory.wf_memWrite h _ _ | exact fun h => Memory.wf_memZero h _ _ | exact fun h => Memory.wf_pokeObj h | exact fun h => Memory.wf_memMove h)

theorem tierRead_within : ∀ {x0 x1 x2 x3 x4}, Within 61880 x4 (tierRead x0 x1 x2 x3 x4) := by
  intros
  unfold tierRead
  repeat' first | with_reducible assumption | with_reducible apply Within.refl | ((first | intro x | (lift_lets; intro x)); refine Within.cut (t := x.2) ?_ ?_; rotate_left; intro hx; clear_value x; rotate_right; dsimp -zeta only [x]) | with_reducible apply Within.step ?_ answerReq_within rfl | with_reducible apply Within.step ?_ farRead_within rfl | with_reducible apply Within.step ?_ nearRead_within rfl | with_reducible apply Within.step ?_ sramRead_within rfl | with_reducible apply Within.ite | split

theorem tierWrite_within : ∀ {x0 x1 x2}, Within 4096 x2 (tierWrite x0 x1 x2) := by
  intros
  unfold tierWrite
  repeat' first | with_reducible assumption | with_reducible apply Within.refl | (with_reducible apply Within.step ?_ (Within.onMem ?_) rfl; rotate_left; first | exact fun h => h | exact fun h => Memory.wf_memWrite h _ _ | exact fun h => Memory.wf_memZero h _ _ | exact fun h => Memory.wf_pokeObj h | exact fun h => Memory.wf_memMove h)

theorem execTierAccess_within : ∀ {x0 x1 x2 x3}, ∀ {t}, (execTierAccess x0 x1 x2 x3) = .next t → Within 61880 x3 t := by
  intros
  rename_i h
  unfold execTierAccess at h
  injection h with h
  subst h
  repeat' first | with_reducible assumption | with_reducible apply Within.refl | with_reducible apply Within.step ?_ answerReq_within rfl | with_reducible apply Within.step ?_ bump_within rfl | with_reducible apply Within.step ?_ present_within rfl | with_reducible apply Within.step ?_ tierRead_within rfl | with_reducible apply Within.step ?_ tierWrite_within rfl | with_reducible apply Within.ite

theorem execWriteCrcError_within : ∀ {x0 x1 x2 x3}, ∀ {t}, (execWriteCrcError x0 x1 x2 x3) = .next t → Within 61872 x3 t := by
  intros
  rename_i h
  unfold execWriteCrcError at h
  injection h with h
  subst h
  repeat' first | with_reducible apply Within.refl | with_reducible apply Within.step ?_ bump_within rfl | with_reducible apply Within.step ?_ bumpBy_within rfl | with_reducible apply Within.step ?_ lifeAdd_within rfl | with_reducible apply Within.step ?_ nearUncorrectable_within rfl | with_reducible apply Within.step ?_ present_within rfl | with_reducible apply Within.ite

theorem loseDevice_within : ∀ {x0 x1 x2}, Within 16 x2 (loseDevice x0 x1 x2) := by
  intros
  unfold loseDevice
  repeat' first | with_reducible assumption | with_reducible apply Within.refl | ((first | intro x | (lift_lets; intro x)); clear_value x) | with_reducible apply Within.step ?_ setFld_within rfl

theorem execCaParityError_within : ∀ {x0 x1 x2 x3}, ∀ {t}, (execCaParityError x0 x1 x2 x3) = .next t → Within 32816 x3 t := by
  intros
  rename_i h
  unfold execCaParityError at h
  injection h with h
  subst h
  repeat' first | with_reducible assumption | with_reducible apply Within.refl | ((first | intro x | (lift_lets; intro x)); refine Within.cut (t := x) ?_ ?_; rotate_left; intro hx; clear_value x; rotate_right; dsimp -zeta only [x]) | with_reducible apply Within.step ?_ bump_within rfl | with_reducible apply Within.step ?_ lifeAdd_within rfl | with_reducible apply Within.step ?_ loseDevice_within rfl | with_reducible apply Within.step ?_ present_within rfl | with_reducible apply Within.ite

theorem execPatrolScrub_within : ∀ {x0 x1 x2 x3}, ∀ {t}, (execPatrolScrub x0 x1 x2 x3) = .next t → Within 61880 x3 t := by
  intros
  rename_i h
  unfold execPatrolScrub at h
  injection h with h
  subst h
  repeat' first | with_reducible assumption | with_reducible apply Within.refl | ((first | intro x | (lift_lets; intro x)); refine Within.cut (t := x) ?_ ?_; rotate_left; intro hx; clear_value x; rotate_right; dsimp -zeta only [x]) | with_reducible apply Within.step ?_ bump_within rfl | with_reducible apply Within.step ?_ nearRead_within rfl | (with_reducible apply Within.step ?_ (Within.onMem ?_) rfl; rotate_left; first | exact fun h => h | exact fun h => Memory.wf_memWrite h _ _ | exact fun h => Memory.wf_memZero h _ _ | exact fun h => Memory.wf_pokeObj h | exact fun h => Memory.wf_memMove h) | with_reducible apply Within.ite | split

theorem losePort_within : ∀ {x0 x1}, Within 32784 x1 (losePort x0 x1) := by
  intros
  unfold losePort
  repeat' first | with_reducible apply Within.refl | with_reducible apply Within.step ?_ present_within rfl | with_reducible apply Within.step ?_ setFld_within rfl

theorem execFarFlitReplay_within : ∀ {x0 x1 x2}, ∀ {t}, (execFarFlitReplay x0 x1 x2) = .next t → Within 32816 x2 t := by
  intros
  rename_i h
  unfold execFarFlitReplay at h
  injection h with h
  subst h
  repeat' first | with_reducible assumption | with_reducible apply Within.refl | ((first | intro x | (lift_lets; intro x)); refine Within.cut (t := x) ?_ ?_; rotate_left; intro hx; clear_value x; rotate_right; dsimp -zeta only [x]) | with_reducible apply Within.step ?_ bump_within rfl | with_reducible apply Within.step ?_ lifeAdd_within rfl | with_reducible apply Within.step ?_ losePort_within rfl | with_reducible apply Within.step ?_ present_within rfl | with_reducible apply Within.ite

theorem execFarRequestTimeout_within : ∀ {x0 x1 x2}, ∀ {t}, (execFarRequestTimeout x0 x1 x2) = .next t → Within 36912 x2 t := by
  intros
  rename_i h
  unfold execFarRequestTimeout at h
  injection h with h
  subst h
  repeat' first | with_reducible assumption | with_reducible apply Within.refl | ((first | intro x | (lift_lets; intro x)); refine Within.cut (t := x) ?_ ?_; rotate_left; intro hx; clear_value x; rotate_right; dsimp -zeta only [x]) | with_reducible apply Within.step ?_ bump_within rfl | with_reducible apply Within.step ?_ lifeAdd_within rfl | with_reducible apply Within.step ?_ losePort_within rfl | with_reducible apply Within.step ?_ present_within rfl | (with_reducible apply Within.step ?_ (Within.onMem ?_) rfl; rotate_left; exact fun h => h) | with_reducible apply Within.ite

theorem execEventLogPoll_within : ∀ {x0 x1 x2 x3}, ∀ {t}, (execEventLogPoll x0 x1 x2 x3) = .next t → Within 61872 x3 t := by
  intros
  rename_i h
  unfold execEventLogPoll at h
  injection h with h
  subst h
  repeat' first | with_reducible assumption | with_reducible apply Within.refl | ((first | intro x | (lift_lets; intro x)); refine Within.cut (t := x) ?_ ?_; rotate_left; intro hx; clear_value x; rotate_right; dsimp -zeta only [x]) | with_reducible apply Within.step ?_ bumpBy_within rfl | with_reducible apply Within.step ?_ farPoison_within rfl | with_reducible apply Within.step ?_ lifeAdd_within rfl | with_reducible apply Within.step ?_ present_within rfl | with_reducible apply Within.step ?_ retireFrame_within rfl | (with_reducible apply Within.step ?_ (Within.foldl (M := 61872) ?_ _ _) rfl; rotate_left; intro _ _) | with_reducible apply Within.ite

theorem trainPort_within : ∀ {x0 x1 x2}, Within 36880 x2 (trainPort x0 x1 x2) := by
  intros
  unfold trainPort
  repeat' first | with_reducible assumption | with_reducible apply Within.refl | ((first | intro x | (lift_lets; intro x)); refine Within.cut (t := x) ?_ ?_; rotate_left; intro hx; clear_value x; rotate_right; dsimp -zeta only [x]) | ((first | intro x | (lift_lets; intro x)); have hf := fun a => x a; clear hf; subst x) | ((first | intro x | (lift_lets; intro x)); clear_value x) | with_reducible apply Within.step ?_ present_within rfl | with_reducible apply Within.step ?_ setReg_within rfl | (with_reducible apply Within.step ?_ (Within.onMem ?_) rfl; rotate_left; exact fun h => Memory.wf_memZero h _ _) | (with_reducible apply Within.step ?_ (Within.foldl (M := 36880) ?_ _ _) rfl; rotate_left; intro _ _) | with_reducible apply Within.ite

theorem trainFar_within : ∀ {x0 x1 x2}, Within 32784 x2 (trainFar x0 x1 x2) := by
  intros
  unfold trainFar
  repeat' first | with_reducible assumption | with_reducible apply Within.refl | ((first | intro x | (lift_lets; intro x)); refine Within.cut (t := x) ?_ ?_; rotate_left; intro hx; clear_value x; rotate_right; dsimp -zeta only [x]) | ((first | intro x | (lift_lets; intro x)); clear_value x) | with_reducible apply Within.step ?_ present_within rfl | with_reducible apply Within.step ?_ setReg_within rfl | with_reducible apply Within.ite

theorem trainAll_within : ∀ {x0 x1 x2}, Within 36880 x2 (trainAll x0 x1 x2) := by
  intros
  unfold trainAll
  repeat' first | with_reducible assumption | with_reducible apply Within.refl | ((first | intro x | (lift_lets; intro x)); refine Within.cut (t := x) ?_ ?_; rotate_left; intro hx; clear_value x; rotate_right; dsimp -zeta only [x]) | with_reducible apply Within.step ?_ trainFar_within rfl | with_reducible apply Within.step ?_ trainPort_within rfl | (with_reducible apply Within.step ?_ (Within.foldl (M := 36880) ?_ _ _) rfl; rotate_left; intro _ _)

/-! ### Startup -/

theorem unpowered_within : ∀ {x0}, Within 2097140 x0 (unpowered x0) := by
  intro s
  unfold unpowered
  constructor
  all_goals first | (intro h; exact absurd h (by decide)) | (intro _; rfl) | skip
  intro c
  exact ⟨rfl, rfl, c.host, rfl, rfl, rfl, rfl⟩

theorem execPowerDown_within : ∀ {x0}, ∀ {t}, (execPowerDown x0) = .next t → Within 2097140 x0 t := by
  intros
  rename_i h
  unfold execPowerDown at h
  injection h with h
  subst h
  repeat' first | with_reducible apply Within.refl | with_reducible apply Within.step ?_ unpowered_within rfl

theorem execPowerUp_within : ∀ {x0}, ∀ {t}, (execPowerUp x0) = .next t → Within 2097140 x0 t := by
  intros
  rename_i h
  unfold execPowerUp at h
  injection h with h
  subst h
  repeat' first | with_reducible apply Within.refl | with_reducible apply Within.step ?_ setReg_within rfl | with_reducible apply Within.step ?_ unpowered_within rfl | with_reducible apply Within.step ?_ Within.onPwr rfl | with_reducible apply Within.ite

theorem execPerstNAssert_within : ∀ {x0}, ∀ {t}, (execPerstNAssert x0) = .next t → Within 2097140 x0 t := by
  intros
  rename_i h
  unfold execPerstNAssert at h
  injection h with h
  subst h
  repeat' first | with_reducible apply Within.refl | with_reducible apply Within.step ?_ resetPackage_within rfl | with_reducible apply Within.step ?_ setReg_within rfl | with_reducible apply Within.step ?_ Within.onPwr rfl | with_reducible apply Within.ite

theorem execPwrGoodFall_within : ∀ {x0}, ∀ {t}, (execPwrGoodFall x0) = .next t → Within 2097140 x0 t := by
  intros
  rename_i h
  unfold execPwrGoodFall at h
  injection h with h
  subst h
  repeat' first | with_reducible apply Within.refl | with_reducible apply Within.step ?_ resetPackage_within rfl | with_reducible apply Within.step ?_ setReg_within rfl | with_reducible apply Within.step ?_ Within.onPwr rfl | with_reducible apply Within.ite

theorem takeMedia_within : ∀ {x0 x1}, Within 524288 x1 (takeMedia x0 x1) := by
  intros
  unfold takeMedia
  repeat' first | with_reducible apply Within.refl | with_reducible apply Within.step ?_ Within.onFw rfl

theorem execPerstNRelease_within : ∀ {x0 x1 x2}, ∀ {t}, (execPerstNRelease x0 x1 x2) = .next t → Within 1609820 x2 t := by
  intros
  rename_i h
  unfold execPerstNRelease at h
  injection h with h
  subst h
  repeat' first | with_reducible assumption | with_reducible apply Within.refl | ((first | intro x | (lift_lets; intro x)); refine Within.cut (t := x) ?_ ?_; rotate_left; intro hx; clear_value x; rotate_right; dsimp -zeta only [x]) | ((first | intro x | (lift_lets; intro x)); clear_value x) | with_reducible apply Within.step ?_ romBoot_within rfl | with_reducible apply Within.step ?_ setFld_within rfl | with_reducible apply Within.step ?_ takeMedia_within rfl | (with_reducible apply Within.step ?_ (Within.onHost ?_) rfl; rotate_left; exact fun h => h) | with_reducible apply Within.step ?_ Within.onPwr rfl | with_reducible apply Within.ite | with_reducible apply Within.step ?_ Within.set_cd0ResetAt rfl

theorem takeRegion_within : ∀ {x0}, Within 4096 x0 (takeRegion x0) := by
  intros
  unfold takeRegion
  repeat' first | with_reducible apply Within.refl | with_reducible apply Within.step ?_ takeBlocks_within rfl | with_reducible apply Within.ite | split

theorem execMemoryTraining_within : ∀ {x0 x1 x2}, ∀ {t}, (execMemoryTraining x0 x1 x2) = .next t → Within 1085456 x2 t := by
  intros
  rename_i h
  unfold execMemoryTraining at h
  injection h with h
  subst h
  repeat' first | with_reducible assumption | with_reducible apply Within.refl | ((first | intro x | (lift_lets; intro x)); refine Within.cut (t := x) ?_ ?_; rotate_left; intro hx; clear_value x; rotate_right; dsimp -zeta only [x]) | with_reducible apply Within.step ?_ refreshAlive_within rfl | with_reducible apply Within.step ?_ takeRegion_within rfl | with_reducible apply Within.step ?_ trainAll_within rfl | with_reducible apply Within.step ?_ trainFar_within rfl | with_reducible apply Within.step ?_ trainPort_within rfl | with_reducible apply Within.step ?_ Within.onFlt rfl | with_reducible apply Within.step ?_ Within.onPwr rfl | (with_reducible apply Within.step ?_ (Within.foldl (M := 1085456) ?_ _ _) rfl; rotate_left; intro _ _) | with_reducible apply Within.ite

theorem failDie_within : ∀ {x0 x1}, Within 1955824 x0 (failDie x0 x1) := by
  intros
  unfold failDie
  repeat' first | with_reducible assumption | with_reducible apply Within.refl | ((first | intro x | (lift_lets; intro x)); refine Within.cut (t := x) ?_ ?_; rotate_left; intro hx; clear_value x; rotate_right; dsimp -zeta only [x]) | with_reducible apply Within.step ?_ islandPower_within rfl | with_reducible apply Within.step ?_ present_within rfl | with_reducible apply Within.step ?_ setFld_within rfl | with_reducible apply Within.step ?_ setReg_within rfl | with_reducible apply Within.step ?_ swapDie_within rfl | with_reducible apply Within.step ?_ Within.onFw rfl | with_reducible apply Within.step ?_ Within.onPwr rfl | (with_reducible apply Within.step ?_ (Within.foldl (M := 1955824) ?_ _ _) rfl; rotate_left; intro _ _) | with_reducible apply Within.ite

theorem execDieSelfTest_within : ∀ {x0 x1}, ∀ {t}, (execDieSelfTest x0 x1) = .next t → Within 1955824 x1 t := by
  intros
  rename_i h
  unfold execDieSelfTest at h
  injection h with h
  subst h
  repeat' first | with_reducible assumption | with_reducible apply Within.refl | ((first | intro x | (lift_lets; intro x)); refine Within.cut (t := x) ?_ ?_; rotate_left; intro hx; clear_value x; rotate_right; dsimp -zeta only [x]) | with_reducible apply Within.step ?_ failDie_within rfl | with_reducible apply Within.step ?_ islandPower_within rfl | with_reducible apply Within.step ?_ setReg_within rfl | with_reducible apply Within.step ?_ Within.onPwr rfl | (with_reducible apply Within.step ?_ (Within.foldl (M := 1955824) ?_ _ _) rfl; rotate_left; intro _ _) | with_reducible apply Within.ite

theorem execDiscovery_within : ∀ {x0}, ∀ {t}, (execDiscovery x0) = .next t → Within 1196056 x0 t := by
  intros
  rename_i h
  unfold execDiscovery at h
  injection h with h
  subst h
  repeat' first | with_reducible assumption | with_reducible apply Within.refl | ((first | intro x | (lift_lets; intro x)); refine Within.cut (t := x) ?_ ?_; rotate_left; intro hx; clear_value x; rotate_right; dsimp -zeta only [x]) | with_reducible apply Within.step ?_ linkOn_within rfl | with_reducible apply Within.step ?_ settleAll_within rfl | with_reducible apply Within.step ?_ usePlan_within rfl | with_reducible apply Within.step ?_ Within.onLnk rfl | with_reducible apply Within.step ?_ Within.onPwr rfl | (with_reducible apply Within.step ?_ (Within.foldl (M := 1196056) ?_ _ _) rfl; rotate_left; intro _ _) | with_reducible apply Within.ite | split

theorem enterHotSpare_within : ∀ {x0}, Within 1049104 x0 (enterHotSpare x0) := by
  intros
  unfold enterHotSpare
  repeat' first | with_reducible assumption | with_reducible apply Within.refl | ((first | intro x | (lift_lets; intro x)); refine Within.cut (t := x) ?_ ?_; rotate_left; intro hx; clear_value x; rotate_right; dsimp -zeta only [x]) | with_reducible apply Within.step ?_ modDie_within rfl | with_reducible apply Within.step ?_ selfRefresh_within rfl | with_reducible apply Within.step ?_ setFld_within rfl | with_reducible apply Within.step ?_ Within.onPwr rfl | (with_reducible apply Within.step ?_ (Within.foldl (M := 1049104) ?_ _ _) rfl; rotate_left; intro _ _) | with_reducible apply Within.ite

theorem earlyDoorbells_within : ∀ {x0}, Within 192 x0 (earlyDoorbells x0) := by
  intros
  unfold earlyDoorbells
  repeat' first | with_reducible apply Within.refl | with_reducible apply Within.step ?_ modQueue_within rfl | with_reducible apply Within.step ?_ sqTail_within rfl | (with_reducible apply Within.step ?_ (Within.foldl (M := 192) ?_ _ _) rfl; rotate_left; intro _ _) | split

theorem execReady_within : ∀ {x0}, ∀ {t}, (execReady x0) = .next t → Within 1622736 x0 t := by
  intros
  rename_i h
  unfold execReady at h
  injection h with h
  subst h
  repeat' first | with_reducible assumption | with_reducible apply Within.refl | ((first | intro x | (lift_lets; intro x)); refine Within.cut (t := x) ?_ ?_; rotate_left; intro hx; clear_value x; rotate_right; dsimp -zeta only [x]) | with_reducible apply Within.step ?_ earlyDoorbells_within rfl | with_reducible apply Within.step ?_ enterHotSpare_within rfl | with_reducible apply Within.step ?_ setFld_within rfl | with_reducible apply Within.step ?_ setLock_within rfl | with_reducible apply Within.step ?_ Within.onCmt rfl | with_reducible apply Within.step ?_ Within.onFlt rfl | (with_reducible apply Within.step ?_ (Within.onHost ?_) rfl; rotate_left; exact fun h => h) | with_reducible apply Within.step ?_ Within.onPwr rfl | with_reducible apply Within.ite

theorem execShutdown_within : ∀ {x0}, ∀ {t}, (execShutdown x0) = .next t → Within 1105936 x0 t := by
  intros
  rename_i h
  unfold execShutdown at h
  injection h with h
  subst h
  repeat' first | with_reducible assumption | with_reducible apply Within.refl | ((first | intro x | (lift_lets; intro x)); refine Within.cut (t := x) ?_ ?_; rotate_left; intro hx; clear_value x; rotate_right; dsimp -zeta only [x]) | with_reducible apply Within.step ?_ beginLifeWrite_within rfl | with_reducible apply Within.step ?_ beginShutdown_within rfl | with_reducible apply Within.step ?_ Within.onPwr rfl | with_reducible apply Within.ite

/-! ### Idle -/

theorem ttlAdvance_within : ∀ {x0}, Within 8192 x0 (ttlAdvance x0) := by
  intro s
  exact Within.onSeq fun h => by split <;> exact h

/-- Time passes: the ticks, the TTL clock and the minute sample of the lifetime record. -/
theorem idle_within : ∀ {x0}, Within 40962 x0 (idle x0) := by
  intro s
  unfold idle
  refine Within.cut (t := { s with tick := s.tick + 1 }) ((Within.refl _ _).step Within.set_tick rfl) ?_
  intro h
  generalize ({ s with tick := s.tick + 1 } : State) = u at h ⊢
  dsimp only
  repeat' first | with_reducible assumption | with_reducible apply Within.step ?_ minuteSample_within rfl | with_reducible apply Within.step ?_ ttlAdvance_within rfl | with_reducible apply Within.ite

end Sys2Proof.Machine
end

