-- ==== Sys2Proof/WellFormed.lean ====
section
/-! DEFINITION. Well-formed commands: the ranges that the manual gives for what a command carries and that its type does not
already fix. Meanings are total and do not rest on these checks. -/

namespace Sys2Proof

/-- A slot is 512 bytes (R281). -/
def slotWf (l : List Byte) : Bool := decide (l.length = 512)

/-- A register write is 4 or 8 bytes wide (R6). -/
def widthWf (w : Nat) : Bool := decide (w = 4) || decide (w = 8)

/-- A packet's payload is 64 bytes to 4 KiB (R17). -/
def Packet.wf (p : Packet) : Bool := decide (64 ≤ p.body.bytes) && decide (p.body.bytes ≤ 4096)

/-- A request to a tier stays within one 64 KiB block (R141). -/
def TierReq.wf (r : TierReq) : Bool := decide (1 ≤ r.len) && decide (r.addr.toNat % 65536 + r.len ≤ 65536) && (!r.write || decide (r.data.length = r.len))

/-- The command's operands lie in the ranges that the manual gives. -/
def Instr.wf : Instr → Bool
  | .slotFetch _ _ slot => slotWf slot
  | .registerWrite _ w _ => widthWf w
  | .tierAccess _ r _ => r.wf
  | .spillSegmentEmpty _ n => decide (n < 4096)
  | .spillRefill _ n => decide (n < 4096)
  | .hotCopyEvict _ _ r => decide (r < 2 ^ 32)
  | .rowFetchDone _ _ r => decide (r < 2 ^ 32)
  | .dieSelfTest fs => fs.all fun n => decide (n < 0x72)
  | _ => true

end Sys2Proof
end

