-- ==== Sys2Proof/Tests/Slice0.lean ====
section
/-! SUPPORT. Tests: ill-formed commands are refused, and every statement with hypotheses has a concrete state that meets them. -/

namespace Sys2Proof.Tests

open Sys2Proof Sys2Proof.Machine

set_option maxRecDepth 100000
set_option Elab.async false

/-! ### Small states -/

/-- Open context 0 with room for objects and sequences, and keys. -/
def upCtx : Ctx := { Ctx.fresh with
  state := 1, quota := { t1Units := 1000, t2Pages := 1000, seqs := 10, objMax := 10, share := 1, kvFp8 := false }
  dataKey := some 1, tweakKey := some 2 }

/-- A package in service with context 0 open. -/
def up : State := { State.reset with
  ctxs := [(0, upCtx)], host := { State.reset.host with ready := true }
  pwr := { State.reset.pwr with stage := .ready, perst := false } }

/-- The reference of the command that `mk` makes. -/
def r0 : CmdRef := { ctx := 0, tag := 7 }

/-- A waiting command of context 0 with an opcode and parameters. -/
def mk (op : Nat) (ps : List Dword) : Cmd :=
  { ctx := 0, queue := 0, opcode := BitVec.ofNat 16 op, irq := false, ordered := false, depAny := false, tag := 7, depends := 0, deadline := 0, params := ps
    acceptedAt := 0, seqno := 0, phase := .waiting, started := false, waitJseq := none, replayed := false, rejected := false, waitsOn := none, count0 := 0
    count1 := 0 }

/-- The state with one accepted command. -/
def put (m : Cmd) (s : State) : State := s.onCmds fun _ => [m]

/-- The command may start in that state. -/
def starts (op : Nat) (ps : List Dword) (s : State) : Bool :=
  let m := mk op ps
  decide (findCmd (put m s) r0 = some m) && decide (m.opcode.toNat = op) && startable (put m s) m
    && maskOk ((opRow op).map (·.masks) |>.getD []) m.params

/-- What the statements ask of a command that may start. -/
theorem starts_of {op : Nat} {ps : List Dword} {s : State} (h : starts op ps s = true) : Starts op r0 (mk op ps) (put (mk op ps) s) := by
  simpa [starts, Starts, and_assoc] using h

/-- A command that runs. -/
def runs (op : Nat) (ps : List Dword) : Cmd := { mk op ps with phase := .running, started := true }

/-- Where a command that started stands. -/
def begun (op : Nat) (ps : List Dword) (s : State) : State := markStarted (mk op ps) (put (mk op ps) s)

/-- Ill-formed commands are refused, one for each check. -/
theorem test_wellformed :
    [Instr.slotFetch 0 0 [1], .registerWrite (.ctl 0) 3 0, .tierAccess 0 ⟨0, true, 0xFFFF, false, [], 2⟩ (.unit 0 false []), .tierAccess 0 ⟨0, true, 0, true, [1], 2⟩ (.unit 0 false []),
      .tierAccess 0 ⟨0, true, 0, false, [], 0⟩ (.unit 0 false []), .spillSegmentEmpty 0 4096, .spillRefill 0 4096, .hotCopyEvict 0 0 (2 ^ 32), .rowFetchDone 0 0 (2 ^ 32),
      .dieSelfTest [0x72]].all (fun i => !i.wf) = true
    ∧ Packet.wf ⟨.ctrl, 0, .periphery 0, 0, 0, true, .raw (List.replicate 4097 0)⟩ = false
    ∧ (Instr.tierAccess 0 ⟨0, true, 0, true, [1, 2], 2⟩ (.unit 0 false [])).wf = true := by decide +kernel

/-- The table gives no row bits, so no word spells a command. -/
theorem test_no_words : decodeTableWord 16 0 = none ∧ decodeTableWord 0 0 = none ∧ State.withFetchWord State.reset 16 0x1234 = State.reset := by decide +kernel

/-- Context 0 with queue 0 enabled, 16 slots and 16 entries. -/
def ring : State := setReg (CMD_Q_CFG 0 0) 0x80000404 up

/-- A package whose VFs are enabled: context 16 is the first of VF 1. -/
def vfs : State := { up with host := { up.host with vfEnable := true } }

/-- A tier-0 object of 64 KiB at a block. -/
def anObj (b : Nat) : Obj := { Obj.fresh with gen := 1, type := 1, state := 1, flitsPerBlock := 1, size := 65536, location := b * 65536 }

/-- Context 0 with objects at INDEX 1 and 2. -/
def withObjs (a b : Obj) : State := modObj 0 1 (fun _ => a) (modObj 0 2 (fun _ => b) up)

/-- The two objects in tier 0. -/
def objs : State := withObjs (anObj 0x38400) (anObj 0x38401)

/-- Context 0 with another state, keys or tier-2 history. -/
def ctx0 (f : Ctx → Ctx) : State := modCtx 0 f up

/-- A pan of the one die 0. -/
def pan0 : Pan := Pan.fresh 0 0 0 1 1 false

/-- A package with that pan. -/
def withPan (p : Pan) : State := setReg (ARR_DIE_CTL 0) 0x100000 { up with pans := [(0, some p)] }

/-- A cost table that R192 allows. -/
def cost0 : CostTable :=
  { baseNs := 1000, tokNs := 100, ctxNs := 0, maxRows := 8, rowGranule := 1, maxTokens := 64, chunkMax := 64, tpp := 64, lg := 1, kvBytes := 0, kvPort := 0
    verifyMax := 8, commands := 0, maxCmdNs := 0 }

/-- What a plane holds for model entry 1. -/
def cfg0 : PanCfg := { model := 1, kind := 1, modeSafe := false, ver := 1, cost := cost0, spillMib := 0, spill := [] }

/-- An image of one die without tile records, 1,316 bytes long: header, cost table, and 80 SPILL units in the first partition entries; the bytes from 100 on, the die
section among them, are 0. -/
def image0 : List Byte :=
  leBytes 4 0x43464E59 ++ [0, 1] ++ leBytes 2 0 ++ [1, 1] ++ leBytes 2 1 ++ leBytes 4 0 ++ leBytes 4 1300 ++ leBytes 4 68 ++ leBytes 4 40 ++ leBytes 4 0
    ++ leBytes 8 1316 ++ leBytes 12 0 ++ leBytes 2 8 ++ leBytes 2 1 ++ leBytes 8 0 ++ leBytes 2 1 ++ leBytes 2 1
    ++ ([0, 1, 2, 3].map fun _ => leBytes 5 0 ++ [20, 0, 0]).flatten

/-- A load of an image of 1,316 bytes that writes. -/
def load0 (b : List Byte) (sw : Bool) : Load :=
  { cmd := some r0, switchEntry := none, image := b, size := 1316, spillMib := 0, spill := [], thenSwitch := sw, balance := false, written := false }

/-- A CURRENT version record without images. -/
def ver1 : VerRec := { VerRec.empty with version := 1, vstate := 2, hidden := 64, maxRank := 8, points := 1, steerPoints := 1, maxDistinct := 1 }

/-- A READY entry of context 0 with a CURRENT and a LOADED record. -/
def model1 : ModelEntry := { ModelEntry.free with state := 1, v0 := ver1, v1 := { ver1 with version := 2, vstate := 1 } }

/-- A package with that entry at index 1. -/
def withModel (x : ModelEntry) (s : State) : State := modModel 1 (fun _ => x) s

/-- SEQ_ADMIT's parameters of handle 9 of model entry 1, one input token. -/
def admitP : List Dword := [9, 0x1000000001, 0x100, 0, 0, 0, 0, 0x0000FFFF0000FFFF, 0x1000, 1]

/-- A live sequence of handle 9 and model entry 1. -/
def seq0 : SeqEntry := { admitEntry (mk 0x0401 admitP) [5] up with state := .idle, cmd := none, kvPages := 1 }

/-- A package with that sequence at index 3. -/
def withSeq (e : SeqEntry) (s : State) : State := s.onSeq fun q => { q with entries := [(3, some e)] }

/-- A manifest object of type 0 at INDEX 1. -/
def manifested : State :=
  { modObj 0 1 (fun _ => { anObj 0x38400 with type := 0, size := 0x60 }) up with
    mem := { up.mem with bytes := memWrite (memWrite [] (0x38400 * 65536) [1]) (0x38400 * 65536 + 0x50) [64] } }

/-- The header of an adapter object before its digest: magic, FMT 1, rank 8, 1 link, 1 point. -/
def adapterHead : List Byte := leBytes 4 0x50444159 ++ [1, 8, 1, 1] ++ leBytes 24 0

/-- An adapter object of 64 bytes whose digest is right, whatever SHAKE256 gives. -/
def adapterState : State :=
  let d := Config.shake256 (adapterHead ++ List.replicate 32 0)
  { modObj 0 1 (fun _ => { anObj 0x38400 with type := 3, size := 64 }) (withModel model1 up) with
    mem := { up.mem with bytes := (adapterHead ++ d).zipIdx.map fun p => (0x38400 * 65536 + p.2, p.1) } }

/-- A package with a KV pool of four pages at INDEX 1 and model entry 1. -/
def pooled : State := modObj 0 1 (fun _ => { anObj (sliceBase 0) with type := 6, tier := 1, size := 0x100000 }) (withModel model1 up)

/-- An archive of handle 9 with one frame. -/
def arch0 : Archive :=
  { handle := 9, ctx := 0, entry := { seq0 with inputPages := [0] }, pageCount := 0, deadline := 100, t2Pages := 1, frames := [portFrame 0], objPages := [], inputAddrs := [], resuming := false, remote := [] }

/-- A package with that archive. -/
def withArch (a : Archive) (s : State) : State := s.onSeq fun q => { q with archives := [a] }

/-- A package with a KV archive object of two pages at INDEX 2, and 512 frames on port 0. -/
def archived : State :=
  setReg (FAR_PORT_MAPPED 0 0) 512 (modObj 0 2 (fun _ => { anObj 0 with type := 7, tier := 2, size := 0x400000 }) pooled)

/-- A step of epoch 1 with one row of sequence 9, delivered and not ended. -/
def step0 : Step :=
  { epoch := 1, pan := 0, ctx := 0, model := 1, kind := 1, ver := 1
    rows := [{ index := 3, handle := 9, row := 0, be := false, firstChunk := false, lastChunk := false, generate := true, specDepth := 0, position := 0, tokens := 1
               inputToken := none, adapterSlot := 0xFFFF, adapterScale := 0, steerSlot := 0xFFFF, sampleMode := 0, topK := 0, temperature := 0, pTop := 0, seed := 0, inputAddr := 0
               withheld := false, endsTurn := false, drafts := [], specGen := 0, exitPolicy := 0, absorb := [] }]
    padding := 0, lcRows := 1, tokens := 1, kvDescs := 0, steerLive := 0, embVer := [], predNs := 1100, delivered := true, builtAt := 0, builtSeqno := 0, ended := false, endedAt := 0, outcome := []
    deltas := [], commitSeq := none, groups := [], exits := [], exited := [], rakes := 0 }

/-- A package with that step. -/
def withStep (t : Step) (s : State) : State := s.onSeq fun q => { q with steps := [t] }

/-- A READ of object 1 to die 0 that waits. -/
def str0 : Stream :=
  { use := .run, cmd := none, list := 0, closing := false, order := 0, pan := 0, ctx := 0, kind := 0, kv := none, rt := false, port := 0, vq := 0, dies := [0], handle := 0x10001
    offset := 0, length := 65536, dstHandle := 0x10002, dstOffset := 0, deadlineUs := 0, firstRequest := none, done := 0, issued := 0, asked := 0, read := 0, landed := [], arrived := [], block := [], openEpoch := none
    late := false, phase := .waiting }

/-- A state with one stream, under key 4. -/
def withStr (t : Stream) (s : State) : State := s.onMem fun m => { m with streams := [(4, some t)] }

/-- A tier-2 object of one page. -/
def farObj (st : BitVec 3) : Obj := { anObj 0 with tier := 2, pages := if st = 0 then [] else [(0, { state := st, frame := portFrame 0, remoteChip := 0 })] }

/-- Die 0 of pan 0 with a flit in the crossing of port 0, VQ 0. -/
def crossing (f : Flit) (s : State) : State := modDie 0 (fun d => { d with portOut := [(0, [(0, f)])] }) s

/-- Objects 1 and 2 beside pan 0. -/
def panObjs (a b : Obj) : State := { withObjs a b with pans := [(0, some pan0)], regs := (withPan pan0).regs }

/-- An FP32 record of 16 rows of 16 elements over object 1. -/
def rec0 : EmbRec := { EmbRec.empty with version := 1, vstate := 2, dim := 16, stride := 1, base := 0x10001, rows := 16, rowsPerBlock := 1024 }

/-- A READY table with that record CURRENT and one LOADED. -/
def table0 : EmbEntry := { EmbEntry.free with state := 1, shardShift := 10, homes := [0], r0 := rec0, r1 := { rec0 with version := 2, vstate := 1 } }

/-- A package with that table at entry 1, its rows in object 1 and 64 KiB of records in object 2. -/
def tabled (x : EmbEntry) : State := modEmb 1 (fun _ => x) (withObjs { anObj 0x38400 with type := 5 } (anObj 0x38401))

/-- Parameters of EMB_TABLE_CREATE of such a table. -/
def tableP : List Dword := [0x1000000001, 16, 0x10001, 0xA01, 0]

/-- A paired package. -/
def pairedUp : State := setFld CMT_STATUS 1 1 1 { up with tick := 1000000000 }

/-- A package that serves a ward. -/
def wardUp : State := setFld CMT_STATUS 2 1 1 { up with tick := 1000000000 }

/-- The first record of a ward of generation 5. -/
def frame0 : JournalFrame :=
  { jseq := 1, stepEpoch := 1, kind := 0, ctx := 0, handle := 0, page := 0, offset := 0, ttlClock := 0, body := [], srcIdgen := 5, sealNo := 1, tagOk := true }

/-- A plan entry of a chip on rack 0. -/
def pkg (chip tray slot : Nat) (spare : Bool) (buddy : Nat) : PlanPkg :=
  { chip := chip, rack := 0, tray := tray, slot := slot, spare := spare, aux := 0, job := 1, buddy := buddy, idgen := 1 }

/-- Chip 1 of a plan in which 1 and 2 are each other's buddies. -/
def planned : State :=
  let s : State := { up with tick := 2000000000, lnk := { up.lnk with plan := some { generation := 1, packages := [pkg 1 0 1 false 2, pkg 2 0 0 false 1], groups := [] } } }
  setReg LNK_FAB_ID 0x1 s

/-- Evidence of chip 2. -/
def proof0 : PairEvidence :=
  { endorsementOk := true, signatureOk := true, debugEnabled := false, peerSvn := 127, chipsMatch := true, peerIdgen := 1, mirrorGib := 1, lastJseq := 0, peer := 2, asBuddy := false
    accepts := true }

/-- Die 0 with its island and clock on. -/
def lit (s : State) : State := modDie 0 (fun d => { d with islandOn := true, clockOn := true }) s

/-- A token of kind k. -/
def tok (k : Nat) : Flit := { kind := BitVec.ofNat 3 k, arg := 0, payload := 0 }

/-- A flit of kind k on a link of native mode, VQ 0. -/
def wire (k : Nat) : OnLink := OnLink.of 8 0 (tok k)

/-- An IDLE flit of compatibility mode. -/
def idle0 : OnLink := { vq := 0, slot := 0, side := 0xE0, payload := 0 }

/-- A tile of die 0 with one flit on the link into its port N. -/
def incoming (r : Route) (y : OnLink) : State := modTile 0 2 2 (fun t => { t with inFlight := [(0, [y])], routes := [(0, r)] }) (lit up)

/-- A route of a type. -/
def routeOf (ty : Nat) : Route := { type := BitVec.ofNat 2 ty, outPort := 1, outVq := 0, elastic := false, index := 0 }

/-- A segment of the queue of key 0 of the tile at (3, 3). -/
def seg0 (e : Nat) (fs : List Flit) : Segment :=
  { id := 0, rakeLow := 0, epoch := e, col := 3, row := 3, key := 0, flits := fs, accepting := true, tokenSent := false, tier1 := false }

/-- Pan 0 of die 0 with that segment. -/
def segged (e : Nat) (fs : List Flit) : State := modDie 0 (fun d => { d with segments := [seg0 e fs] }) (withPan pan0)

/-- Slice 0 with 8,192 blocks and its four devices in service, and an object of context 0 in its first block. -/
def sliced : State :=
  setReg (NEAR_SLICE_MAP 0) 1 (setReg (NEAR_DEV_STATUS 0 0) 1 (setReg (NEAR_DEV_STATUS 0 1) 1 (setReg (NEAR_DEV_STATUS 0 2) 1 (setReg (NEAR_DEV_STATUS 0 3) 1
    (modObj 0 1 (fun _ => { anObj (sliceBase 0) with tier := 1 }) up)))))

/-- A request of a context. -/
def req (c : CtxId) (w : Bool) (a : Nat) : TierReq := { ctx := c, fw := false, addr := BitVec.ofNat 42 a, write := w, data := if w then [1] else [], len := 1 }

/-- Port 0 up with 512 frames mapped. -/
def ported : State := setReg (FAR_PORT_MAPPED 0 0) 512 (setFld (FAR_PORT_STATUS 0 0) 0 1 1 up)

/-- Link 12, a cable link, in a state; the tick lies after 10 s. -/
def linked (j st : Nat) : State := setReg (lnkStatus j) (BitVec.ofNat 32 st) { up with tick := 2000000000 }

/-- What a partner of full rate with good lanes offers. -/
def offer0 : LinkOffer := { maxRate := 0, maxLanes := 0, fec544 := true, trials := [{ goodLanes := 15, moduleApp := true }] }

/-- A frame that its link has sent long ago. -/
def elp0 : ElpFrame :=
  { destChip := 5, srcChip := 1, srcIdgen := 1, vc := 0, kind := 1, ctx := 0, fw := false, flow := 0, stepEpoch := 0, lseq := 0, payload := [], crcOk := true, ack := 0, replay := false }

/-- The record of a partner at a feature level. -/
def disc (lv : Nat) : DiscoveryRec :=
  { magic := 0x44564C45, level := BitVec.ofNat 8 lv, mcast := false, kind := 0, port := 0, chip := 5, unassigned := false, spare := false, idgen := 1, rack := 0, tray := 0, slot := 1, posValid := true
    plane := 0, planGen := 0, jobOrSwitch := 0, crcOk := true }

/-- A packet of a virtual network to a destination. -/
def pkt (n : VNet) (d : NetDest) : Packet := { vnet := n, src := 0, dest := d, exit := 0, ctx := 0, fw := true, body := .raw (List.replicate 64 0) }

/-- A router with one packet. -/
def routing (r : Nat) (k : Packet) : State := { up with arr := { up.arr with routers := [(bufKey r 0 (VNet.num k.vnet), [k])] } }

/-- A plan of chips 1 and 2 on two trays, one group of both. -/
def planBytes : List Byte :=
  leBytes 4 0x4E414C50 ++ leBytes 4 1 ++ leBytes 8 1 ++ leBytes 2 2 ++ leBytes 2 1 ++ leBytes 4 0x60 ++ leBytes 4 0x68 ++ leBytes 4 2 ++ leBytes 32 0
    ++ (leBytes 2 1 ++ leBytes 2 0x8000 ++ leBytes 2 0 ++ leBytes 2 1 ++ leBytes 8 2) ++ (leBytes 2 2 ++ leBytes 2 0x8010 ++ leBytes 2 0 ++ leBytes 2 1 ++ leBytes 8 1)
    ++ leBytes 2 7 ++ leBytes 2 2 ++ leBytes 4 0 ++ leBytes 2 1 ++ leBytes 2 2

/-- Chip 1 of a plan with group 7 of chips 1 and 2, and two objects. -/
def grouped : State :=
  setReg LNK_FAB_ID 1 { objs with lnk := { objs.lnk with plan := some { generation := 1, packages := [pkg 1 0 1 false 2, pkg 2 0 0 false 1], groups := [⟨7, [1, 2]⟩] } } }

/-- COLL's parameters: an all-gather of 4 KiB on group 7. -/
def collP : List Dword := [0x70002, 0x1000200010001, 4096, 0]

/-- A collective of context 0's command. -/
def coll0 : Coll :=
  { cmd := r0, kind := 2, format := 0, op := 0, group := 7, ordinal := 0, members := [1, 2], boards := [], rank := 0, root := 0, length := 4096, src := 0x10001, dst := 0x10002
    done := [], since := 0 }

/-- A late package. -/
def late : State := { up with tick := 1000000000000 }

/-- A package whose core n is down since tick t. -/
def crashed (n t : Nat) : State := { late with fw := { late.fw with down := [(n, t)] } }

/-- A sample of the pan 0 that waits for its die 0. -/
def sample0 (o r : List Nat) : Sample :=
  { cmd := r0, seqno := 0, set := 1, pan := some 0, window := 100, toOpen := o, toReport := r, reports := [], epoch0 := 0, began := 0, cut := none, epoch1 := 0 }

/-- A package with that sample. -/
def sampled (x : Sample) (s : State) : State := { s with pmc := { s.pmc with samples := [x] } }

/-- A package in a stage of start-up. -/
def staged (g : Stage) : State := { up with pwr := { up.pwr with stage := g } }

/-! ### The step, reset and the whole block -/

/-- StepRunsFrontCommand: a queue with a command, and one without. -/
theorem witness_StepRunsFrontCommand :
    ({ up with pending := [.fwPromotion, .shutdown] } : State).pending = [.fwPromotion, .shutdown] ∧ up.pending = [] := by
  and_intros <;> decide +kernel

/-- QueueIsFifo: steps with and without a command answer a next state. -/
theorem witness_QueueIsFifo : step up = .next (idle up) ∧ step { up with pending := [.vfEnable true] } = .next { up with host := { up.host with vfEnable := true } } :=
  ⟨rfl, rfl⟩

/-- CanonicalFormIsKept: the reset state is canonical, and it steps. -/
theorem witness_CanonicalFormIsKept : Canonical State.reset ∧ Canonical up ∧ step up = .next (idle up) :=
  ⟨⟨by decide, by decide, by decide, by decide, by decide, by decide, by decide⟩, ⟨by decide, by decide, by decide, by decide, by decide, by decide, by decide⟩, rfl⟩

/-- IdleCountsTime: firmware does not run in reset, and the package is not out of reset. -/
theorem witness_IdleCountsTime : fwRuns State.reset = false ∧ outOfReset State.reset = false := by
  and_intros <;> decide +kernel

/-- DoorbellCompletion: a tail at the last slot and at the whole ring; before Ready; heads. -/
theorem witness_DoorbellCompletion :
    (ctxPresent ring 0 = true ∧ ring.host.ready = true ∧ qEnabled ring 0 0 = true ∧ ((getCtx ring 0).queue 0).stopped = false ∧ sqSize ring 0 0 = 16
      ∧ 15 < sqSize ring 0 0 ∧ visibleOf (getCtx ring 0) 0 + (15 + 16 - ((getCtx ring 0).queue 0).sqTail) % 16 ≤ 16 ∧ (15 + 16 - 0) % 16 ≠ 0)
    ∧ sqSize ring 0 0 ≤ 16
    ∧ (ctxPresent State.reset 0 = true ∧ State.reset.host.ready = false)
    ∧ 15 < cqSize ring 0 0
    ∧ (let s := setReg (CMD_TOK_CFG 0) 0x80000006 up
       ctxPresent s 0 = true ∧ tokEnabled s 0 = true ∧ 63 < tokSize s 0) := by
  and_intros <;> decide +kernel

/-- RingConfigurationCompletion: good configurations at the bounds, a bad one, an allotment, a holdoff, and the DMA errors. -/
theorem witness_RingConfigurationCompletion :
    ([(0x80000202 : Word), 0x80001010].all (fun v =>
      decide (v = v ||| 0x80000000) && ctxPresent vfs 16 && !qEnabled vfs 16 0 && decide (2 ≤ bits v.toNat 0 5) && decide (bits v.toNat 0 5 ≤ 16)
        && decide (bits v.toNat 0 5 ≤ bits v.toNat 8 5) && decide (bits v.toNat 8 5 ≤ 16) && decide (bits v.toNat 16 11 < fnVectors vfs (fnOf 16)) && bit v.toNat 31)) = true
    ∧ (ctxPresent up 0 = true ∧ qEnabled up 0 0 = false ∧ bits (0x80000203 : Word).toNat 8 5 < bits (0x80000203 : Word).toNat 0 5)
    ∧ (bit (0x0404 : Word).toNat 31 = false ∧ bits (0x0404 : Word).toNat 16 11 < fnVectors vfs (fnOf 16) ∧ ctxPresent vfs 16 = true)
    ∧ (tokEnabled vfs 16 = false ∧ 6 ≤ bits (0x80000006 : Word).toNat 0 5 ∧ bits (0x80000014 : Word).toNat 0 5 ≤ 20 ∧ bit (0x80000006 : Word).toNat 31 = true)
    ∧ (up.host.vfEnable = false ∧ bits (0x000F0010 : Word).toNat 0 5 ≤ 16 ∧ bits (0x000F0010 : Word).toNat 16 7 ≤ 64
        ∧ bits (0x000F0010 : Word).toNat 16 7 + 1 ≤ fnVectors up 0 + fnVectors up 255)
    ∧ (let s := modCtx 0 (fun x => { x with tok := { x.tok with firstSince := some 0 } }) { up with tick := 100000 }
       (getCtx s 0).tok.firstSince = some 0 ∧ 0 + usTicks (16 * getFld s (CMD_TOK_CFG 0) 27 4) ≤ s.tick)
    ∧ (findCmd (put (runs 0x0206 []) up) r0 = some (runs 0x0206 []) ∧ (runs 0x0206 []).phase = .running ∧ hostBuffered (runs 0x0206 []) = true)
    ∧ canFetch (modCtx 0 (fun x => { x with visible := [(0, 1)] }) ring) 0 = some 0
    ∧ qLive ring 0 0 = true
    ∧ tokEnabled (setReg (CMD_TOK_CFG 0) 0x80000006 up) 0 = true := by
  and_intros <;> decide +kernel

/-- SlotAndCompletionCompletion: a slot in turn; due entries without and with a reset under way; a missed deadline; a running FENCE. -/
theorem witness_SlotAndCompletionCompletion :
    (let s := modCtx 0 (fun x => { x with visible := [(0, 1)] }) ring
     turnCtx s = some 0 ∧ canFetch s 0 = some 0)
    ∧ (let e := entryOf 7 false stOk false 0 0
       let m : Cmd := { mk 0x0604 [] with phase := .ended e }
       findEnded (put m ring) r0 = some (m, e) ∧ entryDue (put m ring) m = true ∧ (getCtx (put m ring) 0).flr = false
         ∧ (let s := modCtx 0 (fun x => { x with flr := true }) (put m ring)
            findEnded s r0 = some (m, e) ∧ entryDue s m = true ∧ (getCtx s 0).flr = true ∧ m.opcode ≠ 0x0102))
    ∧ (let m : Cmd := { mk 0x0604 [] with deadline := 1 }
       findCmd (put m { up with tick := 101 }) r0 = some m ∧ m.phase = .waiting ∧ m.deadline ≠ 0 ∧ deadlineTick m < ({ up with tick := 101 } : State).tick)
    ∧ (let m := runs 0x0604 [3]
       let s := put m up
       findCmd s r0 = some m ∧ m.opcode.toNat = 0x0604 ∧ m.phase = .running
         ∧ ((outstanding s m.ctx).all fun k => decide (m.seqno ≤ k.seqno) || (!bit (m.p 0) 0 && !decide (k.queue = m.queue))) = true
         ∧ bit (m.p 0) 1 = true ∧ fenceTokensDone s m = true) := by
  and_intros <;> decide +kernel

/-- CommandEnd: an accepted command, mirrored and not. -/
theorem witness_CommandEnd :
    mk 0x0604 [] ∈ (put (mk 0x0604 []) up).cmds ∧ (mk 0x0604 []).replayed = false ∧ mirrored (mk 0x0604 []).opcode.toNat = false := by
  and_intros <;> decide +kernel

/-- ReservedParameterBits: each command with every bit of a parameter word set. -/
theorem witness_ReservedParameterBits :
    ([0x0101, 0x0104, 0x0201, 0x0202, 0x0207, 0x0303, 0x0304, 0x0305, 0x0401, 0x0403, 0x0404, 0x0405, 0x0406, 0x0502, 0x0702, 0x0704, 0x0901].all fun op =>
      let m := mk op (List.replicate 16 0xFFFFFFFFFFFFFFFF)
      decide (findCmd (put m up) r0 = some m) && startable (put m up) m && decide (m.opcode.toNat = op)
        && !maskOk ((opRow op).map (·.masks) |>.getD []) m.params) = true := by decide +kernel

/-! ### Contexts and objects -/

/-- ContextCommandCompletion: each version of CTX_OPEN, both on a context with keys and without; the open context; CTX_QUERY; quotas at OBJ_MAX; the key import. -/
theorem witness_ContextCommandCompletion :
    (let s := ctx0 fun x => { x with state := 0 }
     starts 0x0101 [0x10000] s = true ∧ starts 0x0101 [0x20000] s = true ∧ (getCtx (begun 0x0101 [0x10000] s) 0).state ≠ 1
      ∧ (getCtx (begun 0x0101 [0x10000] s) 0).dataKey.isSome = true ∧ (mk 0x0101 [0x10000]).f 0 16 16 = 1 ∧ (mk 0x0101 [0x20000]).f 0 16 16 ≠ 1)
    ∧ (let s := ctx0 fun x => { x with state := 2, dataKey := none }
       starts 0x0101 [0x10000] s = true ∧ (getCtx (begun 0x0101 [0x10000] s) 0).state ≠ 1 ∧ (getCtx (begun 0x0101 [0x10000] s) 0).dataKey = none
        ∧ getFld (begun 0x0101 [0x10000] s) FW_STATUS 5 1 = 0)
    ∧ (starts 0x0101 [0x10000] up = true ∧ (getCtx (begun 0x0101 [0x10000] up) 0).state = 1)
    ∧ starts 0x0103 [0x1000] up = true
    ∧ (let p : List Dword := [0, 5, 5, 0x100020005]
       starts 0x0104 p objs = true ∧ (mk 0x0104 p).f 3 16 16 = 2 ∧ (mk 0x0104 p).f 3 32 8 ≠ 0 ∧ (getCtx (begun 0x0104 p objs) 0).objs.length = 2)
    ∧ (let p : List Dword := [0, 5, 5, 0x100010005]
       starts 0x0104 p objs = true ∧ (mk 0x0104 p).f 3 16 16 = 1 ∧ (mk 0x0104 p).f 3 32 8 ≠ 0 ∧ 1 < (getCtx (begun 0x0104 p objs) 0).objs.length)
    ∧ (starts 0x0105 [0, 1656] up = true ∧ (getCtx (begun 0x0105 [0, 1656] up) 0).wroteT2 = false ∧ (mk 0x0105 [0, 1656]).f 1 0 16 = 1656
        ∧ fieldAt (leBytes 4 0x4B494359 ++ leBytes 2 1 ++ leBytes 2 0) 0 4 = 0x4B494359 ∧ fieldAt (leBytes 4 0x4B494359 ++ leBytes 2 1 ++ leBytes 2 0) 4 2 = 1
        ∧ fieldAt (leBytes 4 0x4B494359 ++ leBytes 2 1 ++ leBytes 2 0) 6 2 = (0 : CtxId).toNat)
    ∧ (starts 0x0105 [0, 1656] (ctx0 fun x => { x with wroteT2 := true }) = true
        ∧ (getCtx (begun 0x0105 [0, 1656] (ctx0 fun x => { x with wroteT2 := true })) 0).wroteT2 = true) := by
  and_intros <;> decide +kernel

/-- ContextCloseCompletion: a running and a starting CTX_CLOSE; a function whose contexts are CLOSED. -/
theorem witness_ContextCloseCompletion :
    (findCmd (put (runs 0x0102 []) up) r0 = some (runs 0x0102 []) ∧ (runs 0x0102 []).opcode.toNat = 0x0102 ∧ (runs 0x0102 []).phase = .running
      ∧ closeReady (put (runs 0x0102 []) up) 0 0 = true)
    ∧ starts 0x0102 [] up = true
    ∧ (∀ k, k < 16 → (getCtx up (BitVec.ofNat 12 (16 * (1 : BitVec 8).toNat + k))).state = 0) := by
  and_intros <;> decide +kernel

/-- ObjectLifeCompletion: a creation that a check refuses, one that finds a place and one that finds none; frees of a live and of a free handle; the release; a share. -/
theorem witness_ObjectLifeCompletion :
    (starts 0x0201 [1, 0] up = true ∧ createCheck (begun 0x0201 [1, 0] up) (mk 0x0201 [1, 0]) = some (stBadParam 7))
    ∧ (let p : List Dword := [0x400000B0001, 0x10000]
       starts 0x0201 p up = true ∧ createCheck (begun 0x0201 p up) (mk 0x0201 p) = none
        ∧ placeFor (begun 0x0201 p up) ((mk 0x0201 p).f 0 0 8) ((mk 0x0201 p).f 0 8 8) ((mk 0x0201 p).f 0 16 8) ((mk 0x0201 p).p 1) = some (11, poolBase 11 * 65536, 1)
        ∧ freeIndex (begun 0x0201 p up) 0 = some 1)
    ∧ (let p : List Dword := [0x1000B0101, 0x10000]
       starts 0x0201 p up = true ∧ createCheck (begun 0x0201 p up) (mk 0x0201 p) = none
        ∧ placeFor (begun 0x0201 p up) ((mk 0x0201 p).f 0 0 8) ((mk 0x0201 p).f 0 8 8) ((mk 0x0201 p).f 0 16 8) ((mk 0x0201 p).p 1) = none)
    ∧ (starts 0x0202 [0x10001] objs = true ∧ objFor (begun 0x0202 [0x10001] objs) (mk 0x0202 [0x10001]) 0x10001 = some (anObj 0x38400)
        ∧ freeRefusal (begun 0x0202 [0x10001] objs) 0 0x10001 = none)
    ∧ (starts 0x0202 [0x20001] objs = true ∧ objFor (begun 0x0202 [0x20001] objs) (mk 0x0202 [0x20001]) 0x20001 = none)
    ∧ (let m := runs 0x0202 [0x10001]
       let s := put m (withObjs { anObj 0x38400 with state := 3 } (anObj 0x38401))
       (s.cmds.find? fun m => decide (m.ctx = 0) && decide (m.opcode = 0x0202) && decide (m.phase = .running) && decide (hIndex (m.f 0 0 32) = (1 : BitVec 16).toNat)) = some m
        ∧ (getObj s 0 1).state = 3 ∧ objNamed s 0 1 m.seqno = false ∧ (getObj s 0 1).aliased = false)
    ∧ (let p : List Dword := [0x10001, 0]
       starts 0x0207 p objs = true ∧ bit ((mk 0x0207 p).p 1) 16 = false ∧ objFor (begun 0x0207 p objs) (mk 0x0207 p) 0x10001 = some (anObj 0x38400)
        ∧ (anObj 0x38400).state ≠ 3 ∧ (anObj 0x38400).aliased = false ∧ (getCtx (begun 0x0207 p objs) 0).state = 1 ∧ freeIndex (begun 0x0207 p objs) 0 = some 3) := by
  and_intros <;> decide +kernel

/-- ObjectAccessCompletion: reads at, past and of a lost object's end; a write to the last byte; a copy; placements to the same place and to another die; a move that ends. -/
theorem witness_ObjectAccessCompletion :
    (let p : List Dword := [0x10001, 0, 0x1000, 0x10000]
     starts 0x0206 p objs = true ∧ accessHeld (put (mk 0x0206 p) objs) (mk 0x0206 p) 0x10001 0 0x10000 false = false
      ∧ objFor (begun 0x0206 p objs) (mk 0x0206 p) 0x10001 = some (anObj 0x38400) ∧ 0 + 0x10000 ≤ (storageOf objs (anObj 0x38400)).size ∧ (anObj 0x38400).lost = false)
    ∧ (let p : List Dword := [0x10001, 1, 0x1000, 0x10000]
       starts 0x0206 p objs = true ∧ accessHeld (put (mk 0x0206 p) objs) (mk 0x0206 p) 0x10001 1 0x10000 false = false ∧ (anObj 0x38400).size < 1 + 0x10000)
    ∧ (let s := withObjs { anObj 0x38400 with lost := true } (anObj 0x38401)
       let p : List Dword := [0x10001, 0, 0x1000, 4]
       starts 0x0206 p s = true ∧ accessHeld (put (mk 0x0206 p) s) (mk 0x0206 p) 0x10001 0 4 false = false
        ∧ objFor (begun 0x0206 p s) (mk 0x0206 p) 0x10001 = some { anObj 0x38400 with lost := true })
    ∧ (let p : List Dword := [0x10001, 0xFFFF, 0x1000, 1]
       starts 0x0205 p objs = true ∧ accessHeld (put (mk 0x0205 p) objs) (mk 0x0205 p) 0x10001 0xFFFF 1 true = false
        ∧ objFor (begun 0x0205 p objs) (mk 0x0205 p) 0x10001 = some (anObj 0x38400) ∧ 0xFFFF + 1 ≤ (anObj 0x38400).size ∧ (anObj 0x38400).isReadOnly = false)
    ∧ (let q : List Dword := [0x0001000200010001, 0, 0, 64]
       starts 0x0204 q objs = true ∧ accessHeld (put (mk 0x0204 q) objs) (mk 0x0204 q) ((mk 0x0204 q).f 0 32 32) 0 64 true = false
        ∧ accessHeld (put (mk 0x0204 q) objs) (mk 0x0204 q) ((mk 0x0204 q).f 0 0 32) 0 64 false = false
        ∧ objFor (begun 0x0204 q objs) (mk 0x0204 q) ((mk 0x0204 q).f 0 0 32) = some (anObj 0x38400)
        ∧ objFor (begun 0x0204 q objs) (mk 0x0204 q) ((mk 0x0204 q).f 0 32 32) = some (anObj 0x38401)
        ∧ outside (anObj 0x38400) 0 64 = false ∧ (anObj 0x38401).isReadOnly = false)
    ∧ (let p : List Dword := [0xFF0000010001]
       starts 0x0203 p objs = true ∧ objFor (put (mk 0x0203 p) objs) (mk 0x0203 p) 0x10001 = some (anObj 0x38400)
        ∧ objFor (begun 0x0203 p objs) (mk 0x0203 p) 0x10001 = some (anObj 0x38400) ∧ placeRefused (begun 0x0203 p objs) 0 0x10001 0 = false
        ∧ (mk 0x0203 p).f 0 40 8 = 0xFF ∧ samePlace (anObj 0x38400) 0 0xFF = true ∧ tierRule 1 0 = true)
    ∧ (let p : List Dword := [0xB0000010001]
       starts 0x0203 p objs = true ∧ placeRefused (begun 0x0203 p objs) 0 0x10001 0 = false ∧ (mk 0x0203 p).f 0 40 8 = 11 ∧ samePlace (anObj 0x38400) 0 11 = false
        ∧ overQuota (begun 0x0203 p objs) 0 (t1Charge 0 65536) (t2Charge 0 65536) (t1Use (begun 0x0203 p objs) 0) = false
        ∧ placeFor (begun 0x0203 p objs) 1 0 11 65536 = some (11, poolBase 11 * 65536, 1))
    ∧ (let v : Move := { tier := 0, portDie := 11, location := poolBase 11 * 65536, pages := [], cmd := r0 }
       (getObj (withObjs { anObj 0x38400 with state := 2, move := some v } (anObj 0x38401)) 0 1).move = some v) := by
  and_intros <;> decide +kernel

/-! ### Pans, configurations and waves -/

/-- PanCommandCompletion: creations at the limits, refused and while the entropy source has failed; releases; a drain; a load that starts, one that is rejected
and one that is right; a RUN that is refused. -/
theorem witness_PanCommandCompletion :
    (starts 0x0303 [0x110800] up = true ∧ createRefusal (begun 0x0303 [0x110800] up) 0 8 1 1 = none ∧ firstFree (tkeys (begun 0x0303 [0x110800] up).pans) 16 0 = some 0
      ∧ getFld (begun 0x0303 [0x110800] up) FW_STATUS 5 1 ≠ 1)
    ∧ (starts 0x0303 [0x980000] up = true ∧ createRefusal (begun 0x0303 [0x980000] up) 0 0 8 9 = none)
    ∧ (starts 0x0303 [0x190000] up = true ∧ createRefusal (begun 0x0303 [0x190000] up) 0 0 9 1 = some (stBadParam 7))
    ∧ (let s := setFld FW_STATUS 5 1 1 up
       starts 0x0303 [0x110000] s = true ∧ createRefusal (begun 0x0303 [0x110000] s) 0 0 1 1 = none ∧ getFld (begun 0x0303 [0x110000] s) FW_STATUS 5 1 = 1)
    ∧ (starts 0x0304 [0] (withPan pan0) = true ∧ panRefusal (begun 0x0304 [0] (withPan pan0)) 0 0 = none)
    ∧ (starts 0x0304 [1] (withPan pan0) = true ∧ panRefusal (begun 0x0304 [1] (withPan pan0)) 0 1 = some (stBadParam 7))
    ∧ (let p := { pan0 with releasing := true }
       getPan (withPan p) 0 = some p ∧ p.wave = none ∧ p.run = none ∧ drained (withPan p) 0 p = true)
    ∧ (let o : Obj := { anObj 0x100000 with type := 2, tier := 1, size := 4 }
       let s := modObj 0 1 (fun _ => o) (withPan pan0)
       starts 0x0302 [0x1FF00, 0x10001] s = true ∧ getPan (put (mk 0x0302 [0x1FF00, 0x10001]) s) 0 = some pan0 ∧ panRefusal (begun 0x0302 [0x1FF00, 0x10001] s) 0 0 = none
        ∧ spillField ((mk 0x0302 [0x1FF00, 0x10001]).f 0 8 9) = some 0 ∧ loadImage (begun 0x0302 [0x1FF00, 0x10001] s) (mk 0x0302 [0x1FF00, 0x10001]) = .inr ([0, 0, 0, 0], 4))
    ∧ (let p := { pan0 with load := some (load0 [] false) }
       let s := put (runs 0x0302 []) (withPan p)
       getPan s 0 = some p ∧ imgCheck s p.ctx p [] 1316 = some 1 ∧ (load0 [] false).cmd.bind (findCmd s) = some (runs 0x0302 []))
    ∧ (starts 0x0601 [0, 0x100010001] up = true ∧ runHeld (put (mk 0x0601 [0, 0x100010001]) up) (mk 0x0601 [0, 0x100010001]) = false
        ∧ runRefusal (begun 0x0601 [0, 0x100010001] up) (mk 0x0601 [0, 0x100010001]) = some (stBadParam 7)) := by
  and_intros <;> decide +kernel

/-- CFG_SHADOW_WRITTEN of an image that passes every check. -/
theorem witness_cfgShadowWritten :
    let p := { pan0 with load := some (load0 image0 false) }
    imgCheck (withPan p) p.ctx p image0 1316 = none ∧ (load0 image0 true).thenSwitch = true := by decide +kernel

/-- A RUN with a list of one READ that passes its checks. -/
theorem witness_run :
    let p := { pan0 with active := some cfg0 }
    let l : Obj := { anObj 0x38400 with type := 8 }
    let d : List Byte := [0, 0, 0, 0, 0, 0, 0, 0] ++ leBytes 4 0x10002 ++ leBytes 4 0 ++ leBytes 8 0 ++ leBytes 8 65536 ++ leBytes 32 0
    let s : State := { modObj 0 1 (fun _ => l) (modObj 0 2 (fun _ => anObj 0x38401) (withPan p)) with
      mem := { up.mem with bytes := memWrite [] (0x38400 * 65536) d } }
    let c := mk 0x0601 [0, 0x100010001]
    starts 0x0601 [0, 0x100010001] s = true ∧ runHeld (put c s) c = false ∧ runRefusal (begun 0x0601 [0, 0x100010001] s) c = none := by decide +kernel

/-- WaveCompletion: a switch that is due; reports of a mode wave and of a switch; the last report; mode waves with and without MODE_SAFE; swaps both ways; the balance. -/
theorem witness_WaveCompletion :
    (let l := { load0 [] true with written := true }
     let p := { pan0 with load := some l }
     getPan (withPan p) 0 = some p ∧ switchDue (withPan p) 0 p l = true)
    ∧ (let w : Wave := { cls := 0, epoch := 1, cmd := none }
       let p := { pan0 with wave := some w }
       let s := withPan p
       dieOfPan s 0 = some 0 ∧ getPan s 0 = some p ∧ (getDie s 0).pendingTiles = 0 ∧ (getDie s 0).quietNow = true ∧ networkQuiet s 0 = true ∧ (getDie s 0).dieDone = false ∧ p.wantMode = none
        ∧ (let t := modDie 0 (fun x => { x with dieDone := true }) s
           getPan t 0 = some p ∧ w.cls ≠ 1 ∧ ((panDies t p).all fun d => (getDie t d).dieDone) = true))
    ∧ (let p := { pan0 with active := some { cfg0 with modeSafe := true } }
       getPan (withPan p) 0 = some p ∧ p.wave = none)
    ∧ (getPan (withPan pan0) 0 = some pan0 ∧ pan0.active = none ∧ drained (withPan pan0) 0 pan0 = true ∧ pan0.run = none)
    ∧ (let p := { pan0 with jobActive := true, shadow := some cfg0 }
       let s := setReg (ARR_CLK 0) 1250 (withSeq { seq0 with state := .decode } (withModel model1 (withPan p)))
       getPan s 0 = some p ∧ p.serving = some cfg0 ∧ p.wave = none ∧ p.run = none ∧ p.load = none ∧ drained s 0 p = true ∧ readyRows s 0 p cfg0 false ≠ [])
    ∧ (let p := { pan0 with shadow := some cfg0 }
       let s := put (mk 0x0601 [0x100]) (withPan p)
       getPan s 0 = some p ∧ p.jobActive = false ∧ jobWaits s 0 = true ∧ drained s 0 p = true)
    ∧ (let b : BalanceSet := { ctx := 0, pans := [0], minP := 0, maxP := 1, lastEval := 0, streak := 0, dirUp := false, window := [] }
       let s : State := { withPan { pan0 with active := some cfg0 } with balances := [b], tick := msTicks 50 }
       (s.balances.find? fun b => decide (b.ctx = 0)) = some b ∧ b.lastEval + msTicks 50 ≤ cd0Count s ∧ balanceBoundary s b = true
        ∧ (getModel s ((b.pans.findSome? fun n => (getPan s n).bind fun p => p.active.map (·.model)).getD 0)).state ≠ 2
        ∧ (let t : State := { s with tick := msTicks 50 - 1 }
           cd0Count t < b.lastEval + msTicks 50)) := by
  and_intros <;> decide +kernel

/-! ### Models, adapters, steering and policies -/

/-- MODEL_IMPORT meets the hypotheses with and without FABRIC. -/
theorem witness_ModelCompletion_import :
    [(0 : Dword), 0x8000].all (fun k =>
      let p : List Dword := [1, 0x10001, 0, 0, 0, 0, k]
      let m := mk 0x0301 p
      let s := begun 0x0301 p manifested
      starts 0x0301 p manifested && decide (handleBad s m 0 (m.f 1 0 32) = none) && decide ((handlePairs m 2).findSome? (handleBad s m 2) = none)
        && decide ((handlePairs m 4).findSome? (handleBad s m 8) = none) && decide (importPlace s 0 (m.f 0 0 10) = .inr (1, 0)) && decide (m.f 1 0 32 ≠ 0)
        && decide ((getModel s 1).state = 0) && decide (t1Use s 0 + 1 ≤ (getCtx s 0).quota.t1Units) && decide ((handlePairs m 2).all (· = 0))
        && decide (bit (m.p 6) 15 = decide (k ≠ 0))) = true
    ∧ manifestBad (manifestRec (handleBytes manifested 0 0x10001) [0, 0, 0, 0] [0, 0, 0, 0] [[], [], [], []]) VerRec.empty = false := by
  and_intros <;> decide +kernel

/-- ModelCompletion: switches, the flip, and evictions of a LOADED, a CURRENT and the last record. -/
theorem witness_ModelCompletion :
    (let s := withModel model1 up
     starts 0x0305 [0x10001] s = true ∧ switchRefusal (begun 0x0305 [0x10001] s) 0 1 1 = none ∧ starts 0x0305 [1] s = true
      ∧ switchRefusal (begun 0x0305 [1] s) 0 1 0 = some (stBadParam 0x2A))
    ∧ (let w : SwitchWork := { cmd := r0, target := 1, pans := [], flipped := false }
       let s := withModel { model1 with state := 2, switch := some w } up
       (getModel s 1).switch = some w ∧ switchReady s w = true ∧ imageChanges (getModel s 1).cur ((getModel s 1).ver 1) 2 = false)
    ∧ (let s := withModel model1 up
       starts 0x0306 [0x10001] s = true ∧ ((getModel (begun 0x0306 [0x10001] s) 1).ver 1).vstate = 1 ∧ verInFlight (put (mk 0x0306 [0x10001]) s) 1 2 = false
        ∧ (getModel (begun 0x0306 [0x10001] s) 1).ctx = 0
        ∧ starts 0x0306 [1] s = true ∧ ((getModel (begun 0x0306 [1] s) 1).ver 0).vstate = 2 ∧ ((getModel (begun 0x0306 [1] s) 1).ver 1).vstate ≠ 0)
    ∧ (let s := withModel { model1 with v1 := VerRec.empty } up
       starts 0x0306 [1] s = true ∧ ((getModel (begun 0x0306 [1] s) 1).ver 1).vstate = 0 ∧ verOnPan (begun 0x0306 [1] s) 1 ver1 = false) := by
  and_intros <;> decide +kernel

/-- AdapterCompletion: the digest of the adapter object holds. -/
theorem adapterState_digest : digestOk (objBytes adapterState (getObj adapterState 0 1) 0 64) 0x20 = true := by
  refine decide_eq_true ?_
  rfl

/-- ADP_LOAD of that object passes every check. -/
theorem adapterState_loads : adpRefusal (begun 0x0501 [0xFFFF000100010001, 0] adapterState) (mk 0x0501 [0xFFFF000100010001, 0]) = none := by
  have o : objFor (begun 0x0501 [0xFFFF000100010001, 0] adapterState) (mk 0x0501 [0xFFFF000100010001, 0]) ((mk 0x0501 [0xFFFF000100010001, 0]).f 0 0 32)
      = some (getObj adapterState 0 1) := by decide +kernel
  have h : digestOk (objBytes (begun 0x0501 [0xFFFF000100010001, 0] adapterState)
      (storageOf (begun 0x0501 [0xFFFF000100010001, 0] adapterState) (getObj adapterState 0 1)) 0
      (storageOf (begun 0x0501 [0xFFFF000100010001, 0] adapterState) (getObj adapterState 0 1)).size) 0x20 = true := adapterState_digest
  unfold adpRefusal
  simp only [o, h]
  rw [if_neg, if_neg, if_neg, if_neg, if_neg, if_neg, if_neg, if_neg, if_neg, if_neg, if_neg] <;> decide +kernel

/-- AdapterCompletion: loads that are refused and that pass; an unload, bound and unbound; a bind with no slot and with a slot that is not READY; a set of one vector. -/
theorem witness_AdapterCompletion :
    starts 0x0501 [0xFFFF000100010001, 0] adapterState = true
    ∧ (freeSlot (begun 0x0501 [0xFFFF000100010001, 0] adapterState) = some 0)
    ∧ (starts 0x0501 [0xFFFF000100010001, 0] up = true ∧ adpRefusal (begun 0x0501 [0xFFFF000100010001, 0] up) (mk 0x0501 [0xFFFF000100010001, 0]) = some stModelUnavailable)
    ∧ (let s := modSlot 8191 (fun _ => { AdpSlot.free with state := 2 }) up
       starts 0x0501 [0x1FFF000000000000, 1] s = true ∧ (getSlot (begun 0x0501 [0x1FFF000000000000, 1] s) 8191).state = 2 ∧ slotBinds (begun 0x0501 [0x1FFF000000000000, 1] s) 8191 = 0
        ∧ (let t := withSeq { seq0 with adapterSlot := 8191 } s
           starts 0x0501 [0x1FFF000000000000, 1] t = true ∧ 0 < slotBinds (begun 0x0501 [0x1FFF000000000000, 1] t) 8191))
    ∧ (let s := withSeq seq0 up
       starts 0x0502 [9, 0xFFFF] s = true ∧ findEntry (put (mk 0x0502 [9, 0xFFFF]) s) 0 (BitVec.ofNat 64 ((mk 0x0502 [9, 0xFFFF]).p 0)) = some (3, seq0)
        ∧ adapterOk (begun 0x0502 [9, 0xFFFF] s) 0 seq0.model 0xFFFF = true
        ∧ starts 0x0502 [9, 5] s = true ∧ adapterOk (begun 0x0502 [9, 5] s) 0 seq0.model 5 = false)
    ∧ (let s := withModel model1 up
       let p : List Dword := [1, 0, 0x180]
       let d : List Byte := [1, 1, 0, 0] ++ leBytes 60 0
       let b := bytesAt d 0 0x180
       starts 0x0503 p s = true ∧ setBad (hostSet b) (b.drop 64) (getModel s 1).cur = false ∧ mirrorRoom (begun 0x0503 p s) 0 = true
        ∧ (((steerBuild (begun 0x0503 p s) (getModel s 1) 0 (some (b.drop 64, hostSet b))).map fun q => ceilDiv q.2.2.length 64 * 64).foldl (· + ·) 0) ≤ 16128)
    ∧ (let s := withModel model1 up
       let p : List Dword := [0x1000001, 0, 0]
       starts 0x0503 p s = true ∧ bit ((mk 0x0503 p).p 0) 24 = true
        ∧ ((liveEntries (begun 0x0503 p s)).all fun q => decide (q.2.ctx ≠ 0) || decide (q.2.model ≠ 1) || decide (q.2.steerSlot.toNat ≠ 0)) = true) := by
  and_intros <;> decide +kernel

/-- PolicyCompletion: goals at their bounds with and without a balance set, and out of range; thresholds, a sequence's policy, and neither. -/
theorem witness_PolicyCompletion :
    (let p : List Dword := [0xF424000000001, 0x1000927C0, 0]
     starts 0x0407 p up = true ∧ 1 ≤ (mk 0x0407 p).f 0 0 20 ∧ (mk 0x0407 p).f 0 32 20 = 1000000 ∧ (mk 0x0407 p).f 1 0 20 = 600000 ∧ (mk 0x0407 p).f 1 32 16 = 1
      ∧ bit ((mk 0x0407 p).p 2) 32 = false)
    ∧ (let p : List Dword := [0xF424000000001, 0x1000927C0, 0x101000001]
       let s := withPan { pan0 with active := some cfg0 }
       let ps := (List.range 16).filter fun n => bit ((mk 0x0407 p).p 2) n
       starts 0x0407 p s = true ∧ bit ((mk 0x0407 p).p 2) 32 = true ∧ ps = [0] ∧ balanceOk (begun 0x0407 p s) 0 ps = true
        ∧ (mk 0x0407 p).f 2 16 5 ≤ (mk 0x0407 p).f 2 24 5)
    ∧ (starts 0x0407 [0, 0, 0] up = true ∧ ¬ 1 ≤ (mk 0x0407 [0, 0, 0]).f 0 0 20)
    ∧ (let s := withModel model1 up
       starts 0x0409 [0x10001] s = true ∧ bit ((mk 0x0409 [0x10001]).p 0) 16 = true ∧ bit ((mk 0x0409 [0x10001]).p 0) 17 = false
        ∧ (getModel (begun 0x0409 [0x10001] s) 1).ctx = 0 ∧ (getModel (begun 0x0409 [0x10001] s) 1).state = 1)
    ∧ (let s := withSeq seq0 up
       starts 0x0409 [0x20001, 9, 31] s = true ∧ (mk 0x0409 [0x20001, 9, 31]).f 2 0 8 = 31 ∧ findEntry (begun 0x0409 [0x20001, 9, 31] s) 0 9 = some (3, seq0))
    ∧ starts 0x0409 [0] up = true := by
  and_intros <;> decide +kernel

/-! ### Sequences and steps -/

/-- The admission of `admitP` on the pooled package, and on one without a pool. -/
theorem witness_SequenceCompletion_admit :
    ([(pooled, 0x1000000001), (withModel model1 up, 0x1000000001), (withModel model1 up, 0x1000040001)].all fun (x : State × Dword) =>
      let p : List Dword := admitP.set 1 x.2
      let m := mk 0x0401 p
      let s := begun 0x0401 p x.1
      let e := admitEntry m [5] s
      starts 0x0401 p x.1 && !admitFieldsBad m && decide (findEntry (put m x.1) 0 e.handle = none) && decide (findArchive (put m x.1) 0 e.handle = none)
        && decide (admitRefusal s e = none) && adapterOk s 0 e.model e.adapterSlot.toNat && steerOk s 0 e.model e.steerSlot.toNat && decide (freeEntry s = some 0)) = true
    ∧ admitFails (begun 0x0401 admitP pooled) 0 (admitEntry (mk 0x0401 admitP) [5] (begun 0x0401 admitP pooled))
      (inputPagesFor (admitEntry (mk 0x0401 admitP) [5] (begun 0x0401 admitP pooled))) = none
    ∧ heldAhead (begun 0x0401 admitP pooled) (admitEntry (mk 0x0401 admitP) [5] (begun 0x0401 admitP pooled)) = false
    ∧ admitFails (begun 0x0401 admitP up) 0 (admitEntry (mk 0x0401 admitP) [5] (begun 0x0401 admitP up))
      (inputPagesFor (admitEntry (mk 0x0401 admitP) [5] (begun 0x0401 admitP up))) = some 2
    ∧ bit (0x1000040001 : Dword).toNat 18 = true ∧ bit (0x1000000001 : Dword).toNat 18 = false := by
  and_intros <;> decide +kernel

/-- SequenceCompletion: appends to an IDLE and a DECODE sequence, a pause at the longest TTL, speculation at depth 8 and beyond. -/
theorem witness_SequenceCompletion :
    (let s := withSeq seq0 pooled
     let p : List Dword := [9, 0x1000, 65536]
     starts 0x0402 p s = true ∧ (mk 0x0402 p).f 2 0 32 = 65536 ∧ findEntry (put (mk 0x0402 p) s) 0 (BitVec.ofNat 64 ((mk 0x0402 p).p 0)) = some (3, seq0)
      ∧ modelUsable (begun 0x0402 p s) 0 seq0.model = true ∧ seq0.position < 2097152 ∧ seq0.state = .idle ∧ getEntry (put (mk 0x0402 p) s) 3 = some seq0)
    ∧ (let e := { seq0 with state := .decode }
       let s := withSeq e pooled
       starts 0x0402 [9, 0, 1] s = true ∧ bit ((mk 0x0402 [9, 0, 1]).p 2) 32 = false ∧ findEntry (put (mk 0x0402 [9, 0, 1]) s) 0 9 = some (3, e)
        ∧ starts 0x0402 [9, 0, 0x100000001] s = true ∧ bit ((mk 0x0402 [9, 0, 0x100000001]).p 2) 32 = true
        ∧ (getEntry (modEntry 3 (fun x => { x with interrupt := carried s 3 }) (endTurn 3 4 (begun 0x0402 [9, 0, 0x100000001] s))) 3).isSome = true
        ∧ ([SeqState.prefill, SeqState.ending].all fun g =>
            decide (findEntry (put (mk 0x0402 [9, 0, 1]) (withSeq { seq0 with state := g } pooled)) 0 9 = some (3, { seq0 with state := g }))) = true)
    ∧ (let e := { seq0 with state := .decode }
       let s := withSeq e up
       starts 0x0403 [9, 5443200] s = true ∧ (mk 0x0403 [9, 5443200]).f 1 0 23 = 5443200 ∧ findEntry (put (mk 0x0403 [9, 5443200]) s) 0 9 = some (3, e) ∧ e.pausePending = false)
    ∧ (let s := withSeq seq0 up
       starts 0x0408 [9, 0x80100] s = true ∧ (mk 0x0408 [9, 0x80100]).f 1 16 4 = 8 ∧ bit ((mk 0x0408 [9, 0x80100]).p 1) 0 = false
        ∧ findEntry (put (mk 0x0408 [9, 0x80100]) s) 0 9 = some (3, seq0))
    ∧ (starts 0x0408 [9, 0x90100] up = true ∧ (mk 0x0408 [9, 0x90100]).f 1 16 4 = 9) := by
  and_intros <;> decide +kernel

/-- SequenceEndCompletion: resumes that expired, that pass, that lack space with and without WAIT; cancels of a turn, of an ended turn and of an archive; retires. -/
theorem witness_SequenceEndCompletion :
    (let a := { arch0 with deadline := 0 }
     let s := withArch a pooled
     starts 0x0404 [9, 0] s = true ∧ findArchive (put (mk 0x0404 [9, 0]) s) 0 9 = some a ∧ findEntry (put (mk 0x0404 [9, 0]) s) 0 9 = none ∧ a.deadline ≤ (mk 0x0404 [9, 0]).ttlAt)
    ∧ ([pooled, withModel model1 up].all fun x =>
        let s := withArch arch0 x
        let m := mk 0x0404 [9, 0]
        let e := restored arch0 (some m.ref) s.tick
        starts 0x0404 [9, 0] s && decide (m.ttlAt < arch0.deadline) && decide (admitRefusal (begun 0x0404 [9, 0] s) e = none)
          && decide (freeEntry (begun 0x0404 [9, 0] s) = some 0) && !heldAhead (begun 0x0404 [9, 0] s) e
          && decide (admitFails (begun 0x0404 [9, 0] s) 0 e (resumePages e) = if x = pooled then none else some 2)) = true
    ∧ starts 0x0404 [9, 1] (withArch arch0 up) = true
    ∧ (let e := { seq0 with state := .prefill }
       starts 0x0405 [9, 0] (withSeq e up) = true ∧ starts 0x0405 [9, 1] (withSeq e up) = true ∧ findEntry (put (mk 0x0405 [9, 0]) (withSeq e up)) 0 9 = some (3, e))
    ∧ (let e := { seq0 with turnEndedAt := some 0 }
       starts 0x0405 [9, 0] (withSeq e up) = true ∧ findEntry (put (mk 0x0405 [9, 0]) (withSeq e up)) 0 9 = some (3, e) ∧ (mk 0x0405 [9, 0]).acceptedAt ≤ 0)
    ∧ (starts 0x0405 [9, 1] (withArch arch0 up) = true ∧ findArchive (put (mk 0x0405 [9, 1]) (withArch arch0 up)) 0 9 = some arch0
        ∧ findEntry (put (mk 0x0405 [9, 1]) (withArch arch0 up)) 0 9 = none)
    ∧ (starts 0x0406 [9] (withSeq seq0 up) = true ∧ findEntry (put (mk 0x0406 [9]) (withSeq seq0 up)) 0 9 = some (3, seq0) ∧ seq0.state ≠ .ending ∧ seq0.cmd = none
        ∧ findArchive (put (mk 0x0406 [9]) (withSeq seq0 up)) 0 9 = none)
    ∧ (starts 0x0406 [9] (withArch arch0 up) = true ∧ findArchive (put (mk 0x0406 [9]) (withArch arch0 up)) 0 9 = some arch0) := by
  and_intros <;> decide +kernel

/-- SequenceEventCompletion: a hold that expired to the tick; pauses that settle with and without room; the end of an archive and of a resume; a checkpoint at 60 s. -/
theorem witness_SequenceEventCompletion :
    (let e := { seq0 with state := .held, cmd := some r0 }
     let s : State := { withSeq e up with tick := msTicks 10000 }
     ((liveEntries s).find? fun p => decide (p.2.state = .held) && decide (p.2.cmd = some r0)) = some (3, e) ∧ e.heldSince + msTicks (getCtx s 0).holdMaxMs ≤ s.tick)
    ∧ (let e := { seq0 with state := .decode, pausePending := true }
       let s := withSeq e archived
       getEntry s 3 = some e ∧ carried s 3 = false ∧ archiveRefusal s e = none ∧ (let t := withSeq e pooled
           getEntry t 3 = some e ∧ carried t 3 = false ∧ archiveRefusal t e = some 1))
    ∧ (let e := { seq0 with state := .pausing }
       let s := withSeq e archived
       getEntry s 3 = some e ∧ e.releaseBuf = [] ∧ (takeArchive 0 (archivePages e (transcodes s e)) s).isSome = true ∧ twf (0 : Word) s.regs = true ∧ twf 0 s.acc = true
        ∧ Memory.wf s.host.mem = true ∧ Memory.wf s.mem.bytes = true ∧ twf none s.seq.entries = true ∧ twf Die.fresh s.arr.dies = true
        ∧ twf PanHist.fresh s.pmc.hists = true)
    ∧ (let e := { seq0 with state := .resuming }
       let s := withArch arch0 (withSeq e pooled)
       getEntry s 3 = some e ∧ findArchive s 0 9 = some arch0 ∧ arch0.remote = [] ∧ arch0.entry.kvMap = [] ∧ e.reread = false
        ∧ (match takeKv 0 (resumePages arch0.entry) s with
           | some (ps, s1) => (growNodes 3 (nodesFor (tkeys (resumed s1 e arch0 ps).kvMap)) (putEntry 3 (resumed s1 e arch0 ps) s1)).isSome
           | none => false) = true)
    ∧ (let s : State := { up with seq := { up.seq with ttlClock := 60 } }
       s.seq.ttlCkpt + 60 ≤ s.seq.ttlClock ∧ up.seq.ttlClock < up.seq.ttlCkpt + 60) := by
  and_intros <;> decide +kernel

/-- StepCompletion: a build with a ready row and one without; the end of a delivered step; a record that may be sent; a step that may commit. -/
theorem witness_StepCompletion :
    (let p := { pan0 with active := some cfg0 }
     let s := setReg SEQ_CTL 1 (setReg (ARR_CLK 0) 1250 (withSeq { seq0 with state := .decode, kvPages := 1 } (withModel model1 (withPan p))))
     getPan s 0 = some p ∧ p.active = some cfg0 ∧ mayBuild s p = true ∧ (buildRows 0 p cfg0 s).rows.length = 1 ∧ getPan (buildRows 0 p cfg0 s).st 0 = some p
      ∧ (let t := setReg SEQ_CTL 1 (withPan p)
         getPan t 0 = some p ∧ mayBuild t p = true ∧ (buildRows 0 p cfg0 t).rows.length = 0))
    ∧ (let s := withStep step0 up
       findStep s 1 = some step0 ∧ step0.delivered = true ∧ step0.ended = false ∧ panStreamsBusy s 0 = false)
    ∧ (let t := { step0 with ended := true, deltas := [1] }
       let s := withStep t { up with cmt := { up.cmt with ctlAcked := 1 } }
       findStep s 1 = some t ∧ t.commitSeq = none ∧ t.deltas.all (recDurable s) = true ∧ depsSettled s t = true)
    ∧ (let t := { step0 with ended := true, deltas := [1], commitSeq := some 2 }
       let s := withStep t { up with cmt := { up.cmt with ctlAcked := 2 } }
       findStep s 1 = some t ∧ mayCommit s t = true) := by
  and_intros <;> decide +kernel

/-! ### Streams, paging and tables -/

/-- StreamCompletion: a work list to deliver; a block to issue with its page there and missing; a copied block with and without frames; flits of RAKE and data at
port X with no WRITE, and with one. -/
theorem witness_StreamCompletion :
    (let p := { pan0 with step := some 1 }
     let t := { step0 with delivered := false }
     let s := withStep t (withPan p)
     getPan s 0 = some p ∧ p.step.bind (findStep s) = some t ∧ listArrived (modDie 0 (fun d => { d with listed := 1 }) s) p t.epoch = true)
    ∧ ([{ str0 with kv := some { index := 3, first := 0, stop := 64, tpp := 64, lg := 1, bytes := 65536, draft := false } }, str0].all fun t =>
        let s := withStr t (withSeq seq0 objs)
        decide (getStream s 4 = some t) && t.live s && atFront s 4 t && blockReady s t && !kvAway s t && decide (t.issued < t.blocks)
          && decide (missOf s t = none)) = true
    ∧ (let s := withStr str0 (withObjs (farObj 2) (anObj 0x38401))
       getStream s 4 = some str0 ∧ str0.live s = true ∧ atFront s 4 str0 = true ∧ blockReady s str0 = true ∧ kvAway s str0 = false ∧ missOf s str0 = some (0, 1, 0, 2, false))
    ∧ ([anObj 0x38401, farObj 0].all fun b =>
        let t := { str0 with use := .copy, phase := .running, issued := 1, asked := 1, arrived := List.replicate 16 1, length := 16 }
        let s := withStr t (withObjs (anObj 0x38400) b)
        decide (getStream s 4 = some t) && t.live s && decide (t.doneBlocks < t.issued) && blockArrived s t 0
          && decide ((writeObj t.ctx 2 0 (t.arrived.take (t.blockLen 0)) s).1 = decide (b.tier = 0))) = true
    ∧ (let t := { str0 with phase := .running, issued := 1, asked := 1, landed := [(0, 1024)] }
       let w := { str0 with kind := 1, phase := .running, issued := 1, asked := 1024, arrived := List.replicate 65536 0 }
       let r := { str0 with phase := .running, issued := 0, asked := 1 }
       (getStream (withStr t objs) 4 = some t ∧ t.live (withStr t objs) = true ∧ t.doneBlocks < t.issued ∧ blockArrived (withStr t objs) t 0 = true)
        ∧ (w.live (withStr w objs) = true ∧ w.doneBlocks < w.issued ∧ blockArrived (withStr w objs) w 0 = true ∧ (w.server (withStr w objs) 0).1 < 0x60)
        ∧ (r.live (withStr r objs) = true ∧ r.doneBlocks = r.issued ∧ r.read < r.asked))
    ∧ (let f : Flit := { kind := 3, arg := 0, payload := 0 }
       dieOfPan (crossing f (withPan pan0)) 0 = some 0 ∧ tget [] (getDie (crossing f (withPan pan0)) 0).portOut 0 = [(0, f)])
    ∧ (let f : Flit := { kind := 4, arg := 0, payload := 0 }
       tget [] (getDie (crossing f (withPan pan0)) 0).portOut 0 = [(0, f)] ∧ frontAt (crossing f (withPan pan0)) 0 0 0 0 = none)
    ∧ (let f : Flit := { kind := 0, arg := 0, payload := 5 }
       let t := { str0 with kind := 1 }
       let s := withStr t (crossing f (panObjs (anObj 0x38400) (anObj 0x38401)))
       dieOfPan s 0 = some 0 ∧ tget [] (getDie s 0).portOut 0 = [(0, f)] ∧ frontAt s 0 0 0 0 = some (4, t) ∧ t.closing = false ∧ t.live s = true
        ∧ 0 < writeRoom s t ∧ t.block.length < 64 * 2048) := by
  and_intros <;> decide +kernel

/-- PageInCompletion: a halted stream's first request; page-ins that have landed, that take a frame, and that find none; a page-in that is late by a tick. -/
theorem witness_PageInCompletion :
    (let t := { str0 with phase := .halted }
     let s := withStr t (withObjs (farObj 2) (anObj 0x38401))
     getStream s 4 = some t ∧ missOf s t = some (0, 1, 0, 2, false) ∧ s.mem.pageIns = [])
    ∧ ([(1, 512), (0, 512), (0, 0)].all fun (x : Nat × Nat) =>
        let g : PageIn := { ctx := 0, index := 1, page := 0, streams := [4], started := 0, found := 0 }
        let s := setReg (FAR_PORT_MAPPED 0 0) (BitVec.ofNat 32 x.2)
          ((withObjs (farObj (BitVec.ofNat 3 x.1)) (anObj 0x38401)).onMem fun m => { m with pageIns := [(2, some g)] })
        let e := tget PageEntry.zero (getObj s 0 1).pages 0
        decide (tget none s.mem.pageIns 2 = some g) && decide ((getObj s 0 1).tier = 2) && decide (e.state.toNat = x.1)
          && decide (t2Use s 0 ≤ (getCtx s 0).quota.t2Pages) && decide ((findFrame s).isSome = decide (x.2 = 512))) = true
    ∧ (let g : PageIn := { ctx := 0, index := 1, page := 0, streams := [4], started := 0, found := 2 }
       let s : State := { (withStr str0 up).onMem fun m => { m with pageIns := [(2, some g)] } with tick := msTicks (getFld up TIER_PAGEIN_CTL 0 16) + 1 }
       tget none s.mem.pageIns 2 = some g ∧ g.streams = [4] ∧ getStream s 4 = some str0 ∧ g.started + msTicks (getFld s TIER_PAGEIN_CTL 0 16) < s.tick
        ∧ str0.use = .run) := by
  and_intros <;> decide +kernel

/-- TableCompletion: a creation; switches to a LOADED record and to the CURRENT one; MAINT left and entered; an update of two records; a lookup of one bag. -/
theorem witness_TableCompletion :
    (let s := tabled EmbEntry.free
     starts 0x0504 tableP s = true ∧ (getEmb (begun 0x0504 tableP s) 1).state = 0 ∧ createTableRefusal (begun 0x0504 tableP s) (mk 0x0504 tableP) = none)
    ∧ (let s := tabled table0
       starts 0x0505 [0x10001] s = true ∧ tableRefusal (begun 0x0505 [0x10001] s) 0 1 = none ∧ (getEmb (begun 0x0505 [0x10001] s) 1).state = 1
        ∧ ((getEmb (begun 0x0505 [0x10001] s) 1).ver 1).vstate = 1
        ∧ starts 0x0505 [1] s = true ∧ ((getEmb (begun 0x0505 [1] s) 1).ver 0).vstate = 2)
    ∧ (let s := tabled table0
       starts 0x0505 [0x20001] s = true ∧ bit ((mk 0x0505 [0x20001]).p 0) 18 = false ∧ starts 0x0505 [0x60001] s = true ∧ bit ((mk 0x0505 [0x60001]).p 0) 18 = true
        ∧ ((dropTable 1 (begun 0x0505 [0x60001] s)).arr.dies.any fun d => d.2.hot.any fun h => decide (h.entry = 1)) = false)
    ∧ (let s := tabled table0
       let p : List Dword := [0x10001, 0x10002, 2]
       let o := anObj 0x38401
       starts 0x0506 p s = true ∧ targetRefusal (put (mk 0x0506 p) s) (mk 0x0506 p) = none ∧ targetRefusal (begun 0x0506 p s) (mk 0x0506 p) = none
        ∧ recordsOf (put (mk 0x0506 p) s) (mk 0x0506 p) 0x10002 2 128 = .inr o ∧ recordsOf (begun 0x0506 p s) (mk 0x0506 p) 0x10002 2 128 = .inr o
        ∧ rangeAway o 0 256 = false ∧ recMoving s table0 (table0.ver 1) = false ∧ ((List.range 2).any fun k => rowAway s table0 (table0.ver 1) (fieldAt (objBytes s o (k * 128) 4) 0 4)) = false)
    ∧ (let s0 := tabled table0
       let s : State := { modObj 0 3 (fun _ => anObj 0x38402) s0 with
         pans := [(0, some pan0)], mem := { s0.mem with bytes := memWrite (memWrite [] (0x38401 * 65536) [1]) (0x38401 * 65536 + 4) [248, 255] } }
       let p : List Dword := [1, 0x1000300010002]
       let m := mk 0x0507 p
       let l := anObj 0x38401
       starts 0x0507 p s = true ∧ getPan (put m s) 0 = some pan0 ∧ pan0.step = none ∧ pan0.load = none ∧ lookupAway (put m s) m = false ∧ panRefusal (begun 0x0507 p s) 0 0 = none ∧ tableRefusal (begun 0x0507 p s) 0 1 = none
        ∧ objFor (begun 0x0507 p s) m (m.f 1 0 32) = some l ∧ objFor (begun 0x0507 p s) m (m.f 1 32 32) = some (anObj 0x38402)
        ∧ fieldAt (objBytes (begun 0x0507 p s) l 0 4) 0 4 = 1 ∧ 4 + 4 * 1 ≤ l.size
        ∧ 1 * (ceilDiv ((getEmb (begun 0x0507 p s) 1).cur.dim * 4) 64 * 64) ≤ (anObj 0x38402).size ∧ (anObj 0x38402).isReadOnly = false
        ∧ (lookupBag (begun 0x0507 p s) l 1 0).length = 1) := by
  and_intros <;> decide +kernel

/-- RowCompletion: gradients of an old and of the next epoch; a wait that is over by a tick; a fetched row; a report above 64; a copy on an idle die; packets of the accepting
epoch and of another. -/
theorem witness_RowCompletion :
    ([(0 : Dword), 1].all fun e =>
      let s := tabled table0
      let p : List Dword := [0x10001, 0x200010002, 0, e]
      let m := mk 0x0508 p
      starts 0x0508 p s && decide (targetRefusal (put m s) m = none) && decide (targetRefusal (begun 0x0508 p s) m = none)
        && decide (m.f 1 32 32 = 2) && !rangeAway (handleObj (put m s) 0 0x10002) 0 (2 * 128)
        && decide (recordsOf (begun 0x0508 p s) m 0x10002 2 128 = .inr (anObj 0x38401)) && decide (table0.appliedGepoch = 0) && decide (m.p 3 = e.toNat)) = true
    ∧ (let w : GradWork := { cmd := r0, entry := 1, epoch := 1, rows := [], dropped := 0, since := 0 }
       let s : State := { put (runs 0x0508 []) (tabled { table0 with homes := [0, 5] }) with tick := msTicks (getFld up EMB_CTL 0 16) + 1 }
       let t := s.onMdl fun d => { d with grads := [w] }
       (t.mdl.grads.find? fun g => decide (g.entry = (1 : BitVec 10).toNat)) = some w ∧ gradComplete t w = false ∧ w.since + msTicks (getFld t EMB_CTL 0 16) < t.tick
        ∧ findCmd t w.cmd = some (runs 0x0508 []))
    ∧ (let f : RowFetch := { entry := 1, row := 15, waiting := [0], asked := true, sent := false, arrived := none }
       let g : RowFetch := { f with sent := true, arrived := some (List.replicate 64 0) }
       let s := modDie 0 (fun d => { d with fetches := [f] }) (tabled table0)
       ((getDie s 0).fetches.find? fun f => decide (f.entry = (1 : BitVec 10).toNat) && decide (f.row = 15)) = some f ∧ rowAway s (getEmb s 1) (embRec s 0 1) 15 = false
        ∧ (getDie s 0).rowUse = [] ∧ (embRec s 0 1).stride * 64 ≤ (g.arrived.getD []).length)
    ∧ (let s := modDie 0 (fun d => { d with rowUse := [(1, 3, 65)] }) (tabled table0)
       ([({ die := 0, entry := 1, row := 3, count := 65 } : HotReport)].all fun r => reportTrue s 1 r && decide (reportPan s r = none) && dieAtBoundary s (physDie s r.die)) = true ∧ (getEmb s 1).state = 1
        ∧ rowAway s (getEmb s 1) (getEmb s 1).cur 3 = false)
    ∧ (let s := modDie 0 (fun d => { d with accepting := some 7 }) up
       (getDie s 0).accepting = some (7 : Dword).toNat ∧ (getDie s 0).accepting ≠ some (8 : Dword).toNat)
    ∧ dieAtBoundary up 0 = true := by
  and_intros <;> decide +kernel

/-! ### Commit, tiles and rakes -/

/-- JournalCompletion: a heartbeat; a fenced, a bad, a repeated and a new record; an acknowledgement; the control log; a pulled page. -/
theorem witness_JournalCompletion :
    (paired pairedUp = true ∧ pairedUp.pwr.shutdown ≠ .answered ∧ (pairedUp.cmt.outstanding.all fun r => decide (r.kind = 0)) = true
      ∧ pairedUp.cmt.lastSent + msTicks 10 ≤ pairedUp.tick)
    ∧ (let s : State := { wardUp with cmt := { wardUp.cmt with fenced := [5] } }
       s.cmt.fenced.contains frame0.srcIdgen = true)
    ∧ (wardUp.cmt.fenced.contains frame0.srcIdgen = false ∧ servesWard wardUp = true ∧ { frame0 with tagOk := false }.tagOk = false ∧ frame0.tagOk = true
      ∧ wardUp.cmt.peerSeal < frame0.sealNo ∧ frame0.jseq.toNat = wardUp.cmt.mirrorJseq ∧ { frame0 with sealNo := 0 }.sealNo ≤ wardUp.cmt.peerSeal)
    ∧ (let s : State := { pairedUp with cmt := { pairedUp.cmt with nextJseq := 5, jbase := 0, durable := 0, snapshotDue := false } }
       let j : Dword := 3
       paired s = true ∧ j.toNat + s.cmt.jbase < s.cmt.nextJseq ∧ s.cmt.durable < j.toNat + s.cmt.jbase ∧ s.cmt.snapshotDue = false)
    ∧ (let r : JRec := { jseq := 1, epoch := 0, kind := 0, ctx := 0, handle := 0, ttl := 0, cmd := none }
       let s : State := { up with cmt := { up.cmt with ctl := [r] } }
       s.cmt.ctl = [r] ∧ noStandby s = false)
    ∧ (let o : Obj := { anObj 0 with tier := 2, pages := [(0, { state := 2, frame := 0, remoteChip := 3 })] }
       let s : State := setReg (FAR_PORT_MAPPED 0 0) 512 (modObj 0 1 (fun _ => o) up)
       (getObj s 0 1).tier = 2 ∧ (tget PageEntry.zero (getObj s 0 1).pages 0).state = 2 ∧ s.seq.archives = [] ∧ (findFrame s).isSome = true) := by
  and_intros <;> decide +kernel

/-- TakeoverCompletion: a silent ward; a CLAIM that waits, before and in custody; evidence both ways; a retry; a spare that stands by for chip 2. -/
theorem witness_TakeoverCompletion :
    (servesWard wardUp = true ∧ wardUp.cmt.claimAt = none ∧ wardUp.cmt.lastWardFrame + msTicks (getFld wardUp CMT_CTL 0 16) ≤ wardUp.tick)
    ∧ (let s : State := { wardUp with tick := 2000000000, cmt := { wardUp.cmt with claimAt := some 0 } }
       let g := setFld CMT_STATUS 4 1 1 s
       s.cmt.claimAt = some 0 ∧ olderGen (getFld s CMT_WARD 16 16) (newestGen s (getFld s CMT_WARD 0 10)) = false ∧ getFld s CMT_STATUS 4 1 = 0 ∧ 0 + msTicks 1000 ≤ s.tick
        ∧ getFld g CMT_STATUS 4 1 = 1 ∧ 0 + msTicks 10000 ≤ g.tick ∧ olderGen (getFld g CMT_WARD 16 16) (newestGen g (getFld g CMT_WARD 0 10)) = false)
    ∧ (let s : State := { planned with cmt := { planned.cmt with pairingOpen := true } }
       unassigned s = false ∧ buddyOf s = some proof0.peer.toNat ∧ s.cmt.pairingOpen = true ∧ evidenceOk s proof0 = true ∧ evidenceOk s { proof0 with accepts := false } = false)
    ∧ (wardOf planned = some proof0.peer.toNat ∧ evidenceOk planned { proof0 with asBuddy := true } = true)
    ∧ ((buddyOf planned).isSome = true ∧ paired planned = false ∧ planned.host.ready = true ∧ planned.cmt.pairTriedAt + msTicks 10000 ≤ planned.tick) := by
  and_intros <;> decide +kernel

/-- A spare at tray 16 of rack 0 stands by for chip 2 in tray 0. -/
theorem witness_claim :
    let s := setReg LNK_FAB_POS 0x900 (setReg LNK_FAB_ID 0xC00 planned)
    standsBy s 2 = true ∧ Canonical s := by
  refine ⟨by decide +kernel, by decide +kernel, by decide +kernel, by decide +kernel, by decide +kernel, by decide +kernel, by decide +kernel, by decide +kernel⟩

/-- TileCompletion: a die with its island on, and one without; arrivals on a reserved kind, an IDLE flit in compatibility mode, a local route, a pass-through and a missing route; a fill at its end; a second push; a CLEAR. -/
theorem witness_TileCompletion :
    ((getDie (lit up) 0).islandOn = true ∧ (getDie (lit up) 0).clockOn = true)
    ∧ ((getDie up 0).islandOn = false ∨ (getDie up 0).clockOn = false)
    ∧ (nextArrival (incoming (routeOf 0) (wire 7)) 0 2 2 0 [wire 7] [] = some (wire 7) ∧ (wire 7).isIdle = false ∧ (wire 7).flit? = none)
    ∧ (nextArrival (incoming (routeOf 0) idle0) 0 2 2 0 [idle0] [] = some idle0 ∧ idle0.isIdle = true)
    ∧ ([0, 1, 2, 3].all fun ty =>
        let s := incoming (routeOf ty) (wire 0)
        let x := getTile s 0 2 2
        decide (nextArrival s 0 2 2 0 (tget [] x.inFlight 0) [] = some (wire 0)) && !(wire 0).isIdle && decide ((wire 0).flit? = some (tok 0))
          && decide ((x.route 0).type.toNat = ty) && decide (x.eqAt 0 = none)) = true
    ∧ (getTile (modTile 0 2 2 (fun t => { t with fill := some (0, 0) }) up) 0 2 2).fill = some (0, 0)
    ∧ (let s := modTile 0 2 2 (fun t => { t with second := [⟨4, tok 0⟩] }) up
       (getTile s 0 2 2).second = [⟨4, tok 0⟩] ∧ kindAt 2 2 = 0 ∧ outRoom (getTile s 0 2 2) [4] = true)
    ∧ bit (1 : Word).toNat 0 = true := by
  and_intros <;> decide +kernel

/-- RakeCompletion: a quiet, blocked die; an orphan; an empty segment; a segment of another epoch and one with a flit; a CLEAR. -/
theorem witness_RakeCompletion :
    (let s := modTile 0 3 3 (fun t => { t with blocked := true, queues := [(0, [tok 0])] }) (modDie 0 (fun d => { d with quiet := 4096 }) up)
     waitingDie s 0 = false ∧ 4096 ≤ (getDie s 0).quiet ∧ (getDie s 0).nonEmpty = true ∧ ((getDie s 0).tiles.any fun q => q.2.blocked) = true ∧ dieOfPan (rake 0 s).2 0 = none)
    ∧ (let s := modDie 0 (fun d => { d with orphanFor := 4096 }) up
       waitingDie s 0 = false ∧ 4096 ≤ (getDie s 0).orphanFor)
    ∧ (findSegment (segged 0 []) 0 0 = some (seg0 0 []) ∧ (seg0 0 []).tokenSent = false ∧ ((getTile (segged 0 []) 0 3 3).queue 0).length < 8)
    ∧ (findSegment (segged 9 [tok 0]) 0 0 = some (seg0 9 [tok 0]) ∧ dieOfPan (segged 9 [tok 0]) 0 = some 0 ∧ getPan (segged 9 [tok 0]) 0 = some pan0 ∧ (seg0 9 []).epoch ≠ pan0.epoch)
    ∧ ((seg0 pan0.epoch [tok 0]).epoch = pan0.epoch ∧ findSegment (segged pan0.epoch [tok 0]) 0 0 = some (seg0 pan0.epoch [tok 0])
      ∧ nextSegment (getDie (segged pan0.epoch [tok 0]) 0) (seg0 pan0.epoch [tok 0]) = none
      ∧ ((getTile (segged pan0.epoch [tok 0]) 0 3 3).queue 0).length < 8)
    ∧ (let g := seg0 pan0.epoch [tok 0]
       let h := { g with id := 1 }
       let s := modDie 0 (fun d => { d with segments := [g, h] }) (withPan pan0)
       findSegment s 0 0 = some g ∧ nextSegment (getDie s 0) g = some h)
    ∧ (bit (0x80000000 : Word).toNat 31 = true ∧ bit (0 : Word).toNat 31 = false) := by
  and_intros <;> decide +kernel

/-- An orphan in canonical tables. -/
theorem witness_orphan : Canonical (modDie 0 (fun d => { d with orphanFor := 4096 }) up) :=
  ⟨by decide +kernel, by decide +kernel, by decide +kernel, by decide +kernel, by decide +kernel, by decide +kernel, by decide +kernel⟩
/-! ### Tiers, links and the fabric -/

/-- TierCompletion: addresses that the die does not serve, of another context and of its own; a device of the slice; the scrub; an active port and its address. -/
theorem witness_TierCompletion :
    (let a := 0x01000000000
     serves sliced 1 (req 0 true a).addr.toNat = false ∧ serves sliced 0 (req 1 true a).addr.toNat = true ∧ mayReach sliced 1 (req 1 true a).addr.toNat = false
      ∧ mayReach sliced 0 (req 0 true a).addr.toNat = true ∧ (req 0 true a).write = true ∧ (req 0 false a).write = false ∧ windowOf sliced (req 0 false a).addr.toNat = .tier1 0
      ∧ deviceOf sliced 0 a = 0 ∧ getFld sliced (NEAR_DEV_STATUS 0 0) 0 1 ≠ 0)
    ∧ (let s := setReg (NEAR_SCRUB 0) 1 sliced
       windowOf s 0x01000000000 = .tier1 0 ∧ getFld s (NEAR_SCRUB 0) 0 1 ≠ 0)
    ∧ (portUp ported 0 = true ∧ windowOf ported (BitVec.ofNat 42 0x10000000000).toNat = .tier2 0)
    ∧ (let s : State := { ported with mem := { ported.mem with reissued := [0] } }
       s.mem.reissued.contains 0 = true ∧ portUp s 0 = true) := by
  and_intros <;> decide +kernel

/-- LinkCompletion: each state with what meets its clause; offers that pass, fail and lack the FEC; polls with and without a fault. -/
theorem witness_LinkCompletion :
    (linkState (linked 3 1) 3 = 1 ∧ moduleThere (linked 3 1) 3 = true)
    ∧ (linkState (linked 3 2) 3 = 2 ∧ firstPass (decide (12 ≤ 3)) (commonCombos (linked 3 2) 3 offer0) offer0.trials = some (3, 0, 15)
      ∧ firstPass (decide (12 ≤ 3)) (commonCombos (linked 3 2) 3 { offer0 with trials := [] }) [] = none)
    ∧ (let s := modLink 3 (fun l => { l with unacked := [{ frame := elp0, sentAt := 0, replays := 0 }] }) (linked 3 5)
       linkState s 3 = 5 ∧ ((getLink s 3).unacked.any fun x => decide (x.sentAt + msTicks 1 ≤ s.tick) || decide (8 ≤ x.replays)) = true)
    ∧ (let s := setFld (LNK_CTL 0 3) 0 1 1 (linked 3 7)
       linkState s 3 = 7 ∧ (getLink s 3).downAt + msTicks 10000 ≤ s.tick ∧ linkEn s 3 = true)
    ∧ (linkState (linked 12 7) 12 = 7 ∧ linkState (linked 12 1) 12 = 1)
    ∧ (2 ≤ linkState (linked 12 5) 12 ∧ linkState (linked 12 5) 12 ≤ 6)
    ∧ (let p : CmisPoll := { present := true, state := 3, alarm := false, tempC := 40, tempWarn := false, fault := true, lossOfLock := 0, busErr := false }
       (getLink (linked 12 5) 12).polledAt = none ∧ p.busErr = false ∧ p.tempWarn = false ∧ p.fault = true ∧ { p with fault := false }.lossOfLock = 0) := by
  and_intros <;> decide +kernel

/-- RecordCompletion: a link in NEGOTIATE and ACTIVE; records of level 1 and 3; frames; a frame held for a second; packets to an array die, to a periphery die, at its router, and a rectangle. -/
theorem witness_RecordCompletion :
    (3 ≤ linkState (linked 3 3) 3 ∧ linkState (linked 3 3) 3 ≤ 5 ∧ linkState (linked 3 3) 3 = 3 ∧ (getLink (linked 3 3) 3).recSentAt = none)
    ∧ ((disc 1).magic = 0x44564C45 ∧ (disc 1).crcOk = true ∧ (disc 1).level = 1 ∧ (disc 3).level ≠ 1 ∧ (disc 3).level ≠ 2)
    ∧ (linkState (linked 3 5) 3 = 5 ∧ { elp0 with crcOk := false }.crcOk = false ∧ elp0.lseq.toNat = (getLink (linked 3 5) 3).rxSeq)
    ∧ (let s : State := { up with tick := 2000000000, lnk := { up.lnk with held := [(elp0, 0)] } }
       0 < (s.lnk.held.filter fun p => decide (p.1.destChip = 5) && decide (p.2 + msTicks 1000 ≤ s.tick)).length)
    ∧ ([(0, pkt .req (.array 9)), (9, pkt .req (.array 9)), (5, pkt .req (.periphery 0x50)), (0, pkt .req (.periphery 0x50)), (0, pkt .data (.rect 0 0 2 2)),
        (0, pkt .req (.rect 0 0 2 2))].all fun (x : Nat × Packet) =>
        decide ((arbitrate (routing x.1 x.2) x.1 (VNet.num x.2.vnet)).map (fun a => (a.1, a.2.1)) = some (0, x.2))) = true
    ∧ (nextRouter 0 (physDie up 9) = some 1 ∧ nextRouter 9 (physDie up 9) = none ∧ nextRouter 5 (pkt .req (.periphery 0x50)).exit = some 4
      ∧ nextRouter 0 (pkt .req (.periphery 0x50)).exit = none)
    ∧ arbitrate up 0 1 = none := by
  and_intros <;> decide +kernel

/-- FabricCompletion: a plan refused and one that passes; the status; a collective refused, one that starts and one that times out; a JOIN and the pass it starts; a shard that failed. -/
theorem witness_FabricCompletion :
    (starts 0x0804 [0x1000, 112] up = true ∧ planRefusal (begun 0x0804 [0x1000, 112] up) (bytesAt [] 0 (min 112 0x40001)) = some 0x40
      ∧ planRefusal (begun 0x0804 [0x1000, 112] up) (bytesAt planBytes 0 (min 112 0x40001)) = none ∧ (begun 0x0804 [0x1000, 112] up).pans = [] ∧ planBytes.length = 108)
    ∧ starts 0x0805 [0x1000] up = true
    ∧ (let m := mk 0x0603 collP
       let s1 := begun 0x0603 collP grouped
       starts 0x0603 collP grouped = true ∧ collRefusal s1 m [1, 2] = none ∧ collRefusal s1 m [] = some (stBadParam 0x47)
        ∧ ((put m grouped).lnk.plan.bind fun p => p.groups.find? fun g => decide (g.group = m.f 0 16 16)).map (·.members) = some [1, 2]
        ∧ rangeAway (handleObj (put m grouped) m.ctx (m.f 1 0 32)) 0 (m.p 2) = false ∧ rangeAway (handleObj (put m grouped) m.ctx (m.f 1 32 32)) 0 (m.p 2) = false
        ∧ objFor s1 m (m.f 1 0 32) = some (anObj 0x38400) ∧ objFor s1 m (m.f 1 32 32) = some (anObj 0x38401) ∧ m.p 2 ≤ (storageOf s1 (anObj 0x38400)).size
        ∧ (anObj 0x38401).isReadOnly = false ∧ (storageOf s1 (anObj 0x38400)).lost = false)
    ∧ (let s : State := { put (runs 0x0603 collP) grouped with tick := 2000000000, lnk := { grouped.lnk with colls := [coll0] } }
       findCmd s r0 = some (runs 0x0603 collP) ∧ (s.lnk.colls.find? fun g => decide (g.cmd = r0)) = some coll0
        ∧ coll0.since + msTicks (getFld s LNK_COLL_CTL 0 16) ≤ s.tick)
    ∧ (let s := withModel { model1 with v0 := { ver1 with manifest := [1] } } (setFld LNK_FAB_STATUS 8 10 1 grouped)
       let t : State := { s with tick := 2000000000, lnk := { s.lnk with passes := [{ digest := [1], receivers := [2], joinedAt := 0, next := [] }] } }
       sameJob s 2 = true ∧ (heldManifest s [1]).isSome = true ∧ (s.lnk.passes.find? fun p => decide (p.digest = [1])) = none
        ∧ (t.lnk.passes.find? fun p => decide (p.digest = [1])).isSome = true ∧ heldManifest t [1] = some (0, { ver1 with manifest := [1] }) ∧ 0 + msTicks 5 ≤ t.tick)
    ∧ (let x : Shard := { handle := 0x10001, off := 0, len := 1, digest := [], got := [], verified := false, bad := true, failed := 0 }
       let w : FabImport := { cmd := r0, entry := 1, record := 0, source := 2, digest := [1], ver := ver1, shards := [x], lastAt := 0, pass := [] }
       let s : State := { up with mdl := { up.mdl with imports := [w] } }
       findImport s r0 = some w ∧ w.shards[0]? = some x ∧ x.verified = false ∧ x.bad = true ∧ x.failed < 2) := by
  and_intros <;> decide +kernel

/-- A refetched shard whose digest is right, and one whose digest cannot be. -/
theorem witness_shardDigest : Config.shake256 [1] = Config.shake256 [1] ∧ Config.shake256 [1] ≠ [] := by
  refine ⟨rfl, fun h => ?_⟩
  have := congrArg List.length h
  simp [Config.shake256, leBytes] at this
/-! ### Faults, cores, lifetime records and measurement -/

/-- FaultCompletion: FLT_READ with CLEAR; a permitted and a forbidden reaction; LIFE_READ within and past the record; forced sources; a pattern on a free die and on a pan's; a selected source;
a forced event; a swap. -/
theorem witness_FaultCompletion :
    ((faultOf 0x301 0 0 0).source ≠ 0 ∧ 74 ≤ (faultOf 0 74 0 0).die.toNat ∧ 4 ≤ (faultOf 0 0 4 0).unit.toNat
      ∧ (faultOf 0 73 3 0).source = 0 ∧ (faultOf 0 73 3 0).die.toNat < 74 ∧ (faultOf 0 73 3 0).unit.toNat < 4)
    ∧ starts 0x0701 [0x1000, 1] up = true
    ∧ (starts 0x0702 [0x10705] up = true ∧ starts 0x0702 [0x10301] up = true ∧ mayReact 0x0301 1 = true ∧ mayReact 0x0301 7 = false ∧ starts 0x0702 [0x70301] up = true
      ∧ (mk 0x0702 [0x10301]).f 0 0 16 = 0x0301 ∧ (mk 0x0702 [0x10301]).f 0 16 3 = 1 ∧ (mk 0x0702 [0x70301]).f 0 16 3 = 7)
    ∧ (starts 0x0703 [0x1000, 0, 64] up = true ∧ (mk 0x0703 [0x1000, 0x3FFFC0, 64]).p 1 + (mk 0x0703 [0x1000, 0x3FFFC0, 64]).p 2 ≤ 0x400000
      ∧ 0x400000 < (mk 0x0703 [0x1000, 0x3FFFC0, 65]).p 1 + (mk 0x0703 [0x1000, 0x3FFFC0, 65]).p 2 ∧ starts 0x0703 [0x1000, 0x3FFFC0, 65] up = true)
    ∧ (starts 0x0901 [0x301] up = true ∧ (sourceRow ((mk 0x0901 [0x301]).f 0 0 16)).isSome = true)
    ∧ (starts 0x0902 [71] up = true ∧ (mk 0x0902 [71]).f 0 0 7 < 72 ∧ dieOfPan (begun 0x0902 [71] up) (physDie (begun 0x0902 [71] up) 71) = none
      ∧ starts 0x0902 [0] (withPan pan0) = true ∧ (dieOfPan (begun 0x0902 [0] (withPan pan0)) (physDie (begun 0x0902 [0] (withPan pan0)) 0)).isSome = true)
    ∧ (sourceRow (getFld (setReg FLT_SRC_SEL 0x301 up) FLT_SRC_SEL 0 16)).isSome = true
    ∧ (let s := modSrc 0x301 (fun x => { x with force := true, repeats := 2 }) up
       (getSrc s 0x301).force = true ∧ 0 < (getSrc s 0x301).repeats ∧ (getSrc s 0x301).forcedAt = none)
    ∧ (let w : Swap := { failed := 5, logical := 5, spare := 72, pans := [] }
       ({ up with pwr := { up.pwr with swap := some w } } : State).pwr.swap = some w ∧ w.spare = 72 + (0 : Fin 2).val) := by
  and_intros <;> decide +kernel

/-- CoreCompletion: the key; ALIVE running after 500 µs and 10 ms; a core that is late; one that may restart, one to retire; no core left. -/
theorem witness_CoreCompletion :
    bits (0x5A3C : Word).toNat 0 16 = 0x5A3C
    ∧ (let s := setReg FLT_ALIVE_STATUS 2 late
       getFld s FLT_ALIVE_STATUS 1 1 = 1 ∧ s.flt.edgeAt + usTicks 500 ≤ s.tick ∧ s.flt.kickAt + msTicks 10 ≤ s.tick)
    ∧ (fwRuns late = true ∧ cd1Active late = false ∧ roleOf late 3 ≠ 15 ∧ coreDown late 3 = false ∧ tget 0 late.flt.coreKick (3 : Fin 8) - 1 + msTicks 4 ≤ late.tick)
    ∧ (coreDown (crashed 3 1000000000000) 3 = true ∧ mustRetire (crashed 3 1000000000000) 3 = false ∧ nmiCore (crashed 3 1000000000000) 3 < 8 ∧ segmentsGood (crashed 3 1000000000000).fw.running 3 = true
      ∧ roleOf (crashed 3 1000000000000) 3 ≠ 4)
    ∧ (spareCore (crashed 3 0) = some 7 ∧ mustRetire (crashed 3 0) 3 = true)
    ∧ (let s : State := { late with fw := { late.fw with down := [(3, 0), (7, 0)] } }
       takeoverDue s = true) := by
  and_intros <;> decide +kernel

/-- A takeover in canonical tables. -/
theorem witness_takeover : Canonical { late with fw := { late.fw with down := [(3, 0), (7, 0)] } } :=
  ⟨by decide +kernel, by decide +kernel, by decide +kernel, by decide +kernel, by decide +kernel, by decide +kernel, by decide +kernel⟩

/-- LifeCompletion: a minute and 15 minutes have passed; a shutdown whose steps have settled; a write under way. -/
theorem witness_LifeCompletion :
    (fwRuns late = true ∧ late.flt.baccAt + msTicks 60000 ≤ late.tick ∧ late.flt.life.writing = none ∧ late.pwr.shutdown ≠ .settling ∧ late.flt.life.lastWrite + msTicks 900000 ≤ late.tick)
    ∧ (let s : State := { late with pwr := { late.pwr with shutdown := .settling } }
       s.pwr.shutdown = .settling ∧ allSettled s = true ∧ fwRuns s = true)
    ∧ ({ late with flt := { late.flt with life := { late.flt.life with writing := some (0, []) } } } : State).flt.life.writing.isSome = true := by
  and_intros <;> decide +kernel

/-- PmcCompletion: a sample of a reserved set, of the histograms and of tiles; a die that opens its window and one that closes it; the clear bits. -/
theorem witness_PmcCompletion :
    (let s := withPan pan0
     starts 0x0704 [0x500, 0x1000, 100] s = true ∧ sampleRefusal (begun 0x0704 [0x500, 0x1000, 100] s) (mk 0x0704 [0x500, 0x1000, 100]) = some (stBadParam 7)
      ∧ starts 0x0704 [0x400, 0x1000, 0] s = true ∧ sampleRefusal (begun 0x0704 [0x400, 0x1000, 0] s) (mk 0x0704 [0x400, 0x1000, 0]) = none ∧ (mk 0x0704 [0x400, 0x1000, 0]).f 0 8 8 = 4
      ∧ starts 0x0704 [0x10F, 0x1000, 3000000] s = true ∧ sampleRefusal (begun 0x0704 [0x10F, 0x1000, 3000000] s) (mk 0x0704 [0x10F, 0x1000, 3000000]) = none
      ∧ (mk 0x0704 [0x10F, 0x1000, 3000000]).f 0 8 8 ≠ 4)
    ∧ (let s := sampled (sample0 [0] []) up
       sampleOf s r0 = some (sample0 [0] []) ∧ logicalDie s (0 : Fin 74) = some 0 ∧ (sample0 [0] []).toOpen.contains 0 = true)
    ∧ (let w : Window := { sample := 0, start := 0, stop := 100, cycles0 := 0, rake0 := 0, wait0 := 0, rakes0 := 0, perf0 := [], full0 := [], eqFull0 := [], hwmShared := false, swapped := false }
       let s := modDie 0 (fun d => { d with windows := [w] }) (sampled (sample0 [] [0]) late)
       sampleOf s r0 = some (sample0 [] [0]) ∧ logicalDie s (0 : Fin 74) = some 0 ∧ (getDie s 0).windows.find? (fun w => decide (w.sample = 0)) = some w ∧ w.stop ≤ dieCount s 0
        ∧ (sample0 [] [0]).toReport.contains 0 = true)
    ∧ bit (1 : Word).toNat 0 = true := by
  and_intros <;> decide +kernel
/-! ### Firmware, start-up, power and management -/

/-- FirmwareCompletion: an image staged; an update that begins and one that goes on; an image B that has held for 15 minutes; the lock bit; the noise sources; a report; registers of 32 bits in both
spaces. -/
theorem witness_FirmwareCompletion :
    (starts 0x0801 [0x1000, 64, 0] up = true ∧ (put (mk 0x0801 [0x1000, 64, 0]) up).fw.update = none)
    ∧ (starts 0x0802 [1] up = true ∧ (put (mk 0x0802 [1]) up).fw.down = [] ∧ (put (mk 0x0802 [1]) up).fw.update = none)
    ∧ (findCmd (put (runs 0x0802 [1]) up) r0 = some (runs 0x0802 [1]) ∧ (runs 0x0802 [1]).phase = .running)
    ∧ (let s : State := { late with fw := { late.fw with activatedB := some 0 } }
       s.fw.activatedB = some 0 ∧ fwRuns s = true ∧ s.fw.update = none ∧ 0 + msTicks 900000 ≤ s.tick)
    ∧ bit (1 : Word).toNat 0 = true
    ∧ (up.fw.badSource1 = false ∧ { up.fw with badSource0 := true }.badSource0 = true)
    ∧ (starts 0x0803 [0x1000, 0, 0, 0, 0] up = true ∧ (put (mk 0x0803 [0x1000, 0, 0, 0, 0]) up).host.updating = false)
    ∧ ((regRow (physAddr up (0x100000000 + 0x2000))).isSome = true ∧ ((regRow (physAddr up (0x100000000 + 0x2000))).map (·.wide)) = some false
      ∧ ((regRow (physAddr up FW_STATUS)).map (·.wide)) = some false ∧ FW_STATUS < 2 ^ 32) := by
  and_intros <;> decide +kernel

/-- StartupCompletion: every stage; PERST_N released with power good; PWR_GOOD up; a shutdown not yet begun. -/
theorem witness_StartupCompletion :
    (staged .off).pwr.stage = .off ∧ (staged .ready).pwr.stage ≠ .off ∧ up.pwr.perst = false
    ∧ (let s : State := { up with pwr := { up.pwr with stage := .held, perst := true, pwrGood := true } }
       s.pwr.stage = .held ∧ s.pwr.perst = true ∧ s.pwr.pwrGood = true ∧ bit (3 : Word).toNat 2 = false ∧ bit (7 : Word).toNat 2 = true)
    ∧ ((staged .training).pwr.stage = .training ∧ (staged .training).flt.blockResets = [])
    ∧ ((staged .selfTest).pwr.stage = .selfTest ∧ ([0x70] : List Nat).contains 0x70 = true ∧ ([72] : List Nat).contains 0x70 = false)
    ∧ ((staged .discovery).pwr.stage = .discovery ∧ (staged .discovery).pwr.swap = none)
    ∧ (staged .readying).pwr.stage = .readying
    ∧ (let s : State := { up with pwr := { up.pwr with pwrGood := true } }
       s.pwr.pwrGood = true ∧ s.pwr.perst = false)
    ∧ (let s : State := { up with fw := { up.fw with update := some { cmd := r0, image := [], fromB := false, pausedAt := none } } }
       fwRuns s = true ∧ s.fw.update.isSome = true)
    ∧ (fwRuns up = true ∧ up.fw.update = none ∧ up.pwr.shutdown ≠ .writing ∧ up.pwr.shutdown ≠ .answered) := by
  and_intros <;> decide +kernel

/-- READY in canonical tables. -/
theorem witness_ready : Canonical (staged .readying) :=
  ⟨by decide +kernel, by decide +kernel, by decide +kernel, by decide +kernel, by decide +kernel, by decide +kernel, by decide +kernel⟩

/-- PowerCompletion: a package with power; the governor without pans; a die with its island on, without and with a droop. -/
theorem witness_PowerCompletion :
    (up.pwr.stage ≠ .off ∧ ({ up with pwr := { up.pwr with pwrGood := true } } : State).pwr.pwrGood = true)
    ∧ (fwRuns up = true ∧ up.pwr.stage ≠ .training ∧ up.pwr.stage ≠ .selfTest ∧ up.pwr.thermTrip = false ∧ getFld up PWR_STATUS 3 1 ≠ 1 ∧ up.pans = [])
    ∧ ((getDie (lit up) 0).islandOn = true ∧ (getDie (lit up) 0).drooped = false)
    ∧ (getDie (modDie 0 (fun d => { d with drooped := true }) (lit up)) 0).drooped = true := by
  and_intros <;> decide +kernel

/-- ManagementCompletion: standby power; a sensor that there is and one that there is not; the whole record's last bytes; a standby item; TCK low and high. -/
theorem witness_ManagementCompletion :
    stbyUp up = true ∧ (sensorReading up 115).isSome = true ∧ sensorReading up 116 = none
    ∧ (fwRuns up = true ∧ 0x3FFC00 + 1024 ≤ 0x400000) ∧ (stbyItem up 4).isSome = true
    ∧ up.pwr.tck = false ∧ ({ up.pwr with tck := true } : PowerState).tck = true := by
  and_intros <;> decide +kernel
/-! ### Registers, memory, rules and frames -/

/-- RegisterAccessWidth: an address without a register, and another width than a register's own. -/
theorem witness_RegisterAccessWidth :
    (regRow (physAddr up 0x1F00001)).isNone = true ∧ ((regRow (physAddr up FW_STATUS)).map fun r => decide (2 ≠ (if r.wide then 8 else 4))) = some true := by
  and_intros <;> decide +kernel

/-- RegisterAccessCodes: a register of 32 bits with fields, in canonical tables. -/
theorem witness_RegisterAccessCodes : ((regRow CMT_CTL).map fun r => !r.wide && !r.fields.isEmpty) = some true ∧ physAddr up CMT_CTL = CMT_CTL := by
  and_intros <;> decide +kernel

/-- CountersSaturate: canonical tables, and a counter at its end. -/
theorem witness_CountersSaturate :
    Canonical up ∧ (getReg (bumpBy PWR_DROOP_COUNT 5 (setReg PWR_DROOP_COUNT 0xFFFFFFFD up)) PWR_DROOP_COUNT).toNat = 0xFFFFFFFF :=
  ⟨⟨by decide, by decide, by decide, by decide, by decide, by decide, by decide⟩, by decide +kernel⟩

/-- MemoryReadAfterWrite: a memory with two bytes, and addresses beside a write. -/
theorem witness_MemoryReadAfterWrite :
    Memory.wf [(3, 1), (9, 2)] = true ∧ memRead (memWrite [(3, 1), (9, 2)] 3 [7, 0]) 2 4 = [0, 7, 0, 0] ∧ memGet (memWrite [(3, 1), (9, 2)] 3 [7, 0]) 9 = 2
      ∧ memZero [(3, 1), (9, 2)] 9 1 = [(3, 1)] := by
  and_intros <;> decide +kernel

/-- HostReadFrame: reads of an object within its range, and of the records. -/
theorem witness_HostReadFrame :
    (let c := mk 0x0206 [0x10001, 0, 0x1000, 64]
     starts 0x0206 [0x10001, 0, 0x1000, 64] objs = true ∧ Memory.wf (put c objs).host.mem = true ∧ accessHeld (put c objs) c 0x10001 0 64 false = false
      ∧ objFor (begun 0x0206 [0x10001, 0, 0x1000, 64] objs) c 0x10001 = some (anObj 0x38400) ∧ outside (anObj 0x38400) 0 64 = false ∧ (anObj 0x38400).lost = false)
    ∧ starts 0x0103 [0x1000] up = true ∧ starts 0x0701 [0x1000, 0] up = true ∧ starts 0x0703 [0x1000, 0, 64] up = true ∧ starts 0x0805 [0x1000] up = true := by
  and_intros <;> decide +kernel

/-- TierWriteFrame: a write of a context to its own object, and one that the die refuses. -/
theorem witness_TierWriteFrame :
    Memory.wf sliced.mem.bytes = true ∧ serves sliced 0 (req 0 true 0x01000000000).addr.toNat = true ∧ mayReach sliced 0 (req 0 true 0x01000000000).addr.toNat = true
      ∧ serves sliced 1 (req 0 true 0x01000000000).addr.toNat = false ∧ (req 1 true 0x01000000000).fw = false ∧ mayReach sliced 1 (req 1 true 0x01000000000).addr.toNat = false := by
  and_intros <;> decide +kernel

/-- OrderedCommands: an ordered command that is first, and one behind another of its queue. -/
theorem witness_OrderedCommands :
    (let m : Cmd := { mk 0x0702 [0x10301] with ordered := true, seqno := 1, tag := 8 }
     m.ordered = true ∧ startable { up with cmds := [m] } m = true
      ∧ startable { up with cmds := [mk 0x0702 [0x10301], m] } m = false ∧ findCmd { up with cmds := [mk 0x0702 [0x10301], m] } m.ref = some m
      ∧ startable { up with cmds := [mk 0x0702 [0x10301], m] } { m with ordered := false } = true) := by
  and_intros <;> decide +kernel

/-- PermittedReactions: a permitted and a forbidden reaction of a corrected source. -/
theorem witness_PermittedReactions :
    starts 0x0702 [0x10301] up = true ∧ mayReact 0x0301 1 = true ∧ starts 0x0702 [0x20301] up = true ∧ mayReact 0x0301 2 = false := by
  and_intros <;> decide +kernel

/-- PanHistograms: a pan to release, a selected pan, and a creation. -/
theorem witness_PanHistograms :
    (let p := { pan0 with releasing := true }
     getPan (withPan p) 0 = some p ∧ p.wave = none ∧ p.run = none ∧ drained (withPan p) 0 p = true)
    ∧ bit (1 : Word).toNat 0 = true ∧ starts 0x0304 [0] (withPan pan0) = true
    ∧ (starts 0x0303 [0x110000] up = true ∧ createRefusal (begun 0x0303 [0x110000] up) 0 0 1 1 = none ∧ firstFree (tkeys (begun 0x0303 [0x110000] up).pans) 16 0 = some 0
      ∧ getFld (begun 0x0303 [0x110000] up) FW_STATUS 5 1 ≠ 1) := by
  and_intros <;> decide +kernel

/-- A command put in a canonical package. -/
theorem witness_canonicalPut : Canonical (put (mk 0x0303 [0x110000]) up) := ⟨by decide, by decide, by decide, by decide, by decide, by decide, by decide⟩

/-- PredictedTime: 1,000 ns and 100 ns for each of 3 tokens at 1,250 MHz, padded from 3 rows to 4. -/
theorem witness_PredictedTime : predict cost0 1250 3 3 0 = 20800 ∧ predict { cost0 with rowGranule := 4 } 1250 3 3 0 = 22400 ∧ panDies (withPan pan0) pan0 ≠ [] := by
  and_intros <;> decide +kernel

/-- NumericRoundTrip: codes of values in the smallest and the largest layout. -/
theorem witness_NumericRoundTrip :
    (e2m1.decode 7).isNan = false ∧ e2m1.encode (e2m1.decode 7) = 7 ∧ (fp32.decode 0x7F7FFFFF).isNan = false ∧ fp32.encode (fp32.decode 1) = 1 := by
  and_intros <;> decide +kernel

/-- TtlWindow: an archive that is due, and one that a resume holds. -/
theorem witness_TtlWindow :
    (let s := withArch { arch0 with deadline := 0 } up
     let t := withArch { arch0 with deadline := 0, resuming := true } up
     s.seq.archives ≠ [] ∧ ¬(s.seq.ttlClock < 0) ∧ resumeAccepted s { arch0 with deadline := 0 } = false ∧ t.seq.archives = [{ arch0 with deadline := 0, resuming := true }]) := by
  and_intros <;> decide +kernel

/-- ArrayFrame: each event answers a next state. -/
theorem witness_ArrayFrame :
    (∃ t, exec (.tileCycle ⟨0, 2, 2⟩) (lit up) = .next t) ∧ (∃ t, exec (.flitArrival ⟨0, 2, 2⟩ .n false) (incoming (routeOf 0) (wire 0)) = .next t)
      ∧ (∃ t, exec (.creditReturn ⟨0, 2, 2⟩ .n 0) up = .next t) ∧ (∃ t, exec (.arrArithClr 0 1) up = .next t) ∧ (∃ t, exec (.droopDetect 0) (lit up) = .next t)
      ∧ (∃ t, exec (.rowFetchDone 0 0 0) up = .next t) ∧ (∃ t, exec (.routerPacket 0 .req) (routing 0 (pkt .req (.array 9))) = .next t)
      ∧ (∃ t, exec (.spillRefill 0 0) (segged 9 [tok 0]) = .next t) :=
  ⟨⟨_, rfl⟩, ⟨_, rfl⟩, ⟨_, rfl⟩, ⟨_, rfl⟩, ⟨_, rfl⟩, ⟨_, rfl⟩, ⟨_, rfl⟩, ⟨_, rfl⟩⟩

/-- LinkFrame: each event answers a next state. -/
theorem witness_LinkFrame :
    (∃ t, exec (.linkEnable 3) up = .next t) ∧ (∃ t, exec (.linkSignalDetect 3) (linked 3 1) = .next t) ∧ (∃ t, exec (.discoveryRecordSend 3) (linked 3 3) = .next t)
      ∧ (∃ t, exec (.ackTimeout 3 false) (linked 3 5) = .next t) ∧ (∃ t, exec (.noRouteTimeout 5) up = .next t) :=
  ⟨⟨_, rfl⟩, ⟨_, rfl⟩, ⟨_, rfl⟩, ⟨_, rfl⟩, ⟨_, rfl⟩⟩

/-- CommandFrame: each command answers a next state. -/
theorem witness_CommandFrame :
    (∃ t, exec (.objFree r0) (put (mk 0x0202 [0x10001]) objs) = .next t) ∧ (∃ t, exec (.fltConfig r0) (put (mk 0x0702 [0x10301]) up) = .next t)
      ∧ (∃ t, exec (.adpUnload r0) (put (mk 0x0502 [0]) up) = .next t) ∧ (∃ t, exec (.adpBind r0) up = .next t) ∧ (∃ t, exec (.panRelease r0) (put (mk 0x0304 [0]) (withPan pan0)) = .next t)
      ∧ (∃ t, exec (.fence r0) up = .next t) ∧ (∃ t, exec (.ctxSetQuota r0) (put (mk 0x0104 [0, 5, 5, 0x100020005]) objs) = .next t)
      ∧ (∃ t, exec (.embVersionSwitch r0) (put (mk 0x0505 [0x10001]) (tabled table0)) = .next t) :=
  ⟨⟨_, rfl⟩, ⟨_, rfl⟩, ⟨_, rfl⟩, ⟨_, rfl⟩, ⟨_, rfl⟩, ⟨_, rfl⟩, ⟨_, rfl⟩, ⟨_, rfl⟩⟩
end Sys2Proof.Tests
end

section
/-! The register map (R6 to R8): a stored register after a write, the places of the fields in a row, what a write by the access codes leaves in
each field, and what a read shows; with these the statements of chapter 0 are settled. -/

namespace Sys2Proof.Machine

/-! ### Stored registers -/

/-- A register set is read back. -/
theorem getReg_setReg_same {s : State} (h : Canonical s) (a : Nat) (v : Word) : getReg (setReg a v s) a = v := by
  rw [getReg, setReg, State.onRegs_regs, tget_tput_same a _ (twf_iff_from.1 h.regs), BitVec.xor_assoc, BitVec.xor_self, BitVec.xor_zero]

/-- Setting a register leaves every other one. -/
theorem getReg_setReg_other {s : State} (h : Canonical s) {a b : Nat} (hb : b ≠ a) (v : Word) : getReg (setReg a v s) b = getReg s b := by
  rw [getReg, setReg, State.onRegs_regs, tget_tput_other _ hb (twf_iff_from.1 h.regs), getReg]

/-- After reset no register is listed, so each holds its table's reset value. -/
theorem getReg_reset (a : Nat) : getReg State.reset a = regReset a := BitVec.zero_xor

/-! ### Bits of numbers -/

theorem bit_eq_testBit (x i : Nat) : bit x i = x.testBit i := Nat.testBit_eq_decide_div_mod_eq.symm

theorem testBit_bits (x lo w i : Nat) : (bits x lo w).testBit i = (decide (i < w) && x.testBit (lo + i)) := by
  rw [bits, Nat.testBit_mod_two_pow, Nat.testBit_div_two_pow, Nat.add_comm]

theorem bits_lt (x lo w : Nat) : bits x lo w < 2 ^ w := Nat.mod_lt _ (Nat.two_pow_pos w)

/-! ### Rows and the places of their fields -/

theorem mem_of_rowAt {o : Nat} {r : RegRow} : ∀ {rows : List RegRow}, rowAt rows o = some r → r ∈ rows
  | r' :: rows, h => by
    rw [rowAt] at h
    split at h
    · cases h; exact List.mem_cons_self
    · exact List.mem_cons_of_mem _ (mem_of_rowAt h)

theorem mem_of_blockRow {a : Nat} {r : RegRow} : ∀ {bs : List RegBlock}, blockRow bs a = some r → ∃ b ∈ bs, r ∈ b.rows
  | b :: bs, h => by
    have later (h : blockRow bs a = some r) : ∃ b' ∈ b :: bs, r ∈ b'.rows :=
      (mem_of_blockRow h).imp fun _ ⟨hb, hr⟩ => ⟨List.mem_cons_of_mem _ hb, hr⟩
    rw [blockRow] at h
    generalize (if b.stride = 0 then 0 else (a - b.base) / b.stride) = n at h
    split at h
    · split at h
      next hrow => cases h; exact ⟨b, List.mem_cons_self, mem_of_rowAt hrow⟩
      next => exact later h
    · exact later h

/-- The fields of a row rise from the lowest bit up without overlap and end within the register (R6, R7). -/
def RegRow.fits (r : RegRow) : Bool :=
  decide (r.fields.Pairwise fun f g => f.lo + f.width ≤ g.lo) && r.fields.all fun f => decide (f.lo + f.width ≤ if r.wide then 64 else 32)

theorem regBlocks_fit : ∀ b ∈ regBlocks, b.rows.all RegRow.fits = true := by decide +kernel

theorem cmdCtxRows_fit : cmdCtxRows.all RegRow.fits = true := by decide +kernel

/-- Every row of the map fits its register. -/
theorem fits_of_regRow {a : Nat} {r : RegRow} (h : regRow a = some r) : r.fits = true := by
  rw [regRow] at h
  split at h
  · obtain ⟨b, hb, hr⟩ := mem_of_blockRow h
    rw [List.mem_singleton.1 hb] at hr
    exact List.all_eq_true.1 cmdCtxRows_fit r hr
  · obtain ⟨b, hb, hr⟩ := mem_of_blockRow h
    exact List.all_eq_true.1 (regBlocks_fit b hb) r hr

theorem pairwise_of_fits {r : RegRow} (h : r.fits = true) : r.fields.Pairwise fun f g => f.lo + f.width ≤ g.lo :=
  of_decide_eq_true (Bool.and_eq_true_iff.1 h).1

theorem le_32_of_fits {r : RegRow} (h : r.fits = true) (hw : r.wide = false) {f : RegField} (hf : f ∈ r.fields) : f.lo + f.width ≤ 32 := by
  have := of_decide_eq_true (List.all_eq_true.1 (Bool.and_eq_true_iff.1 h).2 f hf)
  simpa [hw] using this

/-! ### Fields put in their places -/

/-- Bit i lies in the field. -/
def RegField.covers (f : RegField) (i : Nat) : Bool := decide (f.lo ≤ i) && decide (i < f.lo + f.width)

theorem RegField.covers_iff {f : RegField} {i : Nat} : f.covers i = true ↔ f.lo ≤ i ∧ i < f.lo + f.width := by simp [covers]

theorem RegField.place_lt (f : RegField) (x : Nat) : f.place x < 2 ^ (f.lo + f.width) := by
  rw [place, Nat.add_comm, Nat.pow_add]
  exact Nat.mul_lt_mul_of_pos_right (Nat.mod_lt _ (Nat.two_pow_pos _)) (Nat.two_pow_pos _)

theorem RegField.testBit_place (f : RegField) (x i : Nat) : (f.place x).testBit i = (f.covers i && x.testBit (i - f.lo)) := by
  rw [place, Nat.testBit_mul_two_pow, Nat.testBit_mod_two_pow, covers, Bool.and_assoc]
  by_cases h : f.lo ≤ i
  · simp [show i - f.lo < f.width ↔ i < f.lo + f.width by omega]
  · simp [h]

/-- Fields that rise without overlap add up to the number that has each field's bits in its place. -/
theorem testBit_sum_place (x : RegField → Nat) (i : Nat) : ∀ {fs : List RegField}, fs.Pairwise (fun f g => f.lo + f.width ≤ g.lo) →
    (fs.map fun f : RegField => f.place (x f)).sum.testBit i = fs.any fun f => f.covers i && (x f).testBit (i - f.lo)
  | [], _ => by simp
  | f :: fs, h => by
    obtain ⟨hf, hfs⟩ := List.pairwise_cons.1 h
    have hd : 2 ^ (f.lo + f.width) ∣ (fs.map fun g => g.place (x g)).sum := by
      apply List.dvd_sum
      intro n hn
      obtain ⟨g, hg, rfl⟩ := List.mem_map.1 hn
      exact Dvd.dvd.mul_left (Nat.pow_dvd_pow 2 (hf g hg)) _
    have ih := testBit_sum_place x i hfs
    obtain ⟨k, hk⟩ := hd
    rw [List.map_cons, List.sum_cons, List.any_cons, ← ih, hk, Nat.add_comm, Nat.two_pow_add_eq_or_of_lt (f.place_lt (x f)), Nat.testBit_or,
      f.testBit_place, Bool.or_comm]

/-- No two fields that rise without overlap cover the same bit. -/
theorem eq_of_covers {fs : List RegField} (h : fs.Pairwise fun f g => f.lo + f.width ≤ g.lo) {f g : RegField} (hf : f ∈ fs) (hg : g ∈ fs) {i : Nat}
    (hfi : f.covers i = true) (hgi : g.covers i = true) : f = g := by
  have apart : fs.Pairwise fun f g => ¬(f.covers i = true ∧ g.covers i = true) := h.imp fun hle => by
    simp only [RegField.covers_iff]; omega
  have : Std.Symm fun f g : RegField => ¬(f.covers i = true ∧ g.covers i = true) := ⟨fun _ _ hn hc => hn hc.symm⟩
  by_contra hne
  exact apart.forall hf hg hne ⟨hfi, hgi⟩

/-- In such a number each field shows its own value. -/
theorem bits_sum_place (x : RegField → Nat) {fs : List RegField} (h : fs.Pairwise fun f g => f.lo + f.width ≤ g.lo) {f : RegField} (hf : f ∈ fs) :
    bits (fs.map fun g => g.place (x g)).sum f.lo f.width = x f % 2 ^ f.width := by
  apply Nat.eq_of_testBit_eq
  intro i
  rw [testBit_bits, testBit_sum_place x _ h, Nat.testBit_mod_two_pow]
  by_cases hi : i < f.width
  · have hc : f.covers (f.lo + i) = true := RegField.covers_iff.2 (by omega)
    rw [Bool.eq_iff_iff]
    simp only [hi, decide_true, Bool.true_and, List.any_eq_true, Bool.and_eq_true]
    constructor
    · rintro ⟨g, hg, hgc, hgx⟩
      rw [eq_of_covers h hg hf hgc hc, Nat.add_sub_cancel_left] at hgx
      exact hgx
    · intro hx
      exact ⟨f, hf, hc, by rwa [Nat.add_sub_cancel_left]⟩
  · simp [hi]

/-! ### A write by the access codes (R7, R8, R401) -/

theorem RegField.written_lt (f : RegField) (locked : Bool) (old v : Nat) : f.written locked old v < 2 ^ f.width := by
  have ho := bits_lt old f.lo f.width
  have hv := bits_lt v f.lo f.width
  rw [written]
  cases f.acc with
  | ro => exact ho
  | rw | wo => exact hv
  | w1c => exact Nat.lt_of_le_of_lt Nat.and_le_left ho
  | w1s => exact Nat.or_lt_two_pow ho hv
  | rwl => cases locked <;> assumption

theorem toNat_writtenValue (r : RegRow) (locked : Bool) (old v : Nat) :
    (writtenValue r locked old v).toNat = (r.fields.map fun f => f.place (f.written locked old v)).sum % 2 ^ 32 := by
  rw [writtenValue, BitVec.toNat_ofNat, List.sum_eq_foldl_nat]

/-- A field of the written value. -/
theorem bits_writtenValue {r : RegRow} (h : r.fits = true) (hw : r.wide = false) {f : RegField} (hf : f ∈ r.fields) (locked : Bool) (old v : Nat) :
    bits (writtenValue r locked old v).toNat f.lo f.width = f.written locked old v := by
  have hcut : ∀ x, bits (x % 2 ^ 32) f.lo f.width = bits x f.lo f.width := by
    intro x
    have hle := le_32_of_fits h hw hf
    apply Nat.eq_of_testBit_eq
    intro i
    rw [testBit_bits, testBit_bits, Nat.testBit_mod_two_pow]
    by_cases hi : i < f.width
    · simp [show f.lo + i < 32 by omega]
    · simp [hi]
  rw [toNat_writtenValue, hcut, bits_sum_place (fun g => g.written locked old v) (pairwise_of_fits h) hf, Nat.mod_eq_of_lt (f.written_lt locked old v)]

/-- A bit of the written value that no field covers is 0. -/
theorem testBit_writtenValue_reserved {r : RegRow} (h : r.fits = true) {i : Nat} (hi : ∀ f ∈ r.fields, ¬(f.lo ≤ i ∧ i < f.lo + f.width))
    (locked : Bool) (old v : Nat) : (writtenValue r locked old v).toNat.testBit i = false := by
  rw [toNat_writtenValue, Nat.testBit_mod_two_pow, testBit_sum_place (fun g => g.written locked old v) i (pairwise_of_fits h)]
  have hc : ∀ f ∈ r.fields, f.covers i = false := fun f hf => Bool.eq_false_iff.2 fun hc => hi f hf (RegField.covers_iff.1 hc)
  rw [List.any_eq_false.2 fun f hf => by simp [hc f hf], Bool.and_false]

/-- A write of a 32-bit register sets it to the value that its access codes give. -/
theorem genericWrite_of_regRow {a : Nat} {r : RegRow} (h : regRow a = some r) (hw : r.wide = false) (v : Nat) (s : State) :
    genericWrite a v s = setReg a (writtenValue r (decide (getFld s FW_LOCK 0 1 = 1)) (getReg s a).toNat v) s := by
  simp [genericWrite, h, hw]

/-- A field after a write. -/
theorem getFld_genericWrite {a : Nat} {r : RegRow} {s : State} (hs : Canonical s) (h : regRow a = some r) (hw : r.wide = false) {f : RegField}
    (hf : f ∈ r.fields) (v : Nat) :
    getFld (genericWrite a v s) a f.lo f.width = f.written (decide (getFld s FW_LOCK 0 1 = 1)) (getReg s a).toNat v := by
  rw [genericWrite_of_regRow h hw, getFld, getReg_setReg_same hs, bits_writtenValue (fits_of_regRow h) hw hf]

theorem bit_written_w1c {f : RegField} (h : f.acc = .w1c) (locked : Bool) (old v : Nat) {i : Nat} (hi : i < f.width) :
    bit (f.written locked old v) i = (bit (bits old f.lo f.width) i && !bit (bits v f.lo f.width) i) := by
  simp only [RegField.written, h, bit_eq_testBit, Nat.testBit_and, Nat.testBit_xor, Nat.testBit_two_pow_sub_one, hi, decide_true, Bool.true_xor]

theorem bit_written_w1s {f : RegField} (h : f.acc = .w1s) (locked : Bool) (old v : Nat) (i : Nat) :
    bit (f.written locked old v) i = (bit (bits old f.lo f.width) i || bit (bits v f.lo f.width) i) := by
  simp only [RegField.written, h, bit_eq_testBit, Nat.testBit_or]

/-! ### What a read shows (R6 to R8) -/

/-- A bit that no readable field covers is not in the mask. -/
theorem testBit_readMask {r : RegRow} {i : Nat} (h : ∀ f ∈ r.fields, f.lo ≤ i → i < f.lo + f.width → f.acc = .wo) : (readMask r).testBit i = false := by
  have fold : ∀ (fs : List RegField) (m : Nat), m.testBit i = false → (∀ f ∈ fs, f.covers i = false) →
      (fs.foldl (fun m f => m ||| (2 ^ f.width - 1) * 2 ^ f.lo) m).testBit i = false := by
    intro fs
    induction fs with
    | nil => exact fun _ hm _ => hm
    | cons f fs ih =>
      intro m hm hfs
      obtain ⟨hf, hfs⟩ := List.forall_mem_cons.1 hfs
      refine ih _ ?_ hfs
      have hmask : (2 ^ f.width - 1) * 2 ^ f.lo = f.place (2 ^ f.width - 1) := by
        rw [RegField.place, Nat.mod_eq_of_lt (Nat.sub_lt (Nat.two_pow_pos _) Nat.one_pos)]
      rw [Nat.testBit_or, hm, hmask, f.testBit_place, hf, Bool.false_and, Bool.or_false]
  refine fold _ 0 (Nat.zero_testBit i) fun f hf => Bool.eq_false_iff.2 fun hc => ?_
  obtain ⟨hf, hacc⟩ := List.mem_filter.1 hf
  obtain ⟨hlo, hhi⟩ := RegField.covers_iff.1 hc
  simp [h f hf hlo hhi] at hacc

/-- A read at a width that no register has there answers 0. -/
theorem readReg_eq_zero {s : State} {a w : Nat} (h : ∀ r, regRow (physAddr s a) = some r → w ≠ (if r.wide then 8 else 4)) : readReg s a w = 0 := by
  rw [readReg]
  split
  next => rfl
  next r hr => exact if_pos (h r hr)

/-- A read shows no bit outside the mask. -/
theorem testBit_readReg {s : State} {a w i : Nat} {r : RegRow} (hr : regRow (physAddr s a) = some r) (hi : (readMask r).testBit i = false) :
    (readReg s a w).testBit i = false := by
  simp only [readReg, hr]
  by_cases hw : w ≠ if r.wide then 8 else 4
  · rw [if_pos hw, Nat.zero_testBit]
  · rw [if_neg hw, Nat.testBit_and, hi, Bool.and_false]

/-! ### The command REGISTER_WRITE -/

/-- The address in the register map that a register write names: a function's BAR0 lies above the control register space. -/
def spaceAddr : RegSpace → Nat
  | .ctl a => a.toNat
  | .bar0 fn o => 0x100000000 + fn.toNat * 0x10000 + o.toNat

/-- A register write at a width that no register has there leaves the state. -/
theorem execRegisterWrite_ignored {space : RegSpace} {w : Nat} {s : State}
    (h : ∀ r, regRow (physAddr s (spaceAddr space)) = some r → w ≠ (if r.wide then 8 else 4)) (v : Dword) : execRegisterWrite space w v s = .next s := by
  have skip {r : RegRow} (hr : regRow (physAddr s (spaceAddr space)) = some r) : w ≠ 4 ∨ r.wide = true := by
    cases hwide : r.wide with
    | true => exact .inr rfl
    | false => exact .inl (by simpa [hwide] using h r hr)
  cases space <;>
  · rw [execRegisterWrite]
    split
    next => rfl
    next r hr => rw [if_pos (skip hr)]

/-! ### The statements of chapter 0 -/

/-- Settles O46: a read and a write alike first look up the row and compare the width. -/
theorem registerAccessWidth : Obligations.RegisterAccessWidth := by
  unfold Obligations.RegisterAccessWidth
  refine ⟨fun s a w h => readReg_eq_zero h, fun space w v s => ?_⟩
  cases space with
  | ctl a => exact fun h => execRegisterWrite_ignored (space := .ctl a) h v
  | bar0 fn o => exact fun h => execRegisterWrite_ignored (space := .bar0 fn o) h v

/-- Settles O47: the fields of every row of the map lie apart and within the register, so the written value holds each field's new value in its
place and 0 elsewhere; a read goes through the mask of the readable fields. -/
theorem registerAccessCodes : Obligations.RegisterAccessCodes := by
  unfold Obligations.RegisterAccessCodes
  refine ⟨fun a r v s hs hr hw => ⟨fun f hf => ?_, fun i _ hi => ?_, fun b hb => ?_⟩, fun s a w i r hr hi => ?_⟩
  · dsimp only
    rw [getFld_genericWrite hs hr hw hf]
    refine ⟨fun h => ?_, fun h => ?_, fun h => ?_, fun h hl => ?_, fun h hl => ?_, fun h i hi => bit_written_w1c h _ _ _ hi,
      fun h i _ => bit_written_w1s h _ _ _ i⟩
    · simp only [RegField.written, h, getFld]
    · simp only [RegField.written, h]
    · simp only [RegField.written, h]
    · rw [decide_eq_true hl]
      simp only [RegField.written, h, if_true, getFld]
    · rw [decide_eq_false hl]
      simp only [RegField.written, h, Bool.false_eq_true, if_false]
  · rw [genericWrite_of_regRow hr hw, getReg_setReg_same hs, bit_eq_testBit]
    exact testBit_writtenValue_reserved (fits_of_regRow hr) hi _ _ _
  · rw [genericWrite_of_regRow hr hw, getReg_setReg_other hs hb]
  · rw [bit_eq_testBit]
    exact testBit_readReg hr (testBit_readMask hi)

/-- Settles O6: no register, table or memory of the reset state lists anything, and the five registers named read their tables' values. -/
theorem resetState : Obligations.ResetState := by
  unfold Obligations.ResetState
  refine ⟨getReg_reset, rfl, rfl, rfl, rfl, fun _ => rfl, fun _ => rfl, fun _ => rfl, fun _ => rfl, rfl, ?_⟩
  and_intros <;> decide +kernel

end Sys2Proof.Machine
end

section
/-! Counters (R97, R128, R372): the register that a count raises and the accumulator beside it, each as an update of its own array. -/

namespace Sys2Proof.Machine

/-- The word that a counter shows after n more counts (R97). -/
def countedWord (a n : Nat) (s : State) : Word := BitVec.ofNat 32 (min ((getReg s a).toNat + n) 0xFFFFFFFF)

theorem toNat_countedWord (a n : Nat) (s : State) : (countedWord a n s).toNat = min ((getReg s a).toNat + n) 0xFFFFFFFF := by
  rw [countedWord, BitVec.toNat_ofNat, Nat.mod_eq_of_lt (by omega)]

/-- Counting sets one register; the accumulator beside it, if it has one, is apart. -/
theorem bumpBy_eq (a n : Nat) (s : State) :
    bumpBy a n s = (setReg a (countedWord a n s) s).onAcc fun t => if isBittern a && decide (0 < n) then tmod 0 t a (· + n) else t := by
  rw [bumpBy]
  cases isBittern a && decide (0 < n) <;> rfl

theorem getReg_bumpBy (a n : Nat) (s : State) (b : Nat) : getReg (bumpBy a n s) b = getReg (setReg a (countedWord a n s) s) b := by
  rw [bumpBy_eq, getReg, getReg, State.onAcc_regs]

/-- The accumulators after a count, by address: a bittern counter's takes all of it (R372). -/
theorem tget_acc_bumpBy {s : State} (h : Canonical s) (a n b : Nat) :
    tget 0 (bumpBy a n s).acc b = tget 0 s.acc b + if b = a ∧ isBittern a = true then n else 0 := by
  have hacc : (bumpBy a n s).acc = if isBittern a && decide (0 < n) then tmod 0 s.acc a (· + n) else s.acc := by rw [bumpBy_eq]; rfl
  have hwf := twf_iff_from.1 h.acc
  rw [hacc, tmod]
  by_cases hb : b = a
  · subst hb
    cases isBittern b with
    | false => simp
    | true =>
      rcases Nat.eq_zero_or_pos n with rfl | hn
      · simp
      · simp [hn, tget_tput_same b _ hwf]
  · rw [if_neg (c := b = a ∧ _) (fun hc => hb hc.1), Nat.add_zero]
    split
    · exact tget_tput_other _ hb hwf
    · rfl

/-- Settles O48: the count is one register write and one update of the accumulators. -/
theorem countersSaturate : Obligations.CountersSaturate := by
  unfold Obligations.CountersSaturate
  intro a n s h
  refine ⟨?_, fun b hb => ?_, ?_, fun b hb => ?_, ?_⟩
  · rw [getReg_bumpBy, getReg_setReg_same h, toNat_countedWord]
  · rw [getReg_bumpBy, getReg_setReg_other h hb]
  · simp [tget_acc_bumpBy h]
  · simp [tget_acc_bumpBy h, hb]
  · rw [bumpBy_eq]; rfl

end Sys2Proof.Machine
end

section
/-! The floating-point layouts of Table 3.2 (R67, R80, R84): a value that a layout holds at its last place rounds to itself, and its code is the
code that it was read from. -/

namespace Sys2Proof.Machine

/-! ### Magnitudes and codes -/

theorem dyLe_of_le {m n : Nat} {e d : Int} (hm : m ≤ n) (he : e ≤ d) : dyLe m e n d = true := by
  rw [dyLe, Int.min_eq_left he, Int.sub_self, Int.toNat_zero, Nat.pow_zero, Nat.mul_one, decide_eq_true_eq]
  exact Nat.le_trans hm (Nat.le_mul_of_pos_right n (Nat.two_pow_pos _))

/-- One exponent step makes up for a factor of 2. -/
theorem dyLe_of_le_two_mul {m n : Nat} {e d : Int} (hm : m ≤ 2 * n) (he : e < d) : dyLe m e n d = true := by
  obtain ⟨k, hk⟩ : ∃ k, (d - e).toNat = k + 1 := ⟨(d - e).toNat - 1, by omega⟩
  rw [dyLe, Int.min_eq_left he.le, Int.sub_self, Int.toNat_zero, Nat.pow_zero, Nat.mul_one, hk, Nat.pow_succ', ← Nat.mul_assoc, Nat.mul_comm n,
    decide_eq_true_eq]
  exact Nat.le_trans hm (Nat.le_mul_of_pos_right _ (Nat.two_pow_pos _))

theorem roundAt_self (m : Nat) (e : Int) : roundAt m e e = m := by
  rw [roundAt, if_pos (Int.le_refl e), Int.sub_self, Int.toNat_zero, Nat.pow_zero, Nat.mul_one]

theorem b2n_bit (x i : Nat) : b2n (bit x i) = x / 2 ^ i % 2 := by
  rw [b2n, bit]
  rcases Nat.mod_two_eq_zero_or_one (x / 2 ^ i) with h | h <;> simp [h]

namespace FpFmt
variable {f : FpFmt} {neg : Bool} {m e x : Nat}

/-- A code is its sign, its exponent field and its mantissa field in their places. -/
theorem code_eq (hx : x < 2 ^ (1 + f.eb + f.mb)) :
    b2n (bit x (f.mb + f.eb)) * 2 ^ (f.mb + f.eb) + x / 2 ^ f.mb % 2 ^ f.eb * 2 ^ f.mb + x % 2 ^ f.mb = x := by
  have hsign : x / 2 ^ (f.mb + f.eb) < 2 := Nat.div_lt_of_lt_mul (hx.trans_eq (by ring))
  have hlow : x / 2 ^ f.mb % 2 ^ f.eb * 2 ^ f.mb + x % 2 ^ f.mb = x % 2 ^ (f.mb + f.eb) := by
    rw [Nat.pow_add, Nat.mod_mul]; ring
  rw [b2n_bit, Nat.mod_eq_of_lt hsign, Nat.add_assoc, hlow, Nat.div_add_mod']

/-- A magnitude whose last place is the layout's own there, and that the layout reaches, is not rounded. -/
theorem encode_num_of_held {e : Int} (hm : m ≠ 0) (hq : f.quantum m e = e) (hmax : dyLe m e f.maxFinite.1 f.maxFinite.2 = true) :
    f.encode (.num neg m e) = f.pack neg m e := by
  rw [encode.eq_def]
  cases m with
  | zero => exact absurd rfl hm
  | succ m => simp only [hq, roundAt_self, hmax, if_true]

/-! ### Subnormal magnitudes -/

theorem quantum_subnormal (hm0 : m ≠ 0) (hm : m < 2 ^ f.mb) : f.quantum m (1 - f.bias - f.mb) = 1 - f.bias - f.mb := by
  have hlog : Nat.log2 m < f.mb := (Nat.log2_lt hm0).2 hm
  rw [quantum]
  omega

theorem pack_subnormal (hm : m < 2 ^ f.mb) (e : Int) : f.pack neg m e = b2n neg * 2 ^ (f.mb + f.eb) + m := by
  rw [pack, if_pos hm]

theorem subnormal_le_maxFinite (hmb : 1 ≤ f.mb) (heb : 2 ≤ f.eb) (hm : m < 2 ^ f.mb) :
    dyLe m (1 - f.bias - f.mb) f.maxFinite.1 f.maxFinite.2 = true := by
  have hmb2 : 2 ^ 1 ≤ 2 ^ f.mb := Nat.pow_le_pow_right Nat.two_pos hmb
  have heb4 : (4 : Int) ≤ 2 ^ f.eb := by exact_mod_cast Nat.pow_le_pow_right Nat.two_pos heb
  rw [maxFinite]
  split <;> exact dyLe_of_le (by rw [Nat.pow_succ]; omega) (by omega)

/-! ### Normal magnitudes -/

theorem log2_normal (hm : m < 2 ^ f.mb) : Nat.log2 (2 ^ f.mb + m) = f.mb :=
  (Nat.log2_eq_iff (by positivity)).2 ⟨Nat.le_add_right _ _, by rw [Nat.pow_succ]; omega⟩

theorem quantum_normal (hm : m < 2 ^ f.mb) (he : e ≠ 0) : f.quantum (2 ^ f.mb + m) (e - f.bias - f.mb) = e - f.bias - f.mb := by
  rw [quantum, log2_normal hm]
  omega

theorem pack_normal (hm : m < 2 ^ f.mb) :
    f.pack neg (2 ^ f.mb + m) (e - f.bias - f.mb) = b2n neg * 2 ^ (f.mb + f.eb) + e * 2 ^ f.mb + m := by
  have hexp : ((e : Int) - f.bias - f.mb + f.mb + ((0 : Nat) : Int) + f.bias).toNat = e := by omega
  rw [pack, log2_normal hm, Nat.sub_self, if_neg (by omega), hexp, Nat.pow_zero, Nat.div_one, Nat.add_sub_cancel_left]

/-- The greatest exponent field of an IEEE layout holds no number, and that of E4M3 none with a mantissa of ones. -/
theorem normal_le_maxFinite (hmb : 1 ≤ f.mb) (hm : m < 2 ^ f.mb) (he : e < 2 ^ f.eb) (hieee : ¬(f.special = 0 ∧ e = 2 ^ f.eb - 1))
    (hone : ¬(f.special = 1 ∧ e = 2 ^ f.eb - 1 ∧ m = 2 ^ f.mb - 1)) :
    dyLe (2 ^ f.mb + m) (e - f.bias - f.mb) f.maxFinite.1 f.maxFinite.2 = true := by
  have hmb2 : 2 ^ 1 ≤ 2 ^ f.mb := Nat.pow_le_pow_right Nat.two_pos hmb
  have heZ : (e : Int) < 2 ^ f.eb := by exact_mod_cast he
  rw [maxFinite]
  split
  next h =>
    have : (e : Int) + 1 < 2 ^ f.eb := by exact_mod_cast (show e + 1 < 2 ^ f.eb by omega)
    exact dyLe_of_le (by rw [Nat.pow_succ]; omega) (by omega)
  next h =>
    by_cases htop : e = 2 ^ f.eb - 1
    · exact dyLe_of_le (by rw [Nat.pow_succ]; omega) (by omega)
    · have : (e : Int) + 1 < 2 ^ f.eb := by exact_mod_cast (show e + 1 < 2 ^ f.eb by omega)
      exact dyLe_of_le_two_mul (by rw [Nat.pow_succ]; omega) (by omega)
  next => exact dyLe_of_le (by rw [Nat.pow_succ]; omega) (by omega)

/-! ### Codes back and forth -/

/-- R67, R80: what a code encodes, when it is not a NaN, is encoded by that code. -/
theorem encode_decode (hmb : 1 ≤ f.mb) (heb : 2 ≤ f.eb) (hx : x < 2 ^ (1 + f.eb + f.mb)) (hn : (f.decode x).isNan = false) :
    f.encode (f.decode x) = x := by
  have hcode := code_eq hx
  have hm : x % 2 ^ f.mb < 2 ^ f.mb := Nat.mod_lt _ (Nat.two_pow_pos _)
  have he : x / 2 ^ f.mb % 2 ^ f.eb < 2 ^ f.eb := Nat.mod_lt _ (Nat.two_pow_pos _)
  rw [decode] at hn ⊢
  generalize x % 2 ^ f.mb = m at *
  generalize x / 2 ^ f.mb % 2 ^ f.eb = e at *
  generalize bit x (f.mb + f.eb) = neg at *
  split at hn
  next hieee =>
    split at hn
    next hinf =>
      rw [if_pos hieee, if_pos hinf, ← hcode, encode, infCode, hinf, hieee.2, Nat.add_zero]
    next => exact absurd hn (by decide)
  next hieee =>
    split at hn
    next => exact absurd hn (by decide)
    next hone =>
      rw [if_neg hieee, if_neg hone]
      by_cases he0 : e = 0
      · rw [if_pos he0]
        by_cases hm0 : m = 0
        · rw [hm0, encode, ← hcode, he0, hm0, Nat.zero_mul, Nat.add_zero]
        · rw [encode_num_of_held hm0 (quantum_subnormal hm0 hm) (subnormal_le_maxFinite hmb heb hm), pack_subnormal hm, ← hcode, he0, Nat.zero_mul,
            Nat.add_zero]
      · rw [if_neg he0, encode_num_of_held (by positivity) (quantum_normal hm he0) (normal_le_maxFinite hmb hm he hieee hone), pack_normal hm, hcode]

end FpFmt

/-- A word that is not an FP32 NaN is what its value rounds to; a NaN rounds to the canonical one (R84). -/
theorem toFp_fpOf (w : Word) : toFp (fpOf w) = if (fpOf w).isNan then 0x7FC00000 else w := by
  cases hn : (fpOf w).isNan with
  | true =>
    have hv : fpOf w = .nan := of_decide_eq_true hn
    rw [hv, toFp]
    rfl
  | false =>
    rw [toFp, fpOf, FpFmt.encode_decode (f := fp32) (by decide) (by decide) w.isLt hn, BitVec.ofNat_toNat, BitVec.setWidth_eq]
    rfl

/-- Settles O56: every layout of Table 3.2 has a mantissa and two exponent bits, so each value that a code encodes is held without rounding. -/
theorem numericRoundTrip : Obligations.NumericRoundTrip := by
  unfold Obligations.NumericRoundTrip
  refine ⟨fun f hf x hx hn => ?_, by decide, by decide, by decide, by decide, toFp_fpOf⟩
  have hwidths : ∀ f ∈ [fp32, bf16, e4m3, e5m2, e3m2, e2m3, e2m1], 1 ≤ f.mb ∧ 2 ≤ f.eb := by decide
  obtain ⟨hmb, heb⟩ := hwidths f hf
  exact FpFmt.encode_decode hmb heb hx hn

end Sys2Proof.Machine
end

section
/-! The tiles' own events (chapter 2; R72, R77, R97): what each does, case by case. -/

namespace Sys2Proof.Machine

/-! ### TILE_CYCLE (R49) -/

/-- A tile whose island or clock stands still does nothing. -/
theorem execTileCycle_stopped {t : TileRef} {s : State} (h : (getDie s t.die).islandOn = false ∨ (getDie s t.die).clockOn = false) :
    execTileCycle t s = .next s := by
  rw [execTileCycle, if_pos (by rcases h with h | h <;> simp [h])]

/-- The state in which the firing rule finds a tile: its links have sent, its elastic queues have moved on, its counts have advanced and its queues'
heads are clean. -/
def readyToFire (p col row : Nat) (s : State) : State :=
  let s1 := [0, 1, 2, 3, 4].foldl (sendLink p col row) s
  let s2 := (tkeys (getTile s1 p col row).elastic).foldl (drainElastic p col row) s1
  cleanHeads p col row (modTile p col row (fun t => noteQueues { t with frame := (t.frame + 1) % 8, fill := t.fill.map fun f => (f.1 - 1, f.2) }) s2)

/-- The state after the tile was busy or the firing rule was applied. -/
def cycled (p col row : Nat) (s : State) : State :=
  (busyCycle p col row (readyToFire p col row s)).getD (evaluate p col row (readyToFire p col row s))

theorem execTileCycle_running {t : TileRef} {s : State} (hi : (getDie s t.die).islandOn = true) (hc : (getDie s t.die).clockOn = true) :
    execTileCycle t s = .next (if t.col.val = 0 ∧ t.row.val = 0 then dieCycle t.die (cycled t.die t.col t.row s) else cycled t.die t.col t.row s) := by
  unfold execTileCycle
  extract_lets p col row d s1 s2 s3 s4 s5
  have hs5 : s5 = cycled p col row s := by
    simp only [s5, cycled, show s4 = readyToFire p col row s from rfl]
    generalize evaluate p col row _ = e
    cases busyCycle p col row _ <;> rfl
  rw [if_neg (by simp [d, p, hi, hc]), hs5]

/-! ### FLIT_ARRIVAL (R37, R42, R101) -/

/-- The number of a port, as keys and links count them. -/
def portNumber : Port → Nat
  | .n => 0 | .e => 1 | .s => 2 | .w => 3 | .x => 4

/-- The flit that arrives next on the link into a port is y. -/
def Arrives (t : TileRef) (port : Port) (y : OnLink) (s : State) : Prop :=
  nextArrival s t.die t.col t.row (portNumber port) (tget [] (getTile s t.die t.col t.row).inFlight (portNumber port)) [] = some y

/-- The key of the VQ that a flit arrives on. -/
def arrivalKey (port : Port) (y : OnLink) : Nat := 4 * portNumber port + y.vq

/-- The route of that key. -/
def arrivalRoute (t : TileRef) (port : Port) (y : OnLink) (s : State) : Route := (getTile s t.die t.col t.row).route (arrivalKey port y)

/-- The state once the flit has left its link. -/
def offLink (t : TileRef) (port : Port) (y : OnLink) (s : State) : State :=
  modTile t.die t.col t.row (fun z => oweCredit (isInterface t.col t.row (portNumber port) && !y.isIdle) (arrivalKey port y)
    { z with inFlight := tmod [] z.inFlight (portNumber port) (dropArrival y.vq) }) s

/-- Where a flit without a parity error goes that is not IDLE. -/
def delivered (t : TileRef) (port : Port) (y : OnLink) (s : State) : State :=
  let s1 := offLink t port y s
  let key := arrivalKey port y
  let r := arrivalRoute t port y s
  match y.flit? with
  | none => tokenError t.die t.col t.row key 0 s1
  | some f =>
    if r.type = 3 then tokenError t.die t.col t.row key 0 s1
    else match (getTile s t.die t.col t.row).eqAt key with
      | some (i, _) => modTile t.die t.col t.row (fun z => z.eqPush i f) s1
      | none =>
        if r.type = 1 ∨ r.type = 2 then modTile t.die t.col t.row (fun z => { z with stages := tmod [] z.stages key (· ++ [stageFlit r y.slot f]) }) s1
        else enqueue t.die t.col t.row key f s1

section
variable {t : TileRef} {port : Port} {y : OnLink} {s : State} {f : Flit}

theorem execFlitArrival_of_arrives (h : Arrives t port y s) (perr : Bool) :
    execFlitArrival t port perr s = .next (if perr then tokenError t.die t.col t.row (arrivalKey port y) 1 (offLink t port y s)
      else if y.isIdle then offLink t port y s else delivered t port y s) := by
  unfold execFlitArrival
  extract_lets p col row n x
  rw [show nextArrival s p col row n (tget [] x.inFlight n) [] = some y from h]
  rfl

/-- A parity error delivers nothing and raises ARR_TOKEN. -/
theorem execFlitArrival_parity (h : Arrives t port y s) :
    execFlitArrival t port true s = .next (tokenError t.die t.col t.row (arrivalKey port y) 1 (offLink t port y s)) := by
  rw [execFlitArrival_of_arrives h, if_pos rfl]

/-- An IDLE flit of compatibility mode only leaves its link (R58). -/
theorem execFlitArrival_idle (h : Arrives t port y s) (hi : y.isIdle = true) : execFlitArrival t port false s = .next (offLink t port y s) := by
  rw [execFlitArrival_of_arrives h, if_neg Bool.false_ne_true, if_pos hi]

theorem execFlitArrival_delivered (h : Arrives t port y s) (hi : y.isIdle = false) :
    execFlitArrival t port false s = .next (delivered t port y s) := by
  rw [execFlitArrival_of_arrives h, if_neg Bool.false_ne_true, if_neg (by simp [hi])]

/-- A reserved kind is delivered nowhere (R42). -/
theorem delivered_reserved (hf : y.flit? = none) :
    delivered t port y s = tokenError t.die t.col t.row (arrivalKey port y) 0 (offLink t port y s) := by
  simp only [delivered, hf]

/-- A route entry UNUSED delivers nothing (R101). -/
theorem delivered_unused (hf : y.flit? = some f) (hr : (arrivalRoute t port y s).type = 3) :
    delivered t port y s = tokenError t.die t.col t.row (arrivalKey port y) 0 (offLink t port y s) := by
  simp only [delivered, hf, hr, if_true]

theorem delivered_elastic {i : Nat} {e : EqDesc} (hf : y.flit? = some f) (hr : (arrivalRoute t port y s).type ≠ 3)
    (he : (getTile s t.die t.col t.row).eqAt (arrivalKey port y) = some (i, e)) :
    delivered t port y s = modTile t.die t.col t.row (fun z => z.eqPush i f) (offLink t port y s) := by
  simp only [delivered, hf, hr, he, if_false]

theorem delivered_queue (hf : y.flit? = some f) (hr : (arrivalRoute t port y s).type = 0)
    (he : (getTile s t.die t.col t.row).eqAt (arrivalKey port y) = none) :
    delivered t port y s = enqueue t.die t.col t.row (arrivalKey port y) f (offLink t port y s) := by
  have h3 : (arrivalRoute t port y s).type ≠ 3 := by simp [hr]
  have h12 : ¬((arrivalRoute t port y s).type = 1 ∨ (arrivalRoute t port y s).type = 2) := by simp [hr]
  simp only [delivered, hf, he, if_neg h3, if_neg h12]

theorem delivered_passThrough (hf : y.flit? = some f) (hr : (arrivalRoute t port y s).type = 1 ∨ (arrivalRoute t port y s).type = 2)
    (he : (getTile s t.die t.col t.row).eqAt (arrivalKey port y) = none) :
    delivered t port y s = modTile t.die t.col t.row (fun z => { z with
      stages := tmod [] z.stages (arrivalKey port y) (· ++ [stageFlit (arrivalRoute t port y s) y.slot f]) }) (offLink t port y s) := by
  have h3 : (arrivalRoute t port y s).type ≠ 3 := by rcases hr with hr | hr <;> simp [hr]
  simp only [delivered, hf, he, if_neg h3, if_pos hr]

end

/-! ### WEIGHT_FILL_DONE, FP32_FLUSH_SECOND_PUSH, ARR_ARITH_CLR (R72, R77, R97) -/

theorem execWeightFillDone_over {t : TileRef} {off : Nat} {s : State} (hf : (getTile s t.die t.col t.row).fill = some (0, off)) :
    execWeightFillDone t s = .next (modTile t.die t.col t.row (fun t => { t with
      weights := t.weights.set (1 - t.activeSet) (operandBytes t off 2176), fill := none, filled := true }) s) := by
  simp only [execWeightFillDone, hf]

theorem execFp32FlushSecondPush_room {t : TileRef} {y : SecondPush} {ys : List SecondPush} {s : State}
    (hs : (getTile s t.die t.col t.row).second = y :: ys) (hk : kindAt t.col t.row = 0) (hr : outRoom (getTile s t.die t.col t.row) [y.out] = true) :
    execFp32FlushSecondPush t s = .next (pushAll t.die t.col t.row [y.out] y.flit (modTile t.die t.col t.row (fun t => { t with second := ys }) s)) := by
  simp only [execFp32FlushSecondPush, hs, hk, hr, and_self, if_true]

theorem execArrArithClr_clear (d : Fin 74) {v : Word} (hv : bit v.toNat 0 = true) (s : State) : execArrArithClr d v s = .next (clearArith d s) := by
  rw [execArrArithClr, if_pos hv]

/-! ### The statement -/

/-- Settles O32: each event's own rule; a flit that arrives is told apart by its parity, its kind and its route. -/
theorem tileCompletion : Obligations.TileCompletion := by
  unfold Obligations.TileCompletion
  refine ⟨fun t s hi hc => execTileCycle_running hi hc, fun t s h => execTileCycle_stopped h, fun t port perr y s => ?_, fun t port vq s => rfl,
    fun t off s hf => execWeightFillDone_over hf, fun t y ys s hs hk hr => execFp32FlushSecondPush_room hs hk hr,
    fun d v s hv => execArrArithClr_clear d hv s⟩
  intro n x key s1 hy
  have h : Arrives t port y s := hy
  refine ⟨?_, ?_, ?_, fun f => ?_⟩
  · rintro rfl
    exact execFlitArrival_parity h
  · rintro rfl hi
    exact execFlitArrival_idle h hi
  · rintro rfl hi hf
    exact (execFlitArrival_delivered h hi).trans (congrArg _ (delivered_reserved hf))
  · rintro rfl hi hf
    have hd := execFlitArrival_delivered h hi
    exact ⟨fun hr => hd.trans (congrArg _ (delivered_unused hf hr)), fun i e hr he => hd.trans (congrArg _ (delivered_elastic hf hr he)),
      fun hr he => hd.trans (congrArg _ (delivered_queue hf hr he)), fun hr he => hd.trans (congrArg _ (delivered_passThrough hf hr he))⟩

end Sys2Proof.Machine
end

section
/-! The pan commands (R104 to R107, R148, R382): creation, release and its drain, a load and its check, RUN. -/

namespace Sys2Proof.Machine

/-! ### PAN_CREATE and PAN_RELEASE (R104 to R106) -/

section
variable {c : CmdRef} {m : Cmd} {s : State} {st : Status} {n : Nat}

/-- R104's answer to the rectangle that a PAN_CREATE names. -/
def rectangleRefusal (m : Cmd) (s : State) : Option Status := createRefusal s (m.f 0 0 3) (m.f 0 8 4) (m.f 0 16 4) (m.f 0 20 4)

/-- The pan that a PAN_CREATE names, still without images. -/
def namedPan (m : Cmd) : Pan := Pan.fresh m.ctx (m.f 0 0 3) (m.f 0 8 4) (m.f 0 16 4) (m.f 0 20 4) (bit (m.p 0) 24)

theorem execPanCreate_refused (h : Starts 0x0303 c m s) (hr : rectangleRefusal m (markStarted m s) = some st) :
    execPanCreate c s = .next (endFail m st (markStarted m s)) := by
  rw [rectangleRefusal] at hr
  simp only [execPanCreate, startCmd_of_starts h, hr]

/-- A right rectangle and a free number leave the entropy source to decide (R407). -/
theorem execPanCreate_numbered (h : Starts 0x0303 c m s) (hr : rectangleRefusal m (markStarted m s) = none)
    (hn : firstFree (tkeys (markStarted m s).pans) 16 0 = some n) :
    execPanCreate c s = .next (if getFld (markStarted m s) FW_STATUS 5 1 = 1 then endFail m (stNotPermitted 0x65) (markStarted m s)
      else endOk m n 0 (createPan n (namedPan m) (modHist n (fun _ => PanHist.fresh) (markStarted m s)))) := by
  rw [rectangleRefusal] at hr
  simp only [execPanCreate, startCmd_of_starts h, hr, hn, namedPan]

theorem execPanCreate_noEntropy (h : Starts 0x0303 c m s) (hr : rectangleRefusal m (markStarted m s) = none)
    (hn : firstFree (tkeys (markStarted m s).pans) 16 0 = some n) (he : getFld (markStarted m s) FW_STATUS 5 1 = 1) :
    execPanCreate c s = .next (endFail m (stNotPermitted 0x65) (markStarted m s)) := by
  rw [execPanCreate_numbered h hr hn, if_pos he]

theorem execPanCreate_made (h : Starts 0x0303 c m s) (hr : rectangleRefusal m (markStarted m s) = none)
    (hn : firstFree (tkeys (markStarted m s).pans) 16 0 = some n) (he : getFld (markStarted m s) FW_STATUS 5 1 ≠ 1) :
    execPanCreate c s = .next (endOk m n 0 (createPan n (namedPan m) (modHist n (fun _ => PanHist.fresh) (markStarted m s)))) := by
  rw [execPanCreate_numbered h hr hn, if_neg he]

theorem execPanRelease_refused (h : Starts 0x0304 c m s) (hr : panRefusal (markStarted m s) m.ctx (m.f 0 0 4) = some st) :
    execPanRelease c s = .next (endFail m st (markStarted m s)) := by
  simp only [execPanRelease, startCmd_of_starts h, hr]

/-- The pan is only marked: it goes at a later drain. -/
theorem execPanRelease_marks (h : Starts 0x0304 c m s) (hr : panRefusal (markStarted m s) m.ctx (m.f 0 0 4) = none) :
    execPanRelease c s = .next (modPan (m.f 0 0 4) (fun p => { p with release := some m.ref, releasing := true }) (markStarted m s)) := by
  simp only [execPanRelease, startCmd_of_starts h, hr]

end

theorem execStepBoundaryDrain_releases {n : Fin 16} {p : Pan} {s : State} (hp : getPan s n = some p) (hr : p.releasing = true) (hw : p.wave = none)
    (hrun : p.run = none) (hd : drained s n p = true) : execStepBoundaryDrain n s = .next (releasePan n p s) := by
  simp [execStepBoundaryDrain, hp, hr, hw, hrun, hd]

/-! ### CFG_LOAD and CFG_SHADOW_WRITTEN (R103, R107, R124) -/

/-- The load that a CFG_LOAD starts on its pan, or its refusal by the load itself. -/
def startNamedLoad (m : Cmd) (mib : Nat) (b : List Byte) (size : Nat) (s : State) : State :=
  match startLoad (m.f 0 0 4) (some m.ref) none b size mib (bit (m.p 0) 4) false s with
  | .inl st => endFail m st s
  | .inr t => t

theorem execCfgLoad_starts {c : CmdRef} {m : Cmd} {p : Pan} {mib : Nat} {b : List Byte} {size : Nat} {s : State} (h : Starts 0x0302 c m s)
    (hp : getPan s (m.f 0 0 4) = some p) (hw : p.wave = none) (hr : panRefusal (markStarted m s) m.ctx (m.f 0 0 4) = none)
    (hm : spillField (m.f 0 8 9) = some mib) (hi : loadImage (markStarted m s) m = .inr (b, size)) :
    execCfgLoad c s = .next (startNamedLoad m mib b size (markStarted m s)) := by
  rw [execCfgLoad, startHeld_of_starts h (by simp [hp, hw])]
  simp only [hr, hm, hi]
  rfl

/-- An update of a pan depends on what it makes of that pan alone. -/
theorem modPan_congr {n : Nat} {p : Pan} {f g : Pan → Pan} {s : State} (hp : getPan s n = some p) (h : f p = g p) : modPan n f s = modPan n g s := by
  rw [getPan] at hp
  simp only [modPan, State.onPans, tmod, hp, Option.map_some, h]

theorem getPan_writeShadow (p : Pan) (g : Img) (b : List Byte) (s : State) (n : Nat) : getPan (writeShadow p g b s) n = getPan s n := by
  rw [getPan, writeShadow_within.pans rfl, getPan]

/-- The state after the load that waits on pan n was rejected: no shadow planes, and its spill regions are free again. -/
def dropLoad (n : Nat) (p : Pan) (l : Load) (s : State) : State :=
  freeSpill p.ctx l.spill l.spillMib (showActiveSpill n (modPan n (fun p => { p with load := none, shadow := none }) s))

/-- The state with the planes of a right load in the pan's shadow. -/
def takeLoad (n : Nat) (p : Pan) (l : Load) (s : State) : State :=
  modPan n (fun q => { q with
    shadow := some (cfgOf (parseImg l.image) s l)
    saveServe := !p.jobActive && p.saveServe
    saveJob := p.jobActive && p.saveJob
    load := if l.thenSwitch then some { l with written := true } else none }) (writeShadow p (parseImg l.image) l.image s)

/-- What a load keeps of its pan is read from the pan itself: the shadow planes' writing left it as it was. -/
theorem takeLoad_eq {n : Nat} {p : Pan} {l : Load} {s : State} (hp : getPan s n = some p) :
    takeLoad n p l s = modPan n (fun q => { q with
      shadow := some (cfgOf (parseImg l.image) s l)
      saveServe := !q.jobActive && q.saveServe
      saveJob := q.jobActive && q.saveJob
      load := if l.thenSwitch then some { l with written := true } else none }) (writeShadow p (parseImg l.image) l.image s) :=
  modPan_congr ((getPan_writeShadow ..).trans hp) rfl

section
variable {n : Fin 16} {p : Pan} {l : Load} {m : Cmd} {s : State} {d : Nat}
variable (hp : getPan s n = some p) (hl : p.load = some l) (hw : l.written = false)
include hp hl hw

theorem execCfgShadowWritten_rejected (hx : l.switchEntry = none) (hd : imgCheck s p.ctx p l.image l.size = some d)
    (hm : l.cmd.bind (findCmd (dropLoad n p l s)) = some m) :
    execCfgShadowWritten n s = .next (endFail m (stConfigRejected d) (dropLoad n p l s)) := by
  rw [dropLoad] at hm ⊢
  simp [execCfgShadowWritten, hp, hl, hw, hd, hx, hm]

theorem execCfgShadowWritten_switches (hd : imgCheck s p.ctx p l.image l.size = none) (ht : l.thenSwitch = true) :
    execCfgShadowWritten n s = .next (takeLoad n p l s) := by
  simp [execCfgShadowWritten, takeLoad_eq hp, hp, hl, hw, hd, ht]

theorem execCfgShadowWritten_ends (hd : imgCheck s p.ctx p l.image l.size = none) (ht : l.thenSwitch = false)
    (hm : l.cmd.bind (findCmd (takeLoad n p l s)) = some m) : execCfgShadowWritten n s = .next (endOk m p.epoch 0 (takeLoad n p l s)) := by
  rw [takeLoad_eq hp] at hm ⊢
  simp only [execCfgShadowWritten, hp, hl, hw, hd, Bool.false_eq_true, if_false]
  rw [if_neg (by simp [ht]), hm]

end

/-! ### RUN (R148, R202) -/

/-- The state in which a RUN has its pan: the STEP token of the next step epoch is out, and every stream of its list is open under that epoch
(notes/assumptions/111). -/
def openRun (m : Cmd) (s : State) : State :=
  let n := m.f 0 0 4
  let e := s.seq.epoch + 1
  modPan n (fun p => { p with run := some m.ref }) ((List.range (m.f 1 32 13)).foldl (fun s i =>
    addStream (descStream s m.ctx n (some m.ref) (m.f 1 0 32) e i (listDesc s m.ctx (m.f 1 0 32) i)) s)
    (sendStep n e (runVersions n (s.onSeq fun q => { q with epoch := e }))))

section
variable {c : CmdRef} {m : Cmd} {s : State} {st : Status} (h : Starts 0x0601 c m s) (hh : runHeld s m = false)
include h hh

theorem execRun_refused (hr : runRefusal (markStarted m s) m = some st) : execRun c s = .next (endFail m st (markStarted m s)) := by
  simp only [execRun, startHeld_of_starts h hh, hr]

theorem execRun_opens (hr : runRefusal (markStarted m s) m = none) : execRun c s = .next (openRun m (markStarted m s)) := by
  simp only [execRun, startHeld_of_starts h hh, hr, openRun]

end

/-! ### The statement -/

/-- Settles O17: each pan command in the order of its own refusals; CFG_SHADOW_WRITTEN by what the image check finds. -/
theorem panCommandCompletion : Obligations.PanCommandCompletion := by
  unfold Obligations.PanCommandCompletion
  refine ⟨fun c m s h => ⟨fun st hr => execPanCreate_refused h hr, fun n hr hn => ⟨execPanCreate_noEntropy h hr hn, execPanCreate_made h hr hn⟩⟩,
    fun c m s h => ⟨fun st hr => execPanRelease_refused h hr, execPanRelease_marks h⟩,
    fun n p s hp hr hw hrun hd => execStepBoundaryDrain_releases hp hr hw hrun hd,
    fun c m p mib b size s h hp hw hr hm hi => execCfgLoad_starts h hp hw hr hm hi,
    fun n p l m s hp hl hw hx => ⟨fun d hd hm => execCfgShadowWritten_rejected hp hl hw hx hd hm, fun hd => ?_⟩,
    fun c m s h hh => ⟨fun st hr => execRun_refused h hh hr, execRun_opens h hh⟩⟩
  exact ⟨execCfgShadowWritten_switches hp hl hw hd, execCfgShadowWritten_ends hp hl hw hd⟩

end Sys2Proof.Machine
end

section
/-! Rakes and spill segments (R118 to R121, R128): the watchdog, an orphan, the token and the refill of a segment, the high-water mark. -/

namespace Sys2Proof.Machine

/-! ### WATCHDOG_EXPIRY and ORPHAN_TIMEOUT (R118, R119, R121) -/

/-- The state after a rake of die d, the rake counted in the step of its pan. -/
def rakeCounted (d : Nat) (s : State) : State :=
  let r := (rake d s).2
  match (dieOfPan r d).bind (getPan r) with
  | some p => (match p.step with | some e => modStep e (fun st => { st with rakes := st.rakes + 1 }) r | none => r)
  | none => r

theorem execWatchdogExpiry_rakes {d : Fin 74} {s : State} (hw : waitingDie s d = false) (hq : 4096 ≤ (getDie s d).quiet)
    (hn : (getDie s d).nonEmpty = true) (hb : ((getDie s d).tiles.any fun q => q.2.blocked) = true) :
    execWatchdogExpiry d s = .next (let t := rakeCounted d s
      if getFld t (CFG_RAKE_STEP d) 8 2 = 3 ∨ getFld t (CFG_RAKE_CTL d) 0 8 < getFld t (CFG_RAKE_STEP d) 0 8 then present (dieEvent t 0x0105 d 0 0) t
      else t) := by
  have hq' : decide ((getDie s d).quiet < 4096) = false := decide_eq_false (Nat.not_lt.2 hq)
  rw [execWatchdogExpiry, if_neg (by rw [hw, hq', hn, hb]; exact Bool.false_ne_true)]
  rfl

theorem execOrphanTimeout_raises {d : Fin 74} {s : State} (hw : waitingDie s d = false) (ho : 4096 ≤ (getDie s d).orphanFor) :
    execOrphanTimeout d s = .next (let t := modDie d (fun d => { d with orphanFor := 0 }) (setFld (CFG_WD_STATUS d) 1 1 1 s)
      present (dieEvent t 0x0104 d 0 0) t) := by
  rw [execOrphanTimeout, if_neg (by simp [hw, ho])]

/-! ### SPILL_SEGMENT_EMPTY and SPILL_REFILL (R119, R120) -/

/-- The pan epoch of a die; 0 outside any pan. -/
def dieEpoch (s : State) (d : Nat) : Nat := match (dieOfPan s d).bind (getPan s) with | some x => x.epoch | none => 0

/-- The head of segment g, number n of die d, moves on: into the next segment of its chain, or into the queue when that has room. -/
def refill (d n : Nat) (g : Segment) (s : State) : State :=
  match g.flits with
  | [] => s
  | f :: fs =>
    match nextSegment (getDie s d) g with
    | some h => modSegment d h.id (fun h => { h with flits := h.flits ++ [f] }) (modSegment d n (fun g => { g with flits := fs }) s)
    | none =>
      if 8 ≤ ((getTile s d g.col g.row).queue g.key).length then s
      else modTile d g.col g.row (fun t => { t with queues := tmod [] t.queues g.key (· ++ [f]) }) (modSegment d n (fun g => { g with flits := fs }) s)

section
variable {d : Fin 74} {n : Nat} {g : Segment} {s : State} {f : Flit} {fs : List Flit}

theorem refill_queue (hf : g.flits = f :: fs) (hx : nextSegment (getDie s d) g = none) (hq : ((getTile s d g.col g.row).queue g.key).length < 8) :
    refill d n g s = modTile d g.col g.row (fun t => { t with queues := tmod [] t.queues g.key (· ++ [f]) })
      (modSegment d n (fun g => { g with flits := fs }) s) := by
  simp only [refill, hf, hx, if_neg (Nat.not_le.2 hq)]

theorem refill_chain {h : Segment} (hf : g.flits = f :: fs) (hx : nextSegment (getDie s d) g = some h) :
    refill d n g s = modSegment d h.id (fun h => { h with flits := h.flits ++ [f] }) (modSegment d n (fun g => { g with flits := fs }) s) := by
  simp only [refill, hf, hx]

variable (hg : findSegment s d n = some g)
include hg

theorem execSpillSegmentEmpty_token (hf : g.flits = []) (ht : g.tokenSent = false) (hq : ((getTile s d g.col g.row).queue g.key).length < 8) :
    execSpillSegmentEmpty d n s = .next (modTile d g.col g.row (fun t => { t with
        queues := tmod [] t.queues g.key (· ++ [{ kind := 3, arg := 0, payload := BitVec.ofNat 512 (g.id + 4096 * g.rakeLow) }]) })
      (modSegment d n (fun g => { g with accepting := false, tokenSent := true }) s)) := by
  simp only [execSpillSegmentEmpty, hg]
  rw [if_neg (by simp [hf, ht, hq])]

/-- The tag is compared first, and a segment of another epoch goes whole. -/
theorem execSpillRefill_eq :
    execSpillRefill d n s = .next (if g.epoch ≠ dieEpoch s d then bumpBy (CFG_BITTERN_SPILL d) g.flits.length
      (modDie d (fun d => { d with segments := d.segments.filter fun h => !decide (h.id = g.id) }) s) else refill d n g s) := by
  unfold execSpillRefill
  rw [hg]
  rfl

theorem execSpillRefill_stale (he : g.epoch ≠ dieEpoch s d) :
    execSpillRefill d n s = .next (bumpBy (CFG_BITTERN_SPILL d) g.flits.length
      (modDie d (fun d => { d with segments := d.segments.filter fun h => !decide (h.id = g.id) }) s)) := by
  rw [execSpillRefill_eq hg, if_pos he]

theorem execSpillRefill_current (he : g.epoch = dieEpoch s d) : execSpillRefill d n s = .next (refill d n g s) := by
  rw [execSpillRefill_eq hg, if_neg (not_not_intro he)]

end

/-! ### SPILL_HWM_CLEAR (R128) -/

theorem execSpillHwmClear_clear (d : Fin 74) {v : Word} (hv : bit v.toNat 31 = true) (s : State) : execSpillHwmClear d v s = .next (clearSpillHwm d s) := by
  rw [execSpillHwmClear, if_pos hv]

theorem execSpillHwmClear_keep (d : Fin 74) {v : Word} (hv : bit v.toNat 31 = false) (s : State) : execSpillHwmClear d v s = .next s := by
  rw [execSpillHwmClear, if_neg (by simp [hv])]

/-! ### The statement -/

/-- Settles O33: each event's own rule; a refill by the segment's tag first and by its chain second. -/
theorem rakeCompletion : Obligations.RakeCompletion := by
  unfold Obligations.RakeCompletion
  refine ⟨fun d s hw hq hn hb => execWatchdogExpiry_rakes hw hq hn hb, fun d s hw ho => ⟨execOrphanTimeout_raises hw ho, rfl, rfl⟩,
    fun d n g s hg hf ht hq => execSpillSegmentEmpty_token hg hf ht hq, fun d n g s hg => ?_,
    fun d v s => ⟨fun hv => execSpillHwmClear_clear d hv s, fun hv => execSpillHwmClear_keep d hv s⟩⟩
  exact ⟨execSpillRefill_stale hg, fun f fs he hf hx hq => (execSpillRefill_current hg he).trans (congrArg _ (refill_queue hf hx hq)),
    fun f fs h he hf hx => (execSpillRefill_current hg he).trans (congrArg _ (refill_chain hf hx))⟩

end Sys2Proof.Machine
end

section
/-! The tiers' interfaces (chapter 6; R131, R160, R170 to R182): accesses, media events, and the addresses that a counter leaves mapped as they were. -/

namespace Sys2Proof.Machine

/-! ### Sparse arrays and memory -/

/-- An update leaves every other key as it was, whatever the form of the array. -/
theorem tget_tput_ne {α : Type} [DecidableEq α] {d : α} {k i : Nat} (v : α) (hi : i ≠ k) (t : Tab α) : tget d (tput d t k v) i = tget d t i := by
  have hk : k ≠ i := hi.symm
  induction t with
  | nil => rw [tput]; split <;> simp [tget, hk]
  | cons p t ih =>
    obtain ⟨j, w⟩ := p
    rw [tput]
    split
    · split <;> simp [tget, hk]
    · split
      next hj => subst hj; split <;> simp [tget, hk]
      next => simp [tget, ih]

/-- A write leaves every byte outside its range. -/
theorem memGet_memWrite_outside {b : Nat} {bs : List Byte} (m : Mem) {a : Nat} (hb : b < a ∨ a + bs.length ≤ b) :
    memGet (memWrite m a bs) b = memGet m b := by
  induction bs generalizing m a with
  | nil => rfl
  | cons x bs ih =>
    rw [List.length_cons] at hb
    rw [memWrite, ih _ (by omega), memGet, memGet, tget_tput_ne x (by omega)]

/-- The bytes written are read back. -/
theorem memRead_memWrite {m : Mem} (h : Memory.wf m = true) (a : Nat) (bs : List Byte) : memRead (memWrite m a bs) a bs.length = bs := by
  induction bs generalizing m a with
  | nil => rfl
  | cons x bs ih =>
    rw [memWrite, List.length_cons, memRead, ih (twf_tput h a x), memGet_memWrite_outside _ (.inl (Nat.lt_succ_self a)), memGet,
      tget_tput_same a x (twf_iff_from.1 h)]

/-! ### TIER_ACCESS (R131, R160) -/

section
variable {die : Fin 16} {req : TierReq} {s : State}

theorem execTierAccess_unserved (h : serves s die req.addr.toNat = false) (o : MediaOutcome) :
    execTierAccess die req o s = .next (answerReq none
      (present (tierEvent s 0x0202 die 0xFF (if req.fw then none else some req.ctx) none) (bump (tierAddr die) s))) := by
  simp only [execTierAccess, h, Bool.not_false, if_true]

variable (h : serves s die req.addr.toNat = true)
include h

theorem execTierAccess_foreign (hf : req.fw = false) (hr : mayReach s req.ctx req.addr.toNat = false) (o : MediaOutcome) :
    execTierAccess die req o s = .next (answerReq none
      (present (tierEvent s 0x0201 die 0xFF (some req.ctx) none) (bump (tierXctx die) s))) := by
  simp [execTierAccess, h, hf, hr]

variable (hr : req.fw = true ∨ mayReach s req.ctx req.addr.toNat = true)
include hr

/-- Firmware, and a context that may reach the object, are let through. -/
theorem execTierAccess_permitted (o : MediaOutcome) :
    execTierAccess die req o s = .next (if req.write then tierWrite req.addr.toNat req.data s else tierRead die req.addr.toNat req.len o s) := by
  rw [execTierAccess, if_neg (by simp [h]), if_neg (by rcases hr with hr | hr <;> simp [hr])]

theorem execTierAccess_writes (hw : req.write = true) (o : MediaOutcome) :
    execTierAccess die req o s = .next (tierWrite req.addr.toNat req.data s) := by
  rw [execTierAccess_permitted h hr, if_pos hw]

theorem execTierAccess_reads (hw : req.write = false) (o : MediaOutcome) :
    execTierAccess die req o s = .next (tierRead die req.addr.toNat req.len o s) := by
  rw [execTierAccess_permitted h hr, if_neg (by simp [hw])]

end

/-- A refusal counts, raises its fault and answers nothing; it touches no byte. -/
theorem answerReq_present_bump (e : FaultEvent) (a : Nat) (s : State) :
    let t := answerReq none (present e (bump a s))
    t = { s with regs := t.regs, acc := t.acc, flt := t.flt, mem := { s.mem with reply := none } } := by
  rw [bump, bumpBy_eq]
  rfl

/-- Settles O51: a write puts the request's bytes one after another; both refusals are a count, a fault and an empty answer. -/
theorem tierWriteFrame : Obligations.TierWriteFrame := by
  unfold Obligations.TierWriteFrame
  refine ⟨fun die req o s hwf h hr hw => ⟨_, execTierAccess_writes h hr hw o, rfl, memRead_memWrite hwf _ _, fun b => memGet_memWrite_outside _⟩,
    fun die req o s h => ?_⟩
  cases hs : serves s die req.addr.toNat with
  | false => exact ⟨_, execTierAccess_unserved hs o, answerReq_present_bump ..⟩
  | true =>
    obtain ⟨hf, hr⟩ := h.resolve_left (by simp [hs])
    exact ⟨_, execTierAccess_foreign hs hf hr o, answerReq_present_bump ..⟩

/-! ### Errors of GDDR7 (R174 to R177) -/

section
variable {device : Fin 48} {a : BitVec 42} {s : State} (hs : serves s (device / 4) a.toNat = true) (hd : deviceOf s (device / 4) a.toNat = device % 4)
include hs hd

/-- A write error of the device that holds the address counts its retries, three at the most. -/
theorem execWriteCrcError_counts (n : Nat) :
    execWriteCrcError device a n s = .next (
      let k := min 3 (max 1 n)
      let t := lifeAdd (lifeNear (device / 4) (device % 4) 2) 8 k (bumpBy (NEAR_DEV_CRC (device / 4) (device % 4)) k s)
      if n ≤ 3 then present (faultOf 0x0302 (0x50 + device / 4) (device % 4) 0) t else nearUncorrectable (device / 4) a.toNat t) := by
  rw [execWriteCrcError, if_neg (by simp [hs, hd])]

theorem execWriteCrcError_corrected {n : Nat} (h1 : 1 ≤ n) (h3 : n ≤ 3) :
    execWriteCrcError device a n s = .next (present (faultOf 0x0302 (0x50 + device / 4) (device % 4) 0)
      (lifeAdd (lifeNear (device / 4) (device % 4) 2) 8 n (bumpBy (NEAR_DEV_CRC (device / 4) (device % 4)) n s))) := by
  have hk : min 3 (max 1 n) = n := by omega
  simp only [execWriteCrcError_counts hs hd, hk, if_pos h3]

theorem execWriteCrcError_uncorrectable {n : Nat} (h3 : 3 < n) :
    execWriteCrcError device a n s = .next (nearUncorrectable (device / 4) a.toNat
      (lifeAdd (lifeNear (device / 4) (device % 4) 2) 8 3 (bumpBy (NEAR_DEV_CRC (device / 4) (device % 4)) 3 s))) := by
  have hk : min 3 (max 1 n) = 3 := by omega
  simp only [execWriteCrcError_counts hs hd, hk, if_neg (Nat.not_le.2 h3)]

end

theorem execCaParityError_working {device : Fin 48} {s : State} (h : getFld s (NEAR_DEV_STATUS (device / 4) (device % 4)) 0 1 ≠ 0) (ch : Fin 4)
    (retrainOk : Bool) :
    execCaParityError device ch retrainOk s = .next (
      let t := lifeAdd (lifeNear (device / 4) (device % 4) 3) 8 1 (bump (NEAR_DEV_CAPAR (device / 4) (device % 4)) s)
      if retrainOk then present (faultOf 0x0302 (0x50 + device / 4) (device % 4) 0) t
      else present (faultOf 0x0305 (0x50 + device / 4) (device % 4) 0) (loseDevice (device / 4) (device % 4) t)) := by
  rw [execCaParityError, if_neg h]

/-- The state after the scrub read the unit at an address of slice p and wrote back what was queued for it. -/
def scrubUnit (p a : Nat) (o : MediaOutcome) (s : State) : State :=
  (nearRead p a o s).2.onMem fun m => { m with writeBacks := m.writeBacks.filter fun u => !decide (u = a / 64) }

/-- The state after the scrub's pass of slice p ended at a local count. -/
def endPass (p count : Nat) (s : State) : State :=
  bump (NEAR_SCRUB_PASSES p) (s.onMem fun m => { m with
    passAt := tput 0 m.passAt p count
    passCe := m.passCe.filter fun q => !(decide (sliceBase p ≤ q.1) && decide (q.1 < sliceBase p + 491520)) })

section
variable {a : BitVec 42} {p : Nat} {s : State} (hw : windowOf s a.toNat = .tier1 p) (hon : getFld s (NEAR_SCRUB p) 0 1 ≠ 0)
include hw hon

theorem execPatrolScrub_reads (o : MediaOutcome) : execPatrolScrub a o false s = .next (scrubUnit p a.toNat o s) := by
  simp only [execPatrolScrub, hw, if_neg hon, Bool.false_and, Bool.false_eq_true, if_false, scrubUnit]

theorem execPatrolScrub_passEnds (o : MediaOutcome) :
    execPatrolScrub a o true s = .next (if passDue s p then endPass p (dieCount s (0x50 + p)) (scrubUnit p a.toNat o s)
      else scrubUnit p a.toNat o s) := by
  simp only [execPatrolScrub, hw, if_neg hon, Bool.true_and, endPass, scrubUnit]

end

/-! ### Errors of CXL (R181, R182) -/

/-- The tier-2 window: the mapped frames of a port (R134, R180). -/
theorem windowOf_eq_tier2_iff {s : State} {a c : Nat} :
    windowOf s a = .tier2 c ↔ 0x10000000000 ≤ a ∧ a < 0x40000000000 ∧ (a - 0x10000000000) / 0x04000000000 = c
      ∧ a / 0x200000 - portFrame c < portFrames s c := by
  constructor
  · intro h
    unfold windowOf at h
    dsimp only at h
    split_ifs at h
    obtain rfl : _ = c := MapWindow.tier2.inj h
    exact ⟨by omega, by omega, rfl, by assumption⟩
  · rintro ⟨hlo, hhi, rfl, hf⟩
    rw [windowOf, if_neg (by omega), if_neg (by omega), if_neg (by omega), if_neg (by omega), if_neg (by omega), if_pos hhi]
    exact if_pos hf

/-- A count of media events sets no register that maps frames. -/
theorem portFrames_countMedia (f j n : Nat) (s : State) (c : Nat) : portFrames (bumpBy (FAR_PORT_MEDIA_CE f j) n s) c = portFrames s c := by
  have hne : FAR_PORT_MAPPED (c / 3) (c % 3) ≠ FAR_PORT_MEDIA_CE f j := by
    rw [FAR_PORT_MAPPED, FAR_PORT_MEDIA_CE]
    omega
  rw [portFrames, portFrames, getFld, getFld, getReg_bumpBy, getReg, setReg, State.onRegs_regs, tget_tput_ne _ hne, getReg]

section
variable {k : Fin 12} {s : State} (hp : portUp s k = true)
include hp

theorem execFarFlitReplay_up (recovered : Bool) :
    execFarFlitReplay k recovered s = .next (
      let t := lifeAdd (lifeFar k 0) 8 1 (bump (FAR_PORT_REPLAY (k / 3) (k % 3)) s)
      if recovered then present (faultOf 0x0311 (0x60 + k / 3) (k % 3) 0) t else losePort k t) := by
  rw [execFarFlitReplay, if_neg (by simp [hp])]

theorem execFarRequestTimeout_first :
    execFarRequestTimeout k false s = .next (present (faultOf 0x0312 (0x60 + k / 3) (k % 3) 0)
      ((lifeAdd (lifeFar k 2) 8 1 (bump (FAR_PORT_TIMEOUT (k / 3) (k % 3)) s)).onMem fun m => { m with reissued := m.reissued ++ [k.val] })) := by
  rw [execFarRequestTimeout, if_neg (by simp [hp])]
  rfl

theorem execFarRequestTimeout_second (hk : s.mem.reissued.contains k.val = true) :
    execFarRequestTimeout k true s = .next (losePort k
      ((lifeAdd (lifeFar k 2) 8 1 (bump (FAR_PORT_TIMEOUT (k / 3) (k % 3)) s)).onMem fun m => { m with
        reissued := m.reissued.filter fun j => !decide (j = k.val) })) := by
  rw [execFarRequestTimeout, if_neg (by simp [hp]), if_pos rfl, if_pos hk]

end

/-- The state after port k reported n corrected media events: each is counted and raised. -/
def mediaCorrected (k : Fin 12) (n : Nat) (s : State) : State :=
  (List.range n).foldl (fun s _ => present (faultOf 0x0311 (0x60 + k / 3) (k % 3) 0) s)
    (lifeAdd (lifeFar k 3) 8 n (bumpBy (FAR_PORT_MEDIA_CE (k / 3) (k % 3)) n s))

/-- The state after port k reported an uncorrectable media event: its frame is retired, as poison when it holds data. -/
def mediaUncorrectable (k : Fin 12) (s : State) (a : BitVec 42) : State :=
  if windowOf s a.toNat ≠ .tier2 k then s
  else if s.mem.frames.contains (a.toNat / 0x200000) then farPoison k a.toNat s
  else present (faultOf 0x0312 (0x60 + k / 3) (k % 3) 0) (retireFrame k (a.toNat / 0x200000) s)

theorem execEventLogPoll_up {k : Fin 12} {s : State} (hp : portUp s k = true) (n : Nat) (us : List (BitVec 42)) :
    execEventLogPoll k n us s = .next (us.foldl (mediaUncorrectable k) (mediaCorrected k n s)) := by
  rw [execEventLogPoll, if_neg (by simp [hp])]
  rfl

/-- The counts of a poll leave the windows of the ports as they are. -/
theorem windowOf_mediaCorrected_zero {k : Fin 12} {a c : Nat} {s : State} (h : windowOf s a = .tier2 c) :
    windowOf (mediaCorrected k 0 s) a = .tier2 c := by
  have hf : portFrames (mediaCorrected k 0 s) c = portFrames s c := portFrames_countMedia ..
  rw [windowOf_eq_tier2_iff] at h ⊢
  rwa [hf]

/-! ### The statement -/

/-- Settles O34: an access by what its die serves and who may reach it; each media event by its own rule. -/
theorem tierCompletion : Obligations.TierCompletion := by
  unfold Obligations.TierCompletion
  refine ⟨fun die req o s => ⟨fun h => execTierAccess_unserved h o, fun h hf hr => execTierAccess_foreign h hf hr o,
      fun h hr hw => execTierAccess_writes h hr hw o, fun h hr hw => execTierAccess_reads h hr hw o⟩,
    fun device a s hs hd => ⟨fun n h1 h3 => execWriteCrcError_corrected hs hd h1 h3, fun n h3 => execWriteCrcError_uncorrectable hs hd h3⟩,
    fun device ch s h => ⟨execCaParityError_working h ch true, execCaParityError_working h ch false⟩,
    fun a o p s hw hon => ⟨execPatrolScrub_reads hw hon o, execPatrolScrub_passEnds hw hon o⟩,
    fun k s hp => ⟨execFarFlitReplay_up hp true, execFarFlitReplay_up hp false⟩,
    fun k s hp => ⟨execFarRequestTimeout_first hp, execFarRequestTimeout_second hp⟩,
    fun k n s hp _ => execEventLogPoll_up hp n [],
    fun k a s hp hw => (execEventLogPoll_up hp 0 [a]).trans (congrArg _ (if_neg (not_not_intro (windowOf_mediaCorrected_zero hw))))⟩

end Sys2Proof.Machine
end

section
/-! Archives and the events of sequences (R155 to R159, R196, R197, R205, R207): the TTL sweep, a hold's end, and the ends of a pause and of a
resume. -/

namespace Sys2Proof.Machine

/-! ### TTL_SWEEP (R158) -/

/-- The archives that are due and that no accepted resume holds. -/
def dueArchives (s : State) : List Archive := s.seq.archives.filter fun a => decide (a.deadline ≤ s.seq.ttlClock) && !resumeAccepted s a

/-- The state after the sweep took an archive: freed, its handle remembered, counted and journalled. -/
def expireArchive (s : State) (a : Archive) : State :=
  journal 4 0 a.ctx a.handle none
    (bump TIER_BITTERN_EXPIRED (modCtx a.ctx (fun x => { x with expired := (a.handle :: x.expired).take 4096 }) (freeArchive a s)))

theorem execTtlSweep_eq (s : State) : execTtlSweep s = .next ((dueArchives s).foldl expireArchive s) := rfl

theorem mem_dueArchives {s : State} {a : Archive} :
    a ∈ dueArchives s ↔ a ∈ s.seq.archives ∧ a.deadline ≤ s.seq.ttlClock ∧ resumeAccepted s a = false := by
  simp [dueArchives]

theorem archives_freeArchive (a : Archive) (s : State) :
    (freeArchive a s).seq.archives = s.seq.archives.filter fun b => !(decide (b.ctx = a.ctx) && decide (b.handle = a.handle)) := by
  rw [freeArchive, State.onSeq_seq, clearArchPages_within.seq rfl, freeFrames_within.seq rfl, modCtx_seq]

/-- Freeing is all that an expiry does to the archives. -/
theorem mem_archives_expireArchive {s : State} {a b : Archive} :
    b ∈ (expireArchive s a).seq.archives ↔ b ∈ s.seq.archives ∧ ¬(b.ctx = a.ctx ∧ b.handle = a.handle) := by
  rw [expireArchive, journal_within.seq rfl, bump_within.seq rfl, modCtx_seq, archives_freeArchive, List.mem_filter]
  simp only [Bool.not_eq_true', Bool.and_eq_false_iff, decide_eq_false_iff_not, not_and_or]

theorem mem_archives_foldl_expireArchive {b : Archive} (l : List Archive) (s : State) :
    b ∈ (l.foldl expireArchive s).seq.archives ↔ b ∈ s.seq.archives ∧ ∀ a ∈ l, ¬(b.ctx = a.ctx ∧ b.handle = a.handle) := by
  induction l generalizing s with
  | nil => simp
  | cons a l ih => rw [List.foldl_cons, ih, mem_archives_expireArchive, List.forall_mem_cons, and_assoc]

/-- Settles O57: a due archive goes with its own expiry, and no other's expiry takes an archive whose handle is its own. -/
theorem ttlWindow : Obligations.TtlWindow := by
  unfold Obligations.TtlWindow
  refine fun s => ⟨_, execTtlSweep_eq s, fun a ha => ?_, fun a ha huniq hkeep => ?_⟩
  · obtain ⟨ha, hleft⟩ := (mem_archives_foldl_expireArchive _ s).1 ha
    by_contra hdue
    rw [not_or, Nat.not_lt, Bool.not_eq_true] at hdue
    exact hleft a (mem_dueArchives.2 ⟨ha, hdue⟩) ⟨rfl, rfl⟩
  · refine (mem_archives_foldl_expireArchive _ s).2 ⟨ha, fun b hb hsame => ?_⟩
    obtain ⟨hb, hdue, hfree⟩ := mem_dueArchives.1 hb
    obtain rfl := huniq b hb hsame.2.symm
    rcases hkeep with hlt | hheld
    · exact absurd hdue (Nat.not_le.2 hlt)
    · rw [hfree] at hheld
      exact absurd hheld Bool.false_ne_true

/-! ### Contexts that list something -/

/-- An update to a value that is not the default is read back, whatever the form of the array. -/
theorem tget_tput_of_ne {α : Type} [DecidableEq α] {d v : α} (hv : v ≠ d) (k : Nat) (t : Tab α) : tget d (tput d t k v) k = v := by
  induction t with
  | nil => rw [tput, if_neg hv, tget, if_pos rfl]
  | cons p t ih =>
    obtain ⟨j, w⟩ := p
    rw [tput, if_neg hv, if_neg hv]
    split_ifs
    · rw [tget, if_pos rfl]
    · rw [tget, if_pos rfl]
    next hj => rw [tget, if_neg (Ne.symm hj), ih]

theorem tput_ne_nil {α : Type} [DecidableEq α] {d v : α} (hv : v ≠ d) (k : Nat) (t : Tab α) : tput d t k v ≠ [] := by
  intro h
  have := tget_tput_of_ne hv k t
  rw [h] at this
  exact hv this.symm

theorem getCtx_modCtx_of_ne {c : CtxId} {f : Ctx → Ctx} {s : State} (h : f (getCtx s c) ≠ Ctx.fresh) : getCtx (modCtx c f s) c = f (getCtx s c) :=
  tget_tput_of_ne h _ _

@[simp] theorem getCtx_onSeq (f : ServeState → ServeState) (s : State) (c : CtxId) : getCtx (s.onSeq f) c = getCtx s c := rfl

@[simp] theorem getCtx_onMem (f : MemState → MemState) (s : State) (c : CtxId) : getCtx (s.onMem f) c = getCtx s c := rfl

/-- A context whose object has a page lists that object. -/
theorem objs_modObj_ne_nil {c : CtxId} {i : Nat} {f : Obj → Obj} {s : State} (h : (f (getObj s c i)).pages ≠ []) :
    (getCtx (modObj c i f s) c).objs ≠ [] := by
  have hobj : f (getObj s c i) ≠ Obj.fresh := fun he => h (congrArg Obj.pages he)
  have hobjs : tmod Obj.fresh (getCtx s c).objs i f ≠ [] := tput_ne_nil hobj _ _
  rw [modObj, getCtx_modCtx_of_ne fun he => hobjs (congrArg Ctx.objs he)]
  exact hobjs

/-- The context whose KV_ARCHIVE objects gave pages lists those objects. -/
theorem objs_of_takeArchive {c : CtxId} {n : Nat} {s t : State} {ps : List ((Nat × Nat) × Nat)} (hn : 0 < n) (h : takeArchive c n s = some (ps, t)) :
    (getCtx t c).objs ≠ [] := by
  induction n generalizing s ps with
  | zero => exact absurd hn (Nat.lt_irrefl 0)
  | succ n ih =>
    rw [takeArchive] at h
    split at h
    next i k f _ _ =>
      obtain ⟨⟨qs, u⟩, hu, hq⟩ := Option.map_eq_some_iff.1 h
      obtain ⟨-, rfl⟩ := Prod.mk.inj hq
      rcases Nat.eq_zero_or_pos n with rfl | hn
      · obtain ⟨-, rfl⟩ := Prod.mk.inj (Option.some.inj hu)
        exact objs_modObj_ne_nil (tput_ne_nil (by simp [PageEntry.zero]) _ _)
      · exact ih hn hu
    next => cases h

/-! ### PAUSE_ARCHIVE_START and PAUSE_ARCHIVE_DONE (R155, R200, R205) -/

section
variable {i : Fin 16384} {e : SeqEntry} {s : State}
variable (hp : e.pausePending = true) (hl : e.state = .prefill ∨ e.state = .decode ∨ e.state = .idle) (hc : carried s i = false)
include hp hl hc

/-- A pause that is wanted and whose steps have settled is not put off. -/
theorem pause_not_deferred :
    (!e.pausePending || !(decide (e.state = .prefill) || decide (e.state = .decode) || decide (e.state = .idle)) || carried s i) ≠ true := by
  rcases hl with hl | hl | hl <;> simp [hp, hl, hc]

variable (hg : getEntry s i = some e)
include hg

theorem execPauseArchiveStart_starts (hr : archiveRefusal s e = none) :
    execPauseArchiveStart i s = .next (modEntry i (fun x => { x with state := .pausing, prior := e.state })
      (if e.autoPause = true ∧ (e.state = .decode ∨ e.state = .prefill) then releaseToken i (endEntry e 5) s else s)) := by
  simp only [execPauseArchiveStart, hg, hr]
  rw [if_neg (pause_not_deferred hp hl hc)]

theorem execPauseArchiveStart_fails {d : Nat} (hr : archiveRefusal s e = some d) : execPauseArchiveStart i s = .next (failPause i e d s) := by
  simp only [execPauseArchiveStart, hg, hr]
  rw [if_neg (pause_not_deferred hp hl hc)]

end

/-- Freeing an entry that is there gives its pages back and empties its place. -/
theorem freeSeq_of_getEntry {i : Nat} {e : SeqEntry} {s : State} (h : getEntry s i = some e) :
    freeSeq i s = (giveKv e.ctx (pagesOf e) s).onSeq fun q => { q with entries := tput none q.entries i none } := by
  simp only [freeSeq, h]

/-- The state after entry i went into an archive of n pages that holds the bytes given. -/
def intoArchive (i : Nat) (e : SeqEntry) (n : Nat) (a : Archive × Mem) (s : State) : State :=
  (modCtx e.ctx (fun x => { x with archUsed := x.archUsed + n, wroteT2 := true }) (freeSeq i (s.onMem fun m => { m with bytes := a.2 }))).onSeq fun q =>
    { q with archives := q.archives ++ [a.1] }

/-- The state after the SEQ_PAUSE of an entry, if one waits, ended with the archive's size; a pause of the firmware's own is journalled. -/
def endPause (e : SeqEntry) (n : Nat) (s : State) : State :=
  match e.cmd with
  | some r => match findCmd s r with | some m => endOk m n 0 s | none => journal 4 0 e.ctx e.handle none s
  | none => journal 4 0 e.ctx e.handle none s

theorem endPause_within {e : SeqEntry} {n : Nat} {s : State} : Within 16688 s (endPause e n s) := by
  have hj : Within 16688 s (journal 4 0 e.ctx e.handle none s) := Within.step' journal_within (Within.refl _ _) rfl
  unfold endPause
  split
  · split
    · exact endOk_within
    · exact hj
  · exact hj

theorem execPauseArchiveDone_archives {i : Fin 16384} {e : SeqEntry} {ps : List ((Nat × Nat) × Nat)} {s s0 : State} (hg : getEntry s i = some e)
    (hst : e.state = .pausing) (hb : e.releaseBuf = []) (ht : takeArchive e.ctx (archivePages e (transcodes s e)) s = some (ps, s0)) :
    execPauseArchiveDone i s = .next (endPause e (archivePages e (transcodes s e))
      (intoArchive i e (archivePages e (transcodes s e)) (writeArchive e (transcodes s e) ps s.seq.ttlClock s0.mem.bytes) s0)) := by
  unfold execPauseArchiveDone
  extract_lets j
  simp -zeta only [show getEntry s j = some e from hg]
  extract_lets fp8 n
  rw [if_neg (by simp [hst, hb])]
  simp -zeta only [show takeArchive e.ctx n s = some (ps, s0) from ht]
  extract_lets a s1 s2
  change _ = Host.Outcome.next (endPause e n s2)
  clear_value s2
  unfold endPause
  cases e.cmd <;> rfl

/-- An archive takes a page at least: its record has one. -/
theorem archivePages_pos (e : SeqEntry) (fp8 : Bool) : 0 < archivePages e fp8 := by
  have : 0 < ceilDiv (e.kvNodes.length * 4096 + 512) 0x200000 := Nat.div_pos (by omega) (by omega)
  exact Nat.add_pos_right _ this

section
variable {i n : Nat} {e : SeqEntry} {a : Archive × Mem} {s : State}

theorem bytes_intoArchive : (intoArchive i e n a s).mem.bytes = a.2 := by
  rw [intoArchive, State.onSeq_mem, modCtx_mem, freeSeq_within.mem rfl, State.onMem_mem]

variable (h : getEntry s i = some e)
include h

/-- The sequences after entry i went into its archive. -/
theorem seq_intoArchive : (intoArchive i e n a s).seq = { s.seq with entries := tput none s.seq.entries i none, archives := s.seq.archives ++ [a.1] } := by
  rw [intoArchive, freeSeq_of_getEntry (s := s.onMem _) h, State.onSeq_seq, modCtx_seq, State.onSeq_seq, giveKv_within.seq rfl, State.onMem_seq]

theorem getEntry_intoArchive (hwf : twf none s.seq.entries = true) : getEntry (intoArchive i e n a s) i = none := by
  rw [getEntry, seq_intoArchive h]
  exact tget_tput_same i _ (twf_iff_from.1 hwf)

/-- The context's count of archive pages rises by n; its objects keep it listed meanwhile. -/
theorem archUsed_intoArchive (ho : (getCtx s e.ctx).objs ≠ []) : (getCtx (intoArchive i e n a s) e.ctx).archUsed = (getCtx s e.ctx).archUsed + n := by
  rw [intoArchive, freeSeq_of_getEntry (s := s.onMem _) h]
  rw [getCtx_onSeq, getCtx_modCtx_of_ne fun he => Bool.noConfusion (congrArg Ctx.wroteT2 he), getCtx_onSeq, giveKv,
    getCtx_modCtx_of_ne fun he => ho (congrArg Ctx.objs he), getCtx_onMem]

end

/-! ### HOLD_EXPIRY and RESUME_PAGES_DONE (R157, R196, R197, R207) -/

theorem execHoldExpiry_denies {c : CmdRef} {i : Nat} {e : SeqEntry} {s : State}
    (hf : ((liveEntries s).find? fun p => decide (p.2.state = .held) && decide (p.2.cmd = some c)) = some (i, e))
    (ht : e.heldSince + msTicks (getCtx s e.ctx).holdMaxMs ≤ s.tick) :
    execHoldExpiry c s = .next (bump SEQ_HOLD_EXPIRED (bump SEQ_ADMIT_DENIED
      (freeSeq i (holdArchive e.ctx e.handle false (endWaiting e (stDenied 0) s))))) := by
  simp only [execHoldExpiry, hf, if_pos ht]

section
variable {i : Fin 16384} {e : SeqEntry} {a : Archive} {s : State} (hg : getEntry s i = some e) (ha : findArchive s e.ctx e.handle = some a)
variable (hst : e.state = .resuming) (hr : a.remote = [])
include hg ha hst hr

theorem execResumePagesDone_rereads (hn : e.reread = false) :
    execResumePagesDone i false s = .next (modEntry i (fun x => { x with reread := true }) s) := by
  simp [execResumePagesDone, hg, ha, hst, hr, hn]

theorem execResumePagesDone_resumes {ps : List Nat} {s1 s3 : State}
    (hcrc : (a.entry.kvMap.any fun p => decide (crc32c (archivedPage s p.2) ≠ p.2.crc.toNat)) = false)
    (ht : takeKv e.ctx (resumePages a.entry) s = some (ps, s1))
    (hn : growNodes i (nodesFor (tkeys (resumed s1 e a ps).kvMap)) (putEntry i (resumed s1 e a ps) (s1.onMem fun m => { m with
      bytes := pokeInput (resumed s1 e a ps) 0 (if a.inputAddrs.isEmpty then (resumed s1 e a ps).input else []) (bringPages a ps m.bytes) })) = some s3) :
    execResumePagesDone i true s = .next (match e.cmd.bind (findCmd s3) with | some m => endOk m i 0 s3 | none => s3) := by
  simp only [execResumePagesDone, hg, ha]
  rw [if_neg (by simp [hst, hr]), if_neg (by rw [hcrc]; exact Bool.false_ne_true), ht]
  simp only [hn]
  cases e.cmd <;> rfl

end

/-! ### TTL_CHECKPOINT (R159) and the statement -/

/-- Settles O24: each event by its own rule; the end of a pause by what the archive's taking, the entry's freeing and the command's end each touch. -/
theorem sequenceEventCompletion : Obligations.SequenceEventCompletion := by
  unfold Obligations.SequenceEventCompletion
  refine ⟨fun s => rfl, fun c i e s hf ht => execHoldExpiry_denies hf ht,
    fun i e s hg hp hl hc => ⟨execPauseArchiveStart_starts hp hl hc hg, fun d => execPauseArchiveStart_fails hp hl hc hg⟩,
    fun i e ps s s0 hs hg hst hb => ?_,
    fun i e a ps s s1 s3 hg ha hst hr hcrc ht => execResumePagesDone_resumes hg ha hst hr hcrc ht,
    fun i e a s hg ha hst hr => execResumePagesDone_rereads hg ha hst hr, execTtlSweep_eq,
    fun s => ⟨fun h => congrArg _ (if_pos h), fun h => congrArg _ (if_neg (Nat.not_le.2 h))⟩⟩
  intro n ht a
  have hseq : s0.seq = s.seq := (takeArchive_within ht).seq rfl
  have hg0 : getEntry s0 i = some e := by rw [getEntry, hseq]; exact hg
  have hobjs : (getCtx s0 e.ctx).objs ≠ [] := objs_of_takeArchive (archivePages_pos e _) ht
  have hw : Within 16688 (intoArchive i e n a s0) (endPause e n (intoArchive i e n a s0)) := endPause_within
  refine ⟨_, execPauseArchiveDone_archives hg hst hb ht, ?_, ?_, ?_, rfl, rfl, rfl, rfl, rfl, rfl, ?_⟩
  · exact (congrArg MemState.bytes (hw.mem rfl)).trans bytes_intoArchive
  · rw [getEntry, hw.seq rfl]
    exact getEntry_intoArchive hg0 (hseq ▸ hs.entries)
  · rw [hw.seq rfl, seq_intoArchive hg0, hseq]
  · rw [getCtx, hw.ctxs rfl]
    exact archUsed_intoArchive hg0 hobjs

end Sys2Proof.Machine
end

section
/-! Demand page-in (R150, R152): the request of a halted stream, the end of a page-in by what its page holds, and a page-in that is late. -/

namespace Sys2Proof.Machine

/-! ### PAGE_IN_REQUEST (R150) -/

/-- A halted stream that waits for none of the page-ins, and whose page none of them brings, starts one while fewer than 64 run. -/
theorem execPageInRequest_starts {k i page st : Nat} {dst : Bool} {x : CtxId} {t : Stream} {s : State} (ht : getStream s k = some t)
    (hm : missOf s t = some (x, i, page, st, dst)) (hp : t.phase = .halted)
    (hk : ∀ q ∈ s.mem.pageIns, ∀ g, q.2 = some g → g.streams.contains k = false)
    (hn : ∀ q ∈ s.mem.pageIns, ∀ g, q.2 = some g → (decide (g.ctx = x) && decide (g.index = i) && decide (g.page = page)) = false)
    (hl : s.mem.pageIns.length < 64) :
    execPageInRequest k s = .next (showPageIns ((setWaiting t.pan true s).onMem fun m => { m with
      pageIns := tput none m.pageIns m.nextPageIn (some { ctx := x, index := i, page := page, streams := [k], started := s.tick, found := st })
      nextPageIn := m.nextPageIn + 1 })) := by
  simp only [execPageInRequest, ht, hm]
  split
  next h =>
    rcases h with h | h
    · exact absurd hp h
    · obtain ⟨q, hq, h⟩ := List.any_eq_true.1 h
      split at h
      next g hg => exact absurd h (Bool.eq_false_iff.1 (hk q hq g hg))
      next => exact absurd h Bool.false_ne_true
  next =>
    split
    next h =>
      have hq := List.mem_of_find?_eq_some h
      have h := List.find?_some h
      split at h
      next g hg => exact absurd h (Bool.eq_false_iff.1 (hn _ hq g hg))
      next => exact absurd h Bool.false_ne_true
    next => rw [if_neg (Nat.not_le.2 hl)]

/-! ### PAGE_IN_DONE (R150, R152) -/

section
variable {k : Nat} {g : PageIn} {s : State} (hg : tget none s.mem.pageIns k = some g)
include hg

/-- The page is there. -/
theorem execPageInDone_present (he : (tget PageEntry.zero (getObj s g.ctx g.index).pages g.page).state = 1) :
    execPageInDone k s = .next (closePageIn k g s) := by
  simp [execPageInDone, hg, he]

variable (ht : (getObj s g.ctx g.index).tier = 2) (he : (tget PageEntry.zero (getObj s g.ctx g.index).pages g.page).state = 0)
variable (hq : t2Use s g.ctx ≤ (getCtx s g.ctx).quota.t2Pages)
include ht he hq

theorem execPageInDone_zero {f : Nat} (hf : findFrame s = some f) :
    execPageInDone k s = .next (closePageIn k g (modObj g.ctx g.index (fun x => { x with
      pages := tput PageEntry.zero x.pages g.page { state := 1, frame := f, remoteChip := 0 } }) (takeFrame f s))) := by
  simp [execPageInDone, hg, ht, he, hf, Nat.not_lt.2 hq]

theorem execPageInDone_noFrame (hf : findFrame s = none) : execPageInDone k s = .next (failPageIn k g (stNoSpace 0) s) := by
  simp [execPageInDone, hg, ht, he, hf, Nat.not_lt.2 hq]

end

/-! ### PAGE_IN_TIMEOUT (R152) -/

/-- The state in which nothing waits for page-in k any more; the page-in itself goes on. -/
def leavePageIn (k : Nat) (s : State) : State :=
  s.onMem fun m => { m with pageIns := tmod none m.pageIns k (Option.map fun g => { g with streams := [] }) }

/-- A late page-in that one READ of a pan waits for raises TIER_PAGEIN for that pan. -/
theorem execPageInTimeout_raises {k n : Nat} {g : PageIn} {t : Stream} {s : State} (hg : tget none s.mem.pageIns k = some g) (hn : g.streams = [n])
    (ht : getStream s n = some t) (hlate : g.started + msTicks (getFld s TIER_PAGEIN_CTL 0 16) < s.tick) (hu : t.use = .run) :
    execPageInTimeout k s = .next (present (panEvent s 0x0204 0x70 t.pan) (leavePageIn k s)) := by
  have ht' : getStream (leavePageIn k s) n = some t := ht
  rw [leavePageIn] at ht' ⊢
  simp only [execPageInTimeout, hg, hn]
  rw [if_neg (by simp [Nat.not_le.2 hlate])]
  simp only [List.foldl_cons, List.foldl_nil, ht', if_pos hu]
  rfl

/-! ### The statement -/

/-- Settles O27: each event by its own rule; the end of a page-in by the state of its page, the quota and the frames. -/
theorem pageInCompletion : Obligations.PageInCompletion := by
  unfold Obligations.PageInCompletion
  refine ⟨fun k i page st dst x t s ht hm hp hk hn hl => execPageInRequest_starts ht hm hp (fun q hq g hg => ?_) (fun q hq g hg => ?_) hl,
    fun k g s hg ht => ⟨execPageInDone_present hg, fun he hq f => execPageInDone_zero hg ht he hq, fun he hq => execPageInDone_noFrame hg ht he hq⟩,
    fun k n g t s hg hn ht hlate hu => execPageInTimeout_raises hg hn ht hlate hu⟩
  · have h := List.any_eq_false.1 hk q hq
    rw [hg] at h
    exact Bool.eq_false_iff.2 h
  · have h := List.find?_eq_none.1 hn q hq
    rw [hg] at h
    exact Bool.eq_false_iff.2 h

end Sys2Proof.Machine
end

section
/-! The predicted time of a step (R193): whole numbers rounded up, the sums over the rows of a build, and the lowest clock among a pan's dies. -/

namespace Sys2Proof.Machine

/-! ### Rounding up -/

theorem ceilDiv_eq (x n : Nat) : ceilDiv x n = x ⌈/⌉ n := (Nat.ceilDiv_eq_add_pred_div x n).symm

theorem ceilDiv_le_iff {n : Nat} (hn : 0 < n) (x k : Nat) : ceilDiv x n ≤ k ↔ x ≤ n * k := by
  rw [ceilDiv_eq]
  exact ceilDiv_le_iff_le_mul hn

theorem le_padRows {g : Nat} (hg : 0 < g) (rows : Nat) : rows ≤ padRows g rows := by
  rw [padRows, Nat.mul_comm]
  exact (ceilDiv_le_iff hg _ _).1 (Nat.le_refl _)

theorem padRows_lt {g : Nat} (hg : 0 < g) (rows : Nat) : padRows g rows < rows + g := by
  have h : padRows g rows ≤ rows + g - 1 := Nat.div_mul_le_self _ _
  omega

theorem padRows_mod (g rows : Nat) : padRows g rows % g = 0 := Nat.mul_mod_left _ _

/-- A prediction on a pan whose clock runs is the least number that is not below R193's quotient. -/
theorem predict_le_iff {f : Nat} (hf : 0 < f) (ct : CostTable) (rows tokens c x : Nat) :
    predict ct f rows tokens c ≤ x
      ↔ 16 * 1250 * (1024 * (ct.baseNs + ct.tokNs * (tokens + (padRows ct.rowGranule rows - rows))) + ct.ctxNs * c) ≤ 1024 * f * x := by
  rw [predict, Nat.max_eq_right hf]
  exact ceilDiv_le_iff (Nat.mul_pos (by decide) hf) _ _

/-! ### What a build counts (R193, R200) -/

/-- The tokens of a build, and the positions after them, are the sums over its rows. -/
def Build.Summed (b : Build) : Prop :=
  b.tokens = (b.rows.map (·.tokens)).foldl (· + ·) 0 ∧ b.ctxTokens = (b.rows.map fun r => r.position + r.tokens).foldl (· + ·) 0

/-- A build t has the rows and sums of b, or one row more that both sums count. -/
def Build.GrowsTo (b t : Build) : Prop :=
  (t.rows = b.rows ∧ t.tokens = b.tokens ∧ t.ctxTokens = b.ctxTokens)
    ∨ ∃ r, t.rows = b.rows ++ [r] ∧ t.tokens = b.tokens + r.tokens ∧ t.ctxTokens = b.ctxTokens + (r.position + r.tokens)

theorem Build.GrowsTo.summed {b t : Build} (h : b.GrowsTo t) (hb : b.Summed) : t.Summed := by
  obtain ⟨ht, hc⟩ := hb
  rcases h with ⟨hrows, htok, hctx⟩ | ⟨r, hrows, htok, hctx⟩
  · exact ⟨by rw [htok, hrows, ht], by rw [hctx, hrows, hc]⟩
  · constructor
    · rw [htok, hrows, List.map_append, List.foldl_append, ← ht]; rfl
    · rw [hctx, hrows, List.map_append, List.foldl_append, ← hc]; rfl

theorem Build.GrowsTo.ite {b t u : Build} {c : Prop} [Decidable c] (ht : b.GrowsTo t) (hu : b.GrowsTo u) : b.GrowsTo (if c then t else u) := by
  split <;> assumption

/-- Only a row that every check lets through and that gets its KV pages is added. -/
theorem growsTo_tryRow (pan kind : Nat) (p : Pan) (ct : CostTable) (goal : Option Nat) (q : Nat × SeqEntry) (b : Build) :
    b.GrowsTo (tryRow pan kind p ct goal q b) := by
  have same (s : State) (stop : Bool) : b.GrowsTo { b with st := s, stop := stop } := .inl ⟨rfl, rfl, rfl⟩
  unfold tryRow
  refine .ite (same _ _) ?_
  split
  next => exact same _ _
  next e _ =>
    extract_lets w n pos
    refine .ite (same _ _) (.ite (same _ _) (.ite (same _ _) ?_))
    split
    next => exact same _ _
    next => exact .inr ⟨workRow b.st q.1 e b.rows.length kind n, rfl, rfl, Nat.add_assoc _ _ _⟩

theorem Build.Summed.foldl_tryRow {pan kind : Nat} {p : Pan} {ct : CostTable} {goal : Option Nat} (l : List (Nat × SeqEntry)) {b : Build} (hb : b.Summed) :
    (l.foldl (fun b q => tryRow pan kind p ct goal q b) b).Summed := by
  induction l generalizing b with
  | nil => exact hb
  | cons q l ih => exact ih ((growsTo_tryRow pan kind p ct goal q b).summed hb)

theorem buildRows_summed (pan : Nat) (p : Pan) (g : PanCfg) (s : State) : (buildRows pan p g s).Summed := by
  have h0 : Build.Summed { st := s, rows := [], tokens := 0, ctxTokens := 0, stop := false } := ⟨rfl, rfl⟩
  exact Build.Summed.foldl_tryRow _ (h0.foldl_tryRow (goal := none) (readyRows s pan p g false))

/-! ### The lowest clock of a pan (R27) -/

/-- The MHZ fields of a pan's dies. -/
def panClocks (s : State) (p : Pan) : List Nat := (panDies s p).map fun d => getFld s (ARR_CLK d) 0 12

theorem panMhz_of_min {s : State} {p : Pan} {x : Nat} (h : (panClocks s p).min? = some x) : panMhz s p = x := by
  have hx : x ≤ 4095 := by
    obtain ⟨d, -, rfl⟩ := List.mem_map.1 (List.min?_mem h)
    exact Nat.le_of_lt_succ (bits_lt _ 0 12)
  have : panMhz s p = (panClocks s p).foldl min 4095 := List.foldl_map.symm
  rw [this, List.foldl_min, h]
  exact Nat.min_eq_right hx

/-- The pan's clock is a die's, and none is lower. -/
theorem panMhz_isLeast {s : State} {p : Pan} (h : panDies s p ≠ []) :
    panMhz s p ∈ panClocks s p ∧ ∀ f ∈ panClocks s p, panMhz s p ≤ f := by
  obtain ⟨x, hx⟩ := Option.isSome_iff_exists.1 (List.isSome_min?_of_ne_nil (l := panClocks s p) (mt List.map_eq_nil_iff.1 h))
  rw [panMhz_of_min hx]
  exact List.min?_eq_some_iff.1 hx

/-! ### The statement -/

/-- Settles O55: the rounding by the rule of a quotient rounded up, the sums by what each tried row adds, the clock as a least element. -/
theorem predictedTime : Obligations.PredictedTime := by
  unfold Obligations.PredictedTime
  refine ⟨fun ct f rows tokens c x hf => predict_le_iff hf ct rows tokens c x, fun pan p g s => ?_,
    fun g rows hg => ⟨le_padRows hg rows, padRows_lt hg rows, padRows_mod g rows⟩, fun s p => ⟨fun d hd => ?_, fun h => ?_⟩⟩
  · obtain ⟨ht, hc⟩ := buildRows_summed pan p g s
    exact ⟨ht, hc, rfl⟩
  · exact (panMhz_isLeast (List.ne_nil_of_mem hd)).2 _ (List.mem_map_of_mem hd)
  · obtain ⟨d, hd, he⟩ := List.mem_map.1 (panMhz_isLeast h).1
    exact ⟨d, hd, he.symm⟩

end Sys2Proof.Machine
end

section
/-! Commands on live sequences (R188, R191, R194, R196, R205, R252): admission, the input of a turn, a pause, and the speculation of a sequence. -/

namespace Sys2Proof.Machine

/-! ### Look-ups while a command starts -/

@[simp] theorem getEntry_markStarted (m : Cmd) (s : State) (i : Nat) : getEntry (markStarted m s) i = getEntry s i := rfl

@[simp] theorem findEntry_markStarted (m : Cmd) (s : State) (c : CtxId) (h : Dword) : findEntry (markStarted m s) c h = findEntry s c h := rfl

@[simp] theorem findArchive_markStarted (m : Cmd) (s : State) (c : CtxId) (h : Dword) : findArchive (markStarted m s) c h = findArchive s c h := rfl

/-! ### SEQ_ADMIT (R189, R194, R196) -/

section
variable {c : CmdRef} {m : Cmd} {input : List Word} {i : Nat} {e : SeqEntry} {s : State}
variable (h : Starts 0x0401 c m s) (he : admitEntry m input (markStarted m s) = e) (hf : admitFieldsBad m = false)
variable (hne : findEntry s m.ctx e.handle = none) (hna : findArchive s m.ctx e.handle = none) (hr : admitRefusal (markStarted m s) e = none)
variable (had : adapterOk (markStarted m s) m.ctx e.model e.adapterSlot.toNat = true) (hst : steerOk (markStarted m s) m.ctx e.model e.steerSlot.toNat = true)
variable (hi : freeEntry (markStarted m s) = some i)
include h he hf hne hna hr had hst hi

theorem execSeqAdmit_grants (hd : admitFails (markStarted m s) i e (inputPagesFor e) = none) (ha : heldAhead (markStarted m s) e = false) :
    execSeqAdmit c input s = .next (endOk m i 0 (grantAdmission i e (markStarted m s))) := by
  simp [execSeqAdmit, startCmd_of_starts h, he, hf, hne, hna, hr, had, hst, hi, hd, ha]

/-- A failed check, or a hold before it, holds the entry with WAIT and denies it without (R196). -/
theorem execSeqAdmit_waits {d : Option Nat} (hd : admitFails (markStarted m s) i e (inputPagesFor e) = d)
    (hw : d.isSome = true ∨ heldAhead (markStarted m s) e = true) :
    execSeqAdmit c input s = .next (if bit (m.p 1) 18 then holdEntry i e (markStarted m s)
      else bump SEQ_ADMIT_DENIED (endFail m (stDenied (d.getD 1)) (markStarted m s))) := by
  simp only [execSeqAdmit, startCmd_of_starts h, he, hf, findEntry_markStarted, findArchive_markStarted, hne, hna, hr, had, hst, hi, hd]
  cases d with
  | some k => simp
  | none => simp [hw.resolve_left Bool.false_ne_true]

end

/-! ### SEQ_APPEND (R188, R191) -/

/-- A command that has yet to start runs its body on the state in which it is marked started. -/
theorem startOrContinue_of_starts {op : Nat} {c : CmdRef} {m : Cmd} {s : State} (h : Starts op c m s) (f : Cmd → State → State) :
    startOrContinue op c s f = f m (markStarted m s) := by
  have ⟨hc, _, hs, _⟩ := h
  have hp : m.phase ≠ .running := by
    intro hp
    simp [startable, hp] at hs
  simp only [startOrContinue, hc]
  rw [if_neg hp, startCmd_of_starts h]

/-- The end of a SEQ_APPEND at entry e, by whether its input finds room; a turn that it ended before stays ended. -/
def endAppend (m : Cmd) (input : List Word) (i : Nat) (e : SeqEntry) (ended : Bool) (s : State) : State :=
  match addInput i e (input.take (m.f 2 0 32)) s with
  | some t => endOk m 0 0 t
  | none => endWith m (stNoSpace 0) (!ended) 0 0 s

section
variable {c : CmdRef} {m : Cmd} {input : List Word} {i : Nat} {e : SeqEntry} {s : State}
variable (h : Starts 0x0402 c m s) (h1 : 1 ≤ m.f 2 0 32) (h2 : m.f 2 0 32 ≤ 65536) (he : findEntry s m.ctx (BitVec.ofNat 64 (m.p 0)) = some (i, e))
variable (hu : modelUsable (markStarted m s) m.ctx e.model = true) (hp : e.position < 2097152)
include h h1 h2 he hu hp

theorem execSeqAppend_idle (hi : e.state = .idle) (hg : getEntry s i = some e) :
    execSeqAppend c input s = .next (endAppend m input i e false (markStarted m s)) := by
  simp [execSeqAppend, startOrContinue_of_starts h, Nat.ne_of_gt h1, Nat.not_lt.2 h2, he, hu, Nat.not_le.2 hp, hi, hg]
  rfl

theorem execSeqAppend_decode (hi : e.state = .decode) (hb : bit (m.p 2) 32 = false) : execSeqAppend c input s = .next (markStarted m s) := by
  simp [execSeqAppend, startOrContinue_of_starts h, Nat.ne_of_gt h1, Nat.not_lt.2 h2, he, hu, Nat.not_le.2 hp, hi, hb]

theorem execSeqAppend_refused (hi : e.state = .prefill ∨ e.state = .ending) :
    execSeqAppend c input s = .next (endFail m (stBadParam 0x10) (markStarted m s)) := by
  rcases hi with hi | hi <;> simp [execSeqAppend, startOrContinue_of_starts h, Nat.ne_of_gt h1, Nat.not_lt.2 h2, he, hu, Nat.not_le.2 hp, hi]

/-- INTERRUPT: the turn ends, and the entry that is left takes the input (R191). -/
theorem execSeqAppend_interrupt {e2 : SeqEntry} (hi : e.state = .decode) (hb : bit (m.p 2) 32 = true)
    (hg : getEntry (modEntry i (fun x => { x with interrupt := carried (markStarted m s) i }) (endTurn i 4 (markStarted m s))) i = some e2) :
    execSeqAppend c input s = .next (endAppend m input i e2 true
      (modEntry i (fun x => { x with interrupt := carried (markStarted m s) i }) (endTurn i 4 (markStarted m s)))) := by
  have hn : ¬(m.f 2 0 32 = 0 ∨ 65536 < m.f 2 0 32) := by omega
  simp only [execSeqAppend, startOrContinue_of_starts h, if_neg hn, findEntry_markStarted, he, hu, Bool.not_true, Bool.false_eq_true, if_false,
    if_neg (Nat.not_le.2 hp), hi, hb, if_true, hg]
  rfl

end

/-! ### SEQ_PAUSE (R205) -/

/-- The sequence notes what a SEQ_PAUSE asks for; its held proposals go. -/
def notePause (m : Cmd) (i ttl : Nat) (s : State) : State :=
  modEntry i (fun x => { x with pausePending := true, cmd := some m.ref, pauseTtl := ttl, transcode := bit (m.p 1) 32 }) (dropDrafts i s)

/-- A sequence that is in no pause yet notes it. The local definitions are kept folded: the kernel would count a TTL up one by one. -/
theorem execSeqPause_notes {c : CmdRef} {m : Cmd} {i : Nat} {e : SeqEntry} {s : State} (h : Starts 0x0403 c m s) (ht : m.f 1 0 23 ≤ 5443200)
    (he : findEntry s m.ctx (BitVec.ofNat 64 (m.p 0)) = some (i, e)) (hl : e.state = .prefill ∨ e.state = .decode ∨ e.state = .idle)
    (hp : e.pausePending = false) :
    execSeqPause c s = .next (notePause m i (if m.f 1 0 23 = 0 then 604800 else m.f 1 0 23) (markStarted m s)) := by
  have httl : (if m.f 1 0 23 = 0 then 604800 else m.f 1 0 23) ≤ 5443200 := by
    split <;> omega
  have hfirst : ¬(e.pausePending = true ∧ (!e.autoPause) = true) := by simp [hp]
  refine congrArg Host.Outcome.next ((startCmd_of_starts h _).trans ?_)
  extract_lets handle ttl
  simp -zeta only [if_neg (Nat.not_lt.2 httl), show findEntry (markStarted m s) m.ctx handle = some (i, e) from he, ttl]
  extract_lets want
  rcases hl with hl | hl | hl <;> rw [hl] <;> exact if_neg hfirst

/-! ### SPEC_POLICY (R252) -/

section
variable {c : CmdRef} {m : Cmd} {s : State} (h : Starts 0x0408 c m s)
include h

theorem execSpecPolicy_deep (hd : 8 < m.f 1 16 4) : execSpecPolicy c s = .next (endFail m (stBadParam 7) (markStarted m s)) := by
  simp only [execSpecPolicy, startCmd_of_starts h, if_pos hd]

theorem execSpecPolicy_one {i : Nat} {e : SeqEntry} (hd : m.f 1 16 4 ≤ 8) (hb : bit (m.p 1) 0 = false)
    (he : findEntry s m.ctx (BitVec.ofNat 64 (m.p 0)) = some (i, e)) :
    let on := bit (m.p 1) 8 && decide (0 < m.f 1 16 4)
    let s1 := modEntry i (fun e => { e with specOn := on, specDepth := m.f 1 16 4, specZero := 0, specGen := e.specGen + 1 }) (markStarted m s)
    execSpecPolicy c s = .next (endOk m 0 0 (if on then s1 else dropDrafts i s1)) := by
  simp only [execSpecPolicy, startCmd_of_starts h, if_neg (Nat.not_lt.2 hd), hb, if_neg Bool.false_ne_true, findEntry_markStarted, he]

end

/-! ### The statement -/

/-- Settles O22: an admission by its checks, an append by the state of its sequence, a pause and a speculation policy each by its own rule. -/
theorem sequenceCompletion : Obligations.SequenceCompletion := by
  unfold Obligations.SequenceCompletion
  refine ⟨fun c m input i s h hf hne hna hr had hst hi =>
      ⟨execSeqAdmit_grants h rfl hf hne hna hr had hst hi, fun d hd hw => ⟨fun hb => ?_, fun hb => ?_⟩⟩,
    fun c m input i e s h h1 h2 he hu hp => ⟨execSeqAppend_idle h h1 h2 he hu hp, execSeqAppend_decode h h1 h2 he hu hp,
      execSeqAppend_refused h h1 h2 he hu hp, fun e2 hi hb => execSeqAppend_interrupt h h1 h2 he hu hp hi hb⟩,
    fun c m i e s h ht he hl hp => execSeqPause_notes h ht he hl hp,
    fun c m i e s h hd hb he => execSpecPolicy_one h hd hb he,
    fun c m s h hd => execSpecPolicy_deep h hd⟩
  · exact (execSeqAdmit_waits h rfl hf hne hna hr had hst hi hd hw).trans (congrArg _ (if_pos hb))
  · exact (execSeqAdmit_waits h rfl hf hne hna hr had hst hi hd hw).trans (congrArg _ (if_neg (Bool.eq_false_iff.1 hb)))

end Sys2Proof.Machine
end

section
/-! The ends of sequences (R197, R207, R209): a resume from the archive, a cancel by what the handle names, and a retirement. -/

namespace Sys2Proof.Machine

/-! ### SEQ_RESUME (R197, R207) -/

section
variable {c : CmdRef} {m : Cmd} {a : Archive} {s : State} (h : Starts 0x0404 c m s)
variable (ha : findArchive s m.ctx (BitVec.ofNat 64 (m.p 0)) = some a) (hne : findEntry s m.ctx (BitVec.ofNat 64 (m.p 0)) = none)
include h ha hne

theorem execSeqResume_expired (ht : a.deadline ≤ m.ttlAt) : execSeqResume c s = .next (endFail m stExpired (markStarted m s)) := by
  simp [execSeqResume, startCmd_of_starts h, ha, hne, ht]

variable {i : Nat} {e : SeqEntry} (he : restored a (some m.ref) s.tick = e) (ht : m.ttlAt < a.deadline) (hr : admitRefusal (markStarted m s) e = none)
variable (hi : freeEntry (markStarted m s) = some i)
include he ht hr hi

theorem execSeqResume_grants (hd : admitFails (markStarted m s) i e (resumePages e) = none) (hw : heldAhead (markStarted m s) e = false) :
    execSeqResume c s = .next (grantResume i e (markStarted m s)) := by
  simp [execSeqResume, startCmd_of_starts h, ha, hne, Nat.not_le.2 ht, he, hr, hi, hd, hw]

/-- A failed check, or a hold before it, holds the resume with WAIT and denies it without (R197). -/
theorem execSeqResume_waits {d : Option Nat} (hd : admitFails (markStarted m s) i e (resumePages e) = d)
    (hw : d.isSome = true ∨ heldAhead (markStarted m s) e = true) :
    execSeqResume c s = .next (if bit (m.p 1) 0 then
        holdArchive m.ctx (BitVec.ofNat 64 (m.p 0)) true (holdEntry i (heldResumeEntry e) (markStarted m s))
      else bump SEQ_ADMIT_DENIED (endFail m (stDenied (d.getD 1)) (markStarted m s))) := by
  simp only [execSeqResume, startCmd_of_starts h, findArchive_markStarted, findEntry_markStarted, ha, hne, Option.isSome_none, Bool.false_eq_true, if_false,
    if_neg (Nat.not_le.2 ht), markStarted_tick, he, hr, hi, hd]
  cases d with
  | some k => rfl
  | none => simp [hw.resolve_left Bool.false_ne_true]

end

/-! ### SEQ_CANCEL (R209, Table 7.10) -/

section
variable {c : CmdRef} {m : Cmd} {s : State} (h : Starts 0x0405 c m s)
include h

section
variable {i : Nat} {e : SeqEntry} (he : findEntry s m.ctx (BitVec.ofNat 64 (m.p 0)) = some (i, e))
include he

/-- A running turn ends, with its session or without. -/
theorem execSeqCancel_running (hs : e.state = .decode ∨ e.state = .prefill) :
    execSeqCancel c s = .next (if bit (m.p 1) 0 then endWith m (stCancelled 0) false 0 0 (endSession i (markStarted m s))
      else endWith m (stCancelled 0) false 0 0 (endTurn i 4 (markStarted m s))) := by
  rcases hs with hs | hs <;> simp only [execSeqCancel, startCmd_of_starts h, findEntry_markStarted, he, hs]

/-- A turn that ended after the cancel was accepted leaves nothing to cancel. -/
theorem execSeqCancel_over {t : Nat} (hs : e.state = .idle) (ht : e.turnEndedAt = some t) (ha : m.acceptedAt ≤ t) (hb : bit (m.p 1) 0 = false) :
    execSeqCancel c s = .next (endWith m (0x0001, 0) false 0 0 (markStarted m s)) := by
  simp [execSeqCancel, startCmd_of_starts h, he, hs, ht, ha, hb]

end

theorem execSeqCancel_archive {a : Archive} (hne : findEntry s m.ctx (BitVec.ofNat 64 (m.p 0)) = none)
    (ha : findArchive s m.ctx (BitVec.ofNat 64 (m.p 0)) = some a) (hb : bit (m.p 1) 0 = true) :
    execSeqCancel c s = .next (endWith m (stCancelled 0) false 0 0 (freeArchive a (markStarted m s))) := by
  simp [execSeqCancel, startCmd_of_starts h, hne, ha, hb]

end

/-! ### SEQ_RETIRE (R209) -/

section
variable {c : CmdRef} {m : Cmd} {s : State} (h : Starts 0x0406 c m s)
include h

theorem execSeqRetire_live {i : Nat} {e : SeqEntry} (he : findEntry s m.ctx (BitVec.ofNat 64 (m.p 0)) = some (i, e)) (hs : e.state ≠ .ending)
    (hc : e.cmd = none) (hna : findArchive s m.ctx (BitVec.ofNat 64 (m.p 0)) = none) :
    execSeqRetire c s = .next (reapEnding (modEntry i (fun x => { x with state := .ending, cancelPending := true, retireCmd := some m.ref })
      (markStarted m s))) := by
  have hw : endWaiting e (stCancelled 0) (markStarted m s) = markStarted m s := by rw [endWaiting, hc]
  simp [execSeqRetire, startCmd_of_starts h, he, hs, hw, hna]

theorem execSeqRetire_archive {a : Archive} (hne : findEntry s m.ctx (BitVec.ofNat 64 (m.p 0)) = none)
    (ha : findArchive s m.ctx (BitVec.ofNat 64 (m.p 0)) = some a) :
    execSeqRetire c s = .next (endOk m 0 0 (freeArchive a (markStarted m s))) := by
  simp [execSeqRetire, startCmd_of_starts h, hne, ha]

end

/-! ### The statement -/

/-- Settles O23: a resume by its deadline and its checks, a cancel and a retirement by what the handle names. -/
theorem sequenceEndCompletion : Obligations.SequenceEndCompletion := by
  unfold Obligations.SequenceEndCompletion
  refine ⟨fun c m a i s h ha hne => ⟨execSeqResume_expired h ha hne,
      fun ht hr hi => ⟨execSeqResume_grants h ha hne rfl ht hr hi, fun d hd hw => ⟨fun hb => ?_, fun hb => ?_⟩⟩⟩,
    fun c m s h => ⟨fun i e he hs => ⟨fun hb => ?_, fun hb => ?_⟩, fun i e t he hs ht ha hb => execSeqCancel_over h he hs ht ha hb,
      fun a hne ha hb => execSeqCancel_archive h hne ha hb⟩,
    fun c m s h => ⟨fun i e he hs hc hna => execSeqRetire_live h he hs hc hna, fun a hne ha => execSeqRetire_archive h hne ha⟩⟩
  · exact (execSeqResume_waits h ha hne rfl ht hr hi hd hw).trans (congrArg _ (if_pos hb))
  · exact (execSeqResume_waits h ha hne rfl ht hr hi hd hw).trans (congrArg _ (if_neg (Bool.eq_false_iff.1 hb)))
  · exact (execSeqCancel_running h he hs).trans (congrArg _ (if_neg (Bool.eq_false_iff.1 hb)))
  · exact (execSeqCancel_running h he hs).trans (congrArg _ (if_pos hb))

end Sys2Proof.Machine
end

section
/-! The life of a step (R198, R200, R337, R338): its build, its end, its COMMIT record and its commit. -/

namespace Sys2Proof.Machine

/-! ### STEP_BUILD (R198, R200) -/

theorem getPan_modPan_same {n : Nat} {f : Pan → Pan} {p : Pan} {s : State} (h : getPan s n = some p) : getPan (modPan n f s) n = some (f p) := by
  have hv : Option.map f (tget none s.pans n) = some (f p) := congrArg (Option.map f) h
  rw [getPan, modPan, State.onPans_pans, tmod, hv]
  exact tget_tput_of_ne (Option.some_ne_none _) n s.pans

/-- Updates of entries leave the steps and their epochs as they are. -/
theorem steps_foldl_modEntry {α : Type} (i : α → Nat) (f : α → SeqEntry → SeqEntry) (l : List α) (s : State) :
    (l.foldl (fun u r => modEntry (i r) (f r) u) s).seq.steps = s.seq.steps := by
  induction l generalizing s with
  | nil => rfl
  | cons r l ih => exact ih (modEntry (i r) (f r) s)

/-- The state of a build in which its rows carry the step's epoch and version. -/
def stampRows (n : Nat) (p : Pan) (g : PanCfg) (b : Build) : State :=
  b.rows.foldl (fun u r => modEntry r.index (fun e =>
    { e with stepEpoch := (buildStep n p g b).epoch, waitSince := b.st.tick, modelVer := (buildStep n p g b).ver }) u) b.st

theorem stampRows_within {n : Nat} {p : Pan} {g : PanCfg} {b : Build} : Within 8192 b.st (stampRows n p g b) :=
  Within.foldl (fun _ _ => modEntry_within) _ _

/-- The state in which a built step is in the table and on its pan, its work list not yet sent. -/
def placeStep (n : Nat) (p : Pan) (g : PanCfg) (b : Build) : State :=
  modPan n (fun x => { x with step := some (buildStep n p g b).epoch, builtSince0 := true })
    ((noteDemand n g.kind b.rows.length (buildStep n p g b).tokens (stampRows n p g b)).onSeq fun q =>
      { q with epoch := (buildStep n p g b).epoch, steps := q.steps ++ [buildStep n p g b] })

/-- What follows the placing of a step is packets, registers and slots. -/
theorem enterStep_within_placeStep {n : Nat} {p : Pan} {g : PanCfg} {b : Build} : Within 66096 (placeStep n p g b) (enterStep n p g b) := by
  unfold enterStep
  extract_lets s st lc s2 s3 s4 s5 s6
  have h4 : Within 66096 (placeStep n p g b) s4 := Within.step' (sendWorkList_within (x2 := placeStep n p g b)) (Within.refl _ _) rfl
  have h5 : Within 66096 (placeStep n p g b) s5 := ((h4.step setReg_within rfl).step setReg_within rfl).step setReg_within rfl
  have h6 : Within 66096 (placeStep n p g b) s6 := h5.step groupCounts_within rfl
  exact Within.ite (h6.step bump_within rfl) h6

section
variable (n : Nat) (p : Pan) (g : PanCfg) (b : Build)

theorem epoch_placeStep : (placeStep n p g b).seq.epoch = b.st.seq.epoch + 1 := rfl

theorem steps_placeStep : (placeStep n p g b).seq.steps = b.st.seq.steps ++ [buildStep n p g b] :=
  congrArg (· ++ [buildStep n p g b]) (steps_foldl_modEntry _ _ b.rows b.st)

theorem getPan_placeStep (hp : getPan b.st n = some p) : (getPan (placeStep n p g b) n).map (·.step) = some (some (b.st.seq.epoch + 1)) := by
  rw [placeStep, getPan_modPan_same (p := p)]
  · rfl
  · rw [getPan, State.onSeq_pans, noteDemand_within.pans rfl, stampRows_within.pans rfl]
    exact hp

end

section
variable {n : Fin 16} {p : Pan} {g : PanCfg} {s : State} (hp : getPan s n = some p) (ha : p.active = some g) (hm : mayBuild s p = true)
include hp ha hm

theorem execStepBuild_enters (hr : (buildRows n p g s).rows ≠ []) :
    execStepBuild n s = .next (bumpBy SEQ_REL_SKIP (releaseBound s n p g) (enterStep n p g (buildRows n p g s))) := by
  simp [execStepBuild, hp, ha, hm, hr]

theorem execStepBuild_noRow (hr : (buildRows n p g s).rows = []) : execStepBuild n s = .next (buildRows n p g s).st := by
  simp [execStepBuild, hp, ha, hm, hr]

end

/-! ### STEP_END (R337, R338) -/

/-- One KV delta is journalled for each row of a step. -/
def journalDeltas (st : Step) (s : State) : State := st.rows.foldl (fun s r => journal 1 st.epoch st.ctx r.handle none s) s

theorem nextJseq_journal (kind epoch : Nat) (c : CtxId) (h : Dword) (cmd : Option CmdRef) (s : State) :
    (journal kind epoch c h cmd s).cmt.nextJseq = s.cmt.nextJseq + (if s.flt.outOfService then 0 else 1) := by
  rw [journal]
  split <;> rfl

/-- A package out of service forms no record (R359). -/
theorem nextJseq_journalDeltas (st : Step) (s : State) :
    (journalDeltas st s).cmt.nextJseq = s.cmt.nextJseq + (if s.flt.outOfService then 0 else st.rows.length) := by
  rw [journalDeltas]
  induction st.rows generalizing s with
  | nil => simp
  | cons r l ih =>
    rw [List.foldl_cons, ih, nextJseq_journal, journal_within.flt rfl, List.length_cons]
    split <;> omega

/-- The rest of a step's end: its rows have their outcome, its pan is free and its pins are released. -/
def leavePan (st : Step) (s : State) : State :=
  releasePins st.pan (modPan st.pan (fun p => { p with
    step := if p.step = some st.epoch then none else p.step, boundaries := p.boundaries + 1 }) (st.rows.foldl (arrive st) s))

theorem leavePan_within {st : Step} {s : State} : Within 9744 s (leavePan st s) :=
  ((Within.foldl (M := 9744) (fun _ _ => Within.step' arrive_within (Within.refl _ _) rfl) st.rows s).step modPan_within rfl).step releasePins_within rfl

theorem execStepEnd_ends {epoch : Dword} {o : List RowOutcome} {st : Step} {s : State} (hf : findStep s epoch.toNat = some st)
    (hd : st.delivered = true) (he : st.ended = false) (hb : panStreamsBusy s st.pan = false) :
    ∃ f, execStepEnd epoch o s = .next (leavePan { st with outcome := o } (journalDeltas { st with outcome := o } (modStep st.epoch f s))) := by
  unfold execStepEnd
  simp -zeta only [hf, hd, he, hb, Bool.not_true, Bool.or_self, Bool.false_eq_true, if_false]
  exact ⟨_, rfl⟩

/-! ### COMMIT_RECORD_SEND and STEP_COMMIT (R338) -/

theorem execCommitRecordSend_sends {epoch : Dword} {st : Step} {s : State} (hf : findStep s epoch.toNat = some st) (he : st.ended = true)
    (hc : st.commitSeq = none) (hr : st.deltas.all (recDurable s) = true) (hd : depsSettled s st = true) :
    execCommitRecordSend epoch s = .next (modStep st.epoch (fun x => { x with commitSeq := some s.cmt.nextJseq }) (journal 2 st.epoch st.ctx 0 none s)) := by
  have hall : (st.ended && st.commitSeq.isNone && st.deltas.all (recDurable s) && depsSettled s st) = true := by rw [he, hc, hr, hd]; rfl
  simp only [execCommitRecordSend, hf, if_pos hall]

/-- The state in which a committing step has left the table. -/
def leaveSteps (st : Step) (s : State) : State :=
  s.onSeq fun q => { q with
    steps := q.steps.filter fun x => !decide (x.epoch = st.epoch)
    commitEpoch := max q.commitEpoch st.epoch }

theorem execStepCommit_commits {epoch : Dword} {st : Step} {s : State} (hf : findStep s epoch.toNat = some st) (hm : mayCommit s st = true) :
    execStepCommit epoch s = .next (reapEnding (stepHist st (bump CMT_COMMITS
      (setReg CMT_COMMIT_NS (BitVec.ofNat 32 (min ((s.tick - st.endedAt) * 10) 0xFFFFFFFF)) (st.rows.foldl (commitRow st) (leaveSteps st s)))))) := by
  refine congrArg Host.Outcome.next ?_
  simp -zeta only [hf, hm, Bool.not_true, Bool.false_eq_true, if_false]
  rfl

/-! ### The statement -/

/-- Settles O25: a build by what follows the placing of its step, an end by its deltas and what no part of it touches, and the commits by their conditions. -/
theorem stepCompletion : Obligations.StepCompletion := by
  unfold Obligations.StepCompletion
  refine ⟨fun n p g s hp ha hm hr => ?_, fun n p g s hp ha hm hr => execStepBuild_noRow hp ha hm hr, fun epoch o st s hf hd he hb => ?_,
    fun epoch st s hf he hc hr hd => execCommitRecordSend_sends hf he hc hr hd, fun epoch st s hf hm => execStepCommit_commits hf hm⟩
  · have hw : Within 66096 (placeStep n p g (buildRows n p g s)) (bumpBy SEQ_REL_SKIP (releaseBound s n p g) (enterStep n p g (buildRows n p g s))) :=
      enterStep_within_placeStep.step bumpBy_within rfl
    have hepoch := (congrArg ServeState.epoch (hw.seq rfl)).trans (epoch_placeStep n p g _)
    refine ⟨_, execStepBuild_enters hp ha hm hr, rfl, hepoch, (congrArg ServeState.steps (hw.seq rfl)).trans (steps_placeStep n p g _), fun hp' => ?_⟩
    rw [hepoch, getPan, hw.pans rfl]
    exact getPan_placeStep n p g _ hp'
  · obtain ⟨f, hx⟩ := execStepEnd_ends (o := o) hf hd he hb
    have hw := execStepEnd_within hx
    refine ⟨_, hx, ?_, hw.tick rfl, hw.host rfl⟩
    rw [leavePan_within.cmt rfl, nextJseq_journalDeltas, modStep_within.cmt rfl, modStep_within.flt rfl]

end Sys2Proof.Machine
end

section
/-! How a command starts (R292, R293, R296): what ORDERED adds to the start conditions, and the end of a command with a reserved parameter bit set. -/

namespace Sys2Proof.Machine

/-! ### Start conditions (R292, R293) -/

theorem startable_iff {s : State} {m : Cmd} : startable s m = true ↔ m.phase = .waiting ∧ m.waitsOn = none
    ∧ (∀ k ∈ outstanding s m.ctx, k.seqno < m.seqno → holdsBack m k = false) ∧ (m.deadline = 0 ∨ s.tick ≤ deadlineTick m) := by
  simp [startable, and_assoc]

/-- ORDERED adds one hold: that of every earlier command of the queue (R292). -/
theorem holdsBack_of_ordered {m : Cmd} (h : m.ordered = true) (k : Cmd) :
    holdsBack m k = (holdsBack { m with ordered := false } k || decide (k.queue = m.queue)) := by
  have hseq : seqNamed { m with ordered := false } = seqNamed m := rfl
  have hpan : panNamed { m with ordered := false } = panNamed m := rfl
  have htable : tableNamed { m with ordered := false } = tableNamed m := rfl
  simp only [holdsBack, h, hseq, hpan, htable, Bool.true_and, Bool.false_and, Bool.or_false]
  ac_rfl

theorem startable_of_ordered {s : State} {m : Cmd} (h : m.ordered = true) : startable s m = true ↔ startable s { m with ordered := false } = true
    ∧ ∀ k ∈ outstanding s m.ctx, k.queue = m.queue → m.seqno ≤ k.seqno := by
  have hd : deadlineTick { m with ordered := false } = deadlineTick m := rfl
  have hk (k : Cmd) : (k.seqno < m.seqno → holdsBack m k = false) ↔
      (k.seqno < m.seqno → holdsBack { m with ordered := false } k = false) ∧ (k.queue = m.queue → m.seqno ≤ k.seqno) := by
    rw [holdsBack_of_ordered h, Bool.or_eq_false_iff, decide_eq_false_iff_not, ← Nat.not_lt]
    tauto
  simp only [startable_iff, hd, hk, forall_and]
  tauto

/-- A command whose start conditions are not met leaves the state as it is. -/
theorem startHeld_of_not_startable {op : Nat} {c : CmdRef} {m : Cmd} {s : State} (h : findCmd s c = some m) (hs : startable s m = false)
    (held : Cmd → Bool) (body : Cmd → State → State) : startHeld op c s held body = s := by
  simp [startHeld, h, hs]

/-- Settles O52: ORDERED adds to the holds of R293 that of every earlier command of the queue, and no other. -/
theorem orderedCommands : Obligations.OrderedCommands := by
  unfold Obligations.OrderedCommands
  exact ⟨fun s m h => startable_of_ordered h, fun op c m s held body h hs => startHeld_of_not_startable h hs held body⟩

/-! ### Reserved parameter bits (R296) -/

/-- An instruction that starts its command by the opcode row alone ends it where a reserved parameter bit is set, and does nothing else. -/
theorem goes_endFail_of_reserved {i : Instr} {op : Nat} {c : CmdRef} {m : Cmd} {s : State} {body : Cmd → State → State}
    (hi : exec i s = .next (startCmd op c s body)) (hc : findCmd s c = some m) (hs : startable s m = true)
    (hb : m.opcode.toNat = op ∧ maskOk ((opRow op).map (·.masks) |>.getD []) m.params = false) : Goes i s (endFail m (stBadParam 7) s) := by
  obtain ⟨ho, hm⟩ := hb
  exact hi.trans (congrArg _ (startHeld_reserved hc ho hs hm rfl body))

/-- Settles O12: each of the seventeen commands starts by its opcode row, which checks the bits before the command's own rule. -/
theorem reservedParameterBits : Obligations.ReservedParameterBits := by
  unfold Obligations.ReservedParameterBits
  intro c m s hc hs
  have ends {i : Instr} {op : Nat} {body : Cmd → State → State} (hi : exec i s = .next (startCmd op c s body)) :=
    goes_endFail_of_reserved hi hc hs
  exact ⟨ends rfl, ends rfl, ends rfl, ends rfl, ends rfl, ends rfl, ends rfl, ends rfl, fun _ => ends rfl, ends rfl, ends rfl, ends rfl, ends rfl,
    ends rfl, ends rfl, ends rfl, ends rfl⟩

end Sys2Proof.Machine
end

section
/-! Policies (R125, R195, R254): the goals, limits and balance set of a context, the thresholds of a model entry and a sequence's EXIT_POLICY byte. -/

namespace Sys2Proof.Machine

/-! ### STEP_POLICY (R125, R195) -/

/-- The goals and limits that a STEP_POLICY names lie in the ranges of R195. -/
def GoalsInRange (m : Cmd) : Prop :=
  1 ≤ m.f 0 0 20 ∧ m.f 0 0 20 ≤ 1000000 ∧ 1 ≤ m.f 0 32 20 ∧ m.f 0 32 20 ≤ 1000000 ∧ m.f 1 0 20 ≤ 600000 ∧ 1 ≤ m.f 1 32 16

/-- STEP_POLICY's own test of the ranges fails just where they are met. -/
theorem goalsInRange_iff (m : Cmd) : GoalsInRange m ↔
    ¬(m.f 0 0 20 = 0 ∨ 1000000 < m.f 0 0 20 ∨ m.f 0 32 20 = 0 ∨ 1000000 < m.f 0 32 20 ∨ 600000 < m.f 1 0 20 ∨ m.f 1 32 16 = 0) := by
  rw [GoalsInRange]
  omega

/-- The pans of the mask of a STEP_POLICY. -/
def balancePans (m : Cmd) : List Nat := (List.range 16).filter fun n => bit (m.p 2) n

/-- The context takes the goals and limits of its STEP_POLICY. -/
def setGoals (m : Cmd) (s : State) : State :=
  modCtx m.ctx (fun x => { x with lcGoalUs := m.f 0 0 20, beGoalUs := m.f 0 32 20, holdMaxMs := m.f 1 0 20, kvWaitSteps := m.f 1 32 16 }) s

/-- The context takes the balance set of its STEP_POLICY, whose first evaluation counts from now (notes/assumptions/169), and CFG_BAL shows it. -/
def setBalance (m : Cmd) (s : State) : State :=
  setReg CFG_BAL (BitVec.ofNat 32 (m.f 2 16 5 + 256 * m.f 2 24 5 + 65536 * prefillPans s (balancePans m) + 2 ^ 24 * (balancePans m).length))
    ((setGoals m s).onBalances fun l => (l.filter fun b => !decide (b.ctx = m.ctx)) ++
      if (balancePans m).isEmpty then [] else [{
        ctx := m.ctx, pans := balancePans m, minP := m.f 2 16 5, maxP := m.f 2 24 5, lastEval := cd0Count s, streak := 0, dirUp := false, window := [] }])

section
variable {c : CmdRef} {m : Cmd} {s : State} (h : Starts 0x0407 c m s)
include h

theorem execStepPolicy_refused (hg : ¬GoalsInRange m) : execStepPolicy c s = .next (endFail m (stBadParam 7) (markStarted m s)) := by
  rw [goalsInRange_iff, not_not] at hg
  simp only [execStepPolicy, startCmd_of_starts h, if_pos hg]

theorem execStepPolicy_goals (hg : GoalsInRange m) (hb : bit (m.p 2) 32 = false) :
    execStepPolicy c s = .next (endOk m 0 0 (setGoals m (markStarted m s))) := by
  rw [goalsInRange_iff] at hg
  simp [execStepPolicy, startCmd_of_starts h, if_neg hg, hb, setGoals]

theorem execStepPolicy_balance (hg : GoalsInRange m) (hb : bit (m.p 2) 32 = true) (hok : balanceOk (markStarted m s) m.ctx (balancePans m) = true)
    (hp : m.f 2 16 5 ≤ m.f 2 24 5) : execStepPolicy c s = .next (endOk m 0 0 (setBalance m (markStarted m s))) := by
  rw [goalsInRange_iff] at hg
  rw [balancePans] at hok
  simp [execStepPolicy, startCmd_of_starts h, if_neg hg, hb, hok, Nat.not_lt.2 hp, setBalance, setGoals, balancePans]

end

/-! ### EXIT_POLICY (R254) -/

/-- The model entry takes the sixteen thresholds of an EXIT_POLICY, two to a parameter word. -/
def setThresholds (m : Cmd) (s : State) : State :=
  modModel (m.f 0 0 10) (fun x => { x with exits := (List.range 16).map fun k => BitVec.ofNat 32 (m.f (3 + k / 2) (32 * (k % 2)) 32) }) s

section
variable {c : CmdRef} {m : Cmd} {s : State} (h : Starts 0x0409 c m s)
include h

theorem execExitPolicy_thresholds (ht : bit (m.p 0) 16 = true) (hq : bit (m.p 0) 17 = false)
    (hx : (getModel (markStarted m s) (m.f 0 0 10)).ctx = m.ctx)
    (hs : (getModel (markStarted m s) (m.f 0 0 10)).state = 1 ∨ (getModel (markStarted m s) (m.f 0 0 10)).state = 2) :
    execExitPolicy c s = .next (endOk m 0 0 (setThresholds m (markStarted m s))) := by
  have hu : ¬((getModel (markStarted m s) (m.f 0 0 10)).state = 0 ∨ (getModel (markStarted m s) (m.f 0 0 10)).state = 3) := by omega
  simp [execExitPolicy, startCmd_of_starts h, ht, hq, hx, hu, setThresholds]

theorem execExitPolicy_sequence {i : Nat} {y : SeqEntry} (ht : bit (m.p 0) 16 = false) (hq : bit (m.p 0) 17 = true) (hr : m.f 2 0 8 < 32)
    (he : findEntry s m.ctx (BitVec.ofNat 64 (m.p 1)) = some (i, y)) :
    execExitPolicy c s = .next (endOk m 0 0 (modEntry i (fun y => { y with exitPolicy := BitVec.ofNat 8 (m.f 2 0 8) }) (markStarted m s))) := by
  simp [execExitPolicy, startCmd_of_starts h, ht, hq, Nat.not_le.2 hr, he]

theorem execExitPolicy_neither (ht : bit (m.p 0) 16 = false) (hq : bit (m.p 0) 17 = false) :
    execExitPolicy c s = .next (endOk m 0 0 (markStarted m s)) := by
  simp [execExitPolicy, startCmd_of_starts h, ht, hq]

end

/-! ### The statement -/

/-- Settles O21: STEP_POLICY by its ranges first and by SET_BALANCE second, EXIT_POLICY by what its two flags ask for. -/
theorem policyCompletion : Obligations.PolicyCompletion := by
  unfold Obligations.PolicyCompletion
  exact ⟨fun c m s h => ⟨execStepPolicy_goals h, execStepPolicy_balance h, execStepPolicy_refused h⟩,
    fun c m s h => ⟨execExitPolicy_thresholds h, fun i y => execExitPolicy_sequence h, execExitPolicy_neither h⟩⟩

end Sys2Proof.Machine
end

section
/-! Links (R307 to R310, R313, R314): detection, training, retraining, loss and retry, and the cable modules. -/

namespace Sys2Proof.Machine

/-! ### Detection (R307) -/

theorem execLinkSignalDetect_trains {j : Fin 48} {s : State} (hs : linkState s j = 1) (hm : moduleThere s j = true) :
    execLinkSignalDetect j s = .next (setReg (lnkStatus j) 2 s) := by
  rw [execLinkSignalDetect, if_pos ⟨hs, hm⟩]

theorem execLinkDown_moves {j : Fin 48} {s : State} (hs : linkState s j = 7) : execLinkDown j s = .next (settleAll (moveFrames j s)) := by
  rw [execLinkDown, if_pos hs]

theorem execLinkDownRetry_detects {j : Fin 48} {s : State} (hs : linkState s j = 7) (hd : (getLink s j).downAt + msTicks 10000 ≤ s.tick)
    (he : linkEn s j = true) : execLinkDownRetry j s = .next (settleAll (toDetect j s)) := by
  rw [execLinkDownRetry, if_pos ⟨hs, hd, he⟩]

/-! ### Training (R308, R309) -/

/-- The link reaches NEGOTIATE with a combination and its lanes, its sequence numbers and its partner's record afresh. -/
def toNegotiate (j g w l : Nat) (s : State) : State :=
  showFabric (modLink j (fun l => { l with partner := none, recSentAt := none, rxSeq := 0, txSeq := 0, askedReplay := false })
    (setReg (lnkStatus j) (BitVec.ofNat 32 (3 + 256 * g + 1024 * w + 4096 * l)) s))

section
variable {j : Fin 48} {o : LinkOffer} {s : State} (hs : linkState s j = 2)
include hs

theorem execLinkTraining_noFec (ho : o.fec544 = false) : execLinkTraining j o s = .next (settleAll (goDown j 4 s)) := by
  rw [execLinkTraining, if_neg (not_not_intro hs), if_pos (by rw [ho]; rfl)]

/-- With the FEC on both ends, the trials decide. -/
theorem execLinkTraining_fec (ho : o.fec544 = true) :
    execLinkTraining j o s = .next (match firstPass (decide (12 ≤ j.val)) (commonCombos s j o) o.trials with
      | some c => toNegotiate j c.1 c.2.1 c.2.2 s
      | none => settleAll (goDown j 3 s)) := by
  rw [execLinkTraining, if_neg (not_not_intro hs), if_neg (by simp [ho])]
  rfl

theorem execLinkTraining_passes (g w l : Nat) (ho : o.fec544 = true)
    (hp : firstPass (decide (12 ≤ j.val)) (commonCombos s j o) o.trials = some (g, w, l)) :
    execLinkTraining j o s = .next (toNegotiate j g w l s) := by
  rw [execLinkTraining_fec hs ho, hp]

theorem execLinkTraining_fails (ho : o.fec544 = true) (hp : firstPass (decide (12 ≤ j.val)) (commonCombos s j o) o.trials = none) :
    execLinkTraining j o s = .next (settleAll (goDown j 3 s)) := by
  rw [execLinkTraining_fec hs ho, hp]

end

/-! ### Retraining (R313) -/

/-- An unacknowledged frame is late, or was replayed 8 times. -/
def ackDue (s : State) (j : Nat) : Bool := (getLink s j).unacked.any fun x => decide (x.sentAt + msTicks 1 ≤ s.tick) || decide (8 ≤ x.replays)

/-- The retraining of link j is counted. -/
def countRetrain (j : Nat) (s : State) : State := lifeAdd (0x4000 + 128 * j) 8 1 (bump (LNK_RETRAIN (j / 6) (j % 6)) s)

section
variable {j : Fin 48} {s : State} (hs : linkState s j = 5) (hd : ackDue s j = true)
include hs hd

theorem ack_missed : ¬(linkState s j ≠ 5 ∨ (!ackDue s j) = true) := by
  simp [hs, hd]

theorem execAckTimeout_replays :
    execAckTimeout j true s
      = .next (replayAll j (modLink j (fun l => { l with unacked := l.unacked.map fun x => { x with replays := 0 } }) (countRetrain j s))) := by
  rw [execAckTimeout]
  exact congrArg _ ((if_neg (ack_missed hs hd)).trans (if_pos rfl))

theorem execAckTimeout_down : execAckTimeout j false s = .next (settleAll (goDown j 10 (countRetrain j s))) := by
  rw [execAckTimeout]
  exact congrArg _ ((if_neg (ack_missed hs hd)).trans (if_neg Bool.false_ne_true))

end

/-! ### Cable modules (R310) -/

section
variable {j : Fin 48} {s : State} (hj : 12 ≤ j.val)
include hj

/-- Links 0 to 11 are board links, without a module. -/
theorem not_lt_twelve_of_cable : ¬j < 12 := Nat.not_lt.2 hj

theorem execModuleInsert_detects (hs : linkState s j = 7 ∨ linkState s j = 1) :
    execModuleInsert j s = .next (settleAll (toDetect j (setFld (LNK_CMIS (j / 6) (j % 6)) 0 1 1 s))) := by
  rw [execModuleInsert, if_neg (not_lt_twelve_of_cable hj)]
  exact congrArg _ (if_pos hs)

theorem execModuleRemove_down (h2 : 2 ≤ linkState s j) (h6 : linkState s j ≤ 6) :
    execModuleRemove j s = .next (settleAll (goDown j 2 (setReg (LNK_CMIS (j / 6) (j % 6)) 0 s))) := by
  have h1 : linkState s j ≠ 1 := by omega
  rw [execModuleRemove, if_neg (not_lt_twelve_of_cable hj)]
  exact congrArg _ ((if_neg h1).trans (if_pos ⟨h2, h6⟩))

/-- The state in which a poll of link j's module shows in its register. -/
def showPoll (j : Nat) (p : CmisPoll) (s : State) : State :=
  setReg (LNK_CMIS (j / 6) (j % 6)) (BitVec.ofNat 32 (b2n p.present + 2 * p.state.toNat + 16 * b2n p.alarm + 256 * p.tempC.toNat))
    (modLink j (fun l => { l with polledAt := some s.tick }) s)

/-- A poll reports a loss of lock on a lane in use. -/
def lockLost (s : State) (j : Nat) (p : CmisPoll) : Bool :=
  (List.range 4).any fun k => bit (getFld s (lnkStatus j) 12 4) k && bit p.lossOfLock.toNat k

omit hj in
theorem lockLost_of_zero {p : CmisPoll} (h : p.lossOfLock = 0) : lockLost s j p = false := by
  simp [lockLost, h, bit]

/-- A poll that the bus answers, without a temperature warning, takes the link DOWN or shows alone. -/
theorem execCmisPoll_answered {p : CmisPoll} (hd : (getLink s j).polledAt = none) (hb : p.busErr = false) (ht : p.tempWarn = false) :
    execCmisPoll j p s = .next (if (p.fault ∨ lockLost s j p) ∧ 2 ≤ linkState s j ∧ linkState s j ≤ 6 then settleAll (goDown j 9 (showPoll j p s))
      else showPoll j p s) := by
  have hdue : ¬(j < 12 ∨ (!(match (getLink s j).polledAt with | none => true | some t => decide (t + msTicks 100 ≤ s.tick))) = true) := by
    rw [hd]
    simpa using not_lt_twelve_of_cable hj
  rw [execCmisPoll]
  refine congrArg _ ((if_neg hdue).trans ?_)
  simp only [hb, ht, Bool.false_eq_true, if_false]
  rfl

theorem execCmisPoll_fault {p : CmisPoll} (hd : (getLink s j).polledAt = none) (hb : p.busErr = false) (ht : p.tempWarn = false)
    (hf : p.fault = true) (h2 : 2 ≤ linkState s j) (h6 : linkState s j ≤ 6) :
    execCmisPoll j p s = .next (settleAll (goDown j 9 (showPoll j p s))) := by
  rw [execCmisPoll_answered hj hd hb ht, if_pos ⟨.inl hf, h2, h6⟩]

theorem execCmisPoll_shows {p : CmisPoll} (hd : (getLink s j).polledAt = none) (hb : p.busErr = false) (ht : p.tempWarn = false)
    (hf : p.fault = false) (hl : p.lossOfLock = 0) : execCmisPoll j p s = .next (showPoll j p s) := by
  rw [execCmisPoll_answered hj hd hb ht, if_neg (by simp [hf, lockLost_of_zero hl])]

end

/-! ### The statement -/

/-- Settles O35: each event by its own rule; a training by the FEC first and its trials second. -/
theorem linkCompletion : Obligations.LinkCompletion := by
  unfold Obligations.LinkCompletion
  exact ⟨fun j s => rfl, fun j s hs hm => execLinkSignalDetect_trains hs hm,
    fun j o s hs => ⟨execLinkTraining_noFec hs, execLinkTraining_passes hs, execLinkTraining_fails hs⟩,
    fun j s hs hd => ⟨execAckTimeout_replays hs hd, execAckTimeout_down hs hd⟩,
    fun j s hs => execLinkDown_moves hs, fun j s hs hd he => execLinkDownRetry_detects hs hd he,
    fun j s hj hs => execModuleInsert_detects hj hs, fun j s hj h2 h6 => execModuleRemove_down hj h2 h6,
    fun j p s hj hd hb ht => ⟨execCmisPoll_fault hj hd hb ht, execCmisPoll_shows hj hd hb ht⟩⟩

end Sys2Proof.Machine
end

section
/-! Discovery records, frames and packets (R18, R19, R313, R315, R323): what a link takes in, what it gives up, and where a router sends a packet. -/

namespace Sys2Proof.Machine

/-! ### Discovery records (R315, R317, R318) -/

theorem execDiscoveryRecordSend_sends {j : Fin 48} {s : State} (h3 : 3 ≤ linkState s j) (h5 : linkState s j ≤ 5) (hr : (getLink s j).recSentAt = none) :
    execDiscoveryRecordSend j s = .next (sendRecord j s) := by
  rw [execDiscoveryRecordSend]
  exact congrArg _ (if_pos ⟨h3, h5, by rw [hr]⟩)

section
variable {j : Fin 48} {r : DiscoveryRec} {s : State} (h3 : 3 ≤ linkState s j) (h5 : linkState s j ≤ 5) (hm : r.magic = 0x44564C45) (hc : r.crcOk = true)
include h3 h5 hm hc

/-- A whole record in NEGOTIATE, HOLD or ACTIVE is not dropped. -/
theorem record_taken : ¬(linkState s j < 3 ∨ 5 < linkState s j ∨ r.magic ≠ 0x44564C45 ∨ (!r.crcOk) = true) := by
  simp only [hm, hc, ne_eq, not_true_eq_false, Bool.not_true, Bool.false_eq_true, or_false]
  omega

theorem execDiscoveryRecordReceive_level (h1 : r.level ≠ 1) (h2 : r.level ≠ 2) :
    execDiscoveryRecordReceive j r s = .next (settleAll (goDown j 5 s)) := by
  rw [execDiscoveryRecordReceive]
  exact congrArg _ ((if_neg (record_taken h3 h5 hm hc)).trans (if_pos ⟨h1, h2⟩))

/-- The state in which the partner's record stands in link j and its registers. -/
def takeRecord (j : Nat) (r : DiscoveryRec) (s : State) : State := showPartner j r (modLink j (fun l => { l with partner := some r }) s)

omit h3 h5 in
theorem execDiscoveryRecordReceive_negotiate (hl : r.level = 1 ∨ r.level = 2) (hs : linkState s j = 3) :
    execDiscoveryRecordReceive j r s = .next (let t := setLink j 4 0 (takeRecord j r s)
      settleAll (if r.unassigned then t else seeChip r.chip.toNat r.idgen.toNat t)) := by
  have hl' : ¬(r.level ≠ 1 ∧ r.level ≠ 2) := fun h => hl.elim h.1 h.2
  rw [execDiscoveryRecordReceive]
  refine congrArg _ ((if_neg (record_taken hs.ge (by omega) hm hc)).trans ((if_neg hl').trans ?_))
  simp only [hs, if_true]
  rfl

end

/-! ### Frames (R313, R323) -/

/-- The codewords of a frame's FEC are counted. -/
def countFec (j : Nat) (c : FecCount) (s : State) : State :=
  lifeAdd (0x4028 + 128 * j + 8 * c.bin) 8 1 (lifeAdd (0x4020 + 128 * j) 8 c.uncorrectable (lifeAdd (0x4018 + 128 * j) 8 c.corrected
    (bumpBy (LNK_FEC_UNCORR (j / 6) (j % 6)) c.uncorrectable (bumpBy (LNK_FEC_CORR (j / 6) (j % 6)) c.corrected s))))

/-- The next frame of link j has come. -/
def nextExpected (j n : Nat) (s : State) : State := modLink j (fun x => { x with rxSeq := (n + 1) % 2 ^ 32, askedReplay := false }) s

section
variable {j : Fin 48} {f : ElpFrame} {s : State} (hs : linkState s j = 5)
include hs

/-- An ACTIVE link takes frames. -/
theorem frame_taken : ¬(linkState s j < 3 ∨ 5 < linkState s j) := by omega

theorem execElpFrameReceive_corrupt (c : FecCount) (hc : f.crcOk = false) :
    execElpFrameReceive j f c s = .next (askReplay j (countFec j c s)) := by
  rw [execElpFrameReceive]
  exact congrArg _ ((if_neg (frame_taken hs)).trans (if_pos (by rw [hc]; rfl)))

theorem execElpFrameReceive_inOrder (c : FecCount) (hc : f.crcOk = true) (hq : f.lseq.toNat = (getLink s j).rxSeq) :
    execElpFrameReceive j f c s = .next (sortFrame f (takeAck j f (nextExpected j (getLink s j).rxSeq (countFec j c s)))) := by
  rw [execElpFrameReceive]
  exact congrArg _ ((if_neg (frame_taken hs)).trans ((if_neg (by simp [hc])).trans ((if_neg (not_not_intro hq)).trans (if_pos (.inl hs)))))

end

theorem execNoRouteTimeout_drops {dest : BitVec 10} {s : State} {n : Nat}
    (hn : (s.lnk.held.filter fun p => decide (p.1.destChip = dest) && decide (p.2 + msTicks 1000 ≤ s.tick)).length = n) (h0 : 0 < n) :
    execNoRouteTimeout dest s = .next (showUnreach (bumpBy LNK_BITTERN_NOROUTE n (s.onLnk fun l => { l with
      held := l.held.filter fun p => !(decide (p.1.destChip = dest) && decide (p.2 + msTicks 1000 ≤ s.tick))
      unreach := if l.unreach.contains dest.toNat then l.unreach else l.unreach ++ [dest.toNat] }))) := by
  subst hn
  rw [execNoRouteTimeout]
  exact congrArg _ (if_neg h0.ne')

/-! ### Packets (R18, R19) -/

theorem hopTo_link {r p q : Nat} (h : nextRouter r p = some q) (k : Packet) : hopTo r p k = .link q k := by
  rw [hopTo, h]

theorem hopTo_land {r p : Nat} (h : nextRouter r p = none) (k : Packet) : hopTo r p k = .land k := by
  rw [hopTo, h]

section
variable {s : State} {r : Nat} {k : Packet}

theorem hopsOf_array {d : Fin 72} (h : k.dest = .array d) : hopsOf s r k = [hopTo r (physDie s d) k] := by
  rw [hopsOf, h]

theorem hopsOf_periphery_link {c : BitVec 8} {q : Nat} (h : k.dest = .periphery c) (hn : nextRouter r k.exit = some q) : hopsOf s r k = [.link q k] := by
  rw [hopsOf, h]
  exact congrArg (fun x => [x]) (by rw [hn])

theorem hopsOf_periphery_out {c : BitVec 8} (h : k.dest = .periphery c) (hn : nextRouter r k.exit = none) : hopsOf s r k = [.out k] := by
  rw [hopsOf, h]
  exact congrArg (fun x => [x]) (by rw [hn])

variable {x0 y0 w n : Nat} (h : k.dest = .rect x0 y0 w n)
include h

theorem hopsOf_rect_data (hv : k.vnet = .data) : hopsOf s r k = rectHops s r x0 y0 w n k := by
  rw [hopsOf, h]
  exact if_pos hv

/-- A rectangle on a network other than DATA is discarded (R18). -/
theorem hopsOf_rect_other (hv : k.vnet ≠ .data) : hopsOf s r k = [.discard] := by
  rw [hopsOf, h]
  exact if_neg hv

end

/-- Router r has taken the packet at the head of its input i, with the turn that is left. -/
def serveInput (r net i : Nat) (turn : Nat × Nat) (s : State) : State :=
  s.onArr fun a => { a with
    routers := tmod [] a.routers (bufKey r i net) List.tail
    served := tput (routerInputs - 1) a.served (4 * r + net) i
    turns := tput (5000, 0) a.turns r turn }

theorem execRouterPacket_none {r : Fin 74} {net : VNet} {s : State} (h : arbitrate s r (VNet.num net) = none) : execRouterPacket r net s = .next s := by
  rw [execRouterPacket, h]

section
variable {r : Fin 74} {net : VNet} {i : Nat} {k : Packet} {turn : Nat × Nat} {s : State} (h : arbitrate s r (VNet.num net) = some (i, k, turn))
include h

/-- The packet that arbitration takes makes all its hops. -/
theorem execRouterPacket_hops {l : List Hop} (hl : hopsOf s r k = l) :
    execRouterPacket r net s = .next (l.foldl (fun s h => doHop r s h) (serveInput r (VNet.num net) i turn s)) := by
  rw [execRouterPacket, h, ← hl]
  rfl

theorem execRouterPacket_array {d : Fin 72} (hd : k.dest = .array d) :
    execRouterPacket r net s = .next (doHop r (serveInput r (VNet.num net) i turn s) (hopTo r (physDie s d) k)) :=
  execRouterPacket_hops h (hopsOf_array hd)

end

/-! ### The statement -/

/-- Settles O36: a record and a frame by what the link takes; a packet by its hops, one for a single die and the tree for a rectangle. -/
theorem recordCompletion : Obligations.RecordCompletion := by
  unfold Obligations.RecordCompletion
  refine ⟨fun j s h3 h5 hr => execDiscoveryRecordSend_sends h3 h5 hr,
    fun j r s h3 h5 hm hc => ⟨execDiscoveryRecordReceive_level h3 h5 hm hc, execDiscoveryRecordReceive_negotiate hm hc⟩,
    fun j f c s hs => ⟨execElpFrameReceive_corrupt hs c, execElpFrameReceive_inOrder hs c⟩,
    fun dest s h0 => execNoRouteTimeout_drops rfl h0, fun r net i k turn s h => ?_, fun r net s h => execRouterPacket_none h⟩
  refine ⟨fun d q hd hn => ?_, fun d hd hn => ?_, fun c q hd hn => execRouterPacket_hops h (hopsOf_periphery_link hd hn),
    fun c hd hn => execRouterPacket_hops h (hopsOf_periphery_out hd hn),
    fun x0 y0 w n hd hv => execRouterPacket_hops h (hopsOf_rect_data hd hv),
    fun x0 y0 w n hd hv => execRouterPacket_hops h (hopsOf_rect_other hd hv)⟩
  · exact (execRouterPacket_array h hd).trans (by rw [hopTo_link hn]; rfl)
  · exact (execRouterPacket_array h hd).trans (by rw [hopTo_land hn]; rfl)

end Sys2Proof.Machine
end

section
/-! Fabric commands, collectives and shards (R320, R321, R324 to R329, R332): the plan and the status, the start and the timeout of a collective, and
the passes of weight distribution. -/

namespace Sys2Proof.Machine

/-! ### FABRIC_PLAN and FABRIC_STATUS (R320, R321, R332) -/

/-- The plan of these bytes is in force, measured and kept in flash. -/
def adoptPlan (b : List Byte) (s : State) : State :=
  usePlan (parsePlan b) ((extend 3 (Config.shake256 b) s).onLnk fun l => { l with flash := some (parsePlan b) })

/-- The bytes of a FABRIC_PLAN that the command's length names, one past the longest plan at most. -/
def planBytesOf (m : Cmd) (b : List Byte) : List Byte := bytesAt b 0 (min (m.p 1) 0x40001)

section
variable {c : CmdRef} {m : Cmd} {b : List Byte} {s : State} (h : Starts 0x0804 c m s)
include h

theorem execFabricPlan_refused {e : Nat} (he : planRefusal (markStarted m s) (planBytesOf m b) = some e) :
    execFabricPlan c b s = .next (endFail m (stBadParam e) (markStarted m s)) := by
  rw [planBytesOf] at he
  simp only [execFabricPlan, startCmd_of_starts h, he]

/-- Without a pan, no change of chip ID or job is in the way. -/
theorem execFabricPlan_adopts (hr : planRefusal (markStarted m s) (planBytesOf m b) = none) (hp : s.pans = []) :
    execFabricPlan c b s = .next (let t := adoptPlan (planBytesOf m b) (markStarted m s)
      endWith m (if fabricDegraded t then (2, 0) else stOk) false 0 0 t) := by
  rw [planBytesOf] at hr
  simp only [execFabricPlan, startCmd_of_starts h, hr]
  exact congrArg _ (if_neg (by simp [hp, tkeys]))

end

/-- Something that FABRIC_STATUS reports is degraded. -/
def fabricBad (s : State) : Bool := decide (getFld s LNK_FAB_STATUS 0 1 = 1) || !s.lnk.unreach.isEmpty || panTunnelled s

theorem execFabricStatus_writes {c : CmdRef} {m : Cmd} {s : State} (h : Starts 0x0805 c m s) :
    execFabricStatus c s = .next (let t := markStarted m s
      endWith m (if fabricBad t then (2, 0) else stOk) false (fabricRecord t).length 0 (dmaWrite m.ctx (m.p 0) (fabricRecord t) t)) := by
  rw [execFabricStatus, startCmd_of_starts h]
  rfl

/-! ### COLL and COLL_TIMEOUT (R324 to R327) -/

/-- The members of the group that a COLL names, by the plan. -/
def groupMembers (s : State) (m : Cmd) : List Nat :=
  ((s.lnk.plan.bind fun p => p.groups.find? fun g => decide (g.group = m.f 0 16 16)).map (·.members)).getD []

@[simp] theorem groupMembers_markStarted (m : Cmd) (s : State) : groupMembers (markStarted m s) m = groupMembers s m := rfl

/-- Key of the ordinals of a context's collectives on a group. -/
def ordinalKey (m : Cmd) : Nat := m.ctx.toNat * 65536 + m.f 0 16 16

/-- The collective that a COLL starts. -/
def newColl (m : Cmd) (s : State) : Coll :=
  let rank (x : Nat) : Nat := (groupMembers s m).findIdx fun y => decide (y = x)
  { cmd := m.ref, kind := m.f 0 0 4, format := m.f 0 8 4, op := m.f 0 12 2, group := m.f 0 16 16, ordinal := tget 0 s.lnk.ordinals (ordinalKey m)
    members := groupMembers s m, boards := boardSets s (groupMembers s m), rank := rank (chipId s), root := rank (m.f 3 0 10), length := m.p 2
    src := m.f 1 0 32, dst := m.f 1 32 32, done := [], since := s.tick }

/-- A collective joins the list and its group's next ordinal counts on. -/
def joinColls (m : Cmd) (g : Coll) (s : State) : State :=
  s.onLnk fun l => { l with colls := l.colls ++ [g], ordinals := tput 0 l.ordinals (ordinalKey m) (g.ordinal + 1) }

section
variable {c : CmdRef} {m : Cmd} {s : State} (h : Starts 0x0603 c m s)
variable (hsrc : rangeAway (handleObj s m.ctx (m.f 1 0 32)) 0 (m.p 2) = false) (hdst : rangeAway (handleObj s m.ctx (m.f 1 32 32)) 0 (m.p 2) = false)
include h hsrc hdst

theorem execColl_refused {st : Status} (hr : collRefusal (markStarted m s) m (groupMembers s m) = some st) :
    execColl c s = .next (endFail m st (markStarted m s)) := by
  rw [execColl, startHeld_of_starts h (by rw [hsrc, hdst]; rfl)]
  rw [← groupMembers_markStarted, groupMembers] at hr
  simp only [hr]

theorem execColl_starts {a b : Obj} (hr : collRefusal (markStarted m s) m (groupMembers s m) = none) (ha : objFor (markStarted m s) m (m.f 1 0 32) = some a)
    (hb : objFor (markStarted m s) m (m.f 1 32 32) = some b) (hla : m.p 2 ≤ (storageOf (markStarted m s) a).size)
    (hlb : m.p 2 ≤ (storageOf (markStarted m s) b).size) (hro : b.isReadOnly = false) (hlost : (storageOf (markStarted m s) a).lost = false) :
    execColl c s = .next (advanceColl (newColl m (markStarted m s)) (joinColls m (newColl m (markStarted m s)) (markStarted m s))) := by
  rw [execColl, startHeld_of_starts h (by rw [hsrc, hdst]; rfl)]
  rw [← groupMembers_markStarted, groupMembers] at hr
  simp only [hr, ha, hb]
  rw [if_neg (by omega), if_neg (by simp [hro]), if_neg (by simp [hlost])]
  rfl

end

theorem execCollTimeout_ends {c : CmdRef} {m : Cmd} {g : Coll} {s : State} (h : Running 0x0603 c m s)
    (hg : (s.lnk.colls.find? fun g => decide (g.cmd = c)) = some g) (ht : g.since + msTicks (getFld s LNK_COLL_CTL 0 16) ≤ s.tick) :
    execCollTimeout c s = .next (endWith m (stFaultContained 0) false 0 0 (dropColl g s)) := by
  simp only [execCollTimeout, whileRunning_of_running h, hg, if_pos ht]

/-! ### Passes at the source (R328) -/

theorem joinPass_opens {k : Nat} {d : List Byte} {s : State} (hj : sameJob s k = true) (hm : (heldManifest s d).isSome = true)
    (hp : (s.lnk.passes.find? fun p => decide (p.digest = d)) = none) :
    joinPass k d s = s.onLnk fun l => { l with passes := l.passes ++ [{ digest := d, receivers := [k], joinedAt := s.tick, next := [] }] } := by
  rw [joinPass, if_neg (by simp [hj, Option.isSome_iff_ne_none.1 hm]), hp]

/-- The list of a pass's chips goes down the tree. -/
def sendChips (c : CtxId) (d : List Byte) (chips : List Nat) (s : State) : State :=
  (passKids s chips).foldl (fun s k => sendFrame (ownFrame s k 1 6 c false 0 0
    (shardHead 3 d chips.length 0 ++ (chips.map fun k => leBytes 2 k).flatten)) s) s

/-- The held shards go down the tree, up to the first whose digest is wrong. -/
def sendShards (c : CtxId) (d : List Byte) (kids : List Nat) (l : List (Shard × Nat)) (s : State) : Bool × State :=
  l.foldl (fun (a : Bool × State) x =>
    if !a.1 then a
    else if Config.shake256 (shardBytes a.2 c x.1) = x.1.digest then
      (true, kids.foldl (fun s k => sendShard c k d x.2 (shardBytes a.2 c x.1) s) a.2)
    else (false, a.2)) (true, s)

/-- A pass that began at a tick leaves the list; the receivers that wait form the next one. -/
def renewPass (d : List Byte) (p : ShardPass) (tick : Nat) (s : State) : State :=
  s.onLnk fun l => { l with
    passes := (l.passes.filter fun x => !decide (x.digest = d))
      ++ (if p.next.isEmpty then [] else [{ digest := d, receivers := p.next, joinedAt := tick, next := [] }]) }

theorem execShardPassStart_sends {d : List Byte} {p : ShardPass} {c : CtxId} {v : VerRec} {s : State}
    (hp : (s.lnk.passes.find? fun p => decide (p.digest = d)) = some p) (hm : heldManifest s d = some (c, v)) (ht : p.joinedAt + msTicks 5 ≤ s.tick) :
    execShardPassStart d s = .next (let chips := chipId s :: p.receivers
      renewPass d p s.tick (sendShards c d (passKids s chips) (heldShards s d).zipIdx (sendChips c d chips s)).2) := by
  simp -zeta only [execShardPassStart, hp, hm, if_neg (Nat.not_lt.2 ht)]
  rfl

/-! ### SHARD_TIMEOUT (R329) -/

/-- The receiver has asked the next holder of shard n for it. -/
def askHolder (c : CmdRef) (n : Nat) (w : FabImport) (x : Shard) (s : State) : State :=
  let h := holders s w
  bump LNK_SHARD_REFETCH (sendFrame (ownFrame s (h.getD (min x.failed (h.length - 1)) w.source) 1 6 c.ctx false 0 0 (shardHead 2 w.digest n 0)) s)

section
variable {c : CmdRef} {n : Nat} {data : List Byte} {w : FabImport} {x : Shard} {s : State}
variable (hw : findImport s c = some w) (hx : w.shards[n]? = some x) (hv : x.verified = false) (hb : x.bad = true)
include hw hx hv hb

theorem execShardTimeout_lands (hd : Config.shake256 data = x.digest) :
    execShardTimeout c n data s = .next (landShard w n x data (askHolder c n w x s)) := by
  simp only [execShardTimeout, hw, Option.bind_some, hx]
  rw [if_neg (by simp [hv, hb]), if_pos hd]
  rfl

theorem execShardTimeout_fails (hd : Config.shake256 data ≠ x.digest) (hf : x.failed < 2) :
    execShardTimeout c n data s
      = .next (modShard c n (fun y => { y with bad := true, got := [], failed := y.failed + 1 }) (askHolder c n w x s)) := by
  simp only [execShardTimeout, hw, Option.bind_some, hx]
  rw [if_neg (by simp [hv, hb]), if_neg hd, if_pos hf]
  rfl

end

/-! ### The statement -/

/-- Settles O37: a plan and a collective by their refusals first; a pass by its manifest and its wait; a refetch by the digest of what it brings. -/
theorem fabricCompletion : Obligations.FabricCompletion := by
  unfold Obligations.FabricCompletion
  exact ⟨fun c m b s h => ⟨fun e he => execFabricPlan_refused h he, execFabricPlan_adopts h⟩, fun c m s h => execFabricStatus_writes h,
    fun c m a b s h hsrc hdst => ⟨fun st hr => execColl_refused h hsrc hdst hr, execColl_starts h hsrc hdst⟩,
    fun c m g s h hg ht => execCollTimeout_ends h hg ht, fun k d s hj hm hp => congrArg _ (joinPass_opens hj hm hp),
    fun d p c v s hp hm ht => execShardPassStart_sends hp hm ht,
    fun c n data w x s hw hx hv hb => ⟨execShardTimeout_lands hw hx hv hb, execShardTimeout_fails hw hx hv hb⟩⟩

end Sys2Proof.Machine
end

section
/-! The journal (R336, R344, R350, R394, R413): the ward's heartbeat and its acknowledgements, the buddy's mirror, the control log and a page pulled from the mirror. -/

namespace Sys2Proof.Machine

/-! ### The ward's journal (R336) -/

theorem execJournalHeartbeat_sends {s : State} (hp : paired s = true) (hw : s.pwr.shutdown ≠ .answered)
    (ho : (s.cmt.outstanding.all fun r => decide (r.kind = 0)) = true) (ht : s.cmt.lastSent + msTicks 10 ≤ s.tick) :
    execJournalHeartbeat s = .next (journal 0 0 0 0 none s) :=
  congrArg _ (if_pos ⟨hp, hw, ho, ht⟩)

/-- An acknowledgement in range, while no snapshot is due, makes durable every record up to its own. -/
theorem execJournalAckReceive_settles {jseq : Dword} {s : State} (hp : paired s = true) (hn : jseq.toNat + s.cmt.jbase < s.cmt.nextJseq)
    (hd : s.cmt.durable < jseq.toNat + s.cmt.jbase) (hs : s.cmt.snapshotDue = false) :
    execJournalAckReceive jseq s = .next (setReg64 CMT_JSEQ_LO CMT_JSEQ_HI jseq.toNat (s.onCmt fun c => { c with
      outstanding := c.outstanding.filter fun r => decide (jseq.toNat + s.cmt.jbase < r.jseq)
      durable := jseq.toNat + s.cmt.jbase, snapshotDue := false })) := by
  have hin : ¬((!paired s) = true ∨ s.cmt.nextJseq ≤ jseq.toNat + s.cmt.jbase ∨ jseq.toNat + s.cmt.jbase ≤ s.cmt.durable) := by
    simp only [hp, Bool.not_true, Bool.false_eq_true, false_or]
    omega
  refine congrArg Host.Outcome.next ((if_neg hin).trans ?_)
  simp only [hs, Bool.false_and, Bool.false_eq_true, if_false]
  rw [State.onCmt, State.onCmt, hs, Bool.false_and]

/-! ### The buddy's mirror (R336, R344, R413) -/

section
variable {f : JournalFrame} {s : State}

theorem execJournalRecordReceive_fenced (hf : s.cmt.fenced.contains f.srcIdgen = true) :
    execJournalRecordReceive f s = .next (bump CMT_BITTERN_FENCED s) :=
  congrArg _ (if_pos hf)

variable (hf : s.cmt.fenced.contains f.srcIdgen = false) (hw : servesWard s = true)
include hf hw

theorem execJournalRecordReceive_badTag (ht : f.tagOk = false) :
    execJournalRecordReceive f s = .next (if 2 ≤ s.cmt.badTags then endWard s else s.onCmt fun c => { c with badTags := c.badTags + 1 }) := by
  simp only [execJournalRecordReceive, hf, hw, ht, Bool.false_eq_true, Bool.not_true, Bool.not_false, if_false, if_true]

variable (ht : f.tagOk = true)
include ht

theorem execJournalRecordReceive_copy (hs : f.sealNo ≤ s.cmt.peerSeal) :
    execJournalRecordReceive f s
      = .next (s.onCmt fun c => { c with badTags := 0, lastWardFrame := s.tick, acks := f.jseq :: c.acks }) := by
  simp only [execJournalRecordReceive, hf, hw, ht, Bool.false_eq_true, Bool.not_true, if_false, if_pos hs]
  rfl

theorem execJournalRecordReceive_joins (hs : s.cmt.peerSeal < f.sealNo) (hj : f.jseq.toNat = s.cmt.mirrorJseq) :
    execJournalRecordReceive f s
      = .next (setReg CMT_MIRROR_USED (BitVec.ofNat 32 (mirrorPages (f :: s.cmt.mirror))) (s.onCmt fun c => { c with
          badTags := 0, lastWardFrame := s.tick, peerSeal := f.sealNo, mirror := f :: c.mirror, mirrorJseq := c.mirrorJseq + 1
          acks := f.jseq :: c.acks })) := by
  simp only [execJournalRecordReceive, hf, hw, ht, Bool.false_eq_true, Bool.not_true, if_false, if_neg (Nat.not_le.2 hs), if_neg (not_not_intro hj)]
  rfl

end

/-! ### The control log and remote pages (R350, R351, R394) -/

theorem execControlLogApply_applies {r : JRec} {rs : List JRec} {s : State} (hc : s.cmt.ctl = r :: rs) (hn : noStandby s = false) :
    execControlLogApply s = .next (s.onCmt fun c => { c with ctl := rs, ctlAcked := r.jseq }) := by
  simp only [execControlLogApply, hc, hn, Bool.false_eq_true, if_false]

/-- A REMOTE page of an object, which no archive holds, takes a frame. -/
theorem execRemotePagePull_obj {c : CtxId} {i : BitVec 16} {k f : Nat} {d : List Byte} {s : State} (ht : (getObj s c i.toNat).tier = 2)
    (hr : (tget PageEntry.zero (getObj s c i.toNat).pages k).state = 2)
    (ha : (s.seq.archives.any fun a => decide (a.ctx = c) && a.objPages.contains (i.toNat, k)) = false) (hf : findFrame s = some f) :
    execRemotePagePull (.obj c i k) d true s = .next (endRerep
      (modObj c i.toNat (fun x => { x with pages := tput PageEntry.zero x.pages k { state := 1, frame := f, remoteChip := 0 } })
        ((takeFrame f s).onMem fun m => { m with bytes := memWrite m.bytes (f * 0x200000) (d.take 0x200000) }))) := by
  refine congrArg Host.Outcome.next ?_
  simp only [Bool.not_true, Bool.false_eq_true, if_false, ht, hr, ha, hf, ne_eq, not_true_eq_false, false_and, false_or]

/-- Settles O30: each event by its own rule; a ward's record by its generation, its tag, its seal and its number in turn. -/
theorem journalCompletion : Obligations.JournalCompletion := by
  unfold Obligations.JournalCompletion
  exact ⟨fun s hp hw ho ht => execJournalHeartbeat_sends hp hw ho ht,
    fun f s => ⟨execJournalRecordReceive_fenced, fun hf hw => ⟨execJournalRecordReceive_badTag hf hw, execJournalRecordReceive_copy hf hw,
      execJournalRecordReceive_joins hf hw⟩⟩,
    fun jseq s hp hn hd hs => execJournalAckReceive_settles hp hn hd hs, fun r rs s hc hn => execControlLogApply_applies hc hn,
    fun page d s => rfl, fun c i k f d s ht hr ha hf => execRemotePagePull_obj ht hr ha hf⟩

end Sys2Proof.Machine
end

section
/-! Loss, pairing and takeover (R333, R344 to R348, R413): the CLAIM for a lost ward, the two sides of a pairing, and a spare that takes a chip ID over. -/

namespace Sys2Proof.Machine

/-! ### Loss of the ward (R344, R348) -/

theorem execWardLoss_claims {s : State} (hw : servesWard s = true) (hc : s.cmt.claimAt = none)
    (ht : s.cmt.lastWardFrame + msTicks (getFld s CMT_CTL 0 16) ≤ s.tick) :
    execWardLoss s = .next (sendClaim (bump CMT_TAKEOVERS (present (faultOf 0x0501 0x70 0 0) (s.onCmt fun c => { c with
      fenced := BitVec.ofNat 16 (getFld s CMT_WARD 16 16) :: c.fenced })))) :=
  congrArg _ (if_pos ⟨hw, Option.isNone_iff_eq_none.2 hc, ht⟩)

section
variable {t : Nat} {s : State} (hc : s.cmt.claimAt = some t)
variable (hg : olderGen (getFld s CMT_WARD 16 16) (newestGen s (getFld s CMT_WARD 0 10)) = false)
include hc hg

theorem execClaimRetry_takesCustody (h0 : getFld s CMT_STATUS 4 1 = 0) (ht : t + msTicks 1000 ≤ s.tick) :
    execClaimRetry s = .next (setFld CMT_STATUS 4 1 1 s) := by
  simp only [execClaimRetry, hc, hg, h0, if_pos ht, Bool.false_eq_true, if_false, if_true]

theorem execClaimRetry_sendsAgain (h1 : getFld s CMT_STATUS 4 1 = 1) (ht : t + msTicks 10000 ≤ s.tick) :
    execClaimRetry s = .next (sendClaim s) := by
  simp only [execClaimRetry, hc, hg, h1, if_pos ht, Bool.false_eq_true, Nat.one_ne_zero, if_false]

end

/-! ### Pairing (R333, R413) -/

section
variable {e : PairEvidence} {s : State} (hu : unassigned s = false)
include hu

theorem execPairing_asBuddy (hb : e.asBuddy = true) (hw : wardOf s = some e.peer.toNat) (he : evidenceOk s e = true) :
    execPairing e s = .next (pairBuddy e s) := by
  simp [execPairing, hu, hb, hw, he]

/-- A ward whose pairing is open takes the buddy of its plan by the evidence alone. -/
theorem execPairing_asWard (hb : e.asBuddy = false) (hw : buddyOf s = some e.peer.toNat) (ho : s.cmt.pairingOpen = true) :
    execPairing e s = .next (if evidenceOk s e then pairWard e s else (endPairing s).onCmt fun c => { c with refused := true }) := by
  simp [execPairing, hu, hb, hw, ho]

end

theorem execPairingRetry_opens {s : State} (hb : (buddyOf s).isSome = true) (hp : paired s = false) (hr : s.host.ready = true)
    (ht : s.cmt.pairTriedAt + msTicks 10000 ≤ s.tick) :
    execPairingRetry s = .next (s.onCmt fun c => { c with pairingOpen := true, pairTriedAt := s.tick }) :=
  congrArg _ (if_pos ⟨hb, congrArg (!·) hp, hr, ht⟩)

/-! ### A field after it is set -/

theorem bits_mod_two_pow {n lo w : Nat} (h : lo + w ≤ n) (x : Nat) : bits (x % 2 ^ n) lo w = bits x lo w := by
  apply Nat.eq_of_testBit_eq
  intro i
  rw [testBit_bits, testBit_bits, Nat.testBit_mod_two_pow]
  by_cases hi : i < w
  · simp [show lo + i < n by omega]
  · simp [hi]

/-- The number with its bits from lo on replaced has the new bits there. -/
theorem bits_replace (v lo w x : Nat) : bits (v - bits v lo w * 2 ^ lo + x % 2 ^ w * 2 ^ lo) lo w = x % 2 ^ w := by
  have hdiv : (v - bits v lo w * 2 ^ lo + x % 2 ^ w * 2 ^ lo) / 2 ^ lo = v / 2 ^ lo - bits v lo w + x % 2 ^ w := by
    rw [Nat.add_mul_div_right _ _ (Nat.two_pow_pos lo), Nat.mul_comm, Nat.sub_mul_div]
  have hrest : v / 2 ^ lo - bits v lo w = 2 ^ w * (v / 2 ^ lo / 2 ^ w) := Nat.sub_eq_of_eq_add (Nat.div_add_mod _ _).symm
  rw [bits, hdiv, hrest, Nat.mul_add_mod, Nat.mod_mod]

theorem bits_putBits {lo w : Nat} (h : lo + w ≤ 32) (v : Word) (x : Nat) : bits (putBits v lo w x).toNat lo w = x % 2 ^ w := by
  rw [putBits, BitVec.toNat_ofNat, bits_mod_two_pow h, bits_replace]

theorem getFld_setFld_same {s : State} (hs : Canonical s) (a : Nat) {lo w : Nat} (h : lo + w ≤ 32) (x : Nat) :
    getFld (setFld a lo w x s) a lo w = x % 2 ^ w := by
  rw [getFld, setFld, getReg_setReg_same hs, bits_putBits h]

/-! ### The assumed chip ID while links settle (R317, R319) -/

theorem assumed_foldl {α : Type} {g : State → α → State} (h : ∀ s x, (g s x).lnk.assumed = s.lnk.assumed) (l : List α) (s : State) :
    (l.foldl g s).lnk.assumed = s.lnk.assumed := by
  induction l generalizing s with
  | nil => rfl
  | cons x l ih => exact (ih (g s x)).trans (h s x)

theorem assumed_pumpLink (j : Nat) (s : State) : (pumpLink j s).lnk.assumed = s.lnk.assumed := by
  rw [pumpLink]
  split <;> rfl

theorem assumed_sendOn (j : Nat) (f : ElpFrame) (s : State) : (sendOn j f s).lnk.assumed = s.lnk.assumed :=
  assumed_pumpLink j _

theorem assumed_sendRecord (j : Nat) (s : State) : (sendRecord j s).lnk.assumed = s.lnk.assumed :=
  assumed_sendOn j _ _

theorem assumed_sendFrame (f : ElpFrame) (s : State) : (sendFrame f s).lnk.assumed = s.lnk.assumed := by
  have hr : (routeFrame f s).2.lnk.assumed = s.lnk.assumed := congrArg LinkState.assumed (routeFrame_within.lnk rfl)
  unfold sendFrame
  split
  · rfl
  · split
    · exact assumed_sendOn _ f s
    · dsimp only
      split
      · exact (assumed_sendOn _ f _).trans hr
      · exact hr

theorem assumed_retryFrames (s : State) : (retryFrames s).lnk.assumed = s.lnk.assumed :=
  assumed_foldl (fun t (p : ElpFrame × Nat) => assumed_sendFrame p.1 t) s.lnk.held _

theorem assumed_moveFrames (j : Nat) (s : State) : (moveFrames j s).lnk.assumed = s.lnk.assumed := by
  refine assumed_foldl (fun s f => ?_) _ _
  split
  · exact assumed_sendOn _ f s
  · exact assumed_sendFrame f s

theorem assumed_seeGen (c g : Nat) (s : State) : (seeGen c g s).lnk.assumed = s.lnk.assumed := by
  rw [seeGen]
  split <;> rfl

theorem assumed_takeId (s : State) : (takeId s).lnk.assumed = s.lnk.assumed := by
  unfold takeId
  extract_lets p c d g pos s1 s2 s3 s4
  split
  · rfl
  · exact assumed_seeGen _ _ s4

theorem assumed_settleLink (s : State) (j : Nat) : (settleLink s j).lnk.assumed = s.lnk.assumed := by
  unfold settleLink
  split
  · split
    · extract_lets o was s1
      split
      · exact assumed_moveFrames j s1
      · split
        · exact assumed_pumpLink j s1
        · rfl
    · rfl
  · rfl

theorem assumed_settleAll (s : State) : (settleAll s).lnk.assumed = s.lnk.assumed := by
  rw [settleAll, showFabric_within.lnk rfl, assumed_retryFrames, assumed_foldl assumed_settleLink, assumed_takeId]

/-! ### Takeover (R345, R346, R348) -/

/-- The spare holds the claimed chip ID at the next generation, with the job that the plan gives it. -/
def holdChip (x : Claim) (s : State) : State :=
  s.onLnk fun l => { l with
    assumed := some (x.chip.toNat, nextIdgen x.idgen.toNat,
      match s.lnk.plan.bind fun p => p.ofChip x.chip.toNat with | some e => e.job | none => 0x3FF, x.claimant.toNat)
    yielded := false }

/-- This package's record goes out on every link that carries discovery. -/
def announce (s : State) : State :=
  (List.range 48).foldl (fun s j => if 3 ≤ linkState s j ∧ linkState s j ≤ 5 then sendRecord j s else s) s

/-- The state in which a spare has taken the claimed chip ID over: out of the spare state, its links settled and told, the takeover counted and pairing open. -/
def takeOver (x : Claim) (s : State) : State :=
  (bump CMT_TAKEOVERS (announce (settleAll (leaveHotSpare (holdChip x s))))).onCmt fun k => { k with
    pairingOpen := true, refused := false, lastWardFrame := s.tick }

/-- The buddy, the step epoch and the TTL clock that the CLAIM of a held mirror brings. -/
def takeClaim (x : Claim) (s : State) : State :=
  (setFld CMT_BUDDY 0 10 x.claimant.toNat s).onSeq fun q => { q with
    epoch := x.mirrorEpoch.toNat + 1, ttlClock := x.ttlClock.toNat, ttlCkpt := x.ttlClock.toNat }

section
variable {x : Claim} {s : State} (h : standsBy s x.chip.toNat = true)
include h

theorem execClaimReceive_withoutMirror (m : MirrorImage) (hl : x.lostState = true) :
    execClaimReceive x m s = .next (setFld CMT_STATUS 5 1 1 (takeOver x s)) := by
  refine congrArg Host.Outcome.next ((if_neg (by rw [h]; exact Bool.false_ne_true)).trans ?_)
  exact if_pos hl

theorem execClaimReceive_withMirror (m : MirrorImage) (hl : x.lostState = false) :
    execClaimReceive x m s = .next (setFld CMT_STATUS 3 1 1 (restoreMirror m (takeClaim x (takeOver x s)))) := by
  refine congrArg Host.Outcome.next ((if_neg (by rw [h]; exact Bool.false_ne_true)).trans ?_)
  exact if_neg (by rw [hl]; exact Bool.false_ne_true)

end

theorem announce_within {s : State} : Within 131072 s (announce s) :=
  Within.foldl (fun s _ => Within.ite sendRecord_within (Within.refl _ s)) _ s

theorem takeOver_within {x : Claim} {s : State} : Within 1196600 s (takeOver x s) := by
  have h : Within 1196600 s (holdChip x s) := (Within.refl _ s).step Within.onLnk rfl
  exact ((((h.step leaveHotSpare_within rfl).step settleAll_within rfl).step announce_within rfl).step bump_within rfl).step Within.onCmt rfl

/-- The restoring of the mirror leaves the clock, the commit state and the links as they are. -/
theorem restoreMirror_takeClaim_within {x : Claim} {m : MirrorImage} {s : State} : Within 112600 s (restoreMirror m (takeClaim x s)) :=
  (((Within.refl _ s).step setFld_within rfl).step (Within.onSeq fun h => h) rfl).step restoreMirror_within rfl

theorem assumed_announce (s : State) : (announce s).lnk.assumed = s.lnk.assumed :=
  assumed_foldl (fun s j => by split; exacts [assumed_sendRecord j s, rfl]) _ s

theorem assumed_takeOver (x : Claim) (s : State) : (takeOver x s).lnk.assumed.map (·.1) = some x.chip.toNat := by
  rw [takeOver, State.onCmt_lnk, bump_within.lnk rfl, assumed_announce, assumed_settleAll, leaveHotSpare_within.lnk rfl]
  rfl

theorem pairingOpen_takeOver (x : Claim) (s : State) : (takeOver x s).cmt.pairingOpen = true := rfl

/-! ### The statement -/

/-- Settles O31: each event by its own rule; a takeover by what settling the links and restoring the mirror leave as it is. -/
theorem takeoverCompletion : Obligations.TakeoverCompletion := by
  unfold Obligations.TakeoverCompletion
  refine ⟨fun s hw hc ht => execWardLoss_claims hw hc ht, fun t s hc hg => ⟨execClaimRetry_takesCustody hc hg, execClaimRetry_sendsAgain hc hg⟩,
    fun e s hu hb hw ho => ⟨fun he => ?_, fun he => ?_⟩, fun e s hu hb hw he => execPairing_asBuddy hu hb hw he,
    fun s hb hp hr ht => execPairingRetry_opens hb hp hr ht, fun x m s hs h => ?_⟩
  · exact (execPairing_asWard hu hb hw ho).trans (congrArg _ (if_pos he))
  · exact (execPairing_asWard hu hb hw ho).trans (congrArg _ (if_neg (Bool.eq_false_iff.1 he)))
  · have htick : (takeOver x s).tick = s.tick := takeOver_within.tick rfl
    have hcan : Canonical (takeOver x s) := takeOver_within.canonical hs
    cases hl : x.lostState with
    | true =>
      exact ⟨_, execClaimReceive_withoutMirror h m hl, assumed_takeOver x s, pairingOpen_takeOver x s, htick,
        fun _ => getFld_setFld_same hcan _ (by decide) 1, fun hf => Bool.noConfusion hf⟩
    | false =>
      have hw : Within 112600 (takeOver x s) (restoreMirror m (takeClaim x (takeOver x s))) := restoreMirror_takeClaim_within
      refine ⟨_, execClaimReceive_withMirror h m hl, ?_, ?_, (hw.tick rfl).trans htick, fun hf => Bool.noConfusion hf,
        fun _ => getFld_setFld_same (hw.canonical hcan) _ (by decide) 1⟩
      · rw [setFld_lnk, hw.lnk rfl]
        exact assumed_takeOver x s
      · rw [setFld_cmt, hw.cmt rfl]
        exact pairingOpen_takeOver x s

end Sys2Proof.Machine
end

section
/-! Fault sources (R358, R363): the reactions that a source permits, FLT_CONFIG, and the defaults that a chip reset restores. -/

namespace Sys2Proof.Machine

/-! ### The rows of Table 14.2 (R358) -/

section
variable {r : SourceRow} (h : r ∈ sourceRows)
include h

/-- No two rows share an ID. -/
theorem sourceRow_of_mem : sourceRow r.id = some r := by
  revert r
  decide +kernel

theorem cls_of_mem_sourceRows : r.cls = 1 ∨ r.cls = 2 ∨ r.cls = 3 := by
  revert r
  decide +kernel

theorem mayReact_of_mem (k : Nat) : mayReact r.id k = (!r.fixed && bit r.allowed k) := by
  rw [mayReact, sourceRow_of_mem h]

end

/-- Codes 0 LOG and 1 INTR. -/
theorem bit_logIntr : ∀ k < 8, (bit 3 k = true ↔ k = 0 ∨ k = 1) := by decide

/-- Codes 1 INTR and 2 NMI. -/
theorem bit_intrNmi : ∀ k < 8, (bit 6 k = true ↔ k = 1 ∨ k = 2) := by decide

theorem bit_intrNmiBlock : ∀ k < 8, (bit 14 k = true ↔ k = 1 ∨ k = 2 ∨ k = 3) := by decide

/-- Codes 4 CHIP_RESET and 5 ALIVE_STOP. -/
theorem bit_chipAlive : ∀ k < 8, (bit 48 k = true ↔ k = 4 ∨ k = 5) := by decide

theorem bit_chipAliveBlock : ∀ k < 8, (bit 56 k = true ↔ k = 4 ∨ k = 5 ∨ k = 3) := by decide

section
variable {r : SourceRow} {k : Nat} (hf : r.fixed = false) (hk : k < 8)
include hf hk

theorem bit_allowed_corrected (hc : r.cls = 1) : bit r.allowed k = true ↔ k = 0 ∨ k = 1 := by
  simp only [SourceRow.allowed, hf, hc, Bool.false_eq_true, if_false, if_true, bit_logIntr k hk]

/-- The sources of the array dies have the IDs below 0x0200. -/
theorem bit_allowed_contained (hc : r.cls = 2) : bit r.allowed k = true ↔ k = 1 ∨ k = 2 ∨ (k = 3 ∧ r.id < 0x0200) := by
  by_cases hid : r.id < 0x0200
  · simp [SourceRow.allowed, hf, hc, hid, bit_intrNmiBlock k hk]
  · simp [SourceRow.allowed, hf, hc, hid, bit_intrNmi k hk]

/-- 0x0305 is a port die's and 0x0313 a far die's. -/
theorem bit_allowed_fatal (hc : r.cls = 3) :
    bit r.allowed k = true ↔ k = 4 ∨ k = 5 ∨ (k = 3 ∧ (r.id = 0x0305 ∨ r.id = 0x0313)) := by
  by_cases hid : r.id = 0x0305 ∨ r.id = 0x0313
  · simp [SourceRow.allowed, hf, hc, hid, bit_chipAliveBlock k hk]
  · simp [SourceRow.allowed, hf, hc, hid, bit_chipAlive k hk]

end

/-- What a source permits, by its class. -/
theorem mayReact_iff {r : SourceRow} (h : r ∈ sourceRows) {k : Nat} (hk : k < 8) : mayReact r.id k = true ↔ r.fixed = false
    ∧ ((r.cls = 1 ∧ (k = 0 ∨ k = 1)) ∨ (r.cls = 2 ∧ (k = 1 ∨ k = 2 ∨ (k = 3 ∧ r.id < 0x0200)))
      ∨ (r.cls = 3 ∧ (k = 4 ∨ k = 5 ∨ (k = 3 ∧ (r.id = 0x0305 ∨ r.id = 0x0313))))) := by
  rw [mayReact_of_mem h, Bool.and_eq_true, Bool.not_eq_true']
  refine and_congr_right fun hf => ?_
  rcases cls_of_mem_sourceRows h with hc | hc | hc
  · simp [bit_allowed_corrected hf hk hc, hc]
  · simp [bit_allowed_contained hf hk hc, hc]
  · simp [bit_allowed_fatal hf hk hc, hc]

/-! ### FLT_CONFIG (R358) -/

/-- The reaction of a source is set to one that FLT_CONFIG names. -/
def setReaction (m : Cmd) (s : State) : State := modSrc (m.f 0 0 16) (fun x => { x with reaction := some (m.f 0 16 3) }) s

section
variable {c : CmdRef} {m : Cmd} {s : State} (h : Starts 0x0702 c m s)
include h

theorem execFltConfig_sets (hr : mayReact (m.f 0 0 16) (m.f 0 16 3) = true) :
    execFltConfig c s = .next (endOk m 0 0 (setReaction m (markStarted m s))) := by
  rw [execFltConfig, startCmd_of_starts h, if_pos hr, setReaction]

theorem execFltConfig_refused (hr : mayReact (m.f 0 0 16) (m.f 0 16 3) = false) :
    execFltConfig c s = .next (endFail m (stBadParam 7) (markStarted m s)) := by
  rw [execFltConfig, startCmd_of_starts h, if_neg (by rw [hr]; exact Bool.false_ne_true)]

end

theorem getSrc_endOk (m : Cmd) (r0 r1 : Nat) (s : State) (i : Nat) : getSrc (endOk m r0 r1 s) i = getSrc s i := by
  rw [getSrc, getSrc, endOk_within.flt rfl]

@[simp] theorem getSrc_markStarted (m : Cmd) (s : State) (i : Nat) : getSrc (markStarted m s) i = getSrc s i := rfl

theorem getSrc_modSrc_of_ne {i : Nat} {f : SrcState → SrcState} {s : State} (h : f (getSrc s i) ≠ SrcState.fresh) :
    getSrc (modSrc i f s) i = f (getSrc s i) :=
  tget_tput_of_ne h _ _

theorem getSrc_modSrc_other {i j : Nat} (hj : j ≠ i) (f : SrcState → SrcState) (s : State) : getSrc (modSrc i f s) j = getSrc s j :=
  tget_tput_ne _ hj _

/-- A source with a reaction set is listed. -/
theorem reaction_setReaction (m : Cmd) (s : State) : (getSrc (setReaction m s) (m.f 0 0 16)).reaction = some (m.f 0 16 3) := by
  rw [setReaction, getSrc_modSrc_of_ne]
  intro hf
  have hr : some (m.f 0 16 3) = none := congrArg SrcState.reaction hf
  exact Option.some_ne_none _ hr

/-! ### The sources across a chip reset (R363) -/

theorem srcs_lifeAdd (off n k : Nat) (s : State) : (lifeAdd off n k s).flt.srcs = s.flt.srcs := rfl

theorem srcs_logEntry (e : HistEntry) (s : State) : (logEntry e s).flt.srcs = s.flt.srcs := by
  rw [logEntry, State.onFlt_flt]

theorem srcs_foldl_logEntry (l : List HistEntry) (s : State) : (l.foldl (fun s e => logEntry e s) s).flt.srcs = s.flt.srcs := by
  induction l generalizing s with
  | nil => rfl
  | cons e l ih => rw [List.foldl_cons, ih, srcs_logEntry]

/-- Reading the lifetime record configures no source. -/
theorem srcs_loadLife (s : State) : (loadLife s).flt.srcs = s.flt.srcs := by
  unfold loadLife
  extract_lets s1 s2 s3
  have h1 : s1.flt.srcs = s.flt.srcs := by
    simp only [s1]
    split
    · rw [reapply_within.flt rfl, State.onFlt_flt]
    · rw [setFld_flt, State.onFlt_flt]
  rw [State.onFlt_flt, srcs_foldl_logEntry, setReg_flt, srcs_lifeAdd, srcs_lifeAdd, h1]

theorem srcs_startImage (k : Nat) (b : List Byte) (s : State) : (startImage k b s).flt.srcs = s.flt.srcs := by
  have hload (t : State) (h : t.flt.srcs = s.flt.srcs) (e : FaultEvent) : (if k = 0 then loadLife t else present e (loadLife t)).flt.srcs = s.flt.srcs := by
    split
    · rw [srcs_loadLife, h]
    · rw [present, State.onFlt_flt, srcs_loadLife, h]
  rw [startImage]
  refine hload _ ?_ _
  rw [State.onFlt_flt, setReg64_within.flt rfl, State.onPwr_flt, showFw_within.flt rfl, State.onFw_flt, extend_within.flt rfl, extend_within.flt rfl]

theorem srcs_romBoot (s : State) : (romBoot s).flt.srcs = s.flt.srcs := by
  unfold romBoot
  extract_lets s0 codes tried mask last
  have h0 : s0.flt = s.flt := rfl
  split
  · rw [srcs_startImage, setReg_flt, h0]
  · rw [setReg_flt, State.onPwr_flt, h0]

theorem srcs_resetPackage (s : State) : (resetPackage s).flt.srcs = [] := by
  unfold resetPackage
  extract_lets r s1
  rw [setFld_flt, showHist, setFld_flt, setReg_flt, setReg_flt, setReg_flt, setReg_flt]
  rfl

/-- A chip reset leaves every source as it was never configured. -/
theorem srcs_chipReset (s : State) : (chipReset s).flt.srcs = [] := by
  rw [chipReset, srcs_romBoot, State.onHost_flt, setFld_flt, setFld_flt, srcs_resetPackage]

theorem reactionOf_chipReset (s : State) (r : SourceRow) : reactionOf (chipReset s) r = r.dflt := by
  rw [reactionOf, getSrc, srcs_chipReset]
  rfl

/-! ### The statement -/

/-- Settles O53: the permitted reactions by the class of the source, FLT_CONFIG by its check, and a chip reset by the sources that it empties. -/
theorem permittedReactions : Obligations.PermittedReactions := by
  unfold Obligations.PermittedReactions
  refine ⟨fun r hr k hk => mayReact_iff hr hk, fun c m s h => ⟨fun hr => ?_, execFltConfig_refused h⟩, fun s r _ => reactionOf_chipReset s r⟩
  refine ⟨_, execFltConfig_sets h hr, ?_, fun i hi => ?_⟩
  · rw [getSrc_endOk, reaction_setReaction]
  · rw [getSrc_endOk, setReaction, getSrc_modSrc_other hi, getSrc_markStarted]

end Sys2Proof.Machine
end

section
/-! Fault commands and forced events (R22, R357, R358, R367, R368, R375): each by the checks of its own rule, on the state in which its command is marked
started. -/

namespace Sys2Proof.Machine

/-! ### FAULT_EVENT (R24, R357) -/

/-- An event of SOURCE 0 at a port of an array die reports a failed edge (notes/assumptions/151). -/
theorem execFaultEvent_edge {e : FaultEvent} (h0 : e.source = 0) (hd : e.die.toNat < 74) (hu : e.unit.toNat < 4) (s : State) :
    execFaultEvent e s = .next (failEdge e.die.toNat e.unit.toNat s) := by
  rw [execFaultEvent, if_pos ⟨h0, hd, hu⟩]

theorem execFaultEvent_collects {e : FaultEvent} (h : e.source ≠ 0 ∨ 74 ≤ e.die.toNat ∨ 4 ≤ e.unit.toNat) (s : State) :
    execFaultEvent e s = .next (collect e false (takeEvent e s)) := by
  have hn : ¬(e.source = 0 ∧ e.die.toNat < 74 ∧ e.unit.toNat < 4) := by
    rintro ⟨h0, hd, hu⟩
    rcases h with h | h | h
    · exact h h0
    · omega
    · omega
  rw [execFaultEvent, if_neg hn]

/-! ### FLT_READ and LIFE_READ (R367, R375) -/

section
variable {c : CmdRef} {m : Cmd} {s : State}

theorem execFltRead_answers (h : Starts 0x0701 c m s) :
    execFltRead c s = .next (let t := dmaWrite m.ctx (m.p 0) (s.flt.history.map histBytes).flatten (markStarted m s)
      endOk m s.flt.history.length 0 (if bit (m.p 1) 0 then showHist (t.onFlt fun f => { f with history := [] }) else t)) := by
  simp only [execFltRead, startCmd_of_starts h, markStarted_flt]

theorem execLifeRead_copies (h : Starts 0x0703 c m s) (hr : m.p 1 + m.p 2 ≤ 0x400000) :
    execLifeRead c s = .next (endOk m (m.p 2) 0 (dmaWrite m.ctx (m.p 0) (lifeBytes (markStarted m s) (m.p 1) (m.p 2)) (markStarted m s))) := by
  rw [execLifeRead, startCmd_of_starts h, if_neg (Nat.not_lt.2 hr)]

theorem execLifeRead_refused (h : Starts 0x0703 c m s) (hr : 0x400000 < m.p 1 + m.p 2) :
    execLifeRead c s = .next (endFail m (stBadParam 7) (markStarted m s)) := by
  rw [execLifeRead, startCmd_of_starts h, if_pos hr]

end

/-! ### TEST_FORCE and TEST_PATTERN (R296, R368) -/

section
variable {c : CmdRef} {m : Cmd} {s : State}

theorem execTestForce_forces (h : Starts 0x0901 c m s) (hr : (sourceRow (m.f 0 0 16)).isSome = true) :
    execTestForce c s = .next (endOk m 0 0 (forceSource (m.f 0 0 16) (m.f 0 16 16) (markStarted m s))) := by
  rw [execTestForce, startCmd_of_starts h, if_neg (by simp [Option.isSome_iff_ne_none.1 hr])]

variable (h : Starts 0x0902 c m s) (hd : m.f 0 0 7 < 72)
include h hd

theorem execTestPattern_tests (n : Nat) (hp : dieOfPan (markStarted m s) (physDie (markStarted m s) (m.f 0 0 7)) = none) :
    execTestPattern c n s = .next (endOk m n 0 (markStarted m s)) := by
  rw [execTestPattern, startCmd_of_starts h, if_neg (Nat.not_le.2 hd), hp, if_neg (by simp)]

theorem execTestPattern_refused (n : Nat) (hp : (dieOfPan (markStarted m s) (physDie (markStarted m s) (m.f 0 0 7))).isSome = true) :
    execTestPattern c n s = .next (endFail m (stNotPermitted 0) (markStarted m s)) := by
  rw [execTestPattern, startCmd_of_starts h, if_neg (Nat.not_le.2 hd), if_pos hp]

end

/-! ### Forced events (R368) -/

theorem execSrcForceSet_forces {s : State} (h : (sourceRow (getFld s FLT_SRC_SEL 0 16)).isSome = true) (n : BitVec 16) :
    execSrcForceSet n s = .next (forceSource (getFld s FLT_SRC_SEL 0 16) n.toNat s) :=
  congrArg _ (if_pos h)

/-- One of the forced events of a source is raised now. -/
def countForced (id : Nat) (s : State) : State :=
  modSrc id (fun x => { x with repeats := x.repeats - 1, force := decide (1 < x.repeats), forcedAt := some s.tick }) s

/-- The first forced event waits for no other. -/
theorem execForcedEvent_first {id : BitVec 16} {s : State} (hf : (getSrc s id.toNat).force = true) (hr : 0 < (getSrc s id.toNat).repeats)
    (ha : (getSrc s id.toNat).forcedAt = none) :
    execForcedEvent id s = .next (collect (forcedEvent s id.toNat) true (countForced id.toNat s)) :=
  congrArg _ (if_pos ⟨hf, hr, by rw [ha]⟩)

/-! ### SPARE_SELF_TEST_DONE (R22) -/

/-- A spare that passed stands for the logical die of its swap in the spare map, and the mesh edges are bound again. -/
def bindSpare (p : Nat) (w : Swap) (s : State) : State :=
  showTunnels (setUnavail w.logical false (setReg (spareReg p) (BitVec.ofNat 32 (w.logical + 2 ^ 31)) (s.onPwr fun x => { x with swap := none })))

theorem execSpareSelfTestDone_passed {spare : Fin 2} {w : Swap} {s : State} (hw : s.pwr.swap = some w) (hs : w.spare = 72 + spare.val) :
    execSpareSelfTestDone spare true s
      = .next (nextSwap (w.pans.foldl recreatePan (moveWindows w.failed (72 + spare.val) (bindSpare (72 + spare.val) w s)))) := by
  rw [execSpareSelfTestDone, hw]
  exact congrArg _ (if_neg (not_not_intro hs))

/-! ### The statement -/

/-- Settles O38: each command by its own check, each event by whether it is due. -/
theorem faultCompletion : Obligations.FaultCompletion := by
  unfold Obligations.FaultCompletion
  exact ⟨fun e s => ⟨fun h => execFaultEvent_collects h s, fun h0 hd hu => execFaultEvent_edge h0 hd hu s⟩,
    fun c m s h => execFltRead_answers h, fun c m s h => ⟨execFltConfig_sets h, execFltConfig_refused h⟩,
    fun c m s h => ⟨execLifeRead_copies h, execLifeRead_refused h⟩, fun c m s h hr => execTestForce_forces h hr,
    fun c m n s h hd => ⟨execTestPattern_tests h hd n, execTestPattern_refused h hd n⟩,
    fun r s h => execSrcForceSet_forces h r, fun id s hf hr ha => execForcedEvent_first hf hr ha,
    fun spare w s hw hs => execSpareSelfTestDone_passed hw hs⟩

end Sys2Proof.Machine
end

section
/-! ALIVE_OUT and the control cores (R364, R369, R370, R392, R393, R395): the heartbeat, the watchdogs, the restart and the retirement of a core, and
CD1's takeover. -/

namespace Sys2Proof.Machine

/-! ### Registers that an update leaves -/

/-- Setting a register leaves every other one, whatever the form of the array. -/
theorem getReg_setReg_ne {a b : Nat} (hb : b ≠ a) (v : Word) (s : State) : getReg (setReg a v s) b = getReg s b := by
  rw [getReg, setReg, State.onRegs_regs, tget_tput_ne _ hb, getReg]

theorem getReg_setFld_ne {a b : Nat} (hb : b ≠ a) (lo w x : Nat) (s : State) : getReg (setFld a lo w x s) b = getReg s b :=
  getReg_setReg_ne hb _ s

@[simp] theorem getReg_onFlt (f : FltState → FltState) (s : State) (a : Nat) : getReg (s.onFlt f) a = getReg s a := rfl

@[simp] theorem getReg_onFw (f : FwState → FwState) (s : State) (a : Nat) : getReg (s.onFw f) a = getReg s a := rfl

@[simp] theorem getReg_onCmt (f : CommitState → CommitState) (s : State) (a : Nat) : getReg (s.onCmt f) a = getReg s a := rfl

/-! ### ALIVE_OUT (R369, R370) -/

theorem execAliveKick_key {v : Word} (h : bits v.toNat 0 16 = 0x5A3C) (s : State) : execAliveKick v s = .next (refreshAlive s) :=
  congrArg _ (if_pos h)

theorem execAliveOutEdge_toggles {s : State} (hr : getFld s FLT_ALIVE_STATUS 1 1 = 1) (ht : s.flt.edgeAt + usTicks 500 ≤ s.tick) :
    execAliveOutEdge s = .next (setFld FLT_ALIVE_STATUS 0 1 (1 - getFld s FLT_ALIVE_STATUS 0 1)
      (s.onFlt fun f => { f with edgeAt := f.edgeAt + usTicks 500 })) :=
  congrArg _ (if_pos ⟨hr, ht⟩)

theorem execHeartbeatTimeout_stops {s : State} (hr : getFld s FLT_ALIVE_STATUS 1 1 = 1) (ht : s.flt.kickAt + msTicks 10 ≤ s.tick) :
    execHeartbeatTimeout s = .next (collect (faultOf 0x0602 0x70 0xFF 0) false (stopAlive 0x0602 true s)) :=
  congrArg _ (if_pos ⟨hr, ht⟩)

/-! ### Watchdogs, restart and retirement (R364, R392, R393) -/

section
variable {k : Fin 8} {s : State}

theorem execCoreKick_refreshes (h : fwRuns s = true) :
    execCoreKick k s = .next (s.onFlt fun f => { f with coreKick := tput 0 f.coreKick k (s.tick + 1) }) :=
  congrArg _ (if_pos h)

theorem execCoreWatchdogExpiry_crashes (hf : fwRuns s = true) (h1 : cd1Active s = false) (hr : roleOf s k ≠ 15) (hd : coreDown s k = false)
    (ht : tget 0 s.flt.coreKick k - 1 + msTicks 4 ≤ s.tick) :
    execCoreWatchdogExpiry k s = .next (present (faultOf 0x0601 0x70 k 0) (crashCore k s)) :=
  congrArg _ (if_pos ⟨hf, by rw [h1]; rfl, hr, by rw [hd]; rfl, ht⟩)

/-- Core k runs again, its watchdog fresh. -/
def restartCore (k : Nat) (s : State) : State :=
  bump FW_RESTARTS ((s.onFw fun f => { f with
    down := f.down.filter fun d => !decide (d.1 = k)
    restartedAt := tput 0 f.restartedAt k (s.tick + 1) }).onFlt fun f => { f with coreKick := tput 0 f.coreKick k (s.tick + 1) })

/-- A restart maps no role anew. -/
theorem roleOf_restartCore (k n : Nat) (s : State) : roleOf (restartCore k s) n = roleOf s n := by
  rw [roleOf, roleOf, getFld, getFld, restartCore, bump, getReg_bumpBy, getReg_setReg_ne (by decide), getReg_onFlt, getReg_onFw]

/-- The restart of a core that has not the heartbeat. -/
theorem execCoreRestart_restarts (hd : coreDown s k = true) (hm : mustRetire s k = false) (hn : nmiCore s k < 8)
    (hg : segmentsGood s.fw.running k = true) (hr : roleOf s k ≠ 4) : execCoreRestart k s = .next (restartCore k s) := by
  have hr' : roleOf (restartCore k s) k ≠ 4 := by rwa [roleOf_restartCore]
  rw [execCoreRestart, if_pos ⟨hd, by rw [hm]; rfl, hn, hg⟩]
  exact congrArg _ (if_neg hr')

theorem execCoreRetire_retires {p : Nat} (hp : spareCore s = some p) (hm : mustRetire s k = true) (hk : p ≠ k.val) :
    execCoreRetire k s = .next (setFld FW_ROLE_MAP (4 * p) 4 (roleOf s k) (setFld FW_ROLE_MAP (4 * k.val) 4 15
      (s.onFw fun f => { f with down := f.down.filter fun d => !decide (d.1 = k.val) }))) := by
  rw [execCoreRetire, hp]
  exact congrArg _ (if_pos ⟨hm, hk⟩)

end

/-! ### CD1_TAKEOVER (R395) -/

/-- CD1 holds the control role and its cores take the roles of Table 16.2. -/
def mapToCd1 (s : State) : State := setReg FW_ROLE_MAP 0x54332210 (setFld FW_STATUS 1 2 2 s)

/-- CD1 runs its own image with every core up, and the control log ends. -/
def runOnCd1 (now : Nat) (s : State) : State :=
  ((s.onFw fun f => { f with down := [], restartedAt := [], running := f.standby }).onCmt fun c => { c with ctl := [], ctlAcked := c.nextJseq - 1 }).onFlt
    fun f => { f with coreKick := (List.range 8).map fun n => (n, now + 1) }

/-- The state in which CD1 has taken over. -/
def cd1Takes (s : State) : State := refreshAlive (showFw (runOnCd1 s.tick (mapToCd1 (crashWork 0 (dropUpdate s)))))

theorem execCd1Takeover_takes {s : State} (h : takeoverDue s = true) : execCd1Takeover s = .next (cd1Takes s) := by
  rw [execCd1Takeover, if_neg (by simp [h])]
  rfl

theorem getReg_refreshAlive {a : Nat} (ha : a ≠ FLT_ALIVE_STATUS) (s : State) : getReg (refreshAlive s) a = getReg s a := by
  rw [refreshAlive]
  split
  · rfl
  · rw [getReg_setFld_ne ha, getReg_onFlt]

theorem getReg_showFw {a : Nat} (hs : a ≠ FW_SVN) (hv : a ≠ FW_VERSION) (s : State) : getReg (showFw s) a = getReg s a := by
  rw [showFw, getReg_setReg_ne hs, getReg_setReg_ne hv]

theorem getReg_runOnCd1 (now : Nat) (s : State) (a : Nat) : getReg (runOnCd1 now s) a = getReg s a := rfl

theorem roleMap_mapToCd1 {s : State} (hs : Canonical s) : getReg (mapToCd1 s) FW_ROLE_MAP = 0x54332210 :=
  getReg_setReg_same (setFld_within.canonical hs) _ _

/-- Bits 2:1 of FW_STATUS read 2, so bit 2 is set. -/
theorem cd1Active_mapToCd1 {s : State} (hs : Canonical s) : cd1Active (mapToCd1 s) = true := by
  have h2 : getFld (setFld FW_STATUS 1 2 2 s) FW_STATUS 1 2 = 2 := getFld_setFld_same hs _ (by decide) 2
  have h1 : getFld (setFld FW_STATUS 1 2 2 s) FW_STATUS 2 1 = 1 := by
    rw [getFld, bits] at h2 ⊢
    omega
  rw [cd1Active, mapToCd1, getFld, getReg_setReg_ne (by decide)]
  exact decide_eq_true h1

section
variable {s : State} (hs : Canonical s)
include hs

theorem canonical_crashWork_dropUpdate (role : Nat) : Canonical (crashWork role (dropUpdate s)) :=
  crashWork_within.canonical (dropUpdate_within.canonical hs)

theorem roleMap_cd1Takes : getReg (cd1Takes s) FW_ROLE_MAP = 0x54332210 := by
  rw [cd1Takes, getReg_refreshAlive (by decide), getReg_showFw (by decide) (by decide), getReg_runOnCd1,
    roleMap_mapToCd1 (canonical_crashWork_dropUpdate hs 0)]

theorem cd1Active_cd1Takes : cd1Active (cd1Takes s) = true := by
  rw [cd1Active, getFld, cd1Takes, getReg_refreshAlive (by decide), getReg_showFw (by decide) (by decide), getReg_runOnCd1]
  exact cd1Active_mapToCd1 (canonical_crashWork_dropUpdate hs 0)

end

theorem down_cd1Takes (s : State) : (cd1Takes s).fw.down = [] := by
  rw [cd1Takes, refreshAlive_within.fw rfl, showFw_within.fw rfl]
  rfl

theorem ctl_cd1Takes (s : State) : (cd1Takes s).cmt.ctl = [] := by
  rw [cd1Takes, refreshAlive_within.cmt rfl, showFw_within.cmt rfl]
  rfl

/-! ### The statement -/

/-- Settles O39: each event where it is due; a takeover by the registers and tables that CD1 sets last. -/
theorem coreCompletion : Obligations.CoreCompletion := by
  unfold Obligations.CoreCompletion
  refine ⟨fun v s h => execAliveKick_key h s, fun s hr ht => execAliveOutEdge_toggles hr ht, fun s hr ht => execHeartbeatTimeout_stops hr ht,
    fun k s h => execCoreKick_refreshes h, fun k s hf h1 hr hd ht => execCoreWatchdogExpiry_crashes hf h1 hr hd ht,
    fun k s hd hm hn hg hr => execCoreRestart_restarts hd hm hn hg hr, fun k p s hp hm hk => execCoreRetire_retires hp hm hk, fun s hs h => ?_⟩
  have hx := execCd1Takeover_takes h
  exact ⟨_, hx, roleMap_cd1Takes hs, cd1Active_cd1Takes hs, down_cd1Takes s, ctl_cd1Takes s, (execCd1Takeover_within hx).tick rfl⟩

end Sys2Proof.Machine
end

section
/-! Lifetime records (R372, R373, R435): the accumulation each minute, the write of a slot and its verify. -/

namespace Sys2Proof.Machine

theorem execBitternAccumulate_reads {s : State} (hf : fwRuns s = true) (ht : s.flt.baccAt + msTicks 60000 ≤ s.tick) :
    execBitternAccumulate s = .next (readAllBacc s) := by
  rw [execBitternAccumulate, if_pos ⟨hf, ht⟩]

section
variable {s : State} (hf : fwRuns s = true) (hw : s.flt.life.writing = none)
include hf hw

/-- Where firmware runs and no write is under way, a shutdown that has settled comes before the 15 minutes. -/
theorem execLifetimeWrite_free : execLifetimeWrite s
    = .next (if s.pwr.shutdown = .settling ∧ allSettled s = true then beginLifeWrite (s.onPwr fun p => { p with shutdown := .writing })
      else if s.flt.life.lastWrite + msTicks 900000 ≤ s.tick then beginLifeWrite s else s) :=
  congrArg _ (if_neg (by simp [hf, hw]))

theorem execLifetimeWrite_shutdown (hs : s.pwr.shutdown = .settling) (ha : allSettled s = true) :
    execLifetimeWrite s = .next (beginLifeWrite (s.onPwr fun p => { p with shutdown := .writing })) := by
  rw [execLifetimeWrite_free hf hw, if_pos ⟨hs, ha⟩]

theorem execLifetimeWrite_periodic (hs : s.pwr.shutdown ≠ .settling) (ht : s.flt.life.lastWrite + msTicks 900000 ≤ s.tick) :
    execLifetimeWrite s = .next (beginLifeWrite s) := by
  rw [execLifetimeWrite_free hf hw, if_neg fun h => hs h.1, if_pos ht]

end

theorem execLifetimeWriteDone_ends {s : State} (ok : Bool) (hw : s.flt.life.writing.isSome = true) :
    execLifetimeWriteDone ok s
      = .next (if (endLifeWrite ok s).pwr.shutdown = .writing then answerShutdown (endLifeWrite ok s) else endLifeWrite ok s) :=
  congrArg _ (if_neg (by simp [Option.isSome_iff_ne_none.1 hw]))

/-- Settles O40: each event where it is due. -/
theorem lifeCompletion : Obligations.LifeCompletion := by
  unfold Obligations.LifeCompletion
  exact ⟨fun s hf ht => execBitternAccumulate_reads hf ht,
    fun s hf hw => ⟨execLifetimeWrite_shutdown hf hw, execLifetimeWrite_periodic hf hw⟩,
    fun ok s hw => execLifetimeWriteDone_ends ok hw⟩

end Sys2Proof.Machine
end

section
/-! Performance counters (R378 to R387): the clear bits, the pans' histograms, PMC_SAMPLE and the windows of its dies. -/

namespace Sys2Proof.Machine

/-! ### The clear bits (R382, R387) -/

section
variable {v : Word} (hv : bit v.toNat 0 = true)
include hv

theorem execPmcHwmClr_clears (die : Fin 74) (s : State) : execPmcHwmClr die v s = .next (clearMarks die s) := by
  rw [execPmcHwmClr, if_pos hv]

theorem execPmcPanClr_clears (s : State) :
    execPmcPanClr v s = .next (modHist (getFld s PMC_PAN_SEL 0 4) (fun _ => PanHist.fresh) s) := by
  rw [execPmcPanClr, if_pos hv]

end

/-! ### A pan's histograms (R382) -/

theorem getHist_congr {s t : State} (h : t.pmc.hists = s.pmc.hists) (k : Nat) : getHist t k = getHist s k := by
  rw [getHist, h, getHist]

/-- Clearing one pan's histograms leaves those of every other pan. -/
theorem getHist_clear {s : State} (hs : Canonical s) (n k : Nat) :
    getHist (modHist n (fun _ => PanHist.fresh) s) k = if k = n then PanHist.fresh else getHist s k := by
  split
  case isTrue h => rw [h]; exact tget_tput_same n _ (twf_iff_from.1 hs.hists)
  case isFalse h => exact tget_tput_ne _ h _

/-! ### The end of a release leaves every pan's histograms (R106, R382, R384) -/

/-- What each change of a fold keeps, the fold keeps. -/
theorem foldl_keeps {α β : Type} (q : State → β) {g : State → α → State} (h : ∀ s x, q (g s x) = q s) (l : List α) (s : State) :
    q (l.foldl g s) = q s :=
  (List.foldl_hom q (g₂ := fun b _ => b) fun s x => (h s x).symm).symm.trans (List.foldl_fixed l)

theorem openWindow_hists (seqno len p : Nat) (s : State) : (openWindow seqno len p s).pmc.hists = s.pmc.hists := rfl

theorem modSample_hists (seqno : Nat) (f : Sample → Sample) (s : State) : (modSample seqno f s).pmc.hists = s.pmc.hists := rfl

@[simp] theorem endOk_pmc (m : Cmd) (r0 r1 : Nat) (s : State) : (endOk m r0 r1 s).pmc = s.pmc := endOk_within.pmc rfl

/-- The end of a sample takes it from the list of samples, and its command ends. -/
theorem finishSample_hists (seqno : Nat) (s : State) : (finishSample seqno s).pmc.hists = s.pmc.hists := by
  unfold finishSample
  split
  next => rfl
  next =>
    split_ifs
    · rfl
    · dsimp only
      split
      · split_ifs
        · rw [endOk_pmc, dmaWrite_pmc, State.onPmc_pmc]
        · rfl
      · rfl

theorem closeWindow_hists (x : Sample) (l p : Nat) (s : State) : (closeWindow x l p s).pmc.hists = s.pmc.hists := by
  unfold closeWindow
  split
  next => rfl
  next w _ => rw [finishSample_hists, modSample_hists]; rfl

/-- Every window of a released pan opens and closes at once; no step is counted. -/
theorem cutSamples_hists (n : Nat) (s : State) : (cutSamples n s).pmc.hists = s.pmc.hists := by
  refine foldl_keeps (·.pmc.hists) (fun s x => ?_) _ s
  have hopen := foldl_keeps (·.pmc.hists) (fun s l => openWindow_hists x.seqno x.window (physDie s l) s) x.toOpen s
  exact (foldl_keeps (·.pmc.hists) (fun s l => closeWindow_hists x l (physDie s l) s) _ _).trans ((modSample_hists ..).trans hopen)

@[simp] theorem freeSpill_pmc (c : CtxId) (b : List Nat) (mib : Nat) (s : State) : (freeSpill c b mib s).pmc = s.pmc := freeSpill_within.pmc rfl

@[simp] theorem leaveSwitch_pmc (n : Nat) (s : State) : (leaveSwitch n s).pmc = s.pmc := leaveSwitch_within.pmc rfl

@[simp] theorem clearDie_pmc (p : Nat) (s : State) : (clearDie p s).pmc = s.pmc := clearDie_within.pmc rfl

@[simp] theorem dropPackets_pmc (ds : List Nat) (s : State) : (dropPackets ds s).pmc = s.pmc := dropPackets_within.pmc rfl

/-- Once a released pan's samples are cut, the rest of its end does not touch the counters' state. -/
theorem releasePan_pmc (n : Nat) (p : Pan) (s : State) : (releasePan n p s).pmc = (cutSamples n s).pmc := by
  have hdies (l : List Nat) (s : State) : (l.foldl (fun s d => setReg (ARR_DIE_CTL d) 0 (clearDie d s)) s).pmc = s.pmc :=
    foldl_keeps (·.pmc) (by simp) l s
  have hload : ∀ (o : Option Load) (s : State),
      (match o with | some l => if l.written then s else freeSpill p.ctx l.spill l.spillMib s | none => s).pmc = s.pmc
    | none, _ => rfl
    | some l, s => by dsimp only; split_ifs <;> simp
  have hgive : ∀ (o : Option PanCfg) (s : State), (match o with | some g => freeSpill p.ctx g.spill g.spillMib s | none => s).pmc = s.pmc
    | none, _ => rfl
    | some g, s => freeSpill_pmc ..
  have hend : ∀ (o : Option Cmd) (s : State), (match o with | some m => endOk m 0 0 s | none => s).pmc = s.pmc
    | none, _ => rfl
    | some m, s => endOk_pmc ..
  calc (releasePan n p s).pmc
    _ = _ := (hend _ _).trans ((leaveSwitch_pmc ..).trans (State.onPans_pmc ..))
    _ = _ := (hgive p.active _).trans ((hgive p.shadow _).trans (hload p.load _))
    _ = (cutSamples n s).pmc := (hdies _ _).trans (dropPackets_pmc ..)

theorem getHist_releasePan (n : Nat) (p : Pan) (s : State) (k : Nat) : getHist (releasePan n p s) k = getHist s k :=
  getHist_congr (by rw [releasePan_pmc, cutSamples_hists]) k

/-! ### PAN_CREATE (R105, R382) -/

@[simp] theorem createPan_pmc (n : Nat) (p : Pan) (s : State) : (createPan n p s).pmc = s.pmc := createPan_within.pmc rfl

/-- A creation clears the histograms of the number it takes, and of no other. -/
theorem getHist_created {s : State} (hs : Canonical s) (m : Cmd) (n : Nat) (p : Pan) (k : Nat) :
    getHist (endOk m n 0 (createPan n p (modHist n (fun _ => PanHist.fresh) (markStarted m s)))) k
      = if k = n then PanHist.fresh else getHist s k :=
  calc
    _ = getHist (modHist n (fun _ => PanHist.fresh) (markStarted m s)) k := getHist_congr (by simp) k
    _ = _ := getHist_clear (markStarted_within.canonical hs) n k

/-- Settles O54: a release cuts the pan's samples but counts nothing; each clear takes one pan's histograms. -/
theorem panHistograms : Obligations.PanHistograms := by
  unfold Obligations.PanHistograms
  refine ⟨fun n p s hp hr hw hrun hd => ?drain, fun c m s _ => ?release, fun v s hs hv => ?clear, fun c m n s hs h he hr hn => ?create⟩
  case drain => exact ⟨_, execStepBoundaryDrain_releases hp hr hw hrun hd, getHist_releasePan n p s⟩
  case release => exact ⟨_, rfl, getHist_congr (congrArg _ ((execPanRelease_within rfl).pmc rfl))⟩
  case clear => exact ⟨_, execPmcPanClr_clears hv s, getHist_clear hs _⟩
  case create => exact ⟨_, execPanCreate_made h hr hn he, getHist_created hs m n _⟩

/-! ### PMC_SAMPLE (R383, R385) -/

/-- The pan that a PMC_SAMPLE names; none for the whole package. -/
def samplePan (m : Cmd) : Option Nat := if m.f 0 0 4 = 0xF then none else some (m.f 0 0 4)

/-- The logical dies of a sample's scope (R385). -/
def sampleScope (s : State) (pan : Option Nat) : List Nat :=
  match pan.bind (getPan s) with
  | some p => p.logical
  | none => List.range 72

/-- The sample of a PMC_SAMPLE, its start notice still on the way to every die. -/
def newSample (m : Cmd) (s : State) : Sample :=
  { cmd := m.ref, seqno := m.seqno, set := m.f 0 8 8, pan := samplePan m, window := m.f 2 0 32, toOpen := sampleScope s (samplePan m), toReport := []
    reports := [], epoch0 := sampleEpoch s (samplePan m), began := s.tick, cut := none, epoch1 := 0 }

section
variable {c : CmdRef} {m : Cmd} {s : State} (h : Starts 0x0704 c m s)
include h

theorem execPmcSample_refused {st : Status} (hr : sampleRefusal (markStarted m s) m = some st) :
    execPmcSample c s = .next (endFail m st (markStarted m s)) := by
  simp only [execPmcSample, startCmd_of_starts h, hr]

/-- Set 0x04 is answered at once. -/
theorem execPmcSample_histograms (hr : sampleRefusal (markStarted m s) m = none) (hset : m.f 0 8 8 = 4) :
    execPmcSample c s = .next (endOk m (panRecord (markStarted m s) (samplePan m)).length 0
      (dmaWrite m.ctx (m.p 1) (panRecord (markStarted m s) (samplePan m)) (markStarted m s))) := by
  simp only [execPmcSample, startCmd_of_starts h, hr, if_pos hset, samplePan]

/-- Every other set joins the list of samples. -/
theorem execPmcSample_notifies (hr : sampleRefusal (markStarted m s) m = none) (hset : m.f 0 8 8 ≠ 4) :
    execPmcSample c s
      = .next ((markStarted m s).onPmc fun p => { p with samples := p.samples ++ [newSample m (markStarted m s)] }) := by
  simp only [execPmcSample, startCmd_of_starts h, hr, if_neg hset]
  rfl

end

/-! ### The windows of a sample's dies (R383) -/

/-- The sample once the start notice has reached logical die l, whose report is now awaited. -/
def noticed (s : State) (l : Nat) (x : Sample) : Sample :=
  { startSample s x with toOpen := x.toOpen.filter fun k => !decide (k = l), toReport := x.toReport ++ [l] }

section
variable {c : CmdRef} {die : Fin 74} {x : Sample} {l : Nat} {s : State} (hx : sampleOf s c = some x) (hl : logicalDie s die = some l)
include hx hl

theorem execPmcWindowOpen_opens (ho : x.toOpen.contains l = true) :
    execPmcWindowOpen c die s = .next (modSample x.seqno (noticed s l) (openWindow x.seqno x.window die s)) := by
  simp only [execPmcWindowOpen, hx, hl, if_pos ho]
  rfl

theorem execPmcWindowClose_closes {w : Window} (hw : (getDie s die).windows.find? (fun w => decide (w.sample = x.seqno)) = some w)
    (hstop : w.stop ≤ dieCount s die) (hreport : x.toReport.contains l = true) :
    execPmcWindowClose c die s = .next (closeWindow x l die s) := by
  simp only [execPmcWindowClose, hx, hl, hw, if_pos (And.intro hstop hreport)]

end

/-- Settles O41: each command and event where it is due. -/
theorem pmcCompletion : Obligations.PmcCompletion := by
  unfold Obligations.PmcCompletion
  exact ⟨fun c m s h => ⟨fun st hr => execPmcSample_refused h hr, execPmcSample_histograms h, execPmcSample_notifies h⟩,
    fun c die x l s hx hl => ⟨execPmcWindowOpen_opens hx hl, fun w hw => execPmcWindowClose_closes hx hl hw⟩,
    fun die v s hv => execPmcHwmClr_clears hv die s,
    fun v s hv => execPmcPanClr_clears hv s⟩

end Sys2Proof.Machine
end

section
/-! Firmware and register writes (R400 to R407, R410; R6): a command or an event where it is due, and a register write by the register that it reaches. -/

namespace Sys2Proof.Machine

/-! ### FW_STAGE and FW_ACTIVATE (R403, R404) -/

theorem execFwStage_checks {c : CmdRef} {m : Cmd} {s : State} (h : Starts 0x0801 c m s) (hu : s.fw.update = none) (image : List Byte) :
    execFwStage c image s
      = .next (match stageRefusal (markStarted m s) (image.take (m.p 1)) (m.p 1) (!bit (m.p 2) 0) with
        | some st => endFail m st (markStarted m s)
        | none => endOk m 0 0 (writeFlash (!bit (m.p 2) 0) (image.take (m.p 1)) (markStarted m s))) := by
  have hheld : s.fw.update.isSome = false := by rw [hu]; rfl
  rw [execFwStage]
  exact congrArg Host.Outcome.next (startHeld_of_starts h hheld _)

theorem execFwActivate_begins {c : CmdRef} {m : Cmd} {s : State} (h : Starts 0x0802 c m s) (hd : s.fw.down = []) (hu : s.fw.update = none) :
    execFwActivate c s
      = .next (match activateCheck (markStarted m s) (bit (m.p 0) 0) with
        | .inl st => endFail m st (markStarted m s)
        | .inr b => goOnUpdate m ((stageImage b (markStarted m s)).onFw fun f => { f with
            update := some { cmd := m.ref, image := b, fromB := bit (m.p 0) 0, pausedAt := none } })) := by
  have ⟨hc, _, hs, _⟩ := h
  obtain ⟨hwaiting, _⟩ := startable_iff.1 hs
  have hp : m.phase ≠ .running := by simp [hwaiting]
  have hheld : (!s.fw.down.isEmpty || s.fw.update.isSome) = false := by rw [hd, hu]; rfl
  simp only [execFwActivate, hc]
  rw [if_neg hp]
  exact congrArg Host.Outcome.next (startHeld_of_starts h hheld _)

theorem execFwActivate_goesOn {c : CmdRef} {m : Cmd} {s : State} (h : Running 0x0802 c m s) : execFwActivate c s = .next (goOnUpdate m s) := by
  have ⟨hc, _, hp⟩ := h
  simp only [execFwActivate, hc]
  rw [if_pos hp, whileRunning_of_running h]

/-! ### Promotion, lock and the noise sources (R401, R406, R407) -/

theorem execFwPromotion_promotes {t : Nat} {s : State} (ha : s.fw.activatedB = some t) (hf : fwRuns s = true) (hu : s.fw.update = none)
    (ht : t + msTicks 900000 ≤ s.tick) :
    execFwPromotion s
      = .next (setFld FW_STATUS 6 1 1 (showFw ((writeFlash true (s.fw.flash.getD (if flashFail s 2 = 0 then 2 else 3) []) s).onFw fun f => { f with
          activatedB := none, fuseSvn := max f.fuseSvn (imgSvn f.running) }))) := by
  have hdue : fwRuns s = true ∧ s.fw.update.isNone = true ∧ t + msTicks 900000 ≤ s.tick := ⟨hf, by rw [hu]; rfl, ht⟩
  simp only [execFwPromotion, ha, if_pos hdue]

theorem execFwLock_locks {v : Word} (hv : bit v.toNat 0 = true) (s : State) : execFwLock v s = .next (setLock s) := by
  rw [execFwLock, if_pos hv]

/-- CD0's source fails while CD1's still serves: the engine reseeds. -/
theorem execEntropyHealthFail_reseeds {s : State} (h1 : s.fw.badSource1 = false) :
    execEntropyHealthFail 0 s = .next (setFld FW_STATUS 4 1 1 (s.onFw fun f => { f with badSource0 := true })) := by
  simp [execEntropyHealthFail, h1]

/-- CD1's source fails after CD0's: neither serves. -/
theorem execEntropyHealthFail_both {s : State} (h0 : s.fw.badSource0 = true) :
    execEntropyHealthFail 1 s = .next (setFld FW_STATUS 5 1 1 (s.onFw fun f => { f with badSource1 := true })) := by
  simp [execEntropyHealthFail, h0]

/-! ### ATTEST (R410) -/

theorem execAttest_answers {c : CmdRef} {m : Cmd} {s : State} (h : Starts 0x0803 c m s) (hu : s.host.updating = false) :
    execAttest c s = .next (endOk m 10522 0 (dmaWrite m.ctx (m.p 0) (attestReport (markStarted m s) m) (markStarted m s))) := by
  rw [execAttest, startHeld_of_starts h hu]

/-! ### REGISTER_WRITE at a register's own width (R6) -/

section
variable {s : State} {r : RegRow} (hw : r.wide = false)
include hw

theorem execRegisterWrite_bar0 {fn : BitVec 8} {o : BitVec 16} (hr : regRow (physAddr s (spaceAddr (.bar0 fn o))) = some r) (v : Dword) :
    execRegisterWrite (.bar0 fn o) 4 v s = .next (writeCmd fn.toNat o.toNat (BitVec.ofNat 32 (v.toNat % 2 ^ 32)) s) := by
  rw [spaceAddr] at hr
  simp [execRegisterWrite, hr, hw]

/-- Blocks 2, 3 and 7 of the 74 array dies take a write as a die does, every other register as the package does. -/
theorem execRegisterWrite_ctl {a : Word} (hr : regRow (physAddr s (spaceAddr (.ctl a))) = some r) (v : Dword) :
    execRegisterWrite (.ctl a) 4 v s
      = .next (if (physAddr s a.toNat / 0x1000000 = 2 ∨ physAddr s a.toNat / 0x1000000 = 3 ∨ physAddr s a.toNat / 0x1000000 = 7)
            ∧ physAddr s a.toNat / 0x10000 % 256 < 74
          then writeDie (physAddr s a.toNat / 0x1000000) (physAddr s a.toNat / 0x10000 % 256) (physAddr s a.toNat % 0x10000) (physAddr s a.toNat)
            (v.toNat % 2 ^ 32) s
          else writePkg (physAddr s a.toNat) (v.toNat % 2 ^ 32) s) := by
  rw [spaceAddr] at hr
  simp [execRegisterWrite, hr, hw]

end

/-- Settles O42: each command and event where it is due; FW_SVN_ADVANCE and FW_KEY_REVOKE are their register's effect. -/
theorem firmwareCompletion : Obligations.FirmwareCompletion := by
  unfold Obligations.FirmwareCompletion
  exact ⟨fun c m image s h hu => execFwStage_checks h hu image,
    fun c m s h hd hu => execFwActivate_begins h hd hu,
    fun c m s h => execFwActivate_goesOn h,
    fun t s ha hf hu ht => execFwPromotion_promotes ha hf hu ht,
    fun v s hv => execFwLock_locks hv s,
    fun v s => ⟨rfl, rfl⟩,
    fun s h1 => execEntropyHealthFail_reseeds h1,
    fun s h0 => execEntropyHealthFail_both h0,
    fun c m s h hu => execAttest_answers h hu,
    fun fn o v s r hr hw => execRegisterWrite_bar0 hw hr v,
    fun a v s r hr hw => execRegisterWrite_ctl hw hr v⟩

end Sys2Proof.Machine
end

section
/-! The whole step: what every command leaves, whichever it is, and with it the queue, the canonical form and the frames of the commands. -/

namespace Sys2Proof.Machine

/-! ### Every command answers, within every field but the queue -/

/-- A change within fields that M has. -/
theorem Within.mono {M G : Nat} {s t : State} (h : Within G s t) (e : M ||| G = M) : Within M s t := (Within.refl M s).step h e

/-- Each command of the table answers a next state. -/
theorem exec_answers (i : Instr) (s : State) : ∃ t, exec i s = .next t := by
  cases i <;> exact ⟨_, rfl⟩

/-- The fields of `State` but for the queue of commands, as a mask. -/
def allButPending : Nat := 0x1FFFFE

/-- No command touches the queue, and each keeps the canonical form. -/
theorem exec_within {s t : State} : ∀ i : Instr, exec i s = .next t → Within allButPending s t
  | .cmdDbSqTail .., h => .mono (execCmdDbSqTail_within h) rfl
  | .cmdDbCqHead .., h => .mono (execCmdDbCqHead_within h) rfl
  | .cmdDbTokHead .., h => .mono (execCmdDbTokHead_within h) rfl
  | .slotFetch .., h => .mono (execSlotFetch_within h) rfl
  | .completionWrite .., h => .mono (execCompletionWrite_within h) rfl
  | .commandDeadlineExpiry .., h => .mono (execCommandDeadlineExpiry_within h) rfl
  | .tokenIrqHoldoff .., h => .mono (execTokenIrqHoldoff_within h) rfl
  | .dmaFault .., h => .mono (execDmaFault_within h) rfl
  | .queueEnable .., h => .mono (execQueueEnable_within h) rfl
  | .queueDisable .., h => .mono (execQueueDisable_within h) rfl
  | .tokenRingCfg .., h => .mono (execTokenRingCfg_within h) rfl
  | .cmdVfAllotWrite .., h => .mono (execCmdVfAllotWrite_within h) rfl
  | .functionLevelReset .., h => .mono (execFunctionLevelReset_within h) rfl
  | .registerWrite .., h => .mono (execRegisterWrite_within h) rfl
  | .ctxOpen .., h => .mono (execCtxOpen_within h) rfl
  | .ctxClose .., h => .mono (execCtxClose_within h) rfl
  | .ctxQuery .., h => .mono (execCtxQuery_within h) rfl
  | .ctxSetQuota .., h => .mono (execCtxSetQuota_within h) rfl
  | .ctxKeyImport .., h => .mono (execCtxKeyImport_within h) rfl
  | .objCreate .., h => .mono (execObjCreate_within h) rfl
  | .objFree .., h => .mono (execObjFree_within h) rfl
  | .objFreeRelease .., h => .mono (execObjFreeRelease_within h) rfl
  | .objPlace .., h => .mono (execObjPlace_within h) rfl
  | .objMoveDone .., h => .mono (execObjMoveDone_within h) rfl
  | .objCopy .., h => .mono (execObjCopy_within h) rfl
  | .objWriteHost .., h => .mono (execObjWriteHost_within h) rfl
  | .objReadHost .., h => .mono (execObjReadHost_within h) rfl
  | .objShare .., h => .mono (execObjShare_within h) rfl
  | .modelImport .., h => .mono (execModelImport_within h) rfl
  | .cfgLoad .., h => .mono (execCfgLoad_within h) rfl
  | .cfgShadowWritten .., h => .mono (execCfgShadowWritten_within h) rfl
  | .panCreate .., h => .mono (execPanCreate_within h) rfl
  | .panRelease .., h => .mono (execPanRelease_within h) rfl
  | .modelSwitch .., h => .mono (execModelSwitch_within h) rfl
  | .modelVersionFlip .., h => .mono (execModelVersionFlip_within h) rfl
  | .modelEvict .., h => .mono (execModelEvict_within h) rfl
  | .seqAdmit .., h => .mono (execSeqAdmit_within h) rfl
  | .seqAppend .., h => .mono (execSeqAppend_within h) rfl
  | .seqPause .., h => .mono (execSeqPause_within h) rfl
  | .seqResume .., h => .mono (execSeqResume_within h) rfl
  | .seqCancel .., h => .mono (execSeqCancel_within h) rfl
  | .seqRetire .., h => .mono (execSeqRetire_within h) rfl
  | .stepPolicy .., h => .mono (execStepPolicy_within h) rfl
  | .specPolicy .., h => .mono (execSpecPolicy_within h) rfl
  | .exitPolicy .., h => .mono (execExitPolicy_within h) rfl
  | .adpLoad .., h => .mono (execAdpLoad_within h) rfl
  | .adpUnload .., h => .mono (execAdpUnload_within h) rfl
  | .adpBind .., h => .mono (execAdpBind_within h) rfl
  | .steerSet .., h => .mono (execSteerSet_within h) rfl
  | .embTableCreate .., h => .mono (execEmbTableCreate_within h) rfl
  | .embVersionSwitch .., h => .mono (execEmbVersionSwitch_within h) rfl
  | .embMaintChange .., h => .mono (execEmbMaintChange_within h) rfl
  | .embRowUpdate .., h => .mono (execEmbRowUpdate_within h) rfl
  | .embLookup .., h => .mono (execEmbLookup_within h) rfl
  | .embApplyGrad .., h => .mono (execEmbApplyGrad_within h) rfl
  | .gradWaitTimeout .., h => .mono (execGradWaitTimeout_within h) rfl
  | .run .., h => .mono (execRun_within h) rfl
  | .coll .., h => .mono (execColl_within h) rfl
  | .collTimeout .., h => .mono (execCollTimeout_within h) rfl
  | .fence .., h => .mono (execFence_within h) rfl
  | .fltRead .., h => .mono (execFltRead_within h) rfl
  | .fltConfig .., h => .mono (execFltConfig_within h) rfl
  | .lifeRead .., h => .mono (execLifeRead_within h) rfl
  | .pmcSample .., h => .mono (execPmcSample_within h) rfl
  | .pmcWindowOpen .., h => .mono (execPmcWindowOpen_within h) rfl
  | .pmcWindowClose .., h => .mono (execPmcWindowClose_within h) rfl
  | .fwStage .., h => .mono (execFwStage_within h) rfl
  | .fwActivate .., h => .mono (execFwActivate_within h) rfl
  | .attest .., h => .mono (execAttest_within h) rfl
  | .fabricPlan .., h => .mono (execFabricPlan_within h) rfl
  | .fabricStatus .., h => .mono (execFabricStatus_within h) rfl
  | .testForce .., h => .mono (execTestForce_within h) rfl
  | .testPattern .., h => .mono (execTestPattern_within h) rfl
  | .tileCycle .., h => .mono (execTileCycle_within h) rfl
  | .flitArrival .., h => .mono (execFlitArrival_within h) rfl
  | .creditReturn .., h => .mono (execCreditReturn_within h) rfl
  | .weightFillDone .., h => .mono (execWeightFillDone_within h) rfl
  | .fp32FlushSecondPush .., h => .mono (execFp32FlushSecondPush_within h) rfl
  | .watchdogExpiry .., h => .mono (execWatchdogExpiry_within h) rfl
  | .orphanTimeout .., h => .mono (execOrphanTimeout_within h) rfl
  | .spillSegmentEmpty .., h => .mono (execSpillSegmentEmpty_within h) rfl
  | .spillRefill .., h => .mono (execSpillRefill_within h) rfl
  | .stepBoundaryDrain .., h => .mono (execStepBoundaryDrain_within h) rfl
  | .configSwitchWave .., h => .mono (execConfigSwitchWave_within h) rfl
  | .waveDieDone .., h => .mono (execWaveDieDone_within h) rfl
  | .routeCommit .., h => .mono (execRouteCommit_within h) rfl
  | .modeWave .., h => .mono (execModeWave_within h) rfl
  | .preemptSwap .., h => .mono (execPreemptSwap_within h) rfl
  | .preemptReturn .., h => .mono (execPreemptReturn_within h) rfl
  | .balanceEval .., h => .mono (execBalanceEval_within h) rfl
  | .routerPacket .., h => .mono (execRouterPacket_within h) rfl
  | .streamBlockIssue .., h => .mono (execStreamBlockIssue_within h) rfl
  | .streamBlockDone .., h => .mono (execStreamBlockDone_within h) rfl
  | .portxFlit .., h => .mono (execPortxFlit_within h) rfl
  | .pageInRequest .., h => .mono (execPageInRequest_within h) rfl
  | .pageInDone .., h => .mono (execPageInDone_within h) rfl
  | .pageInTimeout .., h => .mono (execPageInTimeout_within h) rfl
  | .tierAccess .., h => .mono (execTierAccess_within h) rfl
  | .writeCrcError .., h => .mono (execWriteCrcError_within h) rfl
  | .caParityError _ channel _, h => .mono (execCaParityError_within (x1 := channel) h) rfl
  | .patrolScrub .., h => .mono (execPatrolScrub_within h) rfl
  | .farFlitReplay .., h => .mono (execFarFlitReplay_within h) rfl
  | .farRequestTimeout .., h => .mono (execFarRequestTimeout_within h) rfl
  | .eventLogPoll .., h => .mono (execEventLogPoll_within h) rfl
  | .stepBuild .., h => .mono (execStepBuild_within h) rfl
  | .workListDelivery .., h => .mono (execWorkListDelivery_within h) rfl
  | .exchangePacket .., h => .mono (execExchangePacket_within h) rfl
  | .rowFetchDone .., h => .mono (execRowFetchDone_within h) rfl
  | .stepEnd .., h => .mono (execStepEnd_within h) rfl
  | .hotRowReplicate .., h => .mono (execHotRowReplicate_within h) rfl
  | .hotCopyEvict .., h => .mono (execHotCopyEvict_within h) rfl
  | .commitRecordSend .., h => .mono (execCommitRecordSend_within h) rfl
  | .stepCommit .., h => .mono (execStepCommit_within h) rfl
  | .heldAdmissionRetry, h => .mono (execHeldAdmissionRetry_within h) rfl
  | .holdExpiry .., h => .mono (execHoldExpiry_within h) rfl
  | .pauseArchiveStart .., h => .mono (execPauseArchiveStart_within h) rfl
  | .pauseArchiveDone .., h => .mono (execPauseArchiveDone_within h) rfl
  | .resumePagesDone .., h => .mono (execResumePagesDone_within h) rfl
  | .ttlSweep, h => .mono (execTtlSweep_within h) rfl
  | .ttlCheckpoint, h => .mono (execTtlCheckpoint_within h) rfl
  | .journalHeartbeat, h => .mono (execJournalHeartbeat_within h) rfl
  | .journalRecordReceive .., h => .mono (execJournalRecordReceive_within h) rfl
  | .journalAckReceive .., h => .mono (execJournalAckReceive_within h) rfl
  | .controlLogApply, h => .mono (execControlLogApply_within h) rfl
  | .wardLoss, h => .mono (execWardLoss_within h) rfl
  | .claimReceive .., h => .mono (execClaimReceive_within h) rfl
  | .claimRetry, h => .mono (execClaimRetry_within h) rfl
  | .pairing .., h => .mono (execPairing_within h) rfl
  | .pairingRetry, h => .mono (execPairingRetry_within h) rfl
  | .remotePagePull .., h => .mono (execRemotePagePull_within h) rfl
  | .faultEvent .., h => .mono (execFaultEvent_within h) rfl
  | .spareSelfTestDone .., h => .mono (execSpareSelfTestDone_within h) rfl
  | .forcedEvent .., h => .mono (execForcedEvent_within h) rfl
  | .srcForceSet .., h => .mono (execSrcForceSet_within h) rfl
  | .coreKick .., h => .mono (execCoreKick_within h) rfl
  | .coreWatchdogExpiry .., h => .mono (execCoreWatchdogExpiry_within h) rfl
  | .coreRestart .., h => .mono (execCoreRestart_within h) rfl
  | .coreRetire .., h => .mono (execCoreRetire_within h) rfl
  | .cd1Takeover, h => .mono (execCd1Takeover_within h) rfl
  | .aliveKick .., h => .mono (execAliveKick_within h) rfl
  | .aliveOutEdge, h => .mono (execAliveOutEdge_within h) rfl
  | .heartbeatTimeout, h => .mono (execHeartbeatTimeout_within h) rfl
  | .bitternAccumulate, h => .mono (execBitternAccumulate_within h) rfl
  | .lifetimeWrite, h => .mono (execLifetimeWrite_within h) rfl
  | .arrArithClr .., h => .mono (execArrArithClr_within h) rfl
  | .spillHwmClear .., h => .mono (execSpillHwmClear_within h) rfl
  | .pmcHwmClr .., h => .mono (execPmcHwmClr_within h) rfl
  | .pmcPanClr .., h => .mono (execPmcPanClr_within h) rfl
  | .fwLock .., h => .mono (execFwLock_within h) rfl
  | .fwSvnAdvance .., h => .mono (execFwSvnAdvance_within h) rfl
  | .fwKeyRevoke .., h => .mono (execFwKeyRevoke_within h) rfl
  | .fwPromotion, h => .mono (execFwPromotion_within h) rfl
  | .entropyHealthFail .., h => .mono (execEntropyHealthFail_within h) rfl
  | .perstNAssert, h => .mono (execPerstNAssert_within h) rfl
  | .perstNRelease .., h => .mono (execPerstNRelease_within h) rfl
  | .memoryTraining .., h => .mono (execMemoryTraining_within h) rfl
  | .dieSelfTest .., h => .mono (execDieSelfTest_within h) rfl
  | .discovery, h => .mono (execDiscovery_within h) rfl
  | .ready, h => .mono (execReady_within h) rfl
  | .linkEnable .., h => .mono (execLinkEnable_within h) rfl
  | .linkSignalDetect .., h => .mono (execLinkSignalDetect_within h) rfl
  | .linkTraining .., h => .mono (execLinkTraining_within h) rfl
  | .discoveryRecordSend .., h => .mono (execDiscoveryRecordSend_within h) rfl
  | .discoveryRecordReceive .., h => .mono (execDiscoveryRecordReceive_within h) rfl
  | .elpFrameReceive .., h => .mono (execElpFrameReceive_within h) rfl
  | .ackTimeout .., h => .mono (execAckTimeout_within h) rfl
  | .linkDown .., h => .mono (execLinkDown_within h) rfl
  | .linkDownRetry .., h => .mono (execLinkDownRetry_within h) rfl
  | .moduleInsert .., h => .mono (execModuleInsert_within h) rfl
  | .moduleRemove .., h => .mono (execModuleRemove_within h) rfl
  | .cmisPoll .., h => .mono (execCmisPoll_within h) rfl
  | .noRouteTimeout .., h => .mono (execNoRouteTimeout_within h) rfl
  | .shardJoin .., h => .mono (execShardJoin_within h) rfl
  | .shardPassStart .., h => .mono (execShardPassStart_within h) rfl
  | .shardTimeout .., h => .mono (execShardTimeout_within h) rfl
  | .governorTick .., h => .mono (execGovernorTick_within h) rfl
  | .powerSample .., h => .mono (execPowerSample_within h) rfl
  | .droopDetect .., h => .mono (execDroopDetect_within h) rfl
  | .droopRecover .., h => .mono (execDroopRecover_within h) rfl
  | .thermalSample .., h => .mono (execThermalSample_within h) rfl
  | .railFault .., h => .mono (execRailFault_within h) rfl
  | .pwrGoodFall, h => .mono (execPwrGoodFall_within h) rfl
  | .mfrPowerCap .., h => .mono (execMfrPowerCap_within h) rfl
  | .readPin, h => .mono (execReadPin_within h) rfl
  | .readTemperature1, h => .mono (execReadTemperature1_within h) rfl
  | .statusWord, h => .mono (execStatusWord_within h) rfl
  | .pldmSensorRead .., h => .mono (execPldmSensorRead_within h) rfl
  | .mctpLifetimeRead .., h => .mono (execMctpLifetimeRead_within h) rfl
  | .mctpStbyRead .., h => .mono (execMctpStbyRead_within h) rfl
  | .shutdown, h => .mono (execShutdown_within h) rfl
  | .vfEnable .., h => .mono (execVfEnable_within h) rfl
  | .lifetimeWriteDone .., h => .mono (execLifetimeWriteDone_within h) rfl
  | .powerUp, h => .mono (execPowerUp_within h) rfl
  | .powerDown, h => .mono (execPowerDown_within h) rfl
  | .boundaryScan .., h => .mono (execBoundaryScan_within h) rfl

/-- A step keeps the canonical form, and its next state's queue is the rest of the queue. -/
theorem step_keeps {s t : State} (h : step s = .next t) : t.pending = s.pending.tail ∧ (Canonical s → Canonical t) := by
  rw [step] at h
  cases hp : s.pending with
  | nil =>
    rw [hp] at h
    cases h
    exact ⟨(idle_within.pending rfl).trans hp, idle_within.canonical⟩
  | cons i q =>
    rw [hp] at h
    have hw := exec_within i h
    exact ⟨hw.pending rfl, fun hc => hw.canonical (Within.set_pending.canonical hc)⟩

/-! ### The statements about the step -/

/-- Settles O4: an idle step and each command keep the form. -/
theorem canonicalFormIsKept : Obligations.CanonicalFormIsKept := by
  unfold Obligations.CanonicalFormIsKept
  exact fun s t hc h => (step_keeps h).2 hc

/-- Settles O3: neither an idle step nor a command touches what waits behind it. -/
theorem queueIsFifo : Obligations.QueueIsFifo := by
  unfold Obligations.QueueIsFifo
  exact fun s t h => (step_keeps h).1

/-- Settles O1, by the two cases of the queue. -/
theorem stepRunsFrontCommand : Obligations.StepRunsFrontCommand := by
  unfold Obligations.StepRunsFrontCommand
  exact ⟨fun c q s h => by rw [step, h], fun s h => by rw [step, h]⟩

/-- Settles O2: an idle step answers, and so does every command. -/
theorem everyStepAnswers : Obligations.EveryStepAnswers := by
  unfold Obligations.EveryStepAnswers
  intro s
  rw [Answers, step]
  cases s.pending with
  | nil => exact ⟨_, rfl⟩
  | cons i q => exact exec_answers i _

/-- Settles O5: at reset every array is empty. -/
theorem resetIsCanonical : Obligations.ResetIsCanonical := by
  unfold Obligations.ResetIsCanonical
  exact ⟨rfl, rfl, rfl, rfl, rfl, rfl, rfl⟩

/-! ### Memory (O49) -/

/-- A zeroed range reads 0, and every byte outside it stays. -/
theorem memGet_memZero (m : Mem) (a n b : Nat) : memGet (memZero m a n) b = if a ≤ b ∧ b < a + n then 0 else memGet m b := by
  induction m with
  | nil => simp [memZero, memGet, tget]
  | cons p m ih =>
    obtain ⟨k, v⟩ := p
    by_cases hk : k = b
    · subst hk
      by_cases hr : a ≤ k ∧ k < a + n
      · rw [if_pos hr, ← if_pos hr (t := (0 : Byte)) (e := memGet m k), ← ih, memZero, List.filter_cons_of_neg (by simp [hr]), memZero]
      · rw [if_neg hr, memZero, List.filter_cons_of_pos (by simp; omega)]
        simp [memGet, tget]
    · have hget (t : Mem) : memGet ((k, v) :: t) b = memGet t b := by simp [memGet, tget, hk]
      rw [hget, ← ih, memZero, List.filter_cons, memZero]
      split
      · exact hget _
      · rfl

/-- Settles O49. -/
theorem memoryReadAfterWrite : Obligations.MemoryReadAfterWrite := by
  unfold Obligations.MemoryReadAfterWrite
  exact ⟨fun m a bs h => ⟨memRead_memWrite h a bs, Memory.wf_memWrite h a bs⟩, fun m a b bs _ hb => memGet_memWrite_outside m hb,
    fun m a n h => ⟨Memory.wf_memZero h a n, memGet_memZero m a n⟩⟩

end Sys2Proof.Machine
end

section
/-! Frames: what the array's events, the links' events and the configuring commands leave as it was. -/

namespace Sys2Proof.Machine

/-- State s with the fields whose bits M has taken from t. -/
def State.patched (M : Nat) (s t : State) : State :=
  { pending := cond (M.testBit 0) t.pending s.pending
    tick := cond (M.testBit 1) t.tick s.tick
    cd0ResetAt := cond (M.testBit 2) t.cd0ResetAt s.cd0ResetAt
    free := cond (M.testBit 3) t.free s.free
    regs := cond (M.testBit 4) t.regs s.regs
    acc := cond (M.testBit 5) t.acc s.acc
    host := cond (M.testBit 6) t.host s.host
    ctxs := cond (M.testBit 7) t.ctxs s.ctxs
    cmds := cond (M.testBit 8) t.cmds s.cmds
    arr := cond (M.testBit 9) t.arr s.arr
    pans := cond (M.testBit 10) t.pans s.pans
    balances := cond (M.testBit 11) t.balances s.balances
    mem := cond (M.testBit 12) t.mem s.mem
    seq := cond (M.testBit 13) t.seq s.seq
    cmt := cond (M.testBit 14) t.cmt s.cmt
    flt := cond (M.testBit 15) t.flt s.flt
    mdl := cond (M.testBit 16) t.mdl s.mdl
    lnk := cond (M.testBit 17) t.lnk s.lnk
    pmc := cond (M.testBit 18) t.pmc s.pmc
    fw := cond (M.testBit 19) t.fw s.fw
    pwr := cond (M.testBit 20) t.pwr s.pwr }

theorem eq_cond_of_false {α : Type} {b : Bool} {x y : α} (h : b = false → x = y) : x = cond b x y := by
  cases b
  · exact h rfl
  · rfl

/-- A change within M is the fields that M has, and nothing else. -/
theorem Within.eq_patched {M : Nat} {s t : State} (h : Within M s t) : t = s.patched M t :=
  State.mk.injEq .. ▸ ⟨eq_cond_of_false h.pending,
    eq_cond_of_false h.tick,
    eq_cond_of_false h.cd0ResetAt,
    eq_cond_of_false h.free,
    eq_cond_of_false h.regs,
    eq_cond_of_false h.acc,
    eq_cond_of_false h.host,
    eq_cond_of_false h.ctxs,
    eq_cond_of_false h.cmds,
    eq_cond_of_false h.arr,
    eq_cond_of_false h.pans,
    eq_cond_of_false h.balances,
    eq_cond_of_false h.mem,
    eq_cond_of_false h.seq,
    eq_cond_of_false h.cmt,
    eq_cond_of_false h.flt,
    eq_cond_of_false h.mdl,
    eq_cond_of_false h.lnk,
    eq_cond_of_false h.pmc,
    eq_cond_of_false h.fw,
    eq_cond_of_false h.pwr⟩

/-- Settles O58: each event's own mask. -/
theorem arrayFrame : Obligations.ArrayFrame := by
  unfold Obligations.ArrayFrame
  refine ⟨fun r s t h => (execTileCycle_within h).eq_patched, fun r p e s t h => (execFlitArrival_within h).eq_patched, fun i s t hi h => ?_,
    fun k n s t h => (execRouterPacket_within h).eq_patched, fun d k s t h => (execSpillRefill_within h).eq_patched, fun i s t hi h => ?_,
    fun i s t hi h => ?_, fun d e row s t h => (execRowFetchDone_within h).eq_patched⟩
  · obtain ⟨r, p, q, rfl⟩ | ⟨r, rfl⟩ | ⟨r, rfl⟩ | ⟨d, k, rfl⟩ | ⟨d, v, rfl⟩ := hi
    · exact (execCreditReturn_within h).eq_patched
    · exact (execWeightFillDone_within h).eq_patched
    · exact (execFp32FlushSecondPush_within h).eq_patched
    · exact (execSpillSegmentEmpty_within h).eq_patched
    · exact (execPmcHwmClr_within h).eq_patched
  · obtain ⟨d, v, rfl⟩ | ⟨d, v, rfl⟩ := hi
    · exact (execArrArithClr_within h).eq_patched
    · exact (execSpillHwmClear_within h).eq_patched
  · obtain ⟨d, rfl⟩ | ⟨d, p, q, hdr, l, rfl⟩ := hi
    · exact (execDroopDetect_within h).eq_patched
    · exact (execExchangePacket_within h).eq_patched

/-- Settles O59: each event's own mask. -/
theorem linkFrame : Obligations.LinkFrame := by
  unfold Obligations.LinkFrame
  refine ⟨fun i j s t hi h => ?_, fun j s t h => (execLinkSignalDetect_within h).eq_patched, fun j s t h => (execDiscoveryRecordSend_within h).eq_patched,
    fun i j s t hi h => ?_, fun d s t h => (execNoRouteTimeout_within h).eq_patched⟩
  · obtain rfl | rfl | rfl | rfl := hi
    · exact (execLinkEnable_within h).eq_patched
    · exact (execModuleInsert_within h).eq_patched
    · exact (execLinkDown_within h).eq_patched
    · exact (execLinkDownRetry_within h).eq_patched
  · obtain rfl | ⟨b, rfl⟩ | ⟨x, rfl⟩ | ⟨o, rfl⟩ := hi
    · exact (execModuleRemove_within h).eq_patched
    · exact (execAckTimeout_within h).eq_patched
    · exact (execCmisPoll_within h).eq_patched
    · exact (execLinkTraining_within h).eq_patched

/-- Settles O60: each command's own mask, its end among what it may change. -/
theorem commandFrame : Obligations.CommandFrame := by
  unfold Obligations.CommandFrame
  refine ⟨fun i c s t hi h => ?_, fun c s t h => (execCtxSetQuota_within h).eq_patched, fun i c s t hi h => ?_, fun i c s t hi h => ?_,
    fun c s t h => (execEmbVersionSwitch_within h).eq_patched, fun i c s t hi h => ?_, fun c s t h => (execPanRelease_within h).eq_patched,
    fun i c s t hi h => ?_⟩
  · obtain rfl | rfl | ⟨b, rfl⟩ := hi
    · exact (execObjFree_within h).eq_patched
    · exact (execObjShare_within h).eq_patched
    · exact (execCtxKeyImport_within h).eq_patched
  · obtain rfl | rfl := hi
    · exact (execFltConfig_within h).eq_patched
    · exact (execTestForce_within h).eq_patched
  · obtain rfl | rfl | rfl | rfl := hi
    · exact (execAdpLoad_within h).eq_patched
    · exact (execAdpUnload_within h).eq_patched
    · exact (execEmbTableCreate_within h).eq_patched
    · exact (execModelEvict_within h).eq_patched
  · obtain rfl | rfl := hi
    · exact (execAdpBind_within h).eq_patched
    · exact (execSpecPolicy_within h).eq_patched
  · obtain rfl | rfl | ⟨n, rfl⟩ := hi
    · exact (execFence_within h).eq_patched
    · exact (execCommandDeadlineExpiry_within h).eq_patched
    · exact (execTestPattern_within h).eq_patched

end Sys2Proof.Machine
end

section
/-! Power, reset, start-up and shutdown (R418, R431 to R435): each event where it is due, and what Ready sets. -/

namespace Sys2Proof.Machine

/-! ### Power and reset (R418) -/

section
variable {s : State}

theorem execPowerUp_holds (h : s.pwr.stage = .off) :
    execPowerUp s = .next (setReg PWR_RAIL_STATUS 0x7F ((unpowered s).onPwr fun p => { p with stage := .held, pwrGood := true })) := by
  rw [execPowerUp, if_pos h]

theorem execPerstNAssert_resets (h : s.pwr.stage ≠ .off) (hp : s.pwr.perst = false) :
    execPerstNAssert s
      = .next (setReg PWR_RAIL_STATUS (getReg s PWR_RAIL_STATUS) ((resetPackage s).onPwr fun p => { p with stage := .held, perst := true })) := by
  rw [execPerstNAssert, if_neg (by simp [h, hp])]

/-- PWR_GOOD is low and THERM_TRIP_N released. -/
def powerBad (s : State) : State := s.onPwr fun p => { p with pwrGood := false, thermTrip := false }

theorem execPwrGoodFall_underReset (hg : s.pwr.pwrGood = true) (hp : s.pwr.perst = true) : execPwrGoodFall s = .next (powerBad s) := by
  simp [execPwrGoodFall, hg, hp, powerBad]

theorem execPwrGoodFall_running (hg : s.pwr.pwrGood = true) (hp : s.pwr.perst = false) :
    execPwrGoodFall s = .next (setReg FLT_STBY_LAST 0x0703 ((resetPackage (powerBad s)).onPwr fun p => { p with stage := .held })) := by
  simp [execPwrGoodFall, hg, hp, powerBad]

/-- The straps are sampled and PERST_N is released (R431, R445). -/
def sampleStraps (w : Word) (s : State) : State :=
  setFld LNK_FAB_POS 9 2 (bits w.toNat 0 2) (s.onPwr fun p => { p with perst := false, slotId := bits w.toNat 0 2 })

/-- The ROM starts behind a host port that trains. -/
def bootFrom (media : BootMedia) (s : State) : State :=
  romBoot (takeMedia media (setFld PWR_RAIL_STATUS 0 7 0x7F ({ s with cd0ResetAt := s.tick }.onHost fun h => { h with linkUp := true })))

/-- Held under PERST_N with power good, a release is taken; TESTEN_N decides between test mode and the ROM. -/
theorem execPerstNRelease_due (h : s.pwr.stage = .held) (hp : s.pwr.perst = true) (hg : s.pwr.pwrGood = true) (w : Word) (media : BootMedia) :
    execPerstNRelease w media s = .next (if bit w.toNat 2 = false then (sampleStraps w s).onPwr fun p => { p with stage := .testMode }
      else bootFrom media (sampleStraps w s)) := by
  simp [execPerstNRelease, h, hp, hg, sampleStraps, bootFrom]

/-! ### Start-up (R431 to R433) -/

theorem execMemoryTraining_trains (h : s.pwr.stage = .training) (hb : s.flt.blockResets = []) (near : List NearTrain) (far : List FarTrain) :
    execMemoryTraining near far s = .next (takeRegion (trainAll near far (refreshAlive (s.onPwr fun p => { p with stage := .selfTest })))) := by
  simp [execMemoryTraining, h, hb]

/-- The islands of the dies in use are on, and the dies that failed are handled. -/
def startDies (failed : List Nat) (s : State) : State :=
  failed.foldl failDie ((List.range 74).foldl (fun s p => if (logicalDie s p).isSome then islandPower p true s else s) s)

theorem execDieSelfTest_due (h : s.pwr.stage = .selfTest) (failed : List Nat) :
    execDieSelfTest failed s = .next (if failed.contains 0x70 = true then setReg FLT_ALIVE_STATUS 0 (s.onPwr fun p => { p with stage := .halted })
      else (startDies failed s).onPwr fun p => { p with stage := .discovery }) := by
  rw [execDieSelfTest, if_neg (by simp [h])]
  rfl

/-- The state in which step 7 begins. -/
def beginReadying (s : State) : State := (s.onLnk fun l => { l with started := true }).onPwr fun p => { p with stage := .readying }

/-- The plan in flash, where there is one, is in use. -/
def usePlanInFlash (s : State) : State := match s.lnk.flash with | some p => usePlan p (beginReadying s) | none => beginReadying s

theorem execDiscovery_due (h : s.pwr.stage = .discovery) (hs : s.pwr.swap = none) :
    execDiscovery s = .next (settleAll ((List.range 48).foldl (fun s j => linkOn j s) (usePlanInFlash s))) := by
  rw [execDiscovery, if_neg (by simp [h, hs])]
  rfl

end

/-! ### What Ready sets (R431, R432) -/

@[simp] theorem ready_modCtx (c : CtxId) (f : Ctx → Ctx) (s : State) : (modCtx c f s).host.ready = s.host.ready := rfl

theorem ready_stopQueue (c : CtxId) (q code : Nat) (s : State) : (stopQueue c q code s).host.ready = s.host.ready := rfl

/-- A doorbell leaves the host port ready or not, as it was. -/
theorem ready_sqTail (c : CtxId) (q v : Nat) (s : State) : (sqTail c q v s).host.ready = s.host.ready := by
  rw [sqTail]
  split
  · rfl
  · split
    · exact ready_stopQueue c q 3 s
    · split <;> rfl

theorem ready_earlyDoorbells (s : State) : (earlyDoorbells s).host.ready = s.host.ready := by
  unfold earlyDoorbells
  refine foldl_keeps (fun s : State => s.host.ready) (fun s c => foldl_keeps (fun s : State => s.host.ready) (fun s q => ?_) _ s) _ s
  split
  · exact ready_sqTail ..
  · rfl

/-- The power state of an idle hot spare differs by its self-refresh alone. -/
theorem pwr_enterHotSpare (s : State) : (enterHotSpare s).pwr = { s.pwr with selfRefresh := true } := by
  unfold enterHotSpare
  dsimp only
  rw [foldl_keeps State.pwr (fun s p => by split <;> rfl), foldl_keeps State.pwr (fun _ _ => setFld_within.pwr rfl), setFld_within.pwr rfl, selfRefresh_within.pwr rfl]
  rfl

/-- The registers before the power block stand when a spare goes idle. -/
theorem getReg_enterHotSpare {a : Nat} (ha : a < PWR_STATUS) (s : State) : getReg (enterHotSpare s) a = getReg s a := by
  have hdev (p d : Nat) : a ≠ NEAR_DEV_STATUS p d := by simp only [PWR_STATUS, NEAR_DEV_STATUS] at ha ⊢; omega
  have hrow (r : Nat) : a ≠ PWR_ROW_VDD r := by simp only [PWR_STATUS, PWR_ROW_VDD] at ha ⊢; omega
  have hself (s : State) : getReg (selfRefresh 1 s) a = getReg s a :=
    foldl_keeps (getReg · a) (fun s p => foldl_keeps (getReg · a) (fun s d => getReg_setFld_ne (hdev p d) ..) _ s) _ s
  unfold enterHotSpare
  dsimp only
  rw [foldl_keeps (getReg · a) (fun s p => by split <;> rfl), foldl_keeps (getReg · a) (fun s r => getReg_setFld_ne (hrow r) ..),
    getReg_setFld_ne (Nat.ne_of_lt ha), hself]
  rfl

/-- LOCK and BUILD_EN are set, the package is in service, pairing is open and start-up has ended (R431 to R434). -/
def serviceOn (s : State) : State :=
  let s1 := setFld SEQ_CTL 0 1 1 (setLock s)
  let s2 := (s1.onHost fun h => { h with ready := true, intakeHeld := false }).onFlt fun f => { f with outOfService := false }
  (s2.onCmt fun c => { c with pairingOpen := true }).onPwr fun p => { p with stage := .ready }

theorem execReady_due {s : State} (h : s.pwr.stage = .readying) :
    execReady s = .next (let t := earlyDoorbells (serviceOn s); if unassigned t ∧ getFld t LNK_FAB_ID 11 1 = 1 then enterHotSpare t else t) := by
  rw [execReady, if_neg (by simp [h])]
  rfl

/-- LOCK is set, whether it was before or not. -/
theorem lock_setLock {s : State} (hs : Canonical s) : getFld (setLock s) FW_STATUS 0 1 = 1 := by
  rw [setLock]
  split
  case isTrue h => exact h
  case isFalse =>
    rw [extend, getFld, getReg_onFw]
    exact getFld_setFld_same (setFld_within.canonical hs) FW_STATUS (lo := 0) (w := 1) (by decide) 1

/-- What READY promises of the state that it leaves. -/
def InService (t : State) : Prop :=
  t.host.ready = true ∧ t.pwr.stage = .ready ∧ t.cmt.pairingOpen = true ∧ getFld t SEQ_CTL 0 1 = 1 ∧ getFld t FW_STATUS 0 1 = 1

theorem inService_serviceOn {s : State} (hs : Canonical s) : InService (serviceOn s) := by
  refine ⟨rfl, rfl, rfl, ?_, ?_⟩
  · exact getFld_setFld_same (setLock_within.canonical hs) SEQ_CTL (lo := 0) (w := 1) (by decide) 1
  · have hne : FW_STATUS ≠ SEQ_CTL := by decide
    exact (congrArg (fun v => bits (BitVec.toNat v) 0 1) (getReg_setFld_ne hne 0 1 1 (setLock s))).trans (lock_setLock hs)

theorem InService.earlyDoorbells {s : State} (h : InService s) : InService (earlyDoorbells s) := by
  rw [InService, getFld, getFld, getReg, getReg, earlyDoorbells_within.regs rfl, earlyDoorbells_within.pwr rfl, earlyDoorbells_within.cmt rfl,
    ready_earlyDoorbells]
  exact h

theorem InService.enterHotSpare {s : State} (h : InService s) : InService (enterHotSpare s) := by
  rw [InService, getFld, getFld, getReg_enterHotSpare (by decide), getReg_enterHotSpare (by decide), pwr_enterHotSpare, enterHotSpare_within.cmt rfl,
    enterHotSpare_within.host rfl]
  exact h

/-! ### SHUTDOWN (R435) -/

/-- A shutdown that has not begun to settle begins. -/
def settling (s : State) : State := if s.pwr.shutdown = .settling then s else beginShutdown s

section
variable {s : State} (hf : fwRuns s = true) (hw : s.pwr.shutdown ≠ .writing) (ha : s.pwr.shutdown ≠ .answered)
include hf hw ha

theorem execShutdown_held (hu : s.fw.update.isSome = true) : execShutdown s = .next (s.onPwr fun p => { p with shutdown := .held }) := by
  rw [execShutdown, if_neg (by simp [hf, hw, ha]), if_pos hu]

theorem execShutdown_settles (hu : s.fw.update = none) :
    execShutdown s = .next (if allSettled (settling s) ∧ (settling s).flt.life.writing.isNone
      then beginLifeWrite ((settling s).onPwr fun p => { p with shutdown := .writing }) else settling s) := by
  rw [execShutdown, if_neg (by simp [hf, hw, ha]), if_neg (by simp [hu])]
  rfl

end

/-- Settles O43: each event in the stage in which it is due; what READY sets is kept by the doorbells that were written early and by a spare's going
idle. -/
theorem startupCompletion : Obligations.StartupCompletion := by
  unfold Obligations.StartupCompletion
  refine ⟨fun s => rfl, fun s h => execPowerUp_holds h, fun s h hp => execPerstNAssert_resets h hp,
    fun w media s h hp hg => ⟨fun hb => ?_, fun hb => ?_⟩, fun near far s h hb => execMemoryTraining_trains h hb near far,
    fun failed s h => ⟨fun hc => ?_, fun hc => ?_⟩, fun s h hs => execDiscovery_due h hs, fun s hs h => ⟨_, execReady_due h, ?_⟩,
    fun s hg => ⟨execPwrGoodFall_underReset hg, execPwrGoodFall_running hg⟩,
    fun s hf hw ha => ⟨execShutdown_held hf hw ha, execShutdown_settles hf hw ha⟩⟩
  · exact (execPerstNRelease_due h hp hg w media).trans (by rw [if_pos hb]; rfl)
  · exact (execPerstNRelease_due h hp hg w media).trans (by rw [if_neg (by simp [hb])]; rfl)
  · exact (execDieSelfTest_due h failed).trans (by rw [if_pos hc])
  · exact (execDieSelfTest_due h failed).trans (by rw [if_neg (by simpa using hc)]; rfl)
  · have ht := (inService_serviceOn hs).earlyDoorbells
    dsimp only
    split
    · exact ht.enterHotSpare
    · exact ht

end Sys2Proof.Machine
end

section
/-! Power, clocks, temperature and rails (R418 to R424), and the management bus (R375, R402, R429). -/

namespace Sys2Proof.Machine

/-! ### Power and the governor (R420, R421) -/

theorem execMfrPowerCap_clamps {s : State} (h : s.pwr.stage ≠ .off) (w : BitVec 16) :
    execMfrPowerCap w s = .next (noteCap (effCap s) (setFld PWR_CAP_BOARD 0 13 (max 1500 (min 4800 w.toNat)) s)) := by
  rw [execMfrPowerCap, if_neg h]

theorem execPowerSample_averages {s : State} (h : s.pwr.stage ≠ .off) (w : Nat) (dies : List (Nat × Nat)) :
    execPowerSample w dies s = .next (setReg PWR_PKG_POWER (BitVec.ofNat 32 (min (mean ((w :: s.pwr.samples).take 50)) 8191)) (s.onPwr fun p => { p with
      samples := (w :: p.samples).take 50
      dieWatts := dies.foldl (fun t d => tmod [] t d.1 fun l => (d.2 :: l).take 50) p.dieWatts })) := by
  rw [execPowerSample, if_neg h]
  rfl

/-- The budget of the array in mW (R421). -/
def arrayBudget (na : Nat) (s : State) : Nat := 980 * effCap s - 1000 * na

/-- The highest step at which no die at all fits the budget beside what idles. -/
def idleFit (ms : List DieModel) (na idle : Nat) (s : State) : Option Nat :=
  clockSteps.find? fun f => match diesPower ms [] f with | some n => decide (n + idle ≤ arrayBudget na s) | none => false

/-- The budget and the governor's state as a tick with no pan shows them. -/
def showBudget (ms : List DieModel) (na idle : Nat) (s : State) : State :=
  setFld PWR_STATUS 1 1 (b2n (idleFit ms na idle s).isNone) (setFld PWR_STATUS 0 1 (b2n (decide ((idleFit ms na idle s).getD 500 < 1250)))
    (setReg PWR_ARR_BUDGET (BitVec.ofNat 32 (arrayBudget na s / 1000))
      (s.onPwr fun p => { p with govSteps := if s.pwr.hot.isEmpty then 0 else s.pwr.govSteps + 1 })))

/-- Every island's clock stands still. -/
def stopClocks (s : State) : State :=
  (List.range 74).foldl (fun t p => if !(getDie t p).islandOn then t else modDie p (fun d => { d with clockOn := false }) t) s

/-- The rows' voltages where no die asks for one. -/
def idleRows (ms : List DieModel) (s : State) : State :=
  (List.range 9).foldl (fun t r => match rowVolts ms t [] r with | some v => setFld (PWR_ROW_VDD r) 0 10 v t | none => t) s

theorem execGovernorTick_noPan {s : State} (hf : fwRuns s = true) (ht : s.pwr.stage ≠ .training) (hs : s.pwr.stage ≠ .selfTest)
    (hx : s.pwr.thermTrip = false) (hi : getFld s PWR_STATUS 3 1 ≠ 1) (hp : s.pans = []) (ms : List DieModel) (na idle : Nat) :
    execGovernorTick ms na idle s = .next (idleRows ms (stopClocks (showBudget ms na idle s))) := by
  unfold execGovernorTick
  dsimp only
  rw [if_neg (by simp [hf, ht, hs, hx, hi]), hp]
  rfl

/-! ### Droop (R422) -/

theorem execDroopDetect_halves {d : Fin 74} {s : State} (hi : (getDie s d).islandOn = true) (hd : (getDie s d).drooped = false) :
    execDroopDetect d s = .next (present (faultOf 0x0702 d 0xFF 0) (lifeAdd (0x1018 + 64 * d.val) 8 1 (bump PWR_DROOP_COUNT
      (setClock d (getDie s d).mhz (modDie d (fun d => { d with drooped := true }) s))))) := by
  rw [execDroopDetect, if_neg (by simp [hi, hd])]

theorem execDroopRecover_restores {d : Fin 74} {s : State} (hd : (getDie s d).drooped = true) :
    execDroopRecover d s = .next (setClock d (getDie s d).mhz (modDie d (fun d => { d with drooped := false }) s)) := by
  rw [execDroopRecover, if_pos hd]

/-! ### Temperature and rails (R418, R423, R424) -/

/-- The readings of devices, then those of dies, are taken. -/
def takeTemps (temps : List (Nat × Nat)) (s : State) : State :=
  (temps.filter fun q => decide (q.1 < 0x80)).foldl readTemp ((temps.filter fun q => decide (0x80 ≤ q.1)).foldl deviceTemp s)

/-- The hottest die is shown. -/
def showHottest (s : State) : State :=
  match hottest s.pwr.temps with
  | some q => setReg PWR_TEMP_MAX (BitVec.ofNat 32 (min q.2 255 + 256 * q.1)) s
  | none => s

/-- Whether something throttles is shown. -/
def showThrottle (s : State) : State := setFld PWR_STATUS 2 1 (b2n (!s.pwr.hot.isEmpty || s.arr.dies.any fun d => d.2.throttled)) s

theorem execThermalSample_due {s : State} (h : s.pwr.stage ≠ .off) (hg : s.pwr.pwrGood = true) (temps : List (Nat × Nat)) :
    execThermalSample temps s = .next (match temps.find? fun q => decide (q.1 < 0x80) && decide (110 ≤ q.2) with
      | some q => tripAt q.1 (showThrottle (showHottest (takeTemps temps s)))
      | none => showThrottle (showHottest (takeTemps temps s))) := by
  rw [execThermalSample, if_neg (by simp [h, hg])]
  rfl

theorem execRailFault_raises {s : State} (hg : s.pwr.pwrGood = true) (r : Fin 7) :
    execRailFault r s = .next (present (faultOf 0x0703 0xFF 0xFF 0) (setFld PWR_RAIL_STATUS (8 + r.val) 1 1 (setFld PWR_RAIL_STATUS r 1 0 s))) := by
  rw [execRailFault, if_pos hg]

/-- Settles O44: each event where it is due; with no pan the governor's tick names no die. -/
theorem powerCompletion : Obligations.PowerCompletion := by
  unfold Obligations.PowerCompletion
  exact ⟨fun w s h => execMfrPowerCap_clamps h w, fun w dies s h => execPowerSample_averages h w dies,
    fun ms na idle s hf ht hs hx hi hp => execGovernorTick_noPan hf ht hs hx hi hp ms na idle,
    fun d s hi hd => execDroopDetect_halves hi hd, fun d s hd => execDroopRecover_restores hd,
    fun temps s h hg => execThermalSample_due h hg temps, fun r s hg => execRailFault_raises hg r⟩

/-! ### The management bus (R375, R429) -/

section
variable {s : State} (h : stbyUp s = true)
include h

theorem execReadPin_answers : execReadPin s = .next (answer (leBytes 2 (getFld s PWR_PKG_POWER 0 13)) s) := by rw [execReadPin, if_pos h]

theorem execReadTemperature1_answers : execReadTemperature1 s = .next (answer (leBytes 2 (getFld s PWR_TEMP_MAX 0 8)) s) := by
  rw [execReadTemperature1, if_pos h]

theorem execStatusWord_answers :
    execStatusWord s = .next (answer (leBytes 2 (draw Config.freeWord s).1.toNat) (draw Config.freeWord s).2) := by
  rw [execStatusWord, if_pos h]

theorem execPldmSensorRead_answers {k v : Nat} (hk : sensorReading s k = some v) : execPldmSensorRead k s = .next (answer (leBytes 4 v) s) := by
  simp only [execPldmSensorRead, hk, if_pos h]

theorem execMctpStbyRead_answers {k : Nat} {b : List Byte} (hk : stbyItem s k = some b) : execMctpStbyRead k s = .next (answer b s) := by
  simp only [execMctpStbyRead, hk, if_pos h]

end

theorem execPldmSensorRead_absent {k : Nat} {s : State} (hk : sensorReading s k = none) : execPldmSensorRead k s = .next s := by
  simp only [execPldmSensorRead, hk]

theorem execMctpLifetimeRead_answers {off n : Nat} {s : State} (hf : fwRuns s = true) (hn : n ≤ 1024) (ho : off + n ≤ 0x400000) :
    execMctpLifetimeRead off n s = .next (answer (lifeBytes s off n) s) := by
  rw [execMctpLifetimeRead, if_pos ⟨hf, hn, ho⟩]

/-! ### The JTAG port (R402) -/

section
variable {s : State} (h : stbyUp s = true) (tms tdi : Bool)
include h

theorem execBoundaryScan_reset (tck : Bool) :
    execBoundaryScan tck tms tdi false s = .next (s.onPwr fun p => { p with tap := .reset, instr := Config.idcodeInstr, tck := tck }) := by
  simp [execBoundaryScan, h, State.onPwr]

theorem execBoundaryScan_rise (ht : s.pwr.tck = false) :
    execBoundaryScan true tms tdi true s = .next ((tckRise tms tdi s).onPwr fun p => { p with tck := true }) := by
  simp [execBoundaryScan, h, ht]

theorem execBoundaryScan_fall (ht : s.pwr.tck = true) :
    execBoundaryScan false tms tdi true s = .next ((tckFall s).onPwr fun p => { p with tck := false }) := by
  simp [execBoundaryScan, h, ht]

end

/-- Settles O45: each read while VDD_STBY is up, and the three edges of the test port. -/
theorem managementCompletion : Obligations.ManagementCompletion := by
  unfold Obligations.ManagementCompletion
  exact ⟨fun s h => execReadPin_answers h, fun s h => execReadTemperature1_answers h, fun s h => ⟨execStatusWord_answers h, rfl⟩,
    fun k v s h hk => execPldmSensorRead_answers h hk, fun k s hk => execPldmSensorRead_absent hk,
    fun off n s hf hn ho => execMctpLifetimeRead_answers hf hn ho, fun k b s h hk => execMctpStbyRead_answers h hk,
    fun tck tms tdi s h => ⟨execBoundaryScan_reset h tms tdi tck, execBoundaryScan_rise h tms tdi, execBoundaryScan_fall h tms tdi⟩⟩

end Sys2Proof.Machine
end

section
/-! Rings and doorbells (R280 to R288, R299, R302, R432). -/

namespace Sys2Proof.Machine

/-! ### Doorbells -/

section
variable {c : CtxId} {q : Fin 8} {v : Word} {s : State}

/-- Slots that a tail adds to those of the ring. -/
def tailAdds (s : State) (c : CtxId) (q : Nat) (v : Word) : Nat :=
  (v.toNat % 65536 + sqSize s c q - ((getCtx s c).queue q).sqTail) % sqSize s c q

theorem execCmdDbSqTail_early (hc : ctxPresent s c = true) (hr : s.host.ready = false) :
    execCmdDbSqTail c q v s = .next (modQueue c q (fun y => { y with early := some v.toNat }) s) := by
  simp [execCmdDbSqTail, hc, hr]

section
variable (hc : ctxPresent s c = true) (hr : s.host.ready = true) (he : qEnabled s c q = true) (hs : ((getCtx s c).queue q).stopped = false)
include hc hr he hs

/-- A tail within the ring and its free slots makes the new slots visible (R281). -/
theorem execCmdDbSqTail_visible (ht : v.toNat % 65536 < sqSize s c q) (hv : visibleOf (getCtx s c) q + tailAdds s c q v ≤ sqSize s c q)
    (ha : tailAdds s c q v ≠ 0) :
    execCmdDbSqTail c q v s = .next (modCtx c (fun x => { x with
      queues := tmod Queue.fresh x.queues q fun y => { y with sqTail := v.toNat % 65536 }
      visible := x.visible ++ [(q.val, tailAdds s c q v)] }) s) := by
  rw [tailAdds] at hv ha
  simp [execCmdDbSqTail, sqTail, tailAdds, hc, hr, he, hs, ha, Nat.not_le.2 ht, Nat.not_lt.2 hv]

theorem execCmdDbSqTail_outside (ht : sqSize s c q ≤ v.toNat % 65536) : execCmdDbSqTail c q v s = .next (stopQueue c q 3 s) := by
  simp [execCmdDbSqTail, sqTail, hc, hr, he, hs, ht]

end

theorem execCmdDbCqHead_returns (hc : ctxPresent s c = true) (he : qEnabled s c q = true) (ht : v.toNat % 65536 < cqSize s c q) :
    execCmdDbCqHead c q v s = .next (deliverKept c q ((getCtx s c).queue q).kept.length
      (modQueue c q (fun y => { y with cqHead := v.toNat % 65536 }) s)) := by
  simp [execCmdDbCqHead, hc, he, Nat.not_le.2 ht]

theorem execCmdDbTokHead_returns (hc : ctxPresent s c = true) (he : tokEnabled s c = true) (ht : v.toNat % 2 ^ 20 < tokSize s c) :
    execCmdDbTokHead c v s = .next (retryRelease c (modCtx c (fun x => { x with tok := { x.tok with head := v.toNat % 2 ^ 20 } }) s)) := by
  rw [execCmdDbTokHead, if_neg (by simpa [hc, he] using ht)]

end

/-- Settles O8: the five cases of the three doorbells. -/
theorem doorbellCompletion : Obligations.DoorbellCompletion := by
  unfold Obligations.DoorbellCompletion
  exact ⟨fun c q v s hc hr he hs ht hv ha => execCmdDbSqTail_visible hc hr he hs ht hv ha,
    fun c q v s hc hr he hs ht => execCmdDbSqTail_outside hc hr he hs ht, fun c q v s hc hr => execCmdDbSqTail_early hc hr,
    fun c q v s hc he ht => execCmdDbCqHead_returns hc he ht, fun c v s hc he ht => execCmdDbTokHead_returns hc he ht⟩

/-! ### Queue and ring configuration -/

section
variable {c : CtxId} {q : Fin 8} {v w : Word} {s : State}

/-- Sizes and vector of a CMD_Q_CFG value within their ranges (R280, R302). -/
structure RingInRange (s : State) (c : CtxId) (v : Word) : Prop where
  sqMin : 2 ≤ bits v.toNat 0 5
  sqMax : bits v.toNat 0 5 ≤ 16
  cqMin : bits v.toNat 0 5 ≤ bits v.toNat 8 5
  cqMax : bits v.toNat 8 5 ≤ 16
  vector : bits v.toNat 16 11 < fnVectors s (fnOf c)

/-- The queue without the slots that doorbells made visible. -/
def dropVisible (q : Nat) (x : Ctx) : Ctx := { x with visible := x.visible.filter fun p => !decide (p.1 = q) }

/-- The queue's rings at their first entries, nothing visible. -/
def freshRings (q : Nat) (x : Ctx) : Ctx :=
  { x with
    queues := tmod Queue.fresh x.queues q fun y => { y with
      sqHead := 0, sqTail := 0, cqHead := 0, cqTail := 0, phase := true, err := 0, stopped := false }
    visible := x.visible.filter fun p => !decide (p.1 = q) }

/-- A configuration in range is stored; setting ENABLE starts the rings afresh, and clearing it gives up the visible slots. -/
theorem qCfgWrite_inRange (hc : ctxPresent s c = true) (h : RingInRange s c v) (q : Nat) :
    qCfgWrite c q v s =
      let s1 := setReg (CMD_Q_CFG c.toNat q) (v &&& qCfgBits) s
      if bit v.toNat 31 && !qEnabled s c q then deliverKept c q ((getCtx s c).queue q).kept.length (modCtx c (freshRings q) s1)
      else if bit v.toNat 31 then s1 else modCtx c (dropVisible q) s1 := by
  obtain ⟨h1, h2, h3, h4, h5⟩ := h
  simp [qCfgWrite, hc, Nat.not_lt.2, h1, h2, h3, h4, Nat.not_le.2 h5]
  rfl

theorem execQueueEnable_starts (hv : v = w ||| 0x80000000) (hc : ctxPresent s c = true) (he : qEnabled s c q = false) (h : RingInRange s c v)
    (hb : bit v.toNat 31 = true) :
    execQueueEnable c q w s = .next (deliverKept c q ((getCtx s c).queue q).kept.length
      (modCtx c (freshRings q) (setReg (CMD_Q_CFG c.toNat q) (v &&& qCfgBits) s))) := by
  rw [execQueueEnable, ← hv, qCfgWrite_inRange hc h]
  simp [hb, he]

theorem execQueueEnable_bad (hv : v = w ||| 0x80000000) (hc : ctxPresent s c = true) (he : qEnabled s c q = false)
    (hb : bits v.toNat 8 5 < bits v.toNat 0 5) :
    execQueueEnable c q w s = .next (modQueue c q (fun y => { y with err := 5, stopped := true }) s) := by
  rw [execQueueEnable, ← hv]
  simp [qCfgWrite, hc, he, hb]

theorem execQueueDisable_drops (hv : v = w &&& 0x7FFFFFFF) (hc : ctxPresent s c = true) (h : RingInRange s c v) (hb : bit v.toNat 31 = false) :
    execQueueDisable c q w s = .next (modCtx c (dropVisible q) (setReg (CMD_Q_CFG c.toNat q) (v &&& qCfgBits) s)) := by
  rw [execQueueDisable, ← hv, qCfgWrite_inRange hc h]
  simp [hb]

/-- Setting ENABLE of the token ring starts it afresh (R287). -/
theorem execTokenRingCfg_starts (hc : ctxPresent s c = true) (he : tokEnabled s c = false) (h6 : 6 ≤ bits v.toNat 0 5) (h20 : bits v.toNat 0 5 ≤ 20)
    (hn : bits v.toNat 16 11 < fnVectors s (fnOf c)) (hb : bit v.toNat 31 = true) :
    execTokenRingCfg c v s = .next (retryRelease c
      (modCtx c (fun x => { x with tok := TokenRing.fresh }) (setReg (CMD_TOK_CFG c.toNat) (v &&& tokCfgBits) s))) := by
  simp [execTokenRingCfg, tokCfgWrite, hc, he, hb, Nat.not_lt.2 h6, Nat.not_lt.2 h20, Nat.not_le.2 hn]

end

theorem execCmdVfAllotWrite_takes {f : BitVec 8} {v : Word} {s : State} (hf : f ≠ 0) (hv : s.host.vfEnable = false) (hs : bits v.toNat 0 5 ≤ 16)
    (hn : bits v.toNat 16 7 ≤ 64) (hp : bits v.toNat 16 7 + 1 ≤ fnVectors s 0 + fnVectors s f.toNat) :
    execCmdVfAllotWrite f v s = .next (setReg (CMD_VF_ALLOT 0 f.toNat) (v &&& 0x007F001F) s) := by
  have h0 : f.toNat ≠ 0 := fun h => hf (BitVec.eq_of_toNat_eq h)
  simp [execCmdVfAllotWrite, vfAllot, h0, hv, Nat.not_lt.2 hs, Nat.not_lt.2 hn, Nat.not_lt.2 hp]

theorem execTokenIrqHoldoff_raises {c : CtxId} {n : Nat} {s : State} (hn : (getCtx s c).tok.firstSince = some n)
    (ht : n + usTicks (16 * getFld s (CMD_TOK_CFG c.toNat) 27 4) ≤ s.tick) : execTokenIrqHoldoff c s = .next (raiseTok c s) := by
  simp only [execTokenIrqHoldoff, hn, if_pos ht]

/-! ### DMA faults (R288) -/

theorem execDmaFault_hostBuffer {c : CmdRef} {m : Cmd} {s : State} (hm : findCmd s c = some m) (hr : m.phase = .running) (hb : hostBuffered m = true)
    (moved : List Byte) : execDmaFault (.hostBuffer c moved) s = .next (endWith m (stBadParam 6) false 0 0 s) := by
  simp [execDmaFault, hm, Cmd.isEnded, hr, hb]

theorem execDmaFault_slotFetch {c : CtxId} {q : Fin 8} {s : State} (h : canFetch s c = some q.val) :
    execDmaFault (.slotFetch c q) s = .next (stopQueue c q 1 s) := by
  simp only [execDmaFault, if_pos h]

theorem execDmaFault_completionWrite {c : CtxId} {q : Fin 8} {s : State} (h : qLive s c q = true) :
    execDmaFault (.completionWrite c q) s = .next (stopQueue c q 2 s) := by
  simp only [execDmaFault, if_pos h]

theorem execDmaFault_tokenWrite {c : CtxId} {s : State} (h : tokEnabled s c = true) :
    execDmaFault (.tokenWrite c) s = .next (modCtx c (fun x => { x with tok := { x.tok with stopped := true, err := 4 } }) s) := by
  simp only [execDmaFault, if_pos h]

/-- Settles O9: a value in range by what it makes of ENABLE, a bad one by its ERR_CODE, and the DMA errors by what the DMA was for. -/
theorem ringConfigurationCompletion : Obligations.RingConfigurationCompletion := by
  unfold Obligations.RingConfigurationCompletion
  exact ⟨fun c q w v s hv hc he h1 h2 h3 h4 h5 hb => execQueueEnable_starts hv hc he ⟨h1, h2, h3, h4, h5⟩ hb,
    fun c q w v s hv hc he hb => execQueueEnable_bad hv hc he hb,
    fun c q w v s hv hc h1 h2 h3 h4 h5 hb => execQueueDisable_drops hv hc ⟨h1, h2, h3, h4, h5⟩ hb,
    fun c v s hc he h6 h20 hn hb => execTokenRingCfg_starts hc he h6 h20 hn hb,
    fun f v s hf hv hs hn hp => execCmdVfAllotWrite_takes hf hv hs hn hp,
    fun b s => rfl,
    fun c n s hn ht => execTokenIrqHoldoff_raises hn ht,
    fun c m s hm hr hb moved => execDmaFault_hostBuffer hm hr hb moved,
    fun c q s h => execDmaFault_slotFetch h,
    fun c q s h => execDmaFault_completionWrite h,
    fun c s h => execDmaFault_tokenWrite h⟩

end Sys2Proof.Machine
end

section
/-! Slots, completions, deadlines and fences (R281 to R285, R291, R293). -/

namespace Sys2Proof.Machine

/-! ### SLOT_FETCH (R282) -/

section
variable {c : CtxId} {q : Fin 8} {s : State}

/-- A fetched slot leaves the queue's ring and reserves a completion entry. -/
def takeSlot (n : Nat) (y : Queue) : Queue := { y with sqHead := (y.sqHead + 1) % n, reserved := y.reserved + 1 }

/-- A fetched slot leaves the context's visible slots too. -/
def fetchSlot (q n : Nat) (x : Ctx) : Ctx :=
  { x with
    queues := tmod Queue.fresh x.queues q (takeSlot n)
    visible := match x.visible with
      | (v, k) :: r => if k ≤ 1 then r else (v, k - 1) :: r
      | [] => [] }

/-- The host port after context c gave a slot. -/
def countSlot (c : CtxId) (h : HostPort) : HostPort :=
  { h with
    nextSeqno := h.nextSeqno + 1
    rrTaken := if h.rrCtx = c.toNat ∧ h.rrTaken < 8 then h.rrTaken + 1 else 1
    rrCtx := c.toNat }

theorem execSlotFetch_accepts (ht : turnCtx s = some c.toNat) (hf : canFetch s c = some q.val) (b : List Byte) :
    execSlotFetch c q b s = .next (((modCtx c (fetchSlot q (sqSize s c q)) s).onCmds (· ++ [acceptCmd s c q b])).onHost (countSlot c)) := by
  simp [execSlotFetch, ht, hf]
  rfl

/-- A queue with an entry reserved is not a fresh one. -/
theorem takeSlot_ne_fresh (n : Nat) (y : Queue) : takeSlot n y ≠ Queue.fresh := fun h => Nat.succ_ne_zero _ (congrArg Queue.reserved h)

/-- The queue after the fetch, read back. -/
theorem queue_fetchSlot (c : CtxId) (q n : Nat) (s : State) :
    (getCtx (modCtx c (fetchSlot q n) s) c).queue q = takeSlot n ((getCtx s c).queue q) := by
  have hq : tmod Queue.fresh (getCtx s c).queues q (takeSlot n) ≠ [] := tput_ne_nil (takeSlot_ne_fresh _ _) _ _
  rw [getCtx_modCtx_of_ne fun h => hq (congrArg Ctx.queues h)]
  exact tget_tput_of_ne (takeSlot_ne_fresh _ _) _ _

end

/-! ### COMPLETION_WRITE (R285, R299) -/

section
variable {r : CmdRef} {m : Cmd} {e : CplEntry} {s : State}

/-- The entry with the LATE flag of the command's deadline (R293). -/
def stampLate (s : State) (m : Cmd) (e : CplEntry) : CplEntry :=
  { e with late := m.started && !decide (m.deadline = 0) && decide (deadlineTick m < s.tick) }

/-- The ended command's entry goes to its ring, or is kept (R288). -/
def postEntry (s : State) (m : Cmd) (e : CplEntry) (s1 : State) : State :=
  if qLive s1 m.ctx m.queue && ((getCtx s m.ctx).queue m.queue).kept.isEmpty then cplWrite m.ctx m.queue e s1
  else modQueue m.ctx m.queue (fun y => { y with kept := y.kept ++ [e] }) s1

variable (hf : findEnded s r = some (m, e)) (hd : entryDue s m = true)
include hf hd

theorem execCompletionWrite_posts (hx : (getCtx s m.ctx).flr = false) :
    let s2 := postEntry s m (stampLate s m e) (reapOld (retireCmd m (stampLate s m e) 1 s))
    execCompletionWrite r s
      = .next (if decide (m.opcode = 0x0102) && !m.rejected then modCtx m.ctx (fun y => { y with state := 0, lostState := false }) s2 else s2) := by
  simp only [execCompletionWrite, hf, hd, hx, Bool.not_true, Bool.false_eq_true, if_false]
  rfl

/-- Under a function-level reset the command goes without an entry. -/
theorem execCompletionWrite_flr (hx : (getCtx s m.ctx).flr = true) (ho : m.opcode ≠ 0x0102) :
    execCompletionWrite r s = .next (reapOld (retireCmd m (stampLate s m e) 3 s)) := by
  simp only [execCompletionWrite, hf, hd, hx, ho, decide_false, Bool.false_and, Bool.not_true, Bool.false_eq_true, if_false, if_true]
  rfl

end

/-! ### Deadlines and fences (R291, R293) -/

theorem execCommandDeadlineExpiry_ends {r : CmdRef} {m : Cmd} {s : State} (hf : findCmd s r = some m) (hw : m.phase = .waiting) (hd : m.deadline ≠ 0)
    (ht : deadlineTick m < s.tick) : execCommandDeadlineExpiry r s = .next (endFail m (0x0401, 0) s) := by
  simp only [execCommandDeadlineExpiry, hf, if_pos (⟨hw, hd, ht⟩ : m.phase = .waiting ∧ m.deadline ≠ 0 ∧ deadlineTick m < s.tick)]

/-- Nothing earlier of the fence's scope is outstanding. -/
theorem fence_clear {m : Cmd} {l : List Cmd}
    (h : (l.all fun k => decide (m.seqno ≤ k.seqno) || (!bit (m.p 0) 0 && !decide (k.queue = m.queue))) = true) :
    (l.any fun k => decide (k.seqno < m.seqno) && (bit (m.p 0) 0 || decide (k.queue = m.queue))) = false := by
  rw [List.any_eq_false]
  intro k hk
  have := List.all_eq_true.1 h k hk
  simp only [Bool.or_eq_true, Bool.and_eq_true, decide_eq_true_eq, Bool.not_eq_true', decide_eq_false_iff_not] at this ⊢
  rintro ⟨hlt, hs⟩
  rcases this with hle | ⟨hb, hq⟩
  · omega
  · rcases hs with hb' | hq'
    · simp [hb] at hb'
    · exact hq hq'

theorem execFence_ends {r : CmdRef} {m : Cmd} {s : State} (h : Running 0x0604 r m s)
    (hc : ((outstanding s m.ctx).all fun k => decide (m.seqno ≤ k.seqno) || (!bit (m.p 0) 0 && !decide (k.queue = m.queue))) = true)
    (ht : bit (m.p 0) 1 = true → fenceTokensDone s m = true) : execFence r s = .next (endOk m 0 0 s) := by
  have hdone : (!bit (m.p 0) 1 || fenceTokensDone s m) = true := by
    cases hb : bit (m.p 0) 1 with
    | false => rfl
    | true => simp [ht hb]
  obtain ⟨hf, -, hp⟩ := id h
  simp only [execFence, hf, hp, if_true, whileRunning_of_running h, fence_clear hc, hdone, Bool.not_false, Bool.and_self]

/-- Settles O10: the fetch's own updates read back; a completion by whether its function is under reset; a fence once its scope is clear. -/
theorem slotAndCompletionCompletion : Obligations.SlotAndCompletionCompletion := by
  unfold Obligations.SlotAndCompletionCompletion
  refine ⟨fun c q b s ht hf => ⟨_, execSlotFetch_accepts ht hf b, rfl, rfl, ?_, ?_, rfl, rfl⟩, fun r m e s hf hd hx => execCompletionWrite_posts hf hd hx,
    fun r m e s hf hd hx ho => execCompletionWrite_flr hf hd hx ho, fun r m s hf hw hd ht => execCommandDeadlineExpiry_ends hf hw hd ht,
    fun r m s h hc ht => execFence_ends h hc ht⟩
  · exact congrArg Queue.sqHead (queue_fetchSlot c q (sqSize s c q) s)
  · exact congrArg Queue.reserved (queue_fetchSlot c q (sqSize s c q) s)

end Sys2Proof.Machine
end

section
/-! The context commands (R161, R164, R294, R298, R412). -/

namespace Sys2Proof.Machine

/-! ### CTX_OPEN (R294) -/

/-- A context that CTX_OPEN opened on a state s. -/
def openedCtx (s : State) (x : Ctx) : Ctx :=
  { x with
    state := 1, ekgen := x.ekgen + 1, everOpened := true
    lostState := x.lostState || (!x.everOpened && decide (getFld s CMT_STATUS 5 1 = 1)) }

/-- A context with the keys a and b, which has written nothing under them. -/
def keyedCtx (a b : BitVec 256) (x : Ctx) : Ctx := { x with dataKey := some a, tweakKey := some b, wroteT2 := false }

/-- The keys of a context that has none are drawn (R161). -/
def drawKeys (c : CtxId) (s : State) : State :=
  let k := draw Config.freeKey s
  let t := draw Config.freeKey k.2
  modCtx c (keyedCtx k.1 t.1) t.2

/-- The object table of a context that has its keys is placed, and the context is open; where no place is, the command alone ends. -/
def endOpen (m : Cmd) (s s1 : State) : State :=
  if !(placeTable m.ctx s1).1 then endFail m (stNoSpace 0) s
  else endOk m (0x10000 + 2 ^ 32 * m.ctx.toNat) (chipId s) (modCtx m.ctx (openedCtx s) (placeTable m.ctx s1).2)

section
variable {c : CmdRef} {m : Cmd} {s : State} (h : Starts 0x0101 c m s)
include h

theorem execCtxOpen_again (hs : (getCtx (markStarted m s) m.ctx).state = 1) :
    execCtxOpen c s = .next (endFail m (stNotPermitted 3) (markStarted m s)) := by
  simp only [execCtxOpen, startCmd_of_starts h, if_pos hs]

variable (hs : (getCtx (markStarted m s) m.ctx).state ≠ 1)
include hs

theorem execCtxOpen_mismatch (hk : (getCtx (markStarted m s) m.ctx).dataKey.isSome = true) (hv : m.f 0 16 16 ≠ 1) :
    execCtxOpen c s = .next (endWith m (0x0102, 0) false (0x10000 + 2 ^ 32 * m.ctx.toNat) (chipId (markStarted m s))
      (modCtx m.ctx (fun x => { x with state := 2 }) (markStarted m s))) := by
  simp only [execCtxOpen, startCmd_of_starts h]
  rw [if_neg hs, if_neg (fun hn => by simp [Option.isNone_iff_eq_none.1 hn.1] at hk), if_pos hv, interfaceVersion]

/-- Major version 1 opens a context with its keys, or with keys drawn for it. -/
theorem execCtxOpen_matches (hv : m.f 0 16 16 = 1)
    (he : (getCtx (markStarted m s) m.ctx).dataKey.isSome = true ∨ getFld (markStarted m s) FW_STATUS 5 1 ≠ 1) :
    execCtxOpen c s = .next (endOpen m (markStarted m s) (if (getCtx (markStarted m s) m.ctx).dataKey.isSome then markStarted m s
      else drawKeys m.ctx (markStarted m s))) := by
  have hn : ¬((getCtx (markStarted m s) m.ctx).dataKey.isNone = true ∧ getFld (markStarted m s) FW_STATUS 5 1 = 1) := fun hn =>
    he.elim (fun hk => by simp [Option.isNone_iff_eq_none.1 hn.1] at hk) (· hn.2)
  simp only [execCtxOpen, startCmd_of_starts h]
  rw [if_neg hs, if_neg hn, if_neg (not_not.2 hv)]
  rfl

end

/-- A table is placed when it needs no block, or when a run of blocks is free. -/
theorem placeTable_of_place {c : CtxId} {s : State} (h : ceilDiv ((getCtx s c).quota.objMax * 64) 65536 = 0
    ∨ (findPlace s 1 0xFF (ceilDiv ((getCtx s c).quota.objMax * 64) 65536)).isSome = true) : (placeTable c s).1 = true := by
  rw [placeTable]
  split
  · rfl
  next hn =>
    obtain ⟨a, ha⟩ := Option.isSome_iff_exists.1 (h.resolve_left hn)
    rw [ha]

/-- Placing a table changes the context by the table alone. -/
theorem getCtx_placeTable {c : CtxId} {s : State} (hf : ∀ t, { getCtx s c with objTable := t } ≠ Ctx.fresh) :
    ∃ t, getCtx (placeTable c s).2 c = { getCtx s c with objTable := t } := by
  rw [placeTable]
  dsimp only
  split
  · exact ⟨_, getCtx_modCtx_of_ne (hf _)⟩
  · split
    · exact ⟨_, getCtx_modCtx_of_ne (hf _)⟩
    · exact ⟨_, rfl⟩

/-- The context that has the keys just drawn. -/
theorem getCtx_drawKeys (c : CtxId) (s : State) :
    getCtx (drawKeys c s) c = keyedCtx (draw Config.freeKey s).1 (draw Config.freeKey (draw Config.freeKey s).2).1 (getCtx s c) :=
  getCtx_modCtx_of_ne fun h => nomatch congrArg Ctx.dataKey h

/-- A context that had no keys is open with two of its own, drawn one after the other. -/
theorem endOpen_drawKeys {m : Cmd} {s s1 : State} (hp : (placeTable m.ctx (drawKeys m.ctx s1)).1 = true) :
    let t := endOpen m s (drawKeys m.ctx s1)
    (getCtx t m.ctx).state = 1 ∧ (getCtx t m.ctx).dataKey.isSome = true ∧ (getCtx t m.ctx).tweakKey.isSome = true ∧ t.free = s1.free + 2 := by
  obtain ⟨tb, ht⟩ := getCtx_placeTable (c := m.ctx) (s := drawKeys m.ctx s1) fun t h => by
    rw [getCtx_drawKeys] at h
    exact nomatch congrArg Ctx.dataKey h
  have hopen : getCtx (modCtx m.ctx (openedCtx s) (placeTable m.ctx (drawKeys m.ctx s1)).2) m.ctx
      = openedCtx s { getCtx (drawKeys m.ctx s1) m.ctx with objTable := tb } := by
    rw [getCtx_modCtx_of_ne (fun h => nomatch (congrArg Ctx.everOpened h : true = false)), ht]
  have hfree : (placeTable m.ctx (drawKeys m.ctx s1)).2.free = s1.free + 2 := placeTable_within.free rfl
  rw [endOpen, if_neg (by simp [hp])]
  dsimp only
  rw [getCtx, endOk_within.ctxs rfl, endOk_within.free rfl, ← getCtx, hopen, getCtx_drawKeys]
  exact ⟨rfl, rfl, rfl, hfree⟩

/-- Where a table is placed does not depend on a command's start nor on keys drawn. -/
theorem placeTable_drawKeys {c : CtxId} {m : Cmd} {s : State} (h : ceilDiv ((getCtx s c).quota.objMax * 64) 65536 = 0
    ∨ (findPlace s 1 0xFF (ceilDiv ((getCtx s c).quota.objMax * 64) 65536)).isSome = true) :
    (placeTable c (drawKeys c (markStarted m s))).1 = true := by
  refine placeTable_of_place ?_
  rw [getCtx_drawKeys]
  exact h

/-! ### CTX_QUERY and CTX_SET_QUOTA (R164, R298) -/

theorem execCtxQuery_answers {c : CmdRef} {m : Cmd} {s : State} (h : Starts 0x0103 c m s) :
    let s1 := markStarted m s
    execCtxQuery c s = .next (endOk m ((getCtx s1 m.ctx).state.toNat + 0x10000) (outstanding s1 m.ctx).length
      (if m.p 0 = 0 then s1 else dmaWrite m.ctx (m.p 0) (queryRecord s1 m.ctx) s1)) := by
  simp only [execCtxQuery, startCmd_of_starts h]

/-- The context that a CTX_SET_QUOTA names. -/
def quotaTarget (m : Cmd) : CtxId := BitVec.ofNat 12 (m.f 0 0 12)

/-- The quotas that a CTX_SET_QUOTA carries are in force. -/
def setQuotas (m : Cmd) (s : State) : State :=
  modCtx (quotaTarget m) (fun x => { x with
    quota := { t1Units := m.p 1, t2Pages := m.p 2, seqs := m.f 3 0 15, objMax := m.f 3 16 16, share := m.f 3 32 8, kvFp8 := bit (m.p 3) 40 } }) s

/-- The table of the target, for its new size. -/
def renewTable (m : Cmd) (s : State) : Bool × State := placeTable (quotaTarget m) (freeTable (quotaTarget m) (setQuotas m s))

section
variable {c : CmdRef} {m : Cmd} {s : State} (h : Starts 0x0104 c m s) (ho : m.f 3 16 16 ≠ 0) (hs : m.f 3 32 8 ≠ 0)
include h ho hs

theorem execCtxSetQuota_tooFew (hl : m.f 3 16 16 < (getCtx (markStarted m s) (quotaTarget m)).objs.length) :
    execCtxSetQuota c s = .next (endFail m stQuota (markStarted m s)) := by
  rw [quotaTarget] at hl
  simp only [execCtxSetQuota, startCmd_of_starts h]
  rw [if_neg (by simp [ho, hs]), if_pos hl]

variable (hl : (getCtx (markStarted m s) (quotaTarget m)).objs.length ≤ m.f 3 16 16)
include hl

/-- The quotas are set; the table of an open context takes its new size where that changes. -/
theorem execCtxSetQuota_sets :
    let x := getCtx (markStarted m s) (quotaTarget m)
    execCtxSetQuota c s = .next (if (x.state = 1 ∨ x.state = 3) ∧ m.f 3 16 16 ≠ x.quota.objMax then
        (if (renewTable m (markStarted m s)).1 then endOk m 0 0 (renewTable m (markStarted m s)).2 else endFail m (stNoSpace 0) (markStarted m s))
      else endOk m 0 0 (setQuotas m (markStarted m s))) := by
  rw [quotaTarget] at hl
  simp only [execCtxSetQuota, startCmd_of_starts h]
  rw [if_neg (by simp [ho, hs]), if_neg (Nat.not_lt.2 hl)]
  rfl

end

/-! ### CTX_KEY_IMPORT (R412) -/

/-- The keys that a block unwrapped to take force, or the import fails for want of them. -/
def endKeyImport (m : Cmd) (keys : Option (BitVec 256 × BitVec 256)) (s : State) : State :=
  match keys with
  | none => endFail m (stBadParam 8) s
  | some k => endOk m 0 0 (modCtx m.ctx (fun x => { x with dataKey := some k.1, tweakKey := some k.2, ekgen := x.ekgen + 1 }) s)

section
variable {c : CmdRef} {m : Cmd} {s : State} (h : Starts 0x0105 c m s) (b : List Byte)
include h

theorem execCtxKeyImport_late (hw : (getCtx (markStarted m s) m.ctx).wroteT2 = true) :
    execCtxKeyImport c b s = .next (endFail m (stNotPermitted 0) (markStarted m s)) := by
  simp only [execCtxKeyImport, startCmd_of_starts h, if_pos hw]

theorem execCtxKeyImport_unwraps (hw : (getCtx (markStarted m s) m.ctx).wroteT2 = false) (hn : m.f 1 0 16 = 1656) (h0 : fieldAt b 0 4 = 0x4B494359)
    (h4 : fieldAt b 4 2 = 1) (h6 : fieldAt b 6 2 = m.ctx.toNat) :
    execCtxKeyImport c b s = .next (endKeyImport m (importKeys (markStarted m s) m.ctx b) (markStarted m s)) := by
  simp only [execCtxKeyImport, startCmd_of_starts h]
  rw [if_neg (by simp [hw]), if_neg (by simp [hn, h0, h4, h6])]
  rfl

end

/-- Settles O13: an opening by its version and its keys; new quotas by whether the open context's table changes its size. -/
theorem contextCommandCompletion : Obligations.ContextCommandCompletion := by
  unfold Obligations.ContextCommandCompletion
  refine ⟨fun c m s h => ?_, fun c m s h hs hk he hv => ?_, fun c m s h hs => execCtxOpen_again h hs, fun c m s h => execCtxQuery_answers h,
    fun c m s h => ?_, fun c m b s h => ⟨execCtxKeyImport_late h b, execCtxKeyImport_unwraps h b⟩⟩
  case refine_1 =>
    intro s1 r0 hs hk
    have hopen (hv : m.f 0 16 16 = 1) : execCtxOpen c s = .next (endOpen m s1 s1) := by
      rw [execCtxOpen_matches h hs hv (.inl hk), if_pos hk]
    refine ⟨fun hv hp => (hopen hv).trans ?_, fun hv hp => (hopen hv).trans ?_, fun hv => execCtxOpen_mismatch h hs hk hv⟩
    · rw [endOpen, if_neg (by simp [hp])]
      rfl
    · rw [endOpen, if_pos (by simp [hp])]
  case refine_2 =>
    intro n hn
    refine ⟨_, execCtxOpen_matches h hs hv (.inr (by simp [he])), ?_⟩
    rw [hk, if_neg (by simp)]
    exact endOpen_drawKeys (placeTable_drawKeys hn)
  case refine_3 =>
    intro s1 target ho hs s2 same
    refine ⟨fun hl hsame => (execCtxSetQuota_sets h ho hs hl).trans ?_, fun hl hsame => (execCtxSetQuota_sets h ho hs hl).trans ?_,
      fun hl => execCtxSetQuota_tooFew h ho hs hl⟩
    · rw [if_neg fun hc => hsame.elim (fun hn => hc.1.elim hn.1 hn.2) hc.2]
      rfl
    · rw [if_pos ⟨by_contra fun hn => hsame (.inl (not_or.1 hn)), fun he => hsame (.inr he)⟩]
      rfl

end Sys2Proof.Machine
end

section
/-! Objects (R135 to R145): creation, release and sharing; host accesses, copies and placements. -/

namespace Sys2Proof.Machine

/-! ### OBJ_CREATE (R137) -/

/-- The entry that an OBJ_CREATE makes at its place. -/
def createdObj (m : Cmd) (die loc : Nat) : Obj :=
  { Obj.fresh with
    type := BitVec.ofNat 8 (m.f 0 0 8), state := 1, tier := m.f 0 8 8, portDie := die, flitsPerBlock := m.f 0 32 11, size := m.p 1, location := loc }

/-- The created object at INDEX i, its n blocks taken and its charge added. -/
def createAt (m : Cmd) (die loc n i : Nat) (s : State) : State :=
  putObj m.ctx i (createdObj m die loc)
    (charge m.ctx (t1Charge (m.f 0 8 8) (m.p 1)) (t2Charge (m.f 0 8 8) (m.p 1)) (takeBlocks (loc / 65536) n s))

section
variable {c : CmdRef} {m : Cmd} {s : State} (h : Starts 0x0201 c m s)
include h

theorem execObjCreate_refused {st : Status} (hc : createCheck (markStarted m s) m = some st) :
    execObjCreate c s = .next (endFail m st (markStarted m s)) := by
  simp only [execObjCreate, startCmd_of_starts h, hc]

variable (hc : createCheck (markStarted m s) m = none)
include hc

theorem execObjCreate_creates {die loc n i : Nat}
    (hp : placeFor (markStarted m s) (m.f 0 0 8) (m.f 0 8 8) (m.f 0 16 8) (m.p 1) = some (die, loc, n)) (hi : freeIndex (markStarted m s) m.ctx = some i) :
    let s2 := createAt m die loc n i (markStarted m s)
    execObjCreate c s = .next (endOk m (i + 65536 * (getObj s2 m.ctx i).gen.toNat) 0 s2) := by
  simp only [execObjCreate, startCmd_of_starts h, hc, hp, hi]
  rfl

theorem execObjCreate_noPlace (hp : placeFor (markStarted m s) (m.f 0 0 8) (m.f 0 8 8) (m.f 0 16 8) (m.p 1) = none) :
    execObjCreate c s = .next (endFail m (stNoSpace 0) (markStarted m s)) := by
  simp only [execObjCreate, startCmd_of_starts h, hc, hp]

end

/-! ### OBJ_FREE and its release (R139, R140) -/

section
variable {c : CmdRef} {m : Cmd} {s : State} (h : Starts 0x0202 c m s)
include h

theorem execObjFree_frees {o : Obj} (ho : objFor (markStarted m s) m (m.f 0 0 32) = some o)
    (hr : freeRefusal (markStarted m s) m.ctx (m.f 0 0 32) = none) :
    execObjFree c s = .next (modObj m.ctx (hIndex (m.f 0 0 32)) (fun o => { o with state := 3 }) (markStarted m s)) := by
  simp only [execObjFree, startCmd_of_starts h, ho, hr]

theorem execObjFree_absent (ho : objFor (markStarted m s) m (m.f 0 0 32) = none) :
    execObjFree c s = .next (endFail m (stBadParam 0) (markStarted m s)) := by
  simp only [execObjFree, startCmd_of_starts h, ho]

end

/-- The running OBJ_FREE of the object at INDEX i of a context. -/
def freerOf (s : State) (ctx : CtxId) (i : Nat) : Option Cmd :=
  s.cmds.find? fun m => decide (m.ctx = ctx) && decide (m.opcode = 0x0202) && decide (m.phase = .running) && decide (hIndex (m.f 0 0 32) = i)

/-- An owner whose aliases remain keeps its storage as an orphan (R139). -/
theorem execObjFreeRelease_owner {ctx : CtxId} {i : BitVec 16} {m : Cmd} {s : State} (hm : freerOf s ctx i.toNat = some m)
    (h3 : (getObj s ctx i.toNat).state = 3) (hn : objNamed s ctx i.toNat m.seqno = false) (ha : (getObj s ctx i.toNat).aliased = false) :
    execObjFreeRelease ctx i s = .next (endOk m 0 0
      (if 0 < (getObj s ctx i.toNat).shareCount then modObj ctx i.toNat (fun x => { x with orphan := true }) s else dropObj ctx i.toNat s)) := by
  rw [freerOf] at hm
  simp only [execObjFreeRelease, hm]
  rw [if_neg (by simp [h3, hn]), if_neg (by simp [ha])]

/-! ### OBJ_SHARE (R139) -/

/-- Object o as another context shares it, under the handle h of its owner. -/
def aliasOf (o : Obj) (h : Nat) (owner : CtxId) : Obj :=
  { Obj.fresh with
    type := o.type, state := 1, tier := o.tier, portDie := o.portDie, aliased := true, readOnly := true, flitsPerBlock := o.flitsPerBlock, size := o.size
    location := o.location, ownerHandle := BitVec.ofNat 32 h, ownerCtx := owner }

/-- The context that an OBJ_SHARE names. -/
def shareTarget (m : Cmd) : CtxId := BitVec.ofNat 12 (m.f 0 32 12)

/-- The command's object is shared with the target at INDEX i of its table. -/
def shareAt (m : Cmd) (o : Obj) (i : Nat) (s : State) : State :=
  putObj (shareTarget m) i (aliasOf o (m.f 0 0 32) m.ctx) (modObj m.ctx (hIndex (m.f 0 0 32)) (fun x => { x with shareCount := x.shareCount + 1 }) s)

theorem execObjShare_shares {c : CmdRef} {m : Cmd} {o : Obj} {i : Nat} {s : State} (h : Starts 0x0207 c m s) (hp : bit (m.p 1) 16 = false)
    (hf : fnOf (shareTarget m) = fnOf m.ctx) (ho : objFor (markStarted m s) m (m.f 0 0 32) = some o) (h3 : o.state ≠ 3) (ha : o.aliased = false)
    (ht : (getCtx (markStarted m s) (shareTarget m)).state = 1) (hi : freeIndex (markStarted m s) (shareTarget m) = some i) :
    let s2 := shareAt m o i (markStarted m s)
    execObjShare c s = .next (endOk m (i + 65536 * (getObj s2 (shareTarget m) i).gen.toNat) 0 s2) := by
  rw [shareTarget] at hf ht hi
  simp only [execObjShare, startCmd_of_starts h, hp, Bool.false_eq_true, if_false, ho]
  rw [if_neg (fun hc => hc.1), if_neg (fun hc => hc.2 hf), if_neg h3, if_neg (by simp [ha, ht]), hi]
  rfl

/-- Settles O15: each command in the order of its own refusals. -/
theorem objectLifeCompletion : Obligations.ObjectLifeCompletion := by
  unfold Obligations.ObjectLifeCompletion
  exact ⟨fun c m s h => ⟨fun st hc => execObjCreate_refused h hc, fun die loc n i hc hp hi => execObjCreate_creates h hc hp hi,
      fun hc hp => execObjCreate_noPlace h hc hp⟩,
    fun c m o s h ho hr => execObjFree_frees h ho hr, fun c m s h ho => execObjFree_absent h ho,
    fun ctx i m s hm h3 hn ha => execObjFreeRelease_owner hm h3 hn ha,
    fun c m o i s h hp hf ho h3 ha ht hi => execObjShare_shares h hp hf ho h3 ha ht hi⟩

/-! ### Host accesses (R143, R296) -/

section
variable {c : CmdRef} {m : Cmd} {o : Obj} {s : State}

theorem outside_eq_false {o : Obj} {off n : Nat} (h : off + n ≤ o.size) : ¬outside o off n = true := by simpa [outside] using h

section
variable (h : Starts 0x0206 c m s) (hh : accessHeld s m (m.f 0 0 32) (m.p 1) (m.p 3) false = false)
include h hh

theorem execObjReadHost_absent (ho : objFor (markStarted m s) m (m.f 0 0 32) = none) :
    execObjReadHost c s = .next (endFail m (stBadParam 0) (markStarted m s)) := by
  rw [execObjReadHost, startHeld_of_starts h (by exact hh)]
  simp only [ho]

variable (ho : objFor (markStarted m s) m (m.f 0 0 32) = some o)
include ho

theorem execObjReadHost_outside (hb : outside (storageOf (markStarted m s) o) (m.p 1) (m.p 3) = true) :
    execObjReadHost c s = .next (endFail m (stBadParam 7) (markStarted m s)) := by
  rw [execObjReadHost, startHeld_of_starts h (by exact hh)]
  simp only [ho, if_pos hb]

variable (hb : ¬outside (storageOf (markStarted m s) o) (m.p 1) (m.p 3) = true)
include hb

theorem execObjReadHost_lost (hl : (storageOf (markStarted m s) o).lost = true) :
    execObjReadHost c s = .next (endFail m (stFaultContained 0x50) (markStarted m s)) := by
  rw [execObjReadHost, startHeld_of_starts h (by exact hh)]
  simp only [ho, if_neg hb, if_pos hl]

theorem execObjReadHost_delivers (hl : (storageOf (markStarted m s) o).lost = false) :
    execObjReadHost c s = .next (endOk m 0 0
      (dmaWrite m.ctx (m.p 2) (objBytes (markStarted m s) (storageOf (markStarted m s) o) (m.p 1) (m.p 3)) (markStarted m s))) := by
  rw [execObjReadHost, startHeld_of_starts h (by exact hh)]
  simp only [ho, if_neg hb, hl, Bool.false_eq_true, if_false]

end

theorem execObjWriteHost_enters (h : Starts 0x0205 c m s) (hh : accessHeld s m (m.f 0 0 32) (m.p 1) (m.p 3) true = false)
    (ho : objFor (markStarted m s) m (m.f 0 0 32) = some o) (hb : m.p 1 + m.p 3 ≤ o.size) (hr : o.isReadOnly = false) (d : List Byte) :
    let r := writeObj m.ctx (hIndex (m.f 0 0 32)) (m.p 1) (bytesAt d 0 (m.p 3)) (markStarted m s)
    execObjWriteHost c d s = .next (if r.1 then endOk m 0 0 r.2 else endWith m (stNoSpace 0) false 0 0 r.2) := by
  rw [execObjWriteHost, startHeld_of_starts h (by exact hh)]
  simp only [ho, if_neg (outside_eq_false hb), hr, Bool.false_eq_true, if_false]

end

/-! ### OBJ_COPY (R145) -/

/-- The chain of movers that an OBJ_COPY starts. -/
def copyStream (m : Cmd) : Stream :=
  { use := .copy, cmd := some m.ref, list := 0, closing := false, order := 0, pan := 16, ctx := m.ctx, kind := 0, rt := false, port := 0, vq := 0, dies := []
    handle := BitVec.ofNat 32 (m.f 0 0 32), offset := m.p 1, length := m.p 3
    dstHandle := BitVec.ofNat 32 (m.f 0 32 32), dstOffset := m.p 2, deadlineUs := 0, firstRequest := none, done := 0, issued := 0
    kv := none, asked := 0, read := 0, landed := [], arrived := [], block := [], openEpoch := none, late := false, phase := .running }

/-- The chain stands among the streams under the next number. -/
def startCopy (m : Cmd) (s : State) : State :=
  s.onMem fun e => { e with streams := tput none e.streams e.nextStream (some (copyStream m)), nextStream := e.nextStream + 1 }

theorem execObjCopy_starts {c : CmdRef} {m : Cmd} {a b : Obj} {s : State} (h : Starts 0x0204 c m s)
    (hw : accessHeld s m (m.f 0 32 32) (m.p 2) (m.p 3) true = false) (hr : accessHeld s m (m.f 0 0 32) (m.p 1) (m.p 3) false = false)
    (ha : objFor (markStarted m s) m (m.f 0 0 32) = some a) (hb : objFor (markStarted m s) m (m.f 0 32 32) = some b) (h1 : m.p 1 % 64 = 0)
    (h2 : m.p 2 % 64 = 0) (h3 : m.p 3 % 64 = 0) (hn : m.p 3 ≠ 0) (hoa : outside (storageOf (markStarted m s) a) (m.p 1) (m.p 3) = false)
    (hob : outside b (m.p 2) (m.p 3) = false) (hro : b.isReadOnly = false) (hl : (storageOf (markStarted m s) a).lost = false) :
    execObjCopy c s = .next (startCopy m (markStarted m s)) := by
  rw [execObjCopy, startHeld_of_starts h (by simp [hw, hr])]
  simp only [ha, hb]
  rw [if_neg (by simp [h1, h2, h3, hoa, hob]), if_neg (by simp [hro]), if_neg (by simp [hl]), if_neg hn]
  rfl

theorem getStream_startCopy (m : Cmd) (s : State) : getStream (startCopy m s) s.mem.nextStream = some (copyStream m) :=
  tget_tput_of_ne (Option.some_ne_none _) _ _

/-! ### OBJ_PLACE (R138) -/

/-- The object that OBJ_PLACE moves within tiers 0 and 1: its pages are MOVING, and its destination is noted. -/
def movingObj (m : Cmd) (pd loc : Nat) (o : Obj) : Obj :=
  { o with
    state := 2
    pages := o.pages.map fun p => if p.2.state = 1 then (p.1, { p.2 with state := 3 }) else p
    move := some { tier := m.f 0 32 8, portDie := pd, location := loc, pages := [], cmd := m.ref } }

/-- An object that does not move, with no page away, holds no OBJ_PLACE back. -/
theorem place_notHeld {o : Obj} (h : o.state ≠ 2) (ha : o.tier ≠ 2 ∨ rangeAway o 0 o.size = false) :
    (decide (o.state = 2) || (decide (o.tier = 2) && rangeAway o 0 o.size)) = false := by
  rw [decide_eq_false h, Bool.false_or, Bool.and_eq_false_iff, decide_eq_false_iff_not]
  exact ha

section
variable {c : CmdRef} {m : Cmd} {o : Obj} {s : State} (h : Starts 0x0203 c m s) (ho0 : objFor s m (m.f 0 0 32) = some o) (h2 : o.state ≠ 2)
  (haway : o.tier ≠ 2 ∨ rangeAway o 0 o.size = false) (ho : objFor (markStarted m s) m (m.f 0 0 32) = some o) (ht : m.f 0 32 8 ≤ 2)
  (hd : m.f 0 40 8 ≤ 11 ∨ m.f 0 40 8 = 0xFF) (ha : o.aliased = false) (hr : placeRefused (markStarted m s) m.ctx (m.f 0 0 32) (m.f 0 32 8) = false)
  (h9 : o.type ≠ 9) (hrule : tierRule o.type.toNat (m.f 0 32 8) = true)
include h ho0 h2 haway ho ht hd ha hr h9 hrule

theorem execObjPlace_there (hs : samePlace o (m.f 0 32 8) (m.f 0 40 8) = true) : execObjPlace c s = .next (endOk m 0 0 (markStarted m s)) := by
  rw [execObjPlace, startHeld_of_starts h (by simp only [ho0]; exact place_notHeld h2 haway)]
  simp only [ho]
  rw [if_neg (by omega), if_neg (by simp [ha, hr]), if_neg fun hc => hc.elim h9 (by simp [hrule]), if_pos hs]

theorem execObjPlace_moves {pd loc n : Nat} (hs : samePlace o (m.f 0 32 8) (m.f 0 40 8) = false) (htn : m.f 0 32 8 ≠ 2)
    (hq : overQuota (markStarted m s) m.ctx (t1Charge (m.f 0 32 8) o.size) (t2Charge (m.f 0 32 8) o.size) (t1Use (markStarted m s) m.ctx) = false)
    (hp : placeFor (markStarted m s) o.type.toNat (m.f 0 32 8) (m.f 0 40 8) o.size = some (pd, loc, n)) :
    execObjPlace c s = .next (modObj m.ctx (hIndex (m.f 0 0 32)) (movingObj m pd loc)
      (charge m.ctx (t1Charge (m.f 0 32 8) o.size) 0 (takeBlocks (loc / 65536) n (markStarted m s)))) := by
  rw [execObjPlace, startHeld_of_starts h (by simp only [ho0]; exact place_notHeld h2 haway)]
  simp only [ho]
  rw [if_neg (by omega), if_neg (by simp [ha, hr]), if_neg fun hc => hc.elim h9 (by simp [hrule]), if_neg (by simp [hs]), if_neg (by simp [hq]), if_neg htn, hp]
  simp only [takeFrames, t2Charge, if_neg htn]
  rfl

end

/-! ### OBJ_MOVE_DONE (R138) -/

/-- The object's page table with the pages that were MOVING in their old places. -/
def backPages (o : Obj) : Tab PageEntry := o.pages.map fun p => if p.2.state = 3 then (p.1, { p.2 with state := 1 }) else p

/-- The object of context ctx at INDEX i after its move v, its old copy kept for those that still use it. -/
def movedObj (s : State) (ctx : CtxId) (i : Nat) (v : Move) : Obj :=
  let o := getObj s ctx i
  { o with
    state := if o.state = 2 then 1 else o.state, tier := v.tier, portDie := v.portDie, location := v.location, pages := v.pages
    move := none
    oldCopy := some { tier := o.tier, location := o.location, pages := backPages o, readers := readersOf s ctx i
                      streams := streamsOf s ctx i, steps := slotSteps s ctx i } }

/-- The object stands at its destination with its contents, and what named its old place follows. -/
def moveObj (s : State) (ctx : CtxId) (i : Nat) (v : Move) : State :=
  let o := getObj s ctx i
  let s1 := refreshSlots ctx i o.location (modObj ctx i (fun _ => movedObj s ctx i v)
    (s.onMem fun m => { m with bytes := pokeObj (movedObj s ctx i v) 0 (objBytes s { o with pages := backPages o } 0 o.size) m.bytes }))
  if o.type = 6 then moveKv ctx o.location v.location o.size s1 else s1

/-- The command of a move ends, where it is still there. -/
def endMover (v : Move) (s : State) : State := match findCmd s v.cmd with | some m => endOk m 0 0 s | none => s

theorem execObjMoveDone_moves {ctx : CtxId} {i : BitVec 16} {v : Move} {s : State} (hv : (getObj s ctx i.toNat).move = some v) :
    execObjMoveDone ctx i s = .next (reapOld (endMover v (moveObj s ctx i.toNat v))) := by
  have hmoves : execObjMoveDone ctx i s = .next (match (getObj s ctx i.toNat).move with
      | none => s
      | some v => reapOld (endMover v (moveObj s ctx i.toNat v))) := rfl
  rw [hmoves, hv]

/-- Settles O16: accesses, copies and placements where no rule refuses them, and the end of a move. -/
theorem objectAccessCompletion : Obligations.ObjectAccessCompletion := by
  unfold Obligations.ObjectAccessCompletion
  exact ⟨fun c m o s h hh ho => ⟨fun hb => execObjReadHost_outside h hh ho (decide_eq_true hb),
      fun hb hl => execObjReadHost_lost h hh ho (outside_eq_false hb) hl, fun hb hl => execObjReadHost_delivers h hh ho (outside_eq_false hb) hl⟩,
    fun c m d o s h hh ho hb hr => execObjWriteHost_enters h hh ho hb hr d,
    fun c m a b s h hw hr ha hb h1 h2 h3 hn hoa hob hro hl => ⟨_, execObjCopy_starts h hw hr ha hb h1 h2 h3 hn hoa hob hro hl, rfl, rfl,
      ⟨_, getStream_startCopy m _, rfl, rfl, rfl, rfl, rfl, rfl⟩, rfl⟩,
    fun c m o s h ho0 h2 haway ho ht hd ha hr h9 hrule => ⟨execObjPlace_there h ho0 h2 haway ho ht hd ha hr h9 hrule,
      fun pd loc n hs htn hq hp => execObjPlace_moves h ho0 h2 haway ho ht hd ha hr h9 hrule hs htn hq hp⟩,
    fun ctx i v s hv => ⟨_, execObjMoveDone_moves hv, rfl⟩⟩

end Sys2Proof.Machine
end

section
/-! What goes to a host buffer (chapter 11): the bytes stand from the buffer's address on, and nothing around them changes. -/

namespace Sys2Proof.Machine

/-- Host memory of t is that of s but for n bytes of context c's buffer at a. -/
def HostSameOutside (c : CtxId) (a n : Nat) (s t : State) : Prop :=
  ∀ b, b < hostAddr s c a ∨ hostAddr s c a + n ≤ b → memGet t.host.mem b = memGet s.host.mem b

section
variable {c : CtxId} {a n : Nat} {s t u : State}

theorem HostSameOutside.of_host_eq (h : t.host = s.host) : HostSameOutside c a n s t := fun b _ => by rw [h]

/-- What follows the write leaves host memory. -/
theorem HostSameOutside.trans_host (h : HostSameOutside c a n s t) (hu : u.host = t.host) : HostSameOutside c a n s u := fun b hb => by rw [hu, h b hb]

theorem hostSameOutside_dmaWrite {bs : List Byte} (hn : bs.length = n) (m : Cmd) : HostSameOutside c a n s (dmaWrite c a bs (markStarted m s)) :=
  fun _ hb => memGet_memWrite_outside _ (by rw [hn]; exact hb)

end

/-- The fields that an answer to a host buffer may change: all but the array, contexts, tiers, sequences and models. -/
def hostReadMask : Nat := 0x1FFFFF - (2 ^ 7 + 2 ^ 9 + 2 ^ 12 + 2 ^ 13 + 2 ^ 16)

/-- A command within those fields, of which the write to its buffer is known, completes as the statement has it. -/
theorem completes_wrote {i : Instr} {c : CtxId} {a n : Nat} {s t : State} (hx : exec i s = .next t) (hw : Within hostReadMask s t)
    (hb : HostSameOutside c a n s t) :
    Completes i s fun t => t.mem = s.mem ∧ t.arr = s.arr ∧ t.seq = s.seq ∧ t.ctxs = s.ctxs ∧ t.mdl = s.mdl
      ∧ ∀ b, b < hostAddr s c a ∨ hostAddr s c a + n ≤ b → memGet t.host.mem b = memGet s.host.mem b :=
  ⟨t, hx, hw.mem rfl, hw.arr rfl, hw.seq rfl, hw.ctxs rfl, hw.mdl rfl, hb⟩

/-! ### The lengths of what is delivered -/

theorem length_leBytes (n x : Nat) : (leBytes n x).length = n := by
  induction n generalizing x with
  | zero => rfl
  | succ n ih => rw [leBytes, List.length_cons, ih]

theorem length_objBytes (s : State) (o : Obj) (off n : Nat) : (objBytes s o off n).length = n := by
  induction n generalizing off with
  | zero => rfl
  | succ n ih => rw [objBytes, List.length_cons, ih]

theorem length_lifeBytes (s : State) (o n : Nat) : (lifeBytes s o n).length = n := by rw [lifeBytes, List.length_map, List.length_range]

/-- Table 11.18: the record of CTX_QUERY is 256 bytes. -/
theorem length_queryRecord (s : State) (c : CtxId) : (queryRecord s c).length = 256 := by
  unfold queryRecord
  extract_lets x t1 t2 pans
  simp only [List.length_append, length_leBytes]

/-! ### The commands -/

/-- An OBJ_READ_HOST that fails writes nothing; one that succeeds writes the range. -/
theorem execObjReadHost_hostSameOutside {c : CmdRef} {m : Cmd} {s : State} (h : Starts 0x0206 c m s)
    (hh : accessHeld s m (m.f 0 0 32) (m.p 1) (m.p 3) false = false) :
    ∃ t, execObjReadHost c s = .next t ∧ HostSameOutside m.ctx (m.p 2) (m.p 3) s t := by
  cases ho : objFor (markStarted m s) m (m.f 0 0 32) with
  | none => exact ⟨_, execObjReadHost_absent h hh ho, .of_host_eq (endFail_within.host rfl)⟩
  | some o =>
    by_cases hb : outside (storageOf (markStarted m s) o) (m.p 1) (m.p 3) = true
    · exact ⟨_, execObjReadHost_outside h hh ho hb, .of_host_eq (endFail_within.host rfl)⟩
    · cases hl : (storageOf (markStarted m s) o).lost with
      | true => exact ⟨_, execObjReadHost_lost h hh ho hb hl, .of_host_eq (endFail_within.host rfl)⟩
      | false =>
        exact ⟨_, execObjReadHost_delivers h hh ho hb hl, (hostSameOutside_dmaWrite (length_objBytes ..) m).trans_host (endOk_within.host rfl)⟩

/-- The delivered range is read back. -/
theorem memRead_execObjReadHost {c : CmdRef} {m : Cmd} {o : Obj} {s : State} (h : Starts 0x0206 c m s) (hm : Memory.wf s.host.mem = true)
    (hh : accessHeld s m (m.f 0 0 32) (m.p 1) (m.p 3) false = false) (ho : objFor (markStarted m s) m (m.f 0 0 32) = some o)
    (hb : outside (storageOf (markStarted m s) o) (m.p 1) (m.p 3) = false) (hl : (storageOf (markStarted m s) o).lost = false) :
    ∃ t, execObjReadHost c s = .next t ∧ memRead t.host.mem (hostAddr s m.ctx (m.p 2)) (m.p 3)
      = objBytes (markStarted m s) (storageOf (markStarted m s) o) (m.p 1) (m.p 3) := by
  refine ⟨_, execObjReadHost_delivers h hh ho (by simp [hb]) hl, ?_⟩
  rw [endOk_within.host rfl]
  have hr := memRead_memWrite hm (hostAddr s m.ctx (m.p 2)) (objBytes (markStarted m s) (storageOf (markStarted m s) o) (m.p 1) (m.p 3))
  rwa [length_objBytes] at hr

theorem execCtxQuery_hostSameOutside {c : CmdRef} {m : Cmd} {s : State} (h : Starts 0x0103 c m s) :
    ∃ t, execCtxQuery c s = .next t ∧ HostSameOutside m.ctx (m.p 0) (queryRecord s m.ctx).length s t := by
  refine ⟨_, execCtxQuery_answers h, HostSameOutside.trans_host (t := if m.p 0 = 0 then _ else _) ?_ (endOk_within.host rfl)⟩
  split
  · exact .of_host_eq rfl
  · exact hostSameOutside_dmaWrite ((length_queryRecord ..).trans (length_queryRecord ..).symm) m

theorem execFltRead_hostSameOutside {c : CmdRef} {m : Cmd} {s : State} (h : Starts 0x0701 c m s) :
    ∃ t, execFltRead c s = .next t ∧ HostSameOutside m.ctx (m.p 0) (s.flt.history.map histBytes).flatten.length s t := by
  refine ⟨_, execFltRead_answers h, (hostSameOutside_dmaWrite rfl m).trans_host ((endOk_within.host rfl).trans ?_)⟩
  split
  · rw [showHist_within.host rfl, State.onFlt_host]
  · rfl

theorem execLifeRead_hostSameOutside {c : CmdRef} {m : Cmd} {s : State} (h : Starts 0x0703 c m s) :
    ∃ t, execLifeRead c s = .next t ∧ HostSameOutside m.ctx (m.p 0) (m.p 2) s t := by
  by_cases hr : 0x400000 < m.p 1 + m.p 2
  · exact ⟨_, execLifeRead_refused h hr, .of_host_eq (endFail_within.host rfl)⟩
  · exact ⟨_, execLifeRead_copies h (Nat.not_lt.1 hr), (hostSameOutside_dmaWrite (length_lifeBytes ..) m).trans_host (endOk_within.host rfl)⟩

theorem execFabricStatus_hostSameOutside {c : CmdRef} {m : Cmd} {s : State} (h : Starts 0x0805 c m s) :
    ∃ t, execFabricStatus c s = .next t ∧ HostSameOutside m.ctx (m.p 0) (fabricRecord (markStarted m s)).length s t :=
  ⟨_, execFabricStatus_writes h, (hostSameOutside_dmaWrite rfl m).trans_host (endWith_within.host rfl)⟩

/-- Settles O50: each command by its mask and by the length of what it writes. -/
theorem hostReadFrame : Obligations.HostReadFrame := by
  unfold Obligations.HostReadFrame
  refine ⟨fun c m s h _ hh => ?_, fun c m o s h hm hh ho hb hl => memRead_execObjReadHost h hm hh ho hb hl, fun c m s h _ => ?_, fun c m s h _ => ?_,
    fun c m s h _ => ?_, fun c m s h _ => ?_⟩
  · obtain ⟨t, hx, hb⟩ := execObjReadHost_hostSameOutside h hh
    exact completes_wrote hx ((execObjReadHost_within hx).mono rfl) hb
  · obtain ⟨t, hx, hb⟩ := execCtxQuery_hostSameOutside h
    exact completes_wrote hx ((execCtxQuery_within hx).mono rfl) hb
  · obtain ⟨t, hx, hb⟩ := execFltRead_hostSameOutside h
    exact completes_wrote hx ((execFltRead_within hx).mono rfl) hb
  · obtain ⟨t, hx, hb⟩ := execLifeRead_hostSameOutside h
    exact completes_wrote hx ((execLifeRead_within hx).mono rfl) hb
  · obtain ⟨t, hx, hb⟩ := execFabricStatus_hostSameOutside h
    exact completes_wrote hx ((execFabricStatus_within hx).mono rfl) hb

end Sys2Proof.Machine
end

section
/-! Waves, swaps of planes and the balance (R112 to R116, R126, R203). -/

namespace Sys2Proof.Machine

section
variable {n : Fin 16} {p : Pan} {w : Wave} {s : State} (hp : getPan s n = some p)
include hp

/-! ### Starts and ends of waves (R112 to R114) -/

theorem execConfigSwitchWave_starts {l : Load} (hl : p.load = some l) (hd : switchDue s n p l = true) :
    execConfigSwitchWave n s = .next (startWave n 0 l.cmd s) := by
  simp only [execConfigSwitchWave, hp, hl, if_pos hd]

theorem execRouteCommit_ends (hw : p.wave = some w) (hc : w.cls ≠ 1) (hd : ((panDies s p).all fun d => (getDie s d).dieDone) = true) :
    execRouteCommit n s = .next (finishWave n p w s) := by
  simp only [execRouteCommit, hp, hw, if_pos (And.intro hc hd)]

/-- With MODE_SAFE the wave's token waits for the pan's next STEP (R116). -/
theorem execModeWave_waits {g : PanCfg} (hw : p.wave = none) (ha : p.active = some g) (hg : g.modeSafe = true) :
    execModeWave n s = .next (modPan n (fun q => { q with wantMode := some (getFld s (CFG_MODE ((panDies s p).headD 0)) 0 2) }) s) := by
  simp [execModeWave, hp, hw, ha, hg]

theorem execModeWave_starts (hw : p.wave = none) (hg : ∀ g, p.active = some g → g.modeSafe = false) (hd : drained s n p = true) (hr : p.run = none) :
    execModeWave n s = .next (startWave n 1 none s) := by
  cases ha : p.active with
  | none => simp [execModeWave, hp, hw, ha, hd, hr]
  | some g => simp [execModeWave, hp, hw, ha, hg g ha, hd, hr]

/-! ### Swaps of planes (R203) -/

theorem execPreemptSwap_swaps {g : PanCfg} (hs : p.serving = some g) (hj : p.jobActive = true) (hw : p.wave = none) (hr : p.run = none)
    (hl : p.load = none) (hd : drained s n p = true) (hrows : readyRows s n p g false ≠ [] ∨ readyRows s n p g true ≠ []) :
    execPreemptSwap n s = .next (bump SEQ_PREEMPT (startWave n 2 none s)) := by
  simp [execPreemptSwap, hp, hs, hj, hw, hr, hl, hd, hrows]

theorem execPreemptReturn_swaps (hj : p.jobActive = false) (hs : p.shadow.isSome = true) (hq : jobWaits s n = true) (hw : p.wave = none)
    (hr : p.run = none) (hl : p.load = none) (hd : drained s n p = true) :
    execPreemptReturn n s = .next (bump SEQ_PREEMPT (startWave n 2 none s)) := by
  simp [execPreemptReturn, hp, hj, hs, hq, hw, hr, hl, hd]

end

/-- A die that has nothing pending nor queued reports; the last report of a mode wave ends it (R113). -/
theorem execWaveDieDone_reports {d : Fin 74} {n : Nat} {p : Pan} {w : Wave} {s : State} (hn : dieOfPan s d = some n) (hp : getPan s n = some p)
    (hw : p.wave = some w) (h0 : (getDie s d).pendingTiles = 0) (hq : (getDie s d).quietNow = true) (hx : networkQuiet s d = true)
    (hd : (getDie s d).dieDone = false) (hm : p.wantMode = none) :
    let s1 := modDie d (fun x => { x with dieDone := true }) s
    execWaveDieDone d s = .next (if w.cls = 1 ∧ (panDies s p).all fun q => (getDie s1 q).dieDone then finishWave n p w s1 else s1) := by
  simp [execWaveDieDone, hn, hp, hw, h0, hq, hx, hd, hm]

/-! ### The balance (R126) -/

/-- The model that the pans of a balance set serve. -/
def balanceModel (s : State) (b : BalanceSet) : Nat := (b.pans.findSome? fun n => (getPan s n).bind fun p => p.active.map (·.model)).getD 0

/-- The cost table of the set's pans of a kind. -/
def balanceCost (s : State) (b : BalanceSet) (kind : Nat) : List Nat :=
  ((kindPans s b.pans kind).head?.map fun p => [p.2.2.cost.baseNs, p.2.2.cost.tokNs, p.2.2.cost.ctxNs, p.2.2.cost.maxRows, p.2.2.cost.maxTokens]).getD []

/-- What an evaluation makes of the set, and the way in which it switches a pan. -/
def balanceOutcome (s : State) (b : BalanceSet) : BalanceSet × Option Bool :=
  balanceStep b (prefillPans s b.pans) (Config.pansNeeded (balanceCost s b 0) (demand b (cd0Count s)).2)
    (Config.pansNeeded (balanceCost s b 1) (demand b (cd0Count s)).1) (cd0Count s)

/-- The set with its new streak, and its window cut to 50 ms. -/
def noteBalance (c : CtxId) (b : BalanceSet) (s : State) : State :=
  s.onBalances fun l => l.map fun x =>
    if x.ctx = c then { (balanceOutcome s b).1 with window := (balanceOutcome s b).1.window.filter fun q => decide (cd0Count s ≤ q.1 + msTicks 50) } else x

section
variable {c : CtxId} {b : BalanceSet} {s : State} (hb : (s.balances.find? fun b => decide (b.ctx = c)) = some b)
include hb

/-- Too early, away from a step boundary, or while the model switches, nothing is evaluated. -/
theorem execBalanceEval_skips (h : cd0Count s < b.lastEval + msTicks 50 ∨ (!balanceBoundary s b) = true ∨ (getModel s (balanceModel s b)).state = 2) :
    execBalanceEval c s = .next s := by
  rw [balanceModel] at h
  simp only [execBalanceEval, hb, if_pos h]

variable (ht : b.lastEval + msTicks 50 ≤ cd0Count s) (hs : balanceBoundary s b = true) (hm : (getModel s (balanceModel s b)).state ≠ 2)
include ht hs hm

omit hb in
theorem balance_due : ¬(cd0Count s < b.lastEval + msTicks 50 ∨ (!balanceBoundary s b) = true ∨ (getModel s (balanceModel s b)).state = 2) := by
  rintro (h | h | h)
  · exact absurd h (Nat.not_lt.2 ht)
  · simp [hs] at h
  · exact hm h

theorem execBalanceEval_keeps (hr : (balanceOutcome s b).2 = none) : execBalanceEval c s = .next (noteBalance c b s) := by
  have hdue := balance_due ht hs hm
  rw [balanceModel] at hdue
  rw [balanceOutcome, balanceCost, balanceCost] at hr
  simp only [execBalanceEval, hb, if_neg hdue, hr]
  rfl

/-- Where no pan of the set can give way, the share stands. -/
theorem execBalanceEval_noPan {up : Bool} (hr : (balanceOutcome s b).2 = some up) (hp : balancePan (noteBalance c b s) b up = none) :
    execBalanceEval c s = .next (noteBalance c b s) := by
  have hdue := balance_due ht hs hm
  rw [balanceModel] at hdue
  rw [noteBalance] at hp ⊢
  rw [balanceOutcome, balanceCost, balanceCost] at hr hp ⊢
  simp only [execBalanceEval, hb, if_neg hdue, hr, hp]

end

/-- Settles O18: each wave where it is due; an evaluation by its three reasons to be skipped, and by what it makes of the share. -/
theorem waveCompletion : Obligations.WaveCompletion := by
  unfold Obligations.WaveCompletion
  refine ⟨fun n p l s hp hl hd => execConfigSwitchWave_starts hp hl hd,
    fun d n p w s hn hp hw h0 hq hx hd hm => execWaveDieDone_reports hn hp hw h0 hq hx hd hm,
    fun n p w s hp hw hc hd => execRouteCommit_ends hp hw hc hd,
    fun n p g s hp hw ha hg => execModeWave_waits hp hw ha hg,
    fun n p s hp hw hg hd hr => execModeWave_starts hp hw hg hd hr,
    fun n p g s hp hs hj hw hr hl hd hrows => execPreemptSwap_swaps hp hs hj hw hr hl hd hrows,
    fun n p s hp hj hs hq hw hr hl hd => execPreemptReturn_swaps hp hj hs hq hw hr hl hd,
    fun c b s hb => ⟨fun h => execBalanceEval_skips hb ?_, fun _ _ h => execBalanceEval_skips hb (.inr (.inr h)),
      fun ht hs hm hr => execBalanceEval_keeps hb ht hs hm hr, fun up ht hs hm hr hp => execBalanceEval_noPan hb ht hs hm hr hp⟩⟩
  exact h.imp_right fun hs => .inl (by simp [hs])

end Sys2Proof.Machine
end

section
/-! The model commands (R215, R216, R231 to R233, R328). -/

namespace Sys2Proof.Machine

/-! ### MODEL_IMPORT (R215, R216, R328) -/

/-- The version record that MODEL_IMPORT's manifest and images describe. -/
def importRec (m : Cmd) (s : State) : VerRec :=
  manifestRec (handleBytes s m.ctx (m.f 1 0 32)) (handlePairs m 2) (handlePairs m 4)
    ((handlePairs m 2).map fun h => if h = 0 then [] else bytesAt (handleBytes s m.ctx h) 0x30 8)

/-- The record beside record k of entry e. -/
def otherRec (s : State) (e k : Nat) : VerRec := if (getModel s e).state = 0 then VerRec.empty else (getModel s e).ver (1 - k)

/-- What MODEL_IMPORT checks of its handles, its place, its manifest and its quota before it enters record k of entry e. -/
structure ImportChecked (m : Cmd) (e k : Nat) (s : State) : Prop where
  manifestHandle : handleBad s m 0 (m.f 1 0 32) = none
  imageHandles : (handlePairs m 2).findSome? (handleBad s m 2) = none
  weightHandles : (handlePairs m 4).findSome? (handleBad s m 8) = none
  place : importPlace s m.ctx (m.f 0 0 10) = .inr (e, k)
  named : m.f 1 0 32 ≠ 0
  manifest : manifestBad (importRec m s) (otherRec s e k) = false
  quota : (getModel s e).state = 0 → t1Use s m.ctx + 1 ≤ (getCtx s m.ctx).quota.t1Units

/-- An import over the fabric, which waits for its shards. -/
def fabricImport (m : Cmd) (e k : Nat) (s : State) : FabImport :=
  { cmd := m.ref, entry := e, record := k, source := m.f 6 0 10, digest := Config.shake256 (handleBytes s m.ctx (m.f 1 0 32)),
    ver := importRec m s, shards := importShards s m.ctx (importRec m s).shardSums (handlePairs m 2 ++ handlePairs m 4), lastAt := s.tick, pass := [] }

/-- A checked import of local images is entered. -/
def endImport (m : Cmd) (e k : Nat) (s : State) : State :=
  match enterImport m e k (importRec m s) s with
  | some t => endOk m (e + 65536 * k + 2 ^ 24 * (importRec m s).version) 0 t
  | none => endFail m (stNoSpace 0) s

section
variable {c : CmdRef} {m : Cmd} {e k : Nat} {s : State} (h : Starts 0x0301 c m s) (hc : ImportChecked m e k (markStarted m s))
include h hc

theorem execModelImport_enters (hf : bit (m.p 6) 15 = false)
    (hd : ((handlePairs m 2).all fun h => decide (h = 0) || digestOk (handleBytes (markStarted m s) m.ctx h) 0x30) = true) :
    execModelImport c s = .next (endImport m e k (markStarted m s)) := by
  obtain ⟨hh, hi, hw, hp, hn, hm, hq⟩ := hc
  have hgood : ((handlePairs m 2).any fun h => decide (h ≠ 0) && !digestOk (handleBytes (markStarted m s) m.ctx h) 0x30) = false := by
    simpa [List.any_eq_not_all_not, Bool.not_and] using hd
  rw [importRec, otherRec] at hm
  simp only [execModelImport, startCmd_of_starts h, hh, hi, hw, hp]
  rw [if_neg (by simp [hn, hm]), if_neg (by rw [hgood]; simp), if_neg (fun hx => Nat.not_lt.2 (hq hx.1) hx.2), if_neg (by simp [hf])]
  rfl

theorem execModelImport_asks (hf : bit (m.p 6) 15 = true) :
    let s1 := markStarted m s
    let w := fabricImport m e k s1
    execModelImport c s = .next (sendFrame (ownFrame s1 w.source 1 6 m.ctx false 0 0 (shardHead 0 w.digest 0 0))
      (s1.onMdl fun t => { t with imports := t.imports ++ [w] })) := by
  obtain ⟨hh, hi, hw, hp, hn, hm, hq⟩ := hc
  rw [importRec, otherRec] at hm
  simp only [execModelImport, startCmd_of_starts h, hh, hi, hw, hp]
  rw [if_neg (by simp [hn, hm]), if_neg (by simp [hf]), if_neg (fun hx => Nat.not_lt.2 (hq hx.1) hx.2), if_pos hf]
  rfl

/-- An import over the fabric is listed; its command goes on. -/
theorem modelImport_asks_completes (hf : bit (m.p 6) 15 = true) :
    Completes (.modelImport c) s fun t =>
      t.mdl.imports = s.mdl.imports ++ [fabricImport m e k (markStarted m s)] ∧ t.cmds = (markStarted m s).cmds :=
  ⟨_, execModelImport_asks h hc hf, congrArg ModelState.imports (sendFrame_within.mdl rfl), sendFrame_within.cmds rfl⟩

end

/-! ### MODEL_SWITCH and its flip (R231 to R233) -/

/-- A switch to record k that its checks let through: the entry is SWITCHING, and the pans whose image changes load theirs. -/
def startSwitch (m : Cmd) (e k : Nat) (s : State) : State :=
  let x := getModel s e
  let ps := (modelPans s m.ctx e).filter fun p => imageChanges x.cur (x.ver k) p.2.2.kind
  match switchLoads m.ctx e (x.ver k) ps
      (modModel e (fun x => { x with state := 2, switch := some { cmd := m.ref, target := k, pans := ps.map (·.1), flipped := false } }) s) with
  | .inl st => endFail m st s
  | .inr t => t

section
variable {c : CmdRef} {m : Cmd} {s : State} (h : Starts 0x0305 c m s)
include h

theorem execModelSwitch_refused {st : Status} (hr : switchRefusal (markStarted m s) m.ctx (m.f 0 0 10) (m.f 0 16 1) = some st) :
    execModelSwitch c s = .next (endFail m st (markStarted m s)) := by
  simp only [execModelSwitch, startCmd_of_starts h, hr]

theorem execModelSwitch_switches (hr : switchRefusal (markStarted m s) m.ctx (m.f 0 0 10) (m.f 0 16 1) = none) :
    execModelSwitch c s = .next (startSwitch m (m.f 0 0 10) (m.f 0 16 1) (markStarted m s)) := by
  simp only [execModelSwitch, startCmd_of_starts h, hr]
  rfl

end

/-- The named record is CURRENT and the other PREVIOUS, and the live entries of the model take the new version. -/
def flipVersion (e : Nat) (w : SwitchWork) (s : State) : State :=
  let x := getModel s e
  let mine := (liveEntries s).filter fun q => decide (q.2.ctx = x.ctx) && decide (q.2.model = e)
  mine.foldl (fun s q => modEntry q.1 (fun y => { y with modelVer := BitVec.ofNat 8 (x.ver w.target).version }) s)
    (modModel e (fun x =>
      let y := (x.onVer w.target fun v => { v with vstate := 2 }).onVer (1 - w.target) fun v => { v with vstate := 3 }
      { y with current := w.target, switch := some { w with flipped := true } }) s)

/-- With the draft image unchanged no proposal is dropped. -/
theorem execModelVersionFlip_flips {e : BitVec 10} {w : SwitchWork} {s : State} (hw : (getModel s e.toNat).switch = some w) (hf : w.flipped = false)
    (hr : switchReady s w = true) (hd : imageChanges (getModel s e.toNat).cur ((getModel s e.toNat).ver w.target) 2 = false) :
    execModelVersionFlip e s = .next (settleSwitch e.toNat (flipVersion e.toNat w s)) := by
  simp only [execModelVersionFlip, hw]
  rw [if_neg (by simp [hf, hr]), if_neg (by simp [hd])]
  rfl

/-! ### MODEL_EVICT (R216) -/

/-- Record k of entry e, once it may be evicted: a CURRENT one only as the last and on no pan, with which its entry is UNAVAILABLE. -/
def evictRec (m : Cmd) (e k : Nat) (s : State) : State :=
  let x := getModel s e
  if (x.ver k).vstate = 2 then
    if (x.ver (1 - k)).vstate ≠ 0 ∨ verOnPan s e (x.ver k) then endFail m (stNotPermitted 0) s
    else endOk m 0 0 (modModel e (fun x => { x.onVer k (fun _ => VerRec.empty) with state := 3 }) s)
  else endOk m 0 0 (modModel e (fun x => x.onVer k fun _ => VerRec.empty) s)

theorem evictRec_idle {m : Cmd} {e k : Nat} {s : State} (h : ((getModel s e).ver k).vstate ≠ 2) :
    evictRec m e k s = endOk m 0 0 (modModel e (fun x => x.onVer k fun _ => VerRec.empty) s) := if_neg h

theorem evictRec_last {m : Cmd} {e k : Nat} {s : State} (h : ((getModel s e).ver k).vstate = 2) (ho : ((getModel s e).ver (1 - k)).vstate = 0)
    (hp : verOnPan s e ((getModel s e).ver k) = false) :
    evictRec m e k s = endOk m 0 0 (modModel e (fun x => { x.onVer k (fun _ => VerRec.empty) with state := 3 }) s) := by
  rw [evictRec, if_pos h, if_neg (by simp [ho, hp])]

theorem evictRec_current {m : Cmd} {e k : Nat} {s : State} (h : ((getModel s e).ver k).vstate = 2) (ho : ((getModel s e).ver (1 - k)).vstate ≠ 0) :
    evictRec m e k s = endFail m (stNotPermitted 0) s := by
  rw [evictRec, if_pos h, if_pos (.inl ho)]

/-- MODEL_EVICT is held by nothing but a step that runs the PREVIOUS record. -/
theorem execModelEvict_evicts {c : CmdRef} {m : Cmd} {s : State} (h : Starts 0x0306 c m s)
    (hv : ((getModel (markStarted m s) (m.f 0 0 10)).ver (m.f 0 16 1)).vstate ≠ 0) (hx : (getModel (markStarted m s) (m.f 0 0 10)).ctx = m.ctx)
    (hs : (getModel (markStarted m s) (m.f 0 0 10)).state = 1 ∨ (getModel (markStarted m s) (m.f 0 0 10)).state = 3)
    (hf : ((getModel (markStarted m s) (m.f 0 0 10)).ver (m.f 0 16 1)).vstate = 2
      ∨ verInFlight s (m.f 0 0 10) ((getModel s (m.f 0 0 10)).ver (m.f 0 16 1)).version = false) :
    execModelEvict c s = .next (evictRec m (m.f 0 0 10) (m.f 0 16 1) (markStarted m s)) := by
  have h0 : (getModel (markStarted m s) (m.f 0 0 10)).state ≠ 0 := fun h0 => by simp [h0] at hs
  have h2 : (getModel (markStarted m s) (m.f 0 0 10)).state ≠ 2 := fun h2 => by simp [h2] at hs
  have hfree : (decide (((getModel s (m.f 0 0 10)).ver (m.f 0 16 1)).vstate = 3)
      && verInFlight s (m.f 0 0 10) ((getModel s (m.f 0 0 10)).ver (m.f 0 16 1)).version) = false := by
    rcases hf with hc | hf
    · rw [show ((getModel s (m.f 0 0 10)).ver (m.f 0 16 1)).vstate = 2 from hc]; rfl
    · rw [hf, Bool.and_false]
  rw [execModelEvict, startHeld_of_starts h (by rw [Bool.and_assoc, hfree, Bool.and_false])]
  dsimp only
  rw [if_neg h0, if_neg (not_not.2 hx), if_neg h2, if_neg hv]
  rfl

/-- Settles O19: an import by its checks, a switch by its refusals, a flip whose draft image stands, and an eviction by the record's state. -/
theorem modelCompletion : Obligations.ModelCompletion := by
  unfold Obligations.ModelCompletion
  refine ⟨fun c m e k s h hh hi hw hp hn hm hq => ?_, fun c m s h => ⟨fun st hr => execModelSwitch_refused h hr,
    fun hr => execModelSwitch_switches h hr⟩, fun e w s hw hf hr hd => execModelVersionFlip_flips hw hf hr hd,
    fun c m s h hv hx hs => ⟨fun hc hf => ?_, fun hc ho hp => ?_, fun hc ho => ?_⟩⟩
  · have hc : ImportChecked m e k (markStarted m s) := ⟨hh, hi, hw, hp, hn, hm, hq⟩
    exact ⟨fun hf hd => execModelImport_enters h hc hf hd, fun hf => modelImport_asks_completes h hc hf⟩
  · exact (execModelEvict_evicts h hv hx hs (.inr hf)).trans (congrArg _ (evictRec_idle hc))
  · exact (execModelEvict_evicts h hv hx hs (.inl hc)).trans (congrArg _ (evictRec_last hc ho hp))
  · exact (execModelEvict_evicts h hv hx hs (.inl hc)).trans (congrArg _ (evictRec_current hc ho))

end Sys2Proof.Machine
end

section
/-! Adapter slots and steering sets (R219, R220, R229). -/

namespace Sys2Proof.Machine

/-! ### ADP_LOAD and ADP_UNLOAD (R219) -/

/-- The READY slot n that a verified adapter object fills under the next GEN. -/
def loadedSlot (m : Cmd) (s : State) (n : Nat) : AdpSlot :=
  let h := m.f 0 0 32
  let b := objBytes s (storageOf s (getObj s m.ctx (hIndex h))) 0 64
  { handle := h, ctx := m.ctx, model := m.f 0 32 10, state := 2, format := fieldAt b 4 1, rank := fieldAt b 5 1,
    gen := ((getSlot s n).gen + 1) % 256, dataAddr := adapterAddr s m.ctx h (fieldAt b 0x18 8), bytesPerPoint := fieldAt b 8 4,
    lastEpoch := (getSlot s n).lastEpoch }

section
variable {c : CmdRef} {m : Cmd} {s : State} (h : Starts 0x0501 c m s) (hl : bit (m.p 1) 0 = false)
  (hu : ¬(m.f 0 48 16 < 8192 ∧ (getSlot s (m.f 0 48 16)).state = 3 ∧ (getSlot s (m.f 0 48 16)).ctx = m.ctx))
include h hl hu

theorem execAdpLoad_refused {st : Status} (hr : adpRefusal (markStarted m s) m = some st) :
    execAdpLoad c s = .next (endFail m st (markStarted m s)) := by
  rw [execAdpLoad, startHeld_of_starts h (by simpa [hl, and_assoc] using hu)]
  simp only [hr]

/-- The slot is the named one, or with 0xFFFF the lowest that is FREE. -/
theorem execAdpLoad_loads {n : Nat} (hr : adpRefusal (markStarted m s) m = none)
    (hn : m.f 0 48 16 = n ∧ n ≠ 0xFFFF ∨ m.f 0 48 16 = 0xFFFF ∧ freeSlot (markStarted m s) = some n) :
    execAdpLoad c s = .next (endOk m (n + 65536 * (((getSlot s n).gen + 1) % 256)) 0
      (bump ADP_LOADS (modSlot n (fun _ => loadedSlot m (markStarted m s) n) (markStarted m s)))) := by
  have hslot : (if m.f 0 48 16 = 0xFFFF then freeSlot (markStarted m s) else some (m.f 0 48 16)) = some n := by
    rcases hn with ⟨rfl, hn⟩ | ⟨hn, hf⟩
    · rw [if_neg hn]
    · rw [if_pos hn, hf]
  rw [execAdpLoad, startHeld_of_starts h (by simpa [hl, and_assoc] using hu)]
  simp only [hr, hslot]
  rfl

end

section
variable {c : CmdRef} {m : Cmd} {s : State} (h : Starts 0x0501 c m s) (hl : bit (m.p 1) 0 = true) (hn : m.f 0 48 16 ≤ 8191)
  (hs : (getSlot (markStarted m s) (m.f 0 48 16)).state = 2) (hc : (getSlot (markStarted m s) (m.f 0 48 16)).ctx = m.ctx)
include h hl hn hs hc

/-- A READY slot of the context is UNLOADING unless a live sequence is bound to it. -/
theorem execAdpUnload_unloads :
    execAdpUnload c s = .next (if 0 < slotBinds (markStarted m s) (m.f 0 48 16) then endFail m (stNotPermitted 0x26) (markStarted m s)
      else settleSlots (modSlot (m.f 0 48 16) (fun x => { x with state := 3 }) (markStarted m s))) := by
  rw [execAdpUnload, startHeld_of_starts h (by simp [hl])]
  dsimp only
  rw [if_neg (Nat.not_lt.2 hn), if_neg (fun hx => hx.2 hc), if_neg (not_not.2 hs)]

end

/-! ### ADP_BIND (R220) -/

/-- A slot that a sequence may name is bound with its scale. -/
theorem execAdpBind_binds {c : CmdRef} {m : Cmd} {i : Nat} {e : SeqEntry} {s : State} (h : Starts 0x0502 c m s)
    (he : findEntry s m.ctx (BitVec.ofNat 64 (m.p 0)) = some (i, e)) :
    let s1 := markStarted m s
    execAdpBind c s = .next (if !adapterOk s1 m.ctx e.model (m.f 1 0 16) then endFail m (stBadParam 0x27) s1
      else endOk m 0 0 (modEntry i (fun y => { y with
        adapterSlot := BitVec.ofNat 16 (m.f 1 0 16), adapterScale := BitVec.ofNat 16 (m.f 1 16 16) }) s1)) := by
  have he1 : findEntry (markStarted m s) m.ctx (BitVec.ofNat 64 (m.p 0)) = some (i, e) := he
  simp only [execAdpBind, startCmd_of_starts h, he1]

/-! ### STEER_SET (R229) -/

/-- The sets that the next copy of the named entry holds. -/
def nextSets (m : Cmd) (data : List Byte) (s : State) : List (Nat × SteerSet × List Byte) :=
  let d := bytesAt data 0 (m.f 2 0 14)
  steerBuild s (getModel s (m.f 0 0 10)) (m.f 0 16 4) (if bit (m.p 0) 24 then none else some (d.drop 64, hostSet d))

/-- The copy that is not live is built and made live. -/
def flipSteer (m : Cmd) (data : List Byte) (s : State) : State :=
  let x := getModel s (m.f 0 0 10)
  bump ADP_STEER_FLIPS (modModel (m.f 0 0 10) (fun y => { y with steerLive := 1 - x.steerLive })
    (s.onMem fun w => { w with
      bytes := memWrite w.bytes (steerCopy x (1 - x.steerLive)) (steerBytes (nextSets m data s) 256 (List.replicate 16384 0)) }))

/-- A cleared set is bound to no live sequence; a new one is in form and has its place in the mirror. -/
theorem execSteerSet_flips {c : CmdRef} {m : Cmd} {data : List Byte} {s : State} (h : Starts 0x0503 c m s) (hu : steerInUse s (m.f 0 0 10) = false)
    (hx : (getModel (markStarted m s) (m.f 0 0 10)).ctx = m.ctx)
    (hs : (getModel (markStarted m s) (m.f 0 0 10)).state = 1 ∨ (getModel (markStarted m s) (m.f 0 0 10)).state = 2)
    (hclear : bit (m.p 0) 24 = true → ((liveEntries (markStarted m s)).all fun q => decide (q.2.ctx ≠ m.ctx) || decide (q.2.model ≠ m.f 0 0 10)
      || decide (q.2.steerSlot.toNat ≠ m.f 0 16 4)) = true)
    (hnew : bit (m.p 0) 24 = false → setBad (hostSet (bytesAt data 0 (m.f 2 0 14))) ((bytesAt data 0 (m.f 2 0 14)).drop 64)
      (getModel (markStarted m s) (m.f 0 0 10)).cur = false ∧ mirrorRoom (markStarted m s) 0 = true)
    (hfit : ((nextSets m data (markStarted m s)).map fun q => ceilDiv q.2.2.length 64 * 64).foldl (· + ·) 0 ≤ 16128) :
    execSteerSet c data s = .next (endOk m 0 0 (flipSteer m data (markStarted m s))) := by
  have hpresent : ¬((getModel (markStarted m s) (m.f 0 0 10)).state = 0 ∨ (getModel (markStarted m s) (m.f 0 0 10)).state = 3) := by
    rcases hs with hs | hs <;> simp [hs]
  have hunnamed : ¬(bit (m.p 0) 24 = true ∧ ((liveEntries (markStarted m s)).any fun q => decide (q.2.ctx = m.ctx) && decide (q.2.model = m.f 0 0 10)
      && decide (q.2.steerSlot.toNat = m.f 0 16 4)) = true) := by
    rintro ⟨hb, hn⟩
    obtain ⟨q, hq, hnamed⟩ := List.any_eq_true.1 hn
    have hfree := List.all_eq_true.1 (hclear hb) q hq
    simp only [Bool.and_eq_true, decide_eq_true_eq] at hnamed
    simp [hnamed] at hfree
  have hform : ¬((!bit (m.p 0) 24) = true ∧ setBad (hostSet (bytesAt data 0 (m.f 2 0 14))) ((bytesAt data 0 (m.f 2 0 14)).drop 64)
      (getModel (markStarted m s) (m.f 0 0 10)).cur = true) := by
    rintro ⟨hb, hbad⟩
    simp [(hnew (by simpa using hb)).1] at hbad
  have hroom : ¬(16128 < ((nextSets m data (markStarted m s)).map fun q => ceilDiv q.2.2.length 64 * 64).foldl (· + ·) 0
      ∨ (!bit (m.p 0) 24) = true ∧ (!mirrorRoom (markStarted m s) 0) = true) := by
    rintro (hbig | ⟨hb, hfull⟩)
    · exact Nat.not_lt.2 hfit hbig
    · simp [(hnew (by simpa using hb)).2] at hfull
  rw [nextSets] at hroom
  rw [execSteerSet, startHeld_of_starts h (by exact hu)]
  dsimp only
  rw [if_neg (fun hn => hn.2 hx), if_neg hpresent, if_neg hunnamed, if_neg hform, if_neg hroom]
  rfl

/-- Settles O20: each command by the checks that let it through, ADP_LOAD with its refusals in Table 8.5's order. -/
theorem adapterCompletion : Obligations.AdapterCompletion := by
  unfold Obligations.AdapterCompletion
  refine ⟨fun c m n s h hl hu => ⟨fun st hr => execAdpLoad_refused h hl hu hr, fun hr hn => execAdpLoad_loads h hl hu hr hn⟩,
    fun c m s h hl hn hs hc => ⟨fun h0 => (execAdpUnload_unloads h hl hn hs hc).trans (congrArg _ (if_neg (Nat.not_lt.2 (Nat.le_of_eq h0)))),
      fun h0 => (execAdpUnload_unloads h hl hn hs hc).trans (congrArg _ (if_pos h0))⟩,
    fun c m i e s h he => ⟨fun ha => (execAdpBind_binds h he).trans (congrArg _ (if_neg (by simp [ha]))),
      fun ha => (execAdpBind_binds h he).trans (congrArg _ (if_pos (by simp [ha])))⟩,
    fun c m data s h hu hx hs hclear hnew hfit => execSteerSet_flips h hu hx hs hclear hnew hfit⟩

end Sys2Proof.Machine
end

section
/-! Streams: their start, their blocks and port X (R145 to R149, R201). -/

namespace Sys2Proof.Machine

/-! ### WORK_LIST_DELIVERY (R201) -/

/-- A step whose work list is on every die is delivered: its dies accept the epoch, and its tokens and streams start. -/
def deliverStep (n : Fin 16) (p : Pan) (st : Step) (s : State) : State :=
  let s1 := (panDies s p).foldl (fun s d => readAdapters st p.logical.length d (acceptEpoch d st.epoch st.embVer s))
    (modStep st.epoch (fun x => { x with delivered := true }) s)
  let s2 := addWeightStreams n st (sendStep n st.epoch s1)
  match p.serving with
  | some g => addKvStreams n p g.cost st s2
  | none => s2

theorem execWorkListDelivery_delivers {n : Fin 16} {p : Pan} {st : Step} {s : State} (hp : getPan s n = some p)
    (hs : p.step.bind (findStep s) = some st) (hd : st.delivered = false) (ha : listArrived s p st.epoch = true) :
    execWorkListDelivery n s = .next (deliverStep n p st s) := by
  simp only [execWorkListDelivery, hp, hs]
  rw [if_neg (by simp [hd, ha])]
  rfl

/-! ### STREAM_BLOCK_ISSUE (R149) -/

/-- The next block of a stream is issued when its page is there; on a miss the stream halts with SAVED_POS. -/
def issueOrHalt (k : Nat) (t : Stream) (s : State) : State :=
  match missOf s t with
  | some (c, i, page, st, dst) => noteFault t c i page st dst (saveDesc t 0 0 (modStream k (fun t => { t with
      phase := .halted, firstRequest := t.firstRequest.orElse fun _ => some (dieCount s (t.dies.headD 0)) }) s))
  | none => if t.kv.isSome then issueBlock k t s
    else translate (storageKey s t.ctx (hIndex t.handle.toNat)).1 (storageKey s t.ctx (hIndex t.handle.toNat)).2
      ((t.offset + 65536 * t.issued) / 0x200000) (issueBlock k t s)

section
variable {k : Nat} {t : Stream} {s : State} (ht : getStream s k = some t) (hl : t.live s = true) (hr : t.phase = .running ∨ t.phase = .waiting)
  (hf : atFront s k t = true) (hb : blockReady s t = true) (hk : kvAway s t = false) (hi : t.issued < t.blocks)
include ht hl hr hf hb hk hi

/-- A block whose turn it is and whose flits are at hand goes by its page alone. -/
theorem execStreamBlockIssue_due : execStreamBlockIssue k s = .next (issueOrHalt k t s) := by
  have hrun : (decide (t.phase = .running) || decide (t.phase = .waiting)) = true := by simpa using hr
  simp only [execStreamBlockIssue, ht]
  rw [if_neg (by simp [hrun, hl, hf, hb, hk, hi])]
  rfl

theorem execStreamBlockIssue_kv (hm : missOf s t = none) (hv : t.kv.isSome = true) : execStreamBlockIssue k s = .next (issueBlock k t s) := by
  rw [execStreamBlockIssue_due ht hl hr hf hb hk hi, issueOrHalt, hm]
  exact congrArg _ (if_pos hv)

theorem execStreamBlockIssue_object (hm : missOf s t = none) (hv : t.kv.isSome = false) :
    let key := storageKey s t.ctx (hIndex t.handle.toNat)
    execStreamBlockIssue k s = .next (translate key.1 key.2 ((t.offset + 65536 * t.issued) / 0x200000) (issueBlock k t s)) := by
  rw [execStreamBlockIssue_due ht hl hr hf hb hk hi, issueOrHalt, hm]
  exact congrArg _ (if_neg (by simp [hv]))

theorem execStreamBlockIssue_miss {c : CtxId} {i page st : Nat} {dst : Bool} (hm : missOf s t = some (c, i, page, st, dst)) :
    execStreamBlockIssue k s = .next (noteFault t c i page st dst (saveDesc t 0 0 (modStream k (fun t => { t with
      phase := .halted, firstRequest := t.firstRequest.orElse fun _ => some (dieCount s (t.dies.headD 0)) }) s))) := by
  rw [execStreamBlockIssue_due ht hl hr hf hb hk hi, issueOrHalt, hm]

end

/-! ### STREAM_BLOCK_DONE (R145) -/

/-- The last mover of a copy writes block k. -/
theorem writeBlock_copy {n : Nat} {t : Stream} {k : Nat} {s : State} (hu : t.use ≠ .run) :
    let r := writeObj t.ctx (hIndex t.dstHandle.toNat) (t.dstOffset + 65536 * k) (t.arrived.take (t.blockLen k)) s
    writeBlock n t k s = if r.1 then
        finishStream n (modStream n (fun u => { u with done := u.done + t.blockLen k, arrived := u.arrived.drop (t.blockLen k) }) r.2)
      else failCopy n t (stNoSpace 0) r.2 := by
  rw [writeBlock, if_pos hu]

theorem writeBlock_read {n : Nat} {t : Stream} {k : Nat} {s : State} (hu : t.use = .run) (hk : t.kind ≠ 1) :
    writeBlock n t k s = finishStream n (modStream n (fun u => { u with done := u.done + t.blockLen k }) s) := by
  rw [writeBlock, if_neg (not_not.2 hu), if_neg hk]

/-- A WRITE to a near or far die that stays open counts the whole block. -/
theorem writeBlock_write {n : Nat} {t : Stream} {k : Nat} {s : State} (hu : t.use = .run) (hk : t.kind = 1) (hc : t.closing = false)
    (hn : (t.server s (65536 * k)).1 < 0x60) :
    writeBlock n t k s = finishStream n (modStream n (fun u => { u with arrived := [], asked := 0, done := u.done + t.blockLen k })
      (s.onMem fun m => { m with bytes := t.poke s (65536 * k) t.arrived m.bytes })) := by
  simp only [writeBlock, if_neg (not_not.2 hu), if_pos hk, if_pos hn, hc, Bool.false_and]
  rfl

section
variable {k : Nat} {t : Stream} {s : State} (ht : getStream s k = some t) (hl : t.live s = true) (hr : t.phase = .running ∨ t.phase = .halted)
include ht hl hr

omit ht in
theorem stream_goes_on : ¬(t.phase ≠ .running ∧ t.phase ≠ .halted ∨ (!t.live s) = true) := by
  rintro (⟨h1, h2⟩ | h)
  · exact hr.elim h1 h2
  · simp [hl] at h

theorem execStreamBlockDone_writes (hd : t.doneBlocks < t.issued) (ha : blockArrived s t t.doneBlocks = true) :
    execStreamBlockDone k s = .next (writeBlock k t t.doneBlocks s) := by
  simp only [execStreamBlockDone, ht, if_neg (stream_goes_on hl hr), if_pos (And.intro hd ha)]

/-- With every issued block written, the first mover sends one that a request waits for. -/
theorem execStreamBlockDone_sends (hd : t.doneBlocks = t.issued) (hu : t.use ≠ .run ∨ t.kind ≠ 1) (hq : t.read < t.asked) :
    execStreamBlockDone k s = .next (sendBlock k t t.read s) := by
  simp only [execStreamBlockDone, ht, if_neg (stream_goes_on hl hr), if_neg (fun h : t.doneBlocks < t.issued ∧ _ => absurd hd (Nat.ne_of_lt h.1)),
    if_pos (And.intro hu hq)]

end

/-! ### Port X (R29, R147) -/

section
variable {d : Fin 74} {port : Fin 8} {vq : Fin 4} {n : Nat} {f : Flit} {fs : List (Nat × Flit)} {s : State} (hn : dieOfPan s d = some n)
  (hf : tget [] (getDie s d).portOut port = (vq.val, f) :: fs)
include hn hf

theorem execPortxFlit_token (hk : f.kind.toNat = 1 ∨ f.kind.toNat = 2) : execPortxFlit d port vq s = .next (popX d port s) := by
  rcases hk with hk | hk <;> simp [execPortxFlit, hn, hf, hk]

theorem execPortxFlit_rake (hk : f.kind.toNat = 3) : execPortxFlit d port vq s = .next (bump (CFG_BITTERN_RAKEID d) (popX d port s)) := by
  simp [execPortxFlit, hn, hf, hk]

theorem execPortxFlit_data (hk : f.kind.toNat = 0 ∨ f.kind.toNat = 4) : execPortxFlit d port vq s = .next (dataAtX d port vq n f s) := by
  rcases hk with hk | hk <;> simp [execPortxFlit, hn, hf, hk]

end

theorem dataAtX_refused {d port vq n : Nat} {f : Flit} {s : State} (h : frontAt s n d port vq = none) :
    dataAtX d port vq n f s = present (panEvent s 0x0203 d n) (bump (ARR_BITTERN_PORTX d) (popX d port s)) := by
  simp only [dataAtX, h]

/-- The active WRITE takes a flit that it has room for; POISON counts as zeros. -/
theorem dataAtX_taken {d port vq n k : Nat} {f : Flit} {t : Stream} {s : State} (h : frontAt s n d port vq = some (k, t)) (hk : t.kind = 1)
    (hc : t.closing = false) (hl : t.live s = true) (hr : 0 < writeRoom s t) (hb : t.block.length < 64 * 2048) :
    dataAtX d port vq n f s = modStream k (fun t => { t with
      phase := if t.phase = .waiting then .running else t.phase
      block := t.block ++ leBytes 64 (if f.kind.toNat = 4 then 0 else f.payload.toNat) }) (popX d port s) := by
  have hpoison : f.kind = 4 ↔ f.kind.toNat = 4 := BitVec.toNat_inj.symm
  simp only [dataAtX, h, hpoison]
  rw [if_pos (by simp [hk, hc]), if_neg (by simp [hl]), if_pos hr, if_neg (Nat.not_le.2 hb)]

/-- Settles O26: a delivery, the issue of a block by its page, the end of a block by its stream's use and kind, and a flit at port X by its kind. -/
theorem streamCompletion : Obligations.StreamCompletion := by
  unfold Obligations.StreamCompletion
  refine ⟨fun n p st s hp hs hd ha => execWorkListDelivery_delivers hp hs hd ha,
    fun k t s ht hl hr hf hb hk hi => ⟨execStreamBlockIssue_kv ht hl hr hf hb hk hi, execStreamBlockIssue_object ht hl hr hf hb hk hi,
      fun c i page st dst hm => execStreamBlockIssue_miss ht hl hr hf hb hk hi hm⟩,
    fun k t s ht hl hr => ?_, fun d port vq n f fs s hn hf => ?_⟩
  · have hw := fun hd ha => execStreamBlockDone_writes ht hl hr hd ha
    exact ⟨fun hd ha hu => ⟨fun h => (hw hd ha).trans (congrArg _ ((writeBlock_copy hu).trans (if_neg (by simp [h])))),
        fun h => (hw hd ha).trans (congrArg _ ((writeBlock_copy hu).trans (if_pos h)))⟩,
      fun hd ha hu hk => (hw hd ha).trans (congrArg _ (writeBlock_read hu hk)),
      fun hd ha hu hk hc hn => (hw hd ha).trans (congrArg _ (writeBlock_write hu hk hc hn)),
      fun hd hu hq => execStreamBlockDone_sends ht hl hr hd hu hq⟩
  · exact ⟨execPortxFlit_token hn hf, execPortxFlit_rake hn hf,
      fun hk h => (execPortxFlit_data hn hf hk).trans (congrArg _ (dataAtX_refused h)),
      fun k t hk h h1 hc hl hr hb => (execPortxFlit_data hn hf hk).trans (congrArg _ (dataAtX_taken h h1 hc hl hr hb))⟩

end Sys2Proof.Machine
end

section
/-! Commands on embedding tables (R260, R261, R267, R271 to R273). -/

namespace Sys2Proof.Machine

/-- A command that may start does not run yet. -/
theorem not_running_of_starts {op : Nat} {c : CmdRef} {m : Cmd} {s : State} (h : Starts op c m s) : m.phase ≠ .running := by
  obtain ⟨_, _, hs, _⟩ := h
  intro hp
  simp [startable, hp] at hs

/-! ### EMB_TABLE_CREATE and EMB_VERSION_SWITCH (R260, R271) -/

/-- A FREE entry that the command names takes record 0. -/
theorem execEmbTableCreate_fills {c : CmdRef} {m : Cmd} {s : State} (h : Starts 0x0504 c m s) (he : m.f 0 0 10 ≠ 0x3FF)
    (h0 : (getEmb (markStarted m s) (m.f 0 0 10)).state = 0) (hr : createTableRefusal (markStarted m s) m = none) :
    execEmbTableCreate c s = .next (endOk m (m.f 0 0 10) 0 (modEmb (m.f 0 0 10) (fun _ => { EmbEntry.free with
      ctx := m.ctx, state := 1, shardShift := m.f 3 8 8, homes := createHomes m, r0 := createRec m 1 2 }) (markStarted m s))) := by
  simp only [execEmbTableCreate, startCmd_of_starts h, if_neg he, hr, if_pos h0]

/-- Record k is CURRENT and the one before it PREVIOUS; dies without a built step drop their copies. -/
def switchRec (e k : Nat) (s : State) : State :=
  let s1 := modEmb e (fun x => { (x.onVer x.current fun r => { r with vstate := 3 }).onVer k (fun r => { r with vstate := 2 }) with current := k }) s
  bump EMB_SWITCHES ((tkeys s1.arr.dies).foldl dropStale s1)

section
variable {c : CmdRef} {m : Cmd} {s : State} (h : Starts 0x0505 c m s) (hb : bit (m.p 0) 17 = false)
  (ht : tableRefusal (markStarted m s) m.ctx (m.f 0 0 10) = none)
include h hb ht

theorem execEmbVersionSwitch_switches (hs : (getEmb (markStarted m s) (m.f 0 0 10)).state = 1)
    (hv : ((getEmb (markStarted m s) (m.f 0 0 10)).ver (m.f 0 16 1)).vstate = 1
      ∨ ((getEmb (markStarted m s) (m.f 0 0 10)).ver (m.f 0 16 1)).vstate = 3) :
    execEmbVersionSwitch c s = .next (endOk m 0 0 (switchRec (m.f 0 0 10) (m.f 0 16 1) (markStarted m s))) := by
  rw [execEmbVersionSwitch, startHeld_of_starts h hb]
  simp only [ht]
  rw [if_neg (by rcases hv with hv | hv <;> simp [hs, hv])]
  rfl

/-- An EMPTY record, or the one that is CURRENT already, is refused. -/
theorem execEmbVersionSwitch_refused (hv : ((getEmb (markStarted m s) (m.f 0 0 10)).ver (m.f 0 16 1)).vstate = 0
      ∨ ((getEmb (markStarted m s) (m.f 0 0 10)).ver (m.f 0 16 1)).vstate = 2) :
    execEmbVersionSwitch c s = .next (endFail m (stBadParam 0x33) (markStarted m s)) := by
  rw [execEmbVersionSwitch, startHeld_of_starts h hb]
  simp only [ht]
  rw [if_pos (.inr hv)]

end

/-! ### EMB_MAINT_CHANGE (R273) -/

section
variable {c : CmdRef} {m : Cmd} {s : State} (h : Starts 0x0505 c m s) (hb : bit (m.p 0) 17 = true)
  (ht : tableRefusal (markStarted m s) m.ctx (m.f 0 0 10) = none) (hs : (getEmb (markStarted m s) (m.f 0 0 10)).state ≠ 0)
include h hb ht hs

theorem execEmbMaintChange_leaves (hm : bit (m.p 0) 18 = false) :
    execEmbMaintChange c s = .next (endOk m 0 0 (modEmb (m.f 0 0 10) (fun x => { x with state := 1 }) (markStarted m s))) := by
  simp only [execEmbMaintChange, h.1, if_neg (not_running_of_starts h)]
  rw [startHeld_of_starts h (by simp [hb])]
  simp only [ht]
  rw [if_neg hs, if_neg (by simp [hm])]

/-- MAINT is entered at once when no die keeps a copy. -/
theorem execEmbMaintChange_enters (hm : bit (m.p 0) 18 = true)
    (hd : ((dropTable (m.f 0 0 10) (markStarted m s)).arr.dies.any fun d => d.2.hot.any fun h => decide (h.entry = m.f 0 0 10)) = false) :
    execEmbMaintChange c s = .next (endOk m 0 0 (modEmb (m.f 0 0 10) (fun x => { x with state := 2, maintBy := none })
      (dropTable (m.f 0 0 10) (markStarted m s)))) := by
  simp only [execEmbMaintChange, h.1, if_neg (not_running_of_starts h)]
  rw [startHeld_of_starts h (by simp [hb])]
  simp only [ht]
  rw [if_neg hs, if_pos hm, if_neg (by simp [hd])]

end

/-! ### EMB_ROW_UPDATE (R272) -/

/-- Bytes of an update record of the record that the command names. -/
def updateSize (m : Cmd) (s : State) : Nat := 64 + ((getEmb s (m.f 0 0 10)).ver (m.f 0 16 1)).stride * 64

/-- The records of object o are applied in order; the command ends with what it wrote and dropped. -/
def endUpdate (m : Cmd) (o : Obj) (s : State) : State :=
  let x := getEmb s (m.f 0 0 10)
  let r := applyUpdates s x (x.ver (m.f 0 16 1)) o (m.f 2 0 32) 0 (0, 0) s
  if r.1.2.2 then endOk m r.1.1 r.1.2.1 r.2 else endWith m (stNoSpace 0) false r.1.1 r.1.2.1 r.2

theorem execEmbRowUpdate_applies {c : CmdRef} {m : Cmd} {o : Obj} {s : State} (h : Starts 0x0506 c m s)
    (ht : targetRefusal (markStarted m s) m = none) (ho0 : recordsOf s m (m.f 1 0 32) (m.f 2 0 32) (updateSize m s) = .inr o)
    (ho : recordsOf (markStarted m s) m (m.f 1 0 32) (m.f 2 0 32) (updateSize m s) = .inr o)
    (ha : rangeAway o 0 (m.f 2 0 32 * updateSize m s) = false)
    (hm : recMoving s (getEmb s (m.f 0 0 10)) ((getEmb s (m.f 0 0 10)).ver (m.f 0 16 1)) = false)
    (hrow : ((List.range (m.f 2 0 32)).any fun k => rowAway s (getEmb s (m.f 0 0 10)) ((getEmb s (m.f 0 0 10)).ver (m.f 0 16 1))
      (fieldAt (objBytes s o (k * updateSize m s) 4) 0 4)) = false) :
    execEmbRowUpdate c s = .next (endUpdate m o (markStarted m s)) := by
  rw [updateSize] at ho0 ho ha hrow
  have hsize : (getEmb (markStarted m s) (m.f 0 0 10)) = getEmb s (m.f 0 0 10) := rfl
  rw [execEmbRowUpdate]
  dsimp only
  rw [startHeld_of_starts h (by simp only [ho0, ha, hm, hrow, Bool.or_false, Bool.and_false])]
  simp only [ht, hsize, ho]
  rfl

/-! ### EMB_LOOKUP (R261, R267) -/

/-- Bags in the bag list that a lookup names, after the object's first word. -/
def bagCount (s : State) (l : Obj) : Nat := fieldAt (objBytes s (storageOf s l) 0 4) 0 4

/-- Every bag is pooled on die d as a slice of its own, and the pins of the slice go with it. -/
def endLookup (m : Cmd) (d : Nat) (l : Obj) (s : State) : State :=
  let n := bagCount s l
  let r := lookupBags s (storageOf s l) m d (m.f 0 0 10) n (List.range n)
    (modDie d (fun x => { x with rowUse := [], gathered := [m.f 0 0 10], embVer := embNow s }) s)
  let s1 := dropHot d (fun h => !h.replicated) r.2
  if r.1 then endOk m n 0 s1 else endWith m (stNoSpace 0) false 0 0 s1

/-- Host bags that a lookup may pool: the table is there, the list is whole and in form, and the output holds every row. -/
structure LookupChecked (m : Cmd) (l out : Obj) (s : State) : Prop where
  pan : panRefusal s m.ctx (m.f 0 16 4) = none
  table : tableRefusal s m.ctx (m.f 0 0 10) = none
  list : objFor s m (m.f 1 0 32) = some l
  output : objFor s m (m.f 1 32 32) = some out
  present : (getEmb s (m.f 0 0 10)).state ≠ 0
  writable : out.isReadOnly = false
  kept : (storageOf s l).lost = false
  listSize : 4 + 4 * bagCount s l ≤ (storageOf s l).size
  outputSize : bagCount s l * (ceilDiv ((getEmb s (m.f 0 0 10)).cur.dim * 4) 64 * 64) ≤ out.size
  bags : ((List.range (bagCount s l)).any fun b => decide (4096 < (lookupBag s (storageOf s l) (bagCount s l) b).length)) = false

theorem execEmbLookup_pools {c : CmdRef} {m : Cmd} {p : Pan} {l out : Obj} {s : State} (h : Starts 0x0507 c m s)
    (hp : getPan s (m.f 0 16 4) = some p) (hw : p.wave = none) (hr : p.run = none) (hs : p.step = none) (hl : p.load = none)
    (ha : lookupAway s m = false) (hc : LookupChecked m l out (markStarted m s)) :
    execEmbLookup c s = .next (endLookup m ((panDies (markStarted m s) p).headD 0) l (markStarted m s)) := by
  obtain ⟨hpan, htable, hlist, hout, hthere, hrw, hkept, hsize, hroom, hbags⟩ := hc
  have hp1 : getPan (markStarted m s) (m.f 0 16 4) = some p := hp
  have hfree : ∀ r : Option Status, (match r, some p with
      | none, some p => p.wave.isSome || p.run.isSome || p.step.isSome || p.load.isSome || lookupAway s m
      | _, _ => false) = false := by
    intro r
    cases r with
    | none => simp [hw, hr, hs, hl, ha]
    | some st => rfl
  rw [bagCount] at hsize hroom hbags
  rw [execEmbLookup, startHeld_of_starts h (by rw [hp]; exact hfree _)]
  simp only [hpan, htable, hlist, hout, hp1]
  rw [if_neg hthere, if_neg (by simp [hrw]), if_neg (by simp [hkept]), if_neg (not_or.2 ⟨Nat.not_lt.2 hsize, Nat.not_lt.2 hroom⟩),
    if_neg (by rw [hbags]; exact Bool.false_ne_true)]
  rfl

/-- Settles O28: each command on a table by what lets it start and by the checks that it passes. -/
theorem tableCompletion : Obligations.TableCompletion := by
  unfold Obligations.TableCompletion
  exact ⟨fun c m s h he h0 hr => execEmbTableCreate_fills h he h0 hr,
    fun c m s h hb ht => ⟨fun hs hv => execEmbVersionSwitch_switches h hb ht hs hv, fun hv => execEmbVersionSwitch_refused h hb ht hv⟩,
    fun c m s h hb ht hs => ⟨fun hm => execEmbMaintChange_leaves h hb ht hs hm, fun hm hd => execEmbMaintChange_enters h hb ht hs hm hd⟩,
    fun c m o s h _ ht ho0 ho ha hm hrow => execEmbRowUpdate_applies h ht ho0 ho ha hm hrow,
    fun c m p l out s h hp hw hr hs hl ha hpan ht hlist hout hthere hrw hkept hsize hroom hbags =>
      execEmbLookup_pools h hp hw hr hs hl ha ⟨hpan, ht, hlist, hout, hthere, hrw, hkept, hsize, hroom, hbags⟩⟩

end Sys2Proof.Machine
end

section
/-! Gradients, rows on the dies and exchange packets (R246, R265 to R271, R275, R276). -/

namespace Sys2Proof.Machine

/-! ### EMB_APPLY_GRAD (R275, R276) -/

/-- Whether a record's objects move is read from the contexts alone. -/
theorem recMoving_congr {s t : State} (h : s.ctxs = t.ctxs) (x : EmbEntry) (r : EmbRec) : recMoving s x r = recMoving t x r := by
  have hobj : getObj s = getObj t := by
    funext c i
    rw [getObj, getObj, getCtx, getCtx, h]
  simp only [recMoving, handleObj, storageOf, hobj]

/-- The gradient records of the object o that the command names. -/
def gradRecs (m : Cmd) (o : Obj) (s : State) : List GradRow :=
  (List.range (m.f 1 32 32)).map (gradRecord s o ((getEmb s (m.f 0 0 10)).ver (m.f 0 16 1)).dim)

/-- Those of them that their homes can take, merged by row. -/
def mergedGrads (m : Cmd) (o : Obj) (s : State) : List GradRow :=
  ((gradRecs m o s).filter fun g => !gradBad s (getEmb s (m.f 0 0 10)) ((getEmb s (m.f 0 0 10)).ver (m.f 0 16 1)) g).foldl (fun l g => mergeGrad g l) []

/-- The command's work at this home. -/
def gradWork (m : Cmd) (o : Obj) (s : State) : GradWork :=
  { cmd := m.ref, entry := m.f 0 0 10, epoch := m.p 3
    rows := (mergedGrads m o s).filter fun g => decide (rowHome (getEmb s (m.f 0 0 10)) g.row = chipId s)
    dropped := (gradRecs m o s).length
      - ((gradRecs m o s).filter fun g => !gradBad s (getEmb s (m.f 0 0 10)) ((getEmb s (m.f 0 0 10)).ver (m.f 0 16 1)) g).length
    since := s.tick }

/-- The rows of the other homes have left for them. -/
def shareGrads (m : Cmd) (o : Obj) (s : State) : State :=
  sendGrads (getEmb s (m.f 0 0 10)) (m.f 0 0 10) (m.p 3)
    ((mergedGrads m o s).filter fun g => !decide (rowHome (getEmb s (m.f 0 0 10)) g.row = chipId s))
    (bumpBy EMB_BITTERN_GRADDROP (gradWork m o s).dropped s)

theorem ctxs_shareGrads (m : Cmd) (o : Obj) (s : State) : (shareGrads m o s).ctxs = s.ctxs :=
  (sendGrads_within.ctxs rfl).trans (bumpBy_within.ctxs rfl)

/-- An epoch's gradients are applied once all homes have answered and the record stands still; until then the work waits. -/
def startGrads (m : Cmd) (o : Obj) (s : State) : State :=
  let t := shareGrads m o s
  if gradComplete t (gradWork m o s) && !recMoving t (getEmb s (m.f 0 0 10)) ((getEmb s (m.f 0 0 10)).ver (m.f 0 16 1)) then
    applyGrads m (gradWork m o s) t
  else t.onMdl fun d => { d with grads := d.grads ++ [gradWork m o s] }

section
variable {c : CmdRef} {m : Cmd} {o : Obj} {s : State} (h : Starts 0x0508 c m s) (ht : targetRefusal (markStarted m s) m = none)
  (ha : rangeAway (handleObj s m.ctx (m.f 1 0 32)) 0
    (m.f 1 32 32 * (64 + ceilDiv (((getEmb (markStarted m s) (m.f 0 0 10)).ver (m.f 0 16 1)).dim * 4) 64 * 64)) = false)
  (ho : recordsOf (markStarted m s) m (m.f 1 0 32) (m.f 1 32 32)
    (64 + ceilDiv (((getEmb (markStarted m s) (m.f 0 0 10)).ver (m.f 0 16 1)).dim * 4) 64 * 64) = .inr o)
include h ht ha ho

/-- An epoch that was applied before is only counted (R276). -/
theorem execEmbApplyGrad_again (he : m.p 3 ≤ (getEmb (markStarted m s) (m.f 0 0 10)).appliedGepoch) :
    execEmbApplyGrad c s = .next (endOk m 0 0 (bumpBy EMB_BITTERN_REGRAD (m.f 1 32 32) (markStarted m s))) := by
  simp only [execEmbApplyGrad, h.1, if_neg (not_running_of_starts h)]
  rw [startHeld_of_starts h ((congrArg _ ha).trans (Bool.and_false _))]
  simp only [ht, ho]
  rw [if_pos he]

theorem execEmbApplyGrad_applies (he : (getEmb (markStarted m s) (m.f 0 0 10)).appliedGepoch < m.p 3) :
    execEmbApplyGrad c s = .next (startGrads m o (markStarted m s)) := by
  rw [startGrads, recMoving_congr (ctxs_shareGrads m o _)]
  simp only [execEmbApplyGrad, h.1, if_neg (not_running_of_starts h)]
  rw [startHeld_of_starts h ((congrArg _ ha).trans (Bool.and_false _))]
  simp only [ht, ho]
  rw [if_neg (Nat.not_le.2 he)]
  rfl

end

/-- A command whose homes have not all answered in time ends, and what came for its epoch is dropped (R276). -/
theorem execGradWaitTimeout_drops {e : BitVec 10} {w : GradWork} {m : Cmd} {s : State}
    (hw : (s.mdl.grads.find? fun g => decide (g.entry = e.toNat)) = some w) (hg : gradComplete s w = false)
    (ht : w.since + msTicks (getFld s EMB_CTL 0 16) < s.tick) (hm : findCmd s w.cmd = some m) :
    execGradWaitTimeout e s = .next (endWith m (stFaultContained 0) false 0 0 (s.onMdl fun d => { d with
      grads := d.grads.filter fun g => !decide (g.cmd = w.cmd)
      gradIn := d.gradIn.filter fun g => !(decide (g.entry = w.entry) && decide (g.epoch = w.epoch)) })) := by
  have hm1 : ∀ f, findCmd (s.onMdl f) w.cmd = some m := fun _ => hm
  simp only [execGradWaitTimeout, hw, hm1]
  rw [if_neg (by simp [hg, ht])]

/-! ### ROW_FETCH_DONE (R265, R268) -/

/-- A fetched row reaches every tile that waits for it. -/
def deliverRow (d e row : Nat) (f : RowFetch) (s : State) : State :=
  f.waiting.foldl (fun s k => modTile d (k % 16) (k / 16) (fun t => { t with fetched := tput [] t.fetched row (f.arrived.getD []) }) s)
    (modDie d (fun x => { x with fetches := x.fetches.filter fun g => !(decide (g.entry = e) && decide (g.row = row)) }) s)

/-- How often the slice on die d has used the row. -/
def rowUses (s : State) (d e row : Nat) : Option Nat :=
  ((getDie s d).rowUse.find? fun u => decide (u.1 = e) && decide (u.2.1 = row)).map (·.2.2)

/-- A row of a READY table that the slice has used more than 64 times is pinned. -/
def pinRow (d e row : Nat) (f : RowFetch) (s t : State) : State :=
  if (getEmb s e).state = 1 ∧ 64 < (rowUses s d e row).getD 0 then
    addHot d { entry := e, version := BitVec.ofNat 8 (embRec s d e).version, row := row, replicated := false
               lastRead := dieBoundaries s d, bytes := f.arrived.getD [] } t
  else t

section
variable {d : Fin 74} {e : BitVec 10} {row : Nat} {f : RowFetch} {s : State}
  (hf : ((getDie s d).fetches.find? fun f => decide (f.entry = e.toNat) && decide (f.row = row)) = some f)
include hf

theorem execRowFetchDone_sends (hq : f.asked = true) (hs : f.sent = false) (ha : rowAway s (getEmb s e.toNat) (embRec s d e.toNat) row = false) :
    execRowFetchDone d e row s = .next (sendRow d e.toNat row (getEmb s e.toNat) s) := by
  simp only [execRowFetchDone, hf]
  rw [if_pos (by simp [hq, hs]), if_neg (by simp [ha])]

theorem execRowFetchDone_delivers (hs : f.sent = true) (hb : (embRec s d e.toNat).stride * 64 ≤ (f.arrived.getD []).length) :
    execRowFetchDone d e row s = .next (pumpDie d (pinRow d e.toNat row f s (deliverRow d e.toNat row f s))) := by
  simp only [execRowFetchDone, hf]
  rw [if_neg (by simp [hs]), if_neg (by simp [hs, hb])]
  rfl

end

/-! ### HOT_ROW_REPLICATE and HOT_COPY_EVICT (R269 to R271) -/

/-- The rows that the reports of a pan's dies name more than 64 times in sum. -/
def hotRows (reports : List HotReport) : List Nat := (dedup (reports.map (·.row))).filter fun i => decide (64 < reportSum i reports)

/-- The dies of the reports' pan that have gathered from the table. -/
def hotDies (e : Nat) (reports : List HotReport) (s : State) : List Nat :=
  (s.arr.dies.filter fun d => d.2.gathered.contains e && decide (dieOfPan s d.1 = reports.head?.bind (reportPan s))).map (·.1)

/-- The hot rows are copied into every die that gathers, and the counts of the step are done with. -/
def replicateRows (e : Nat) (reports : List HotReport) (s : State) : State :=
  let x := getEmb s e
  let dies := hotDies e reports s
  dies.foldl (fun s p => modDie p (fun d => { d with
      rowUse := d.rowUse.filter fun u => !decide (u.1 = e), gathered := d.gathered.filter fun k => !decide (k = e) }) s)
    ((hotRows reports).foldl (fun s i =>
      let b := rowBytes s x x.cur i
      dies.foldl (fun s p => addHot p { entry := e, version := BitVec.ofNat 8 x.cur.version, row := i, replicated := true
                                        lastRead := dieBoundaries s p, bytes := b } s) s) (bumpBy EMB_HOT_ROWS (hotRows reports).length s))

theorem execHotRowReplicate_replicates {e : BitVec 10} {reports : List HotReport} {s : State}
    (hr : (reports.all fun r => reportTrue s e.toNat r && decide (reportPan s r = reports.head?.bind (reportPan s))
      && dieAtBoundary s (physDie s r.die)) = true)
    (hs : (getEmb s e.toNat).state = 1) (hn : (reports.any fun r => decide (256 < (reports.filter fun q => decide (q.die = r.die)).length)) = false)
    (ha : (hotRows reports).any (rowAway s (getEmb s e.toNat) (getEmb s e.toNat).cur) = false) :
    execHotRowReplicate e reports s = .next (replicateRows e.toNat reports s) := by
  rw [hotRows] at ha
  rw [execHotRowReplicate]
  dsimp only
  rw [if_neg]
  · rfl
  · rintro (h | h | h | h)
    · rw [hr] at h; exact Bool.false_ne_true h
    · exact h hs
    · rw [hn] at h; exact Bool.false_ne_true h
    · rw [ha] at h; exact Bool.false_ne_true h

theorem execHotCopyEvict_evicts {d : Fin 74} {e : BitVec 10} {row : Nat} {s : State} (h : dieAtBoundary s d = true) :
    execHotCopyEvict d e row s = .next (dropHot d (fun h => decide (h.entry = e.toNat) && decide (h.row = row)
      && (decide (h.lastRead + 16 ≤ dieBoundaries s d) || decide (h.version.toNat ≠ (getEmb s e.toNat).cur.version))) s) := by
  rw [execHotCopyEvict]
  exact congrArg _ (if_neg (by simp [h]))

/-! ### EXCHANGE_PACKET (R246) -/

section
variable {d : Fin 74} {port : Fin 8} {vq : Fin 4} {hdr : ExchangeHdr} {fs : List Flit} {s : State}

theorem execExchangePacket_stale (h : (getDie s d).accepting ≠ some hdr.stepEpoch.toNat) :
    execExchangePacket d port vq hdr fs s = .next (bump (ARR_MOE_BITTERN_STALE d) s) := by
  rw [execExchangePacket]
  exact congrArg _ (if_pos h)

variable (h : (getDie s d).accepting = some hdr.stepEpoch.toNat)
include h

theorem execExchangePacket_data (hp : hdr.phase ≠ 2) :
    execExchangePacket d port vq hdr fs s = .next (deliverX d port vq fs (modDie d (fun x => { x with
      exchange := modExchange hdr hdr.phase.toNat (fun r => { r with rows := r.rows + hdr.tokens.toNat }) x.exchange }) s)) := by
  rw [execExchangePacket]
  exact congrArg _ ((if_neg (not_not.2 h)).trans (if_neg hp))

/-- The end marker closes its sender's phase; a COUNT other than the rows that came is a fault. -/
def closePhase (d : Fin 74) (port : Fin 8) (vq : Fin 4) (hdr : ExchangeHdr) (s : State) : State :=
  let ph := openPhase hdr (getDie s d).exchange
  let s1 := modDie d (fun x => { x with exchange := modExchange hdr ph (fun r => { r with ended := true }) x.exchange }) s
  let got := ((getDie s1 d).exchange.find? fun r => decide (r.layer = hdr.layer.toNat) && decide (r.source = exchangeSource hdr)
    && decide (r.phase = ph)).map (·.rows)
  let x := streamTiles.getD port (7, 0)
  if got = some hdr.count.toNat then s1 else present (tileEvent s1 0x0106 d x.1 x.2 (16 + vq.val) 0) s1

theorem execExchangePacket_end (hp : hdr.phase = 2) : execExchangePacket d port vq hdr fs s = .next (closePhase d port vq hdr s) := by
  rw [execExchangePacket]
  exact congrArg _ ((if_neg (not_not.2 h)).trans (if_pos hp))

end

/-- Settles O29: gradients by their epoch, rows by where their fetch stands, hot copies at a boundary, and packets by epoch and phase. -/
theorem rowCompletion : Obligations.RowCompletion := by
  unfold Obligations.RowCompletion
  exact ⟨fun c m o s h _ ht ha ho => ⟨fun he => execEmbApplyGrad_again h ht ha ho he, fun he => execEmbApplyGrad_applies h ht ha ho he⟩,
    fun e w m s hw hg ht hm => execGradWaitTimeout_drops hw hg ht hm,
    fun d e row f s hf => ⟨fun hq hs ha => execRowFetchDone_sends hf hq hs ha, fun hs hb => execRowFetchDone_delivers hf hs hb⟩,
    fun e reports s hr hs hn ha => execHotRowReplicate_replicates hr hs hn ha,
    fun d e row s h => execHotCopyEvict_evicts h,
    fun d port vq hdr fs s => ⟨fun h => execExchangePacket_stale h, fun h hp => execExchangePacket_data h hp, fun h hp => execExchangePacket_end h hp⟩⟩

end Sys2Proof.Machine
end
